-- ==== Sys2Proof/Word.lean ====
section
/-! DEFINITION. The word types of the model: bytes, 32-bit register elements, 64-bit registers. -/

namespace Sys2Proof

/-- A byte of a memory structure (R4: little-endian everywhere). -/
abbrev Byte := BitVec 8
/-- One thread's view of a vector register, or a scalar register (R61). -/
abbrev W32 := BitVec 32
/-- A register-page register, a predicate, a mask or a 64-bit pair (R10, R61). -/
abbrev W64 := BitVec 64

end Sys2Proof
end

