-- ==== Sys2Proof/Machine/Bits.lean ====
section
/-! DEFINITION. Plain-data helpers every other file uses: sparse maps in canonical form, byte memories,
little-endian numbers, bit fields, saturating counts. -/

namespace Sys2Proof.Machine

/-! ### Sparse maps: a key reads as the default unless it is listed -/

/-- What a sparse map holds at a key. -/
def mget {α : Type} (d : α) : List (Nat × α) → Nat → α
  | [], _ => d
  | (j, v) :: m, k => if j = k then v else mget d m k

/-- The map without a key. -/
def merase {α : Type} (m : List (Nat × α)) (k : Nat) : List (Nat × α) :=
  m.filter (fun p => p.1 != k)

/-- Insert before the first larger key. -/
def minsert {α : Type} (k : Nat) (v : α) : List (Nat × α) → List (Nat × α)
  | [] => [(k, v)]
  | (j, w) :: m => if k < j then (k, v) :: (j, w) :: m else (j, w) :: minsert k v m

/-- Write a key, keeping the canonical form: a value equal to the default is not listed. -/
def mset {α : Type} [DecidableEq α] (d : α) (m : List (Nat × α)) (k : Nat) (v : α) : List (Nat × α) :=
  if v = d then merase m k else minsert k v (merase m k)

/-- The canonical form: keys strictly rising, no entry equal to the default. -/
def mwf {α : Type} [DecidableEq α] (d : α) (m : List (Nat × α)) : Bool :=
  decide (m.Pairwise (fun a b => a.1 < b.1)) && m.all (fun p => decide (p.2 ≠ d))

/-- The listed entries whose key satisfies a test are dropped. -/
def mdrop {α : Type} (m : List (Nat × α)) (f : Nat → Bool) : List (Nat × α) :=
  m.filter (fun p => !f p.1)

/-! ### Sparse sets of numbers, sorted -/

def sadd (k : Nat) : List Nat → List Nat
  | [] => [k]
  | j :: m => if k < j then k :: j :: m else if k = j then j :: m else j :: sadd k m

def sdel (k : Nat) (m : List Nat) : List Nat := m.filter (fun j => j != k)

/-! ### Byte memories -/

/-- A byte memory lists the bytes that differ from zero; what an unlisted address reads as is
`Mem.unlisted` (DESIGN CHOICE, log entry 3). -/
abbrev Mem := List Host.Cell

def Mem.unlisted : Byte := 0

def Mem.read (m : Mem) (a : Nat) : Byte := mget Mem.unlisted m a
def Mem.write (m : Mem) (a : Nat) (b : Byte) : Mem := mset Mem.unlisted m a b
def Mem.wf (m : Mem) : Bool := mwf Mem.unlisted m

/-- `n` bytes from `a` as a little-endian number (R4). -/
def Mem.readLE (m : Mem) (a : Nat) : Nat → Nat
  | 0 => 0
  | n + 1 => (m.read a).toNat + 256 * Mem.readLE m (a + 1) n

/-- The low `n` bytes of a number at `a`, little-endian (R4). -/
def Mem.writeLE (m : Mem) (a : Nat) : Nat → Nat → Mem
  | 0, _ => m
  | n + 1, v => Mem.writeLE (m.write a (BitVec.ofNat 8 v)) (a + 1) n (v / 256)

/-- The bytes listed from `a` on. -/
def Mem.readBytes (m : Mem) (a n : Nat) : List Byte := (List.range n).map (fun i => m.read (a + i))

def Mem.writeBytes (m : Mem) (a : Nat) : List Byte → Mem
  | [] => m
  | b :: bs => Mem.writeBytes (m.write a b) (a + 1) bs

/-- Every byte of `[a, a+n)` back to what an unlisted address reads as. -/
def Mem.clear (m : Mem) (a n : Nat) : Mem := mdrop m (fun k => decide (a ≤ k) && decide (k < a + n))

/-- A list without its repeats, in the order of their first occurrence. -/
def dedup (l : List Nat) : List Nat := l.foldl (fun r k => if r.contains k then r else r ++ [k]) []

/-- A list of bytes as a little-endian number, and back. -/
def leNat : List Byte → Nat
  | [] => 0
  | b :: bs => b.toNat + 256 * leNat bs

def leBytes : Nat → Nat → List Byte
  | 0, _ => []
  | n + 1, v => BitVec.ofNat 8 v :: leBytes n (v / 256)

/-! ### Bit fields of numbers -/

/-- Bits `[hi:lo]` of a number. -/
def bits (v hi lo : Nat) : Nat := v / 2 ^ lo % 2 ^ (hi + 1 - lo)

/-- One bit of a number. -/
def bit (v i : Nat) : Bool := v.testBit i

/-- `v` with bits `[hi:lo]` replaced by the low bits of `x`. -/
def setBits (v hi lo x : Nat) : Nat :=
  v % 2 ^ lo + x % 2 ^ (hi + 1 - lo) * 2 ^ lo + v / 2 ^ (hi + 1) * 2 ^ (hi + 1)

/-- The two's-complement reading of the low `w` bits. -/
def sext (w v : Nat) : Int :=
  let x := v % 2 ^ w
  if 2 * x < 2 ^ w then (x : Int) else (x : Int) - (2 ^ w : Nat)

/-- The low `w` bits of the two's-complement form of an integer. -/
def ofInt (w : Nat) (x : Int) : Nat := (x % ((2 ^ w : Nat) : Int)).toNat

def boolNat (b : Bool) : Nat := if b then 1 else 0

/-- Add to a count that stops at `2^w - 1`. -/
def satAdd (w a b : Nat) : Nat := min (a + b) (2 ^ w - 1)

/-- The positions of the set bits of a 64-bit mask, rising. -/
def maskBits (m : W64) : List Nat := (List.range 64).filter (fun i => m.getLsbD i)

/-- The mask whose bits are those positions below 64 that satisfy `f`. -/
def maskOf (f : Nat → Bool) : W64 :=
  BitVec.ofNat 64 ((List.range 64).foldl (fun acc i => if f i then acc + 2 ^ i else acc) 0)

def popcount (w v : Nat) : Nat := ((List.range w).filter (fun i => v.testBit i)).length

/-- The last `n` entries of a list: what a store of `n` entries keeps when the oldest make room. -/
def keepLast {α : Type} (n : Nat) (l : List α) : List α := l.drop (l.length - n)

/-- R234, R603: not-recently-used choice among candidate ways with their reference bits: the first, from the rotating
pointer, whose bit is clear; when every bit is set, all count as clear. -/
def nruPick (ways rot : Nat) (cand : List (Nat × Bool)) : Option Nat :=
  let all := cand.all Prod.snd
  ((List.range ways).map (fun i => (rot + i) % ways)).find? (fun w => cand.any (fun p => p.1 == w && (all || !p.2)))

/-- R10, R433: the accesses that BAR0 and BAR2 accept. -/
def bar0Access (off size : Nat) : Bool := (size == 8 && off % 8 == 0) || (size == 4 && off % 4 == 0)

/-- Replace the element at a position of a list. -/
def lset {α : Type} (l : List α) (i : Nat) (v : α) : List α := l.set i v

/-- The first element of a list satisfying a test, and the list without it. -/
def takeFirst {α : Type} (f : α → Bool) : List α → Option (α × List α)
  | [] => none
  | x :: xs => if f x then some (x, xs) else (takeFirst f xs).map (fun p => (p.1, x :: p.2))

end Sys2Proof.Machine
end

