-- ==== Sys2Proof/Machine/Formats.lean ====
section
/-! DEFINITION. The thirteen element formats, rounding, conversions and WES-320 sums
(spec/02_formats_and_exact_sums.md, R20 to R58). Every value is exact: a finite number is `m * 2^e`. -/

namespace Sys2Proof.Machine

/-- The element formats of Table 2-1 and the two register-only types of Table 4-3. -/
inductive Fmt
  | int32 | u32 | i64 | fp64 | fp32 | fp16 | bf16 | e5m2 | e4m3 | e3m2 | e2m3 | e2m1 | int8 | int4 | wes
  deriving DecidableEq, Repr

/-- Table 4-3: the type code T. Code 0xF is illegal. -/
def Fmt.ofCode : Nat → Option Fmt
  | 0 => some .int32 | 1 => some .u32 | 2 => some .i64 | 3 => some .fp64 | 4 => some .fp32
  | 5 => some .fp16 | 6 => some .bf16 | 7 => some .e5m2 | 8 => some .e4m3 | 9 => some .e3m2
  | 10 => some .e2m3 | 11 => some .e2m1 | 12 => some .int8 | 13 => some .int4 | 14 => some .wes
  | _ => none

/-- Width of one element in bits (Table 2-1; U32 and I64 of Table 4-3). -/
def Fmt.width : Fmt → Nat
  | .int32 | .u32 | .fp32 => 32
  | .i64 | .fp64 => 64
  | .fp16 | .bf16 => 16
  | .e5m2 | .e4m3 | .int8 => 8
  | .e3m2 | .e2m3 => 6
  | .e2m1 | .int4 => 4
  | .wes => 320

/-- Exponent and mantissa widths, bias, which specials exist, and the encodings of Table 2-2. -/
structure FloatP where
  ebits : Nat
  mbits : Nat
  bias : Int
  hasInf : Bool
  hasNaN : Bool
  maxEnc : Nat
  infEnc : Nat
  nanEnc : Nat
  deriving DecidableEq, Repr

/-- Tables 2-1 and 2-2. -/
def Fmt.float? : Fmt → Option FloatP
  | .fp64 => some ⟨11, 52, 1023, true, true, 0x7FEFFFFFFFFFFFFF, 0x7FF0000000000000, 0x7FF8000000000000⟩
  | .fp32 => some ⟨8, 23, 127, true, true, 0x7F7FFFFF, 0x7F800000, 0x7FC00000⟩
  | .bf16 => some ⟨8, 7, 127, true, true, 0x7F7F, 0x7F80, 0x7FC0⟩
  | .fp16 => some ⟨5, 10, 15, true, true, 0x7BFF, 0x7C00, 0x7E00⟩
  | .e5m2 => some ⟨5, 2, 15, true, true, 0x7B, 0x7C, 0x7E⟩
  | .e4m3 => some ⟨4, 3, 7, false, true, 0x7E, 0x7F, 0x7F⟩
  | .e3m2 => some ⟨3, 2, 3, false, false, 0x1F, 0, 0⟩
  | .e2m3 => some ⟨2, 3, 1, false, false, 0x1F, 0, 0⟩
  | .e2m1 => some ⟨2, 1, 1, false, false, 0x7, 0, 0⟩
  | _ => none

def Fmt.isInt : Fmt → Bool
  | .int32 | .u32 | .i64 | .int8 | .int4 => true
  | _ => false

def Fmt.isFloat (f : Fmt) : Bool := f.float?.isSome

/-- Rounding modes of Table 2-3, by RM code. -/
inductive RMode | rn | rz | ru | rd
  deriving DecidableEq, Repr

def RMode.ofCode : Nat → RMode
  | 0 => .rn | 1 => .rz | 2 => .ru | _ => .rd

/-- Saturating, or not (`.nosat` for floating-point destinations, `.wrap` for integers; R33, R40). -/
inductive SatMode | sat | nosat
  deriving DecidableEq, Repr

/-- The exact value of an element: `fin m e` is `m * 2^e` with `m` nonzero. -/
inductive FVal
  | nan
  | inf (neg : Bool)
  | zero (neg : Bool)
  | fin (m : Int) (e : Int)
  deriving DecidableEq, Repr

/-- A finite number `m * 2^e`, with the sign a zero takes. -/
def FVal.mk (m e : Int) (zneg : Bool) : FVal := if m = 0 then .zero zneg else .fin m e

def FVal.isNeg : FVal → Bool
  | .nan => false
  | .inf n => n
  | .zero n => n
  | .fin m _ => decide (m < 0)

/-- R21, R25: the value of an encoding of a float format. -/
def FloatP.decode (p : FloatP) (x : Nat) : FVal :=
  let m := x % 2 ^ p.mbits
  let e := x / 2 ^ p.mbits % 2 ^ p.ebits
  let neg := x.testBit (p.mbits + p.ebits)
  let sg : Int := if neg then -1 else 1
  if p.hasInf && e == 2 ^ p.ebits - 1 then
    if m == 0 then .inf neg else .nan
  else if p.hasNaN && !p.hasInf && x % 2 ^ (p.mbits + p.ebits) == p.nanEnc then .nan
  else if e == 0 then FVal.mk (sg * m) (1 - p.bias - p.mbits) neg
  else .fin (sg * (2 ^ p.mbits + m : Nat)) ((e : Int) - p.bias - p.mbits)

/-- Two's-complement or unsigned reading of an integer format. -/
def Fmt.intVal (f : Fmt) (x : Nat) : Int :=
  match f with
  | .u32 => (x % 2 ^ 32 : Nat)
  | _ => sext f.width x

/-- The exact value of an encoding of a format narrower than WES-320. -/
def Fmt.decode (f : Fmt) (x : Nat) : FVal :=
  match f.float? with
  | some p => p.decode x
  | none => FVal.mk (f.intVal x) 0 false

/-- floor(log2 |m|) of a nonzero integer. -/
def ilog2 (m : Int) : Nat := m.natAbs.log2

/-- Whether a value rounded down to a multiple `q` (floor) with a remainder goes up to `q + 1`.
`half` compares the remainder with half a quantum. -/
def RMode.up (rm : RMode) (q : Int) (neg inexact : Bool) (half : Ordering) : Bool :=
  match rm with
  | .rd => false
  | .ru => inexact
  | .rz => inexact && neg
  | .rn => match half with
    | .lt => false
    | .gt => true
    | .eq => q % 2 != 0

/-- `m * 2^e` as a multiple of `2^k`, rounded once (Table 2-3). -/
def roundAt (rm : RMode) (m e k : Int) : Int :=
  if k ≤ e then m * 2 ^ (e - k).toNat
  else
    let d : Int := 2 ^ (k - e).toNat
    let q := m.fdiv d
    let r := m.fmod d
    if rm.up q (decide (m < 0)) (decide (r ≠ 0)) (compare (2 * r) d) then q + 1 else q

/-- What a rounding answers: the bits, and whether a NaN was replaced by zero (R27) or
INEXACT_WIDE was set (R51). -/
structure Rounded where
  bits : Nat
  nanDrop : Bool := false
  wide : Bool := false
  deriving DecidableEq, Repr

/-- Table 2-4 with R34: the magnitude and sign of an overflow. -/
def FloatP.overflow (p : FloatP) (rm : RMode) (sm : SatMode) (neg : Bool) : Nat :=
  let s := if neg then 2 ^ (p.mbits + p.ebits) else 0
  let toInf := match rm with
    | .rn => true | .rz => false | .ru => !neg | .rd => neg
  match sm with
  | .sat => s + p.maxEnc
  | .nosat =>
    if !p.hasInf && !p.hasNaN then s + p.maxEnc
    else if toInf then (if p.hasInf then s + p.infEnc else p.nanEnc)
    else s + p.maxEnc

/-- The exponent of the smallest subnormal of a float format. -/
def FloatP.kmin (p : FloatP) : Int := 1 - p.bias - p.mbits

/-- Round a finite nonzero `m * 2^e` to a float format (R32 to R35). A magnitude of `n` quanta
above the smallest subnormal encodes as itself, so carries walk through the exponent. -/
def FloatP.roundFin (p : FloatP) (rm : RMode) (sm : SatMode) (m e : Int) : Nat :=
  let neg := decide (m < 0)
  let k := max p.kmin ((ilog2 m : Int) + e - p.mbits)
  let q := roundAt rm m e k
  let enc := (k - p.kmin).toNat * 2 ^ p.mbits + q.natAbs
  if p.maxEnc < enc then p.overflow rm sm neg
  else enc + (if neg then 2 ^ (p.mbits + p.ebits) else 0)

/-- R38: any value into a float format. -/
def FloatP.round (p : FloatP) (rm : RMode) (sm : SatMode) (v : FVal) : Rounded :=
  let s : Bool → Nat := fun neg => if neg then 2 ^ (p.mbits + p.ebits) else 0
  match v with
  | .nan => if p.hasNaN then { bits := p.nanEnc } else { bits := 0, nanDrop := true }
  | .inf neg => if p.hasInf then { bits := s neg + p.infEnc } else { bits := p.overflow rm sm neg }
  | .zero neg => { bits := s neg }
  | .fin m e => { bits := p.roundFin rm sm m e }

/-- Smallest and largest value of an integer type. -/
def Fmt.range : Fmt → Int × Int
  | .u32 => (0, 2 ^ 32 - 1)
  | f => (-(2 ^ (f.width - 1)), 2 ^ (f.width - 1) - 1)

/-- Keep an integer inside a type (`.sat`), or keep its low bits (`.wrap`). -/
def Fmt.fromInt (f : Fmt) (sm : SatMode) (x : Int) : Nat :=
  match sm with
  | .nosat => ofInt f.width x
  | .sat => ofInt f.width (max f.range.1 (min f.range.2 x))

/-- R39, R40: any value into an integer type. -/
def Fmt.roundInt (f : Fmt) (rm : RMode) (sm : SatMode) (v : FVal) : Rounded :=
  match v with
  | .nan => { bits := 0, nanDrop := true }
  | .inf neg => { bits := ofInt f.width (if neg then f.range.1 else f.range.2) }
  | .zero _ => { bits := 0 }
  | .fin m e => { bits := f.fromInt sm (roundAt rm m e 0) }

/-- Round an exact value into a destination format narrower than WES-320. -/
def Fmt.round (f : Fmt) (rm : RMode) (sm : SatMode) (v : FVal) : Rounded :=
  match f.float? with
  | some p => p.round rm sm v
  | none => f.roundInt rm sm v

/-- R36 to R40: a conversion rounds at most once, directly from the source value. -/
def convert (src dst : Fmt) (rm : RMode) (sm : SatMode) (x : Nat) : Rounded :=
  dst.round rm sm (src.decode x)

/-- The canonical NaN of a format that has one, else zero (R26, R27). -/
def Fmt.nan (f : Fmt) : Nat :=
  match f.float? with
  | some p => if p.hasNaN then p.nanEnc else 0
  | none => 0

/-! ### Exact arithmetic on values -/

/-- Exact sum of `m1*2^e1` and `m2*2^e2` as a dyadic. -/
def dyAdd (m1 e1 m2 e2 : Int) : Int × Int :=
  if e1 ≤ e2 then (m1 + m2 * 2 ^ (e2 - e1).toNat, e1)
  else (m1 * 2 ^ (e1 - e2).toNat + m2, e2)

/-- Compare `m1*2^e1` with `m2*2^e2`. -/
def dyCmp (m1 e1 m2 e2 : Int) : Ordering := compare (dyAdd m1 e1 (-m2) e2).1 0

def FVal.neg : FVal → FVal
  | .nan => .nan
  | .inf n => .inf (!n)
  | .zero n => .zero (!n)
  | .fin m e => .fin (-m) e

/-- R35: exact sum, with the sign IEEE 754 gives a zero. -/
def FVal.add (rm : RMode) (a b : FVal) : FVal :=
  match a, b with
  | .nan, _ => .nan
  | _, .nan => .nan
  | .inf x, .inf y => if x = y then .inf x else .nan
  | .inf x, _ => .inf x
  | _, .inf y => .inf y
  | .zero x, .zero y => .zero (if x = y then x else decide (rm = .rd))
  | .zero _, v => v
  | v, .zero _ => v
  | .fin m1 e1, .fin m2 e2 =>
    let s := dyAdd m1 e1 m2 e2
    FVal.mk s.1 s.2 (decide (rm = .rd))

/-- Exact product; a zero takes the exclusive OR of the signs, 0 × ∞ is a NaN. -/
def FVal.mul (a b : FVal) : FVal :=
  let neg := a.isNeg != b.isNeg
  match a, b with
  | .nan, _ => .nan
  | _, .nan => .nan
  | .inf _, .zero _ => .nan
  | .zero _, .inf _ => .nan
  | .inf _, _ => .inf neg
  | _, .inf _ => .inf neg
  | .zero _, _ => .zero neg
  | _, .zero _ => .zero neg
  | .fin m1 e1, .fin m2 e2 => .fin (m1 * m2) (e1 + e2)

/-- Multiply by a power of two (block scales, R29; `ldexp`). -/
def FVal.scale (a : FVal) (k : Int) : FVal :=
  match a with
  | .fin m e => .fin m (e + k)
  | v => v

/-- Order of two values that are not NaN, with −0 below +0 when `zeros` is set. -/
def FVal.cmp (zeros : Bool) (a b : FVal) : Ordering :=
  let key : FVal → Int × Int × Int := fun v => match v with
    | .inf true => (-1, 0, 0) | .inf false => (1, 0, 0) | .fin m e => (0, m, e) | _ => (0, 0, 0)
  let ka := key a
  let kb := key b
  match compare ka.1 kb.1 with
  | .eq =>
    match dyCmp ka.2.1 ka.2.2 kb.2.1 kb.2.2 with
    | .eq => match a, b with
      | .zero x, .zero y => if zeros && x != y then (if x then .lt else .gt) else .eq
      | _, _ => .eq
    | o => o
  | o => o

/-! ### Block scales (R28 to R31) -/

/-- R29: an element under its E8M0 scale; 0xFF makes it a NaN. -/
def scaleBy (x : Nat) (v : FVal) : FVal := if x = 255 then .nan else v.scale ((x : Int) - 127)

/-- R31: the exponent of the destination's largest power of two. -/
def Fmt.emax : Fmt → Int
  | .e5m2 => 15 | .e4m3 => 8 | .e3m2 => 4 | .e2m3 => 2 | .e2m1 => 2 | .int8 => 6 | .int4 => 2
  | _ => 0

/-- floor(log2 a) of the largest magnitude among finite values; none when all are zero. -/
def maxLog2 (vs : List FVal) : Option Int :=
  vs.foldl (fun acc v => match v with
    | .fin m e =>
      let l := (ilog2 m : Int) + e
      match acc with
      | none => some l
      | some a => some (max a l)
    | _ => acc) none

/-- R31: the scale byte derived for a block. -/
def deriveScale (dst : Fmt) (vs : List FVal) : Nat :=
  if vs.any (fun v => match v with | .nan => true | .inf _ => true | _ => false) then 255
  else match maxLog2 vs with
    | none => 127
    | some l => (max 0 (min 254 (l - dst.emax + 127))).toNat

/-! ### WES-320 (R41 to R58) -/

/-- The special values of Table 2-6, [310:308]. -/
inductive Special | finite | posInf | negInf | nan
  deriving DecidableEq, Repr

/-- A WES-320 value (R41, R42): F is the 288-bit significand, W the window exponent. -/
structure Wes where
  f : Int := 0
  w : Int := 0
  empty : Bool := true
  sticky : Bool := false
  wide : Bool := false
  overflow : Bool := false
  special : Special := .finite
  pinned : Bool := false
  deriving DecidableEq, Repr

/-- The empty floating sum. -/
def Wes.zero : Wes := {}

def Special.code : Special → Nat
  | .finite => 0 | .posInf => 1 | .negInf => 2 | .nan => 3

def Special.ofCode : Nat → Special
  | 0 => .finite | 1 => .posInf | 2 => .negInf | _ => .nan

/-- Table 2-6. -/
def Wes.encode (a : Wes) : Nat :=
  ofInt 288 a.f + 2 ^ 288 * ofInt 16 a.w + 2 ^ 304 * boolNat a.empty + 2 ^ 305 * boolNat a.sticky
  + 2 ^ 306 * boolNat a.wide + 2 ^ 307 * boolNat a.overflow + 2 ^ 308 * a.special.code
  + 2 ^ 311 * boolNat a.pinned

/-- Table 2-6; reserved bits are ignored on input. -/
def Wes.decode (x : Nat) : Wes :=
  { f := sext 288 (bits x 287 0), w := sext 16 (bits x 303 288), empty := bit x 304, sticky := bit x 305,
    wide := bit x 306, overflow := bit x 307, special := Special.ofCode (bits x 310 308), pinned := bit x 311 }

/-- Table 2-2: the canonical NaN; all other bits zero except PINNED. -/
def Wes.canonNaN (pinned : Bool) : Wes :=
  { f := 0, w := 0, empty := false, special := .nan, pinned := pinned }

/-- R43: a value as a contribution. -/
def Wes.ofVal (v : FVal) : Wes :=
  match v with
  | .nan => { Wes.zero with empty := false, special := .nan }
  | .inf n => { Wes.zero with empty := false, special := if n then .negInf else .posInf }
  | .zero _ => Wes.zero
  | .fin m e =>
    let w := (ilog2 m : Int) + e
    let sh := e + 255 - w
    { f := if 0 ≤ sh then m * 2 ^ sh.toNat else m.fdiv (2 ^ (-sh).toNat), w := w, empty := false }

/-- R47: two special values together; `finite` is the neutral one. -/
def Special.join : Special → Special → Special
  | .finite, b => b
  | a, .finite => a
  | .posInf, .posInf => .posInf
  | .negInf, .negInf => .negInf
  | _, _ => .nan

/-- Shift right toward −∞ and say whether a nonzero bit was discarded. -/
def shiftDown (f : Int) (n : Nat) : Int × Bool := (f.fdiv (2 ^ n), decide (f.fmod (2 ^ n) ≠ 0))

/-- R45 step 3: how many times a sum is shifted right by one while it does not fit 257 bits. -/
def normShift (s : Int) : Nat := ilog2 (if 0 ≤ s then s else -s - 1) + 1 - 256

/-- R45: the floating sum of two values; a NaN is canonical (R26). DESIGN CHOICE (log entry 70), where the spec is silent:
OVERFLOW is carried along; a sum that is an infinity holds F = 0, the greater W, the STICKY flags ORed and EMPTY clear; when
both are EMPTY the first one's W stays; an operand's INEXACT_WIDE stays only where the sum is that operand; W that would
exceed 32,767 stays there. -/
def Wes.addFloat (a b : Wes) : Wes :=
  let sp := a.special.join b.special
  let ov := a.overflow || b.overflow
  let st := a.sticky || b.sticky
  if sp = .nan then Wes.canonNaN false
  else if b.empty && b.special == .finite then { a with sticky := st, overflow := ov, pinned := false }
  else if a.empty && a.special == .finite then { b with sticky := st, overflow := ov, pinned := false }
  else if sp ≠ .finite then { f := 0, w := max a.w b.w, empty := false, sticky := st, overflow := ov, special := sp, pinned := false }
  else
    let w := max a.w b.w
    let sa := shiftDown a.f (w - a.w).toNat
    let sb := shiftDown b.f (w - b.w).toNat
    let s := sa.1 + sb.1
    let n := shiftDown s (normShift s)
    let w' := w + normShift s
    { f := n.1, w := if w' > 32767 then 32767 else w', empty := false,
      sticky := a.sticky || b.sticky || sa.2 || sb.2 || n.2,
      overflow := ov || decide (w' > 32767), special := .finite, pinned := false }

/-- R48: a contribution added into a pinned value, W unchanged. EMPTY is cleared by a finite B that is not zero (R42); a NaN
is canonical (R26). -/
def Wes.addPinned (p b : Wes) : Wes :=
  let sp := p.special.join b.special
  let ov := p.overflow || b.overflow
  let st := p.sticky || b.sticky
  if sp = .nan then Wes.canonNaN p.pinned
  else if b.special ≠ .finite then { p with special := sp, overflow := ov, sticky := st }
  else if (b.empty || b.f = 0) && !b.sticky then { p with overflow := ov }
  else
    let d := b.w - p.w
    let al : Int × Bool := if 0 ≤ d then (b.f * 2 ^ d.toNat, false) else shiftDown b.f (-d).toNat
    if 2 ^ 256 ≤ al.1.natAbs then { p with overflow := true, sticky := st || al.2, empty := false }
    else { p with f := sext 288 (ofInt 288 (p.f + al.1)), sticky := st || al.2, overflow := ov, empty := false }

/-- R42: what kind of value a WES-320 value is, when it is not finite. DESIGN CHOICE (log entry 70): the rule's first two
sentences disagree about an infinity with OVERFLOW set; it is a NaN here. -/
def Wes.notFinite (a : Wes) : Option FVal :=
  match a.special with
  | .posInf => if a.overflow then some .nan else some (.inf false)
  | .negInf => if a.overflow then some .nan else some (.inf true)
  | .nan => some .nan
  | .finite => if a.overflow then some .nan else none

/-- The exponent below which a destination has no bit. -/
def Fmt.kmin (f : Fmt) : Int :=
  match f.float? with
  | some p => p.kmin
  | none => 0

/-- R51, R35: round a WES-320 value to a destination narrower than WES-320. ε is taken two bits below both the
smallest step of the destination and bit 0 of F, so it acts as an arbitrarily small positive amount. -/
def Wes.round (a : Wes) (dst : Fmt) (rm : RMode) (sm : SatMode) : Rounded :=
  match a.notFinite with
  | some v => dst.round rm sm v
  | none =>
    let e := a.w - 255
    let f := if a.empty && !a.sticky then 0 else a.f
    if !a.sticky then dst.round rm sm (FVal.mk f e (decide (rm = .rd)))
    else
      let j := max 2 (e - dst.kmin + 2).toNat
      let r1 := dst.round rm sm (FVal.mk (f * 2 ^ j + 1) (e - j) false)
      let r2 := dst.round rm sm (FVal.mk ((f + 2 ^ 31) * 2 ^ j - 1) (e - j) false)
      { r1 with wide := decide (r1.bits ≠ r2.bits) }

/-- The exact value of an element of any format as a contribution. -/
def contribution (f : Fmt) (x : Nat) : Wes :=
  match f with
  | .wes => Wes.decode x
  | f => Wes.ofVal (f.decode x)

end Sys2Proof.Machine
end

