-- ==== Sys2Proof/Operand.lean ====
section
/-! DEFINITION. What the commands carry: an instruction word for a group, a coherence message of
spec/09_shelf_cache_coherence.md, and the numbers that name a unit. All plain data. -/

namespace Sys2Proof

namespace Machine

/-- Who runs an entry: a stream of a command, or a table of a tide domain (R340, R369, R370). -/
inductive Src
  | cmd (ctx queue idx : Nat)
  | dom (slot table : Nat)
  deriving DecidableEq, Repr

/-- A firmware image slot (R538, R540). -/
structure Slot where
  valid : Bool := true
  svn : Nat := 0
  minor : Nat := 0
  major : Nat := 1
  commit : Bool := false
  deriving DecidableEq, Repr

end Machine

/-- An instruction presented to a group slot of a logical core: word 0 and, when LG is 1, the extension
word X (R89). The table row says which opcode it is; the word gives every other field. -/
structure IWord where
  core : Nat
  slot : Nat
  w : W64
  x : W64
  deriving DecidableEq, Repr

/-- Message types of Table 9-3. -/
inductive MTy
  | getS | getM | upg | putM | putO | putE | putS | snoopRd | atomFar
  | fwdGetS | fwdGetM | inv
  | data | dataExcl | invAck | putAck | nack | atomResp
  deriving DecidableEq, Repr

/-- Operations of an AtomFar (Table 9-5). -/
inductive AOp | add | min | max | and | or | xor | xchg | cas | wes | write
  deriving DecidableEq, Repr

/-- A release tag (R197): scope, releasing core, block slot, group slot. -/
structure RelTag where
  scope : Nat
  core : Nat
  blk : Nat
  slot : Nat
  deriving DecidableEq, Repr

/-- A coherence message (Tables 9-2 to 9-5). `mask`, `aux` and `flags` hold what Table 9-3 gives the
type; `data` is the payload in ascending sector order; the last fields are AtomFar's word 2 and operands. -/
structure Msg where
  ty : MTy
  dst : Nat
  src : Nat
  req : Nat := 0
  txn : Nat := 0
  mask : Nat := 0
  aux : Nat := 0
  flags : Nat := 0
  commons : Bool := false
  cove : Nat := 0
  line : Nat := 0
  dirty : Nat := 0
  poison : Nat := 0
  tag : Option RelTag := none
  data : List Byte := []
  op : AOp := .write
  fmt : Machine.Fmt := .int32
  offset : Nat := 0
  ret : Bool := false
  ops : List (Nat × Nat) := []
  deriving DecidableEq, Repr

/-! FLAGS bits of Table 9-3, by message type. -/
def Msg.fHELD : Nat := 0
def Msg.fSONLY : Nat := 1
def Msg.fPRIO : Nat := 2
def Msg.fEBB : Nat := 3
def Msg.fSNP : Nat := 4
def Msg.fOWNER : Nat := 5
def Msg.fFWD : Nat := 0
def Msg.fFROMOWNER : Nat := 1
def Msg.fCONT : Nat := 2
def Msg.fPUT : Nat := 0
def Msg.fNOTHELD : Nat := 1
def Msg.fGHOST : Nat := 4
def Msg.fOUTER : Nat := 0

def Msg.has (m : Msg) (f : Nat) : Bool := m.flags.testBit f

/-- A BAR0 register write (R10, R571, R573): the function it comes through (none is the PF, `some c` the VF of cove
`c`), the BAR0 offset, the bytes of the access, and the value. -/
structure RegW where
  vf : Option Nat
  off : Nat
  size : Nat
  val : Nat
  deriving DecidableEq, Repr

/-- What a start-up stage finds (Tables 19-1 and 19-5): self-test failures (dies, slices, routers), lane groups
that fail, channels that fail training and stacks not present, the carrier record, the edge ports and expanders
found, the boot outcome of each image slot, the random draws for the key slots and the identity data read. -/
structure StageIn where
  badDies : List Nat := []
  badSlices : List Nat := []
  badGroups : List Nat := []
  badChans : List Nat := []
  noStacks : List Nat := []
  serials : List (Nat × Nat) := []
  fru : Nat := 0
  carrier : Nat := 0
  links : List (Nat × Nat) := []
  expanders : List (Nat × Nat × Nat) := []
  imgOk : List Bool := [true, true]
  identity : List (Nat × List Byte) := []
  listBad : Bool := false
  fault : Bool := false
  deriving DecidableEq, Repr

/-- What CMIS reads from a cable (R422): whether it answers, its power, and the TWP_CABLE value. -/
structure Cable where
  answers : Bool
  watts : Nat
  value : Nat
  deriving DecidableEq, Repr

/-- The partner's IDENT message (R406). -/
structure Ident where
  serial : Nat
  coord : Nat
  sizes : Nat
  port : Nat
  stepping : Nat
  deriving DecidableEq, Repr

/-- What the scheduler measured since the last boundary (R474): core-µs and engine-µs by context, core-µs by command. -/
structure Charge where
  ctx : Nat
  coreUs : Nat
  engineUs : Nat
  cmds : List (Nat × Nat × Nat) := []
  deriving DecidableEq, Repr

/-- A cove's measurements over 10 ms (R486): T and the interference core-µs by class MESH, COMMONS, ENGINE, TIDEWAY, EDGE. -/
structure Slow where
  cove : Nat
  t : Nat
  mesh : Nat
  commons : Nat
  engine : Nat
  tideway : Nat
  edge : Nat
  deriving DecidableEq, Repr

end Sys2Proof
end

