-- ==== Sys2Proof/Syntax.lean ====
section
/-! DEFINITION. The commands of the block: one constructor per row of spec/opcode_table.json, in the table's order.
The table gives no operand fields; the operands are what the rule the row names lets the sender or the surroundings
choose (log entry 2). -/

namespace Sys2Proof

inductive Instr
  /-- NOP_INSTRUCTION (R101): The ALU nop instruction issues and does nothing. -/
  | nopInstruction (i : IWord)
  /-- MOV (R101): Copies a vector or scalar register, or a pair, to the destination. -/
  | mov (i : IWord)
  /-- MOV_SV (R104): Reads a system value of Table 3-4 into a register or pair. -/
  | movSv (i : IWord)
  /-- SEL (R101): Selects A or B per thread according to predicate C. -/
  | sel (i : IWord)
  /-- ADD (R596): Integer or floating-point addition, rounded once with R33 overflow and R35 signed zeros. -/
  | add (i : IWord)
  /-- SUB (R596): Integer or floating-point subtraction. -/
  | sub (i : IWord)
  /-- MUL (R596): Integer low-half or floating-point multiplication. -/
  | mul (i : IWord)
  /-- MULHI (R101): Writes the high 32 bits of an integer product. -/
  | mulhi (i : IWord)
  /-- FMA (R596): Fused multiply-add A×B+C, rounded once; integer mad for integer types. -/
  | fma (i : IWord)
  /-- MIN (R596): Minimum with -0 below +0; a NaN operand gives the canonical NaN. -/
  | min (i : IWord)
  /-- MAX (R596): Maximum with -0 below +0; a NaN operand gives the canonical NaN. -/
  | max (i : IWord)
  /-- ABS (R596): Absolute value; floating point changes only the sign bit. -/
  | abs (i : IWord)
  /-- NEG (R596): Negation; floating point changes only the sign bit. -/
  | neg (i : IWord)
  /-- AND (R101): Bitwise AND. -/
  | and (i : IWord)
  /-- OR (R101): Bitwise OR. -/
  | or (i : IWord)
  /-- XOR (R101): Bitwise XOR. -/
  | xor (i : IWord)
  /-- NOT (R101): Bitwise complement. -/
  | not (i : IWord)
  /-- SHL (R597): Shifts left by B modulo the width. -/
  | shl (i : IWord)
  /-- SHR (R597): Logical shift right with zero fill. -/
  | shr (i : IWord)
  /-- SAR (R597): Arithmetic shift right replicating the top bit. -/
  | sar (i : IWord)
  /-- POPC (R101): Population count. -/
  | popc (i : IWord)
  /-- CLZ (R101): Count of leading zeros. -/
  | clz (i : IWord)
  /-- BREV (R101): Bit reversal. -/
  | brev (i : IWord)
  /-- CMP (R96): Compares under a condition code and writes a predicate. -/
  | cmp (i : IWord)
  /-- CVT (R102): Converts between formats under R36 to R40 with the selected rounding and saturation. -/
  | cvt (i : IWord)
  /-- SHFL (R103): Gives each thread the A value of a source thread chosen by MODE. -/
  | shfl (i : IWord)
  /-- VOTE (R103): vote.any, vote.all or vote.ballot writes a mask from a predicate. -/
  | vote (i : IWord)
  /-- MAND (R101): Mask AND into m1-m3. -/
  | mand (i : IWord)
  /-- MOR (R101): Mask OR into m1-m3. -/
  | mor (i : IWord)
  /-- MXOR (R101): Mask XOR into m1-m3. -/
  | mxor (i : IWord)
  /-- MNOT (R101): Mask complement into m1-m3. -/
  | mnot (i : IWord)
  /-- MOV_PM (R101): Copies a predicate into a mask register. -/
  | movPm (i : IWord)
  /-- MOV_MP (R101): Copies a mask into a predicate. -/
  | movMp (i : IWord)
  /-- POPC_M (R101): Counts the set bits of a mask into a scalar. -/
  | popcM (i : IWord)
  /-- LD (R98): Device-memory load, optionally acquire or ebb, translated before the group issues again. -/
  | ld (i : IWord)
  /-- ST (R98): Device-memory store, optionally release. -/
  | st (i : IWord)
  /-- LD_SP (R99): Scratchpad load of the block's region. -/
  | ldSp (i : IWord)
  /-- ST_SP (R99): Scratchpad store to the block's region. -/
  | stSp (i : IWord)
  /-- LD_SHELF (R194): Load from the cove's shelf-scratch window at its slice. -/
  | ldShelf (i : IWord)
  /-- ST_SHELF (R194): Store to the cove's shelf-scratch window at its slice. -/
  | stShelf (i : IWord)
  /-- LD_CONST (R83): Load through the constant cache, one cycle per distinct word. -/
  | ldConst (i : IWord)
  /-- ATOM_ADD (R206): Atomic add, near or far, with combining within the group. -/
  | atomAdd (i : IWord)
  /-- ATOM_MIN (R206): Atomic minimum. -/
  | atomMin (i : IWord)
  /-- ATOM_MAX (R206): Atomic maximum. -/
  | atomMax (i : IWord)
  /-- ATOM_AND (R205): Atomic bitwise AND. -/
  | atomAnd (i : IWord)
  /-- ATOM_OR (R205): Atomic bitwise OR. -/
  | atomOr (i : IWord)
  /-- ATOM_XOR (R205): Atomic bitwise XOR. -/
  | atomXor (i : IWord)
  /-- ATOM_XCHG (R205): Atomic exchange. -/
  | atomXchg (i : IWord)
  /-- ATOM_CAS (R105): Atomic compare and swap. -/
  | atomCas (i : IWord)
  /-- ATOM_WES (R106): Pinned WES-320 addition into a 40-byte target at its home. -/
  | atomWes (i : IWord)
  /-- FENCE (R190): fence.acqrel holds the group until earlier memory instructions are performed at the scope. -/
  | fence (i : IWord)
  /-- INV_RO (R82): Invalidates the named read-only caches of the issuing core. -/
  | invRo (i : IWord)
  /-- MX_BEGIN (R132): Opens a matrix region and records the mask. -/
  | mxBegin (i : IWord)
  /-- MX_END (R142): Holds the group until the region's matrix work has finished, then closes it. -/
  | mxEnd (i : IWord)
  /-- MMA (R119): Queues a tile multiply-accumulate into an accumulator tile. -/
  | mma (i : IWord)
  /-- MX_DRAIN (R135): Rounds a tile once into scratchpad. -/
  | mxDrain (i : IWord)
  /-- MX_ZERO (R138): Returns a tile to its initial state. -/
  | mxZero (i : IWord)
  /-- MX_SAVE (R139): Writes a tile image to scratchpad. -/
  | mxSave (i : IWord)
  /-- MX_LOAD (R139): Reads a tile image from scratchpad into a tile. -/
  | mxLoad (i : IWord)
  /-- MX_EXECUTE_END (R144): A matrix instruction's execute stage ends, freeing its queue entry and admitting the next. -/
  | mxExecuteEnd (core : Nat)
  /-- EL_RUN (R163): Runs a chisel program over element streams. -/
  | elRun (i : IWord)
  /-- EL_COMPRESS (R169): Compresses the masked elements into a dense stream. -/
  | elCompress (i : IWord)
  /-- EL_EXPAND (R170): Expands a dense stream back into masked positions. -/
  | elExpand (i : IWord)
  /-- EL_REDUCE (R172): Forms one WES-320 sum per row and writes it. -/
  | elReduce (i : IWord)
  /-- EL_LUT (R174): Looks up table entries by index. -/
  | elLut (i : IWord)
  /-- EL_WAIT (R154): Holds the group until its earlier engine instructions have finished. -/
  | elWait (i : IWord)
  /-- EL_FINISH (R163): An engine instruction's tail ends and all its bytes are written. -/
  | elFinish (core : Nat)
  /-- BRA (R74): Conditional or uniform branch with divergence handling on the reconvergence stack. -/
  | bra (i : IWord)
  /-- BRX (R76): Indirect branch that peels off one target per execution. -/
  | brx (i : IWord)
  /-- CALL (R110): Writes the return address and jumps. -/
  | call (i : IWord)
  /-- RET (R110): Jumps to the address in a scalar pair. -/
  | ret (i : IWord)
  /-- EXIT (R77): Removes threads from the live mask; the last group ending frees the block's resources. -/
  | exit (i : IWord)
  /-- BAR_BLK (R80): Block barrier, acting as fence.acqrel.blk for each group. -/
  | barBlk (i : IWord)
  /-- WAIT_LAND (R378): Holds the group until the named landing slot is FULL. -/
  | waitLand (i : IWord)
  /-- SLEEP_HINT (R110): Tells the power controller the cycles until the group's next event. -/
  | sleepHint (i : IWord)
  /-- BRK (R110): Raises BREAKPOINT if any thread is active under the guard. -/
  | brk (i : IWord)
  /-- BLOCK_START (R599): A core places its next block once it fits, clearing registers, scratchpad and tiles. -/
  | blockStart (core : Nat)
  /-- SPLIT_CHANGE (R219): An idle core changes its array split, evicting or invalidating ways. -/
  | splitChange (core : Nat)
  /-- SECTOR_FILL (R232): Sector data reaches a miss register, is written, and is delivered to its waiters. -/
  | sectorFill (core : Nat) (sector : Nat)
  /-- REPLAY_QUEUE_SERVE (R231): An access in the replay queue is served when a miss register or waiter entry frees. -/
  | replayQueueServe (core : Nat)
  /-- GETS (R261): The home accepts a GetS and serves, forwards or queues it. -/
  | getS (m : Msg)
  /-- GETM (R261): The home accepts a GetM and serves, forwards or invalidates. -/
  | getM (m : Msg)
  /-- UPG (R269): The home accepts an Upg, including grant-ahead for an awaited owner. -/
  | upg (m : Msg)
  /-- PUTM (R274): The home receives a PutM with dirty sectors. -/
  | putM (m : Msg)
  /-- PUTO (R274): The home receives a PutO with dirty sectors. -/
  | putO (m : Msg)
  /-- PUTE (R274): The home receives a PutE. -/
  | putE (m : Msg)
  /-- PUTS (R274): The home receives a PutS, with or without EBB. -/
  | putS (m : Msg)
  /-- SNOOPRD (R264): A non-allocating snoop read at the home. -/
  | snoopRd (m : Msg)
  /-- ATOMFAR (R265): A far atomic or non-allocating WRITE executed at the home's atomic unit. -/
  | atomFar (m : Msg)
  /-- FWDGETS (R262): An L1 receives a FwdGetS and sends data to the requester. -/
  | fwdGetS (m : Msg)
  /-- FWDGETM (R262): An L1 receives a FwdGetM and hands over its line. -/
  | fwdGetM (m : Msg)
  /-- INV (R273): An L1 receives an Inv and answers with InvAck. -/
  | inv (m : Msg)
  /-- DATA (R262): An L1 or agent receives Data and fills sectors or completes its transaction. -/
  | data (m : Msg)
  /-- DATAEXCL (R261): An L1 receives DataExcl granting E or M. -/
  | dataExcl (m : Msg)
  /-- INVACK (R276): The home receives an InvAck and may complete a transient state. -/
  | invAck (m : Msg)
  /-- PUTACK (R273): An L1 receives PutAck and frees the way. -/
  | putAck (m : Msg)
  /-- NACK (R259): An L1 or engine receives Nack and schedules a resend. -/
  | nack (m : Msg)
  /-- NACK_RESEND (R259): After 64×k network cycles the Nacked request is resent, with PRIO from the eighth. -/
  | nackResend (node : Nat) (txn : Nat)
  /-- ATOMRESP (R209): AtomResp returns old values and the contention bit. -/
  | atomResp (m : Msg)
  /-- MEMORY_DATA (R266): Memory data reaches a home in H_MEM and the request resumes. -/
  | memoryData (slice : Nat) (line : Nat)
  /-- EBB_ACTION (R289): When the line is idle the slice discards it and enters a ghost or degrades. -/
  | ebbAction (slice : Nat) (line : Nat)
  /-- UE_RETRY (R316): An uncorrectable burst is read again 64 ns later and used or poisoned. -/
  | ueRetry (ch : Nat) (burst : Nat) (outcome : Nat)
  /-- SCRUB_READ (R318): A channel scrubber reads its next burst and corrects or poisons it. -/
  | scrubRead (ch : Nat) (outcome : Nat)
  /-- CLEARING_END (R320): A channel's clearing under the new owner's key ends and the assignment completes. -/
  | clearingEnd (ch : Nat)
  /-- WALK (R313): A page walk reads table entries and ends in a translation or TRANSLATE. -/
  | walk (core : Nat) (va : Nat)
  /-- ATS_INVALIDATE_REQUEST (R428): A host ATS Invalidate Request is answered after every access using the entry completes. -/
  | atsInvalidateRequest (port : Nat) (cove : Nat) (addr : Nat) (bytes : Nat)
  /-- EXPANDER_LINK_FAILURE (R329): An expander link fails; reads return poison and writes drop until next start. -/
  | expanderLinkFailure (slot : Nat)
  /-- OCC_UPDATES (R339): At each 1 ms interval routers report occupancy and the distance table is updated. -/
  | occUpdates (occ : List (Nat × Nat))
  /-- SYNC_RESEND (R337): A synchronization message with a bad CRC is resent 12 cycles later. -/
  | syncResend (router : Nat)
  /-- ENTRY_ISSUE (R345): A tile entry issues once its tick has come and all credits are present. -/
  | entryIssue (src : Machine.Src)
  /-- SEAL_CHECK (R344): The tap checks an assembled entry's seal and delivers, uses the mirror, or poisons. -/
  | sealCheck (src : Machine.Src) (num : Nat)
  /-- LANDING (R373): A landing message reaches a slot and moves it FREE to FILLING or FULL. -/
  | landing (core : Nat) (slot : Nat)
  /-- RED_ALLOCATION (R350): The reduction allocator grants all chunk slots of a tree at once. -/
  | redAllocation (src : Machine.Src) (num : Nat)
  /-- CHUNK_COMBINE (R352): A router combines a chunk once all operands have arrived and forwards or writes it. -/
  | chunkCombine (src : Machine.Src) (num : Nat) (router : Nat) (chunk : Nat)
  /-- SYNC_SEND (R362): At each counter multiple of 64 the module sends SYNC and the root distributes the counter. -/
  | syncSend
  /-- HOLDOVER (R363): No upstream SYNC for 2 periods moves an ALIGNED module to HOLDOVER. -/
  | holdover
  /-- UNALIGNED (R363): HOLDOVER_LIMIT sync periods in HOLDOVER move the module to UNALIGNED. -/
  | unaligned
  /-- START_CHECK_SEND (R383): One window before T0 a module sends START_CHECK to its named neighbours. -/
  | startCheckSend (slot : Nat)
  /-- EPOCH_REACHED (R384): At T0 an ARMED domain becomes RUNNING or aborts for missing checks. -/
  | epochReached (slot : Nat)
  /-- HOLD_BOUNDARY (R386): At its hold boundary a module stops engines and cores and saves the domain. -/
  | holdBoundary (slot : Nat)
  /-- RESUME_TICK (R387): At Tr a restored domain resumes issuing. -/
  | resumeTick (slot : Nat)
  /-- TIDE_STALL (R388): A wait.land waiting WAIT_LIMIT windows raises TIDE_STALL and ends the domain. -/
  | tideStall (core : Nat) (slot : Nat)
  /-- CREDIT_STALL (R388): An entry waiting WAIT_LIMIT windows for credits ends the domain. -/
  | creditStall (slot : Nat) (table : Nat)
  /-- RED_STALL (R417): A torus-reduction member waiting too long for RED_READY or a chunk ends the domain or command. -/
  | redStall (src : Machine.Src)
  /-- CREDIT (R376): A slot credit reaches its owner, or a partner port via a trailer CREDIT word. -/
  | credit (owner : Nat) (core : Nat) (slot : Nat)
  /-- LINK_COPY (R414): A COPY link entry issues and sends its bytes to a slot. -/
  | linkCopy (slot : Nat) (table : Nat)
  /-- LINK_RED (R417): A RED link entry starts a torus reduction. -/
  | linkRed (slot : Nat) (table : Nat)
  /-- NETRED (R370): A NETRED link entry starts a network reduction. -/
  | netred (slot : Nat) (table : Nat)
  /-- LINK_MARK (R370): A MARK link entry sets a slot flag after earlier entries are performed. -/
  | linkMark (slot : Nat) (table : Nat)
  /-- FRAME (R408): A Tideway frame is received, CRC-checked, delivered in order or NAKed. -/
  | frame (port : Nat) (bytes : List Byte)
  /-- REPLAY_TIMEOUT (R409): No acknowledgement for REPLAY_TIMEOUT starts a replay from the oldest frame. -/
  | replayTimeout (port : Nat)
  /-- RECOVER (R410): The RECOVER lane test ends, sparing a lane or retraining. -/
  | recover (port : Nat) (errs : List Nat)
  /-- DETECT (R422): A cable is present; CMIS is read and training begins. -/
  | detect (port : Nat) (cable : Cable)
  /-- NO_CABLE (R422): Cable removal sends the port DOWN. -/
  | noCable (port : Nat)
  /-- EQUALIZE (R402): Per-lane link training ends and ALIGN begins. -/
  | equalize (port : Nat)
  /-- ALIGN (R406): Lane qualification, spare choice and frame lock end. -/
  | align (port : Nat) (errs : List Nat)
  /-- IDENTIFY (R406): The IDENT exchange checks cabling and accepts or sends DOWN MISWIRED. -/
  | identify (port : Nat) (id : Ident)
  /-- LATENCY (R407): Latency probes end; the pinned latency is stored and the port becomes ACTIVE. -/
  | latency (port : Nat) (ps : Int) (margins : Nat)
  /-- TRAINING_LIMIT (R406): A training state exceeding its limit sends the port DOWN. -/
  | trainingLimit (port : Nat)
  /-- DOWN_RETRY (R406): Every 10 s a DOWN port retries training from DETECT. -/
  | downRetry (port : Nat)
  /-- FORCE_RETRAIN (R406): Writing TWP_CFG.FORCE_RETRAIN starts training from DETECT. -/
  | forceRetrain (w : RegW)
  /-- LAND (R414): A LAND message arrives and is landed in the destination core's slot. -/
  | land (port : Nat)
  /-- MARK (R414): A MARK message arrives and sets a slot flag. -/
  | mark (port : Nat)
  /-- RED_READY (R417): A neighbour's RED_READY arrives and its DHASH is checked. -/
  | redReady (port : Nat)
  /-- RED_CHUNK (R419): A torus-reduction chunk arrives and is added or forwarded. -/
  | redChunk (port : Nat)
  /-- PEER_WRITE (R421): A PEER_WRITE is forwarded or performed and answered. -/
  | peerWrite (port : Nat)
  /-- PEER_ACK (R421): A PEER_ACK returns to the copying module. -/
  | peerAck (port : Nat)
  /-- PEER_WRITE_WAIT (R421): A PEER_WRITE waiting 10 ms for a non-ACTIVE port ends its command. -/
  | peerWriteWait (port : Nat)
  /-- SYNC (R362): A SYNC in a trailer is timestamped and corrects the offset. -/
  | sync (port : Nat) (arrive : Int)
  /-- HOLD (R386): A HOLD message is received and flooded; the module holds at a boundary. -/
  | hold (port : Nat)
  /-- ABORT (R390): An ABORT message ends the domain on this module. -/
  | abort (port : Nat)
  /-- START_CHECK (R383): A START_CHECK is received and compared. -/
  | startCheck (port : Nat)
  /-- DOORBELL (R433): A doorbell write updates SQ_TAIL and CQ_HEAD. -/
  | doorbell (vf : Option Nat) (off size : Nat) (val : Nat)
  /-- SQ_FETCH (R434): The device fetches submitted descriptors when a CQ entry is free. -/
  | sqFetch (ctx : Nat) (q : Nat)
  /-- QUEUE_ENABLE (R433): Setting Q_CFG.ENABLE starts the queue afresh. -/
  | queueEnable (w : RegW)
  /-- QUEUE_RESUME (R437): Q_CFG.RESUME clears HALTED and RING_FAULT and retries a held record. -/
  | queueResume (w : RegW)
  /-- NOP (R438): The NOP command completes. -/
  | nop (ctx : Nat) (q : Nat) (idx : Nat)
  /-- LAUNCH (R444): Validates a launch record and places its grid. -/
  | launch (ctx : Nat) (q : Nat) (idx : Nat)
  /-- COPY (R445): Copies and converts between buffers by copy engine. -/
  | copy (ctx : Nat) (q : Nat) (idx : Nat)
  /-- FILL (R445): Fills a buffer with one element value. -/
  | fill (ctx : Nat) (q : Nat) (idx : Nat)
  /-- PEER_COPY (R446): Copies to another module by PEER_WRITE. -/
  | peerCopy (ctx : Nat) (q : Nat) (idx : Nat)
  /-- SPINDLE_STREAM (R447): Starts a spindle stream. -/
  | spindleStream (ctx : Nat) (q : Nat) (idx : Nat)
  /-- REDUCE (R447): Starts a network reduction. -/
  | reduce (ctx : Nat) (q : Nat) (idx : Nat)
  /-- TORUS_REDUCE (R448): Runs a torus reduction outside a tide program. -/
  | torusReduce (ctx : Nat) (q : Nat) (idx : Nat)
  /-- SHELF_CARVE (R283): Sets the cove's shelf-scratch carve. -/
  | shelfCarve (ctx : Nat) (q : Nat) (idx : Nat)
  /-- MOOR (R287): Moors a line range under budget and set limits. -/
  | moor (ctx : Nat) (q : Nat) (idx : Nat)
  /-- UNMOOR (R288): Returns moored lines to ordinary. -/
  | unmoor (ctx : Nat) (q : Nat) (idx : Nat)
  /-- EBB (R295): Ebbs every line of a range through the copy engines. -/
  | ebb (ctx : Nat) (q : Nat) (idx : Nat)
  /-- XLATE_INVAL (R314): Empties the cove's translation caches. -/
  | xlateInval (ctx : Nat) (q : Nat) (idx : Nat)
  /-- COMMONS_LOAD (R449): Loads sealed tiles into the commons and mirror. -/
  | commonsLoad (ctx : Nat) (q : Nat) (idx : Nat)
  /-- COMMONS_REPAIR (R449): Rewrites commons tiles and clears their poison entries. -/
  | commonsRepair (ctx : Nat) (q : Nat) (idx : Nat)
  /-- TIDE_LOAD (R371): Checks and loads a tide image into a domain slot. -/
  | tideLoad (ctx : Nat) (q : Nat) (idx : Nat)
  /-- TIDE_START (R382): Arms a loaded domain for epoch T0. -/
  | tideStart (ctx : Nat) (q : Nat) (idx : Nat)
  /-- TIDE_HOLD (R385): Starts a hold of the domain. -/
  | tideHold (ctx : Nat) (q : Nat) (idx : Nat)
  /-- TIDE_RESUME (R387): Restores a HELD domain for resume tick Tr. -/
  | tideResume (ctx : Nat) (q : Nat) (idx : Nat)
  /-- TIDE_ABORT (R390): Aborts a domain or releases a LOADED slot. -/
  | tideAbort (ctx : Nat) (q : Nat) (idx : Nat)
  /-- SEM_SIGNAL (R450): Sets or adds to a semaphore, waking waiters. -/
  | semSignal (ctx : Nat) (q : Nat) (idx : Nat)
  /-- SEM_WAIT (R450): Waits until a semaphore condition holds. -/
  | semWait (ctx : Nat) (q : Nat) (idx : Nat)
  /-- SEM_WAIT_TIMEOUT (R450): A SEM_WAIT's TIMEOUT passes and it completes with DEADLINE. -/
  | semWaitTimeout (ctx : Nat) (q : Nat) (idx : Nat)
  /-- SEM_POLL (R450): Without CXL a host-memory semaphore wait polls every 1 µs. -/
  | semPoll (ctx : Nat) (q : Nat) (idx : Nat)
  /-- CXL_SNOOP (R213): A host snoop of a line held through CXL.cache releases it and wakes waiters. -/
  | cxlSnoop (port : Nat) (line : Nat)
  /-- HINT (R500): Declares a swell phase (KIND 0) or an idle period (KIND 1) to the power controller. -/
  | hint (ctx : Nat) (q : Nat) (idx : Nat)
  /-- DISTANCES (R452): Copies the distance table to a buffer. -/
  | distances (ctx : Nat) (q : Nat) (idx : Nat)
  /-- COAL_US (R457): COAL_US after the first counted completion the queue's vector is raised. -/
  | coalUs (ctx : Nat) (q : Nat)
  /-- VECTOR_UNMASK (R457): Unmasking an MSI-X vector sends a pending interrupt. -/
  | vectorUnmask (vf : Option Nat) (vector : Nat)
  /-- BAR4_READ (R431): A host BAR4 read is performed as a SnoopRd. -/
  | bar4Read (port : Nat) (vf : Option Nat) (off : Nat) (bytes : Nat) (rid : Nat)
  /-- BAR4_WRITE (R431): A host BAR4 write is performed as an AtomFar WRITE or refused. -/
  | bar4Write (port : Nat) (vf : Option Nat) (off : Nat) (data : List Byte) (rid : Nat)
  /-- BAR4_ATOMICOP (R431): A host AtomicOp on BAR4 is performed as an AtomFar. -/
  | bar4AtomicOp (port : Nat) (vf : Option Nat) (off : Nat) (op : AOp) (bytes : Nat) (a : Nat) (b : Nat) (rid : Nat)
  /-- HOST_LINK_DOWN (R458): A HOST port's link goes down with accesses outstanding. -/
  | hostLinkDown (port : Nat)
  /-- FUNCTION_LEVEL_RESET (R458): A VF function-level reset resets its cove. -/
  | functionLevelReset (vf : Nat)
  /-- COVE_CREATE (R462): COVE_CTL.OP CREATE checks and begins creating a cove or the commons. -/
  | coveCreate (w : RegW)
  /-- COVE_RESET (R465): COVE_CTL.OP RESET frees contexts and clears shelf scratch. -/
  | coveReset (w : RegW)
  /-- COVE_DESTROY (R466): COVE_CTL.OP DESTROY resets and releases every resource. -/
  | coveDestroy (w : RegW)
  /-- COVE_CORES_WRITE (R464): A COVE_CORES_n write adds or begins removing cores of an active cove. -/
  | coveCoresWrite (w : RegW)
  /-- CORE_LEAVE (R464): A removed core leaves its cove once it holds no block. -/
  | coreLeave (core : Nat)
  /-- ALLOC (R471): CTX_CTL ALLOC makes a FREE context READY. -/
  | alloc (w : RegW)
  /-- FREE (R472): CTX_CTL FREE ends every command of the context. -/
  | free (w : RegW)
  /-- PREEMPT (R479): CTX_CTL PREEMPT stops and saves a context. -/
  | preempt (w : RegW)
  /-- RESUME (R485): CTX_CTL RESUME reissues a faulted instruction or makes a preempted context eligible. -/
  | resume (w : RegW)
  /-- END (R472): CTX_CTL END completes a faulted command with its fault status. -/
  | endCommand (w : RegW)
  /-- QUANTUM_BOUNDARY (R476): At a quantum boundary the scheduler displaces and places contexts. -/
  | quantumBoundary (cove : Nat) (us : Nat) (charges : List Charge)
  /-- SAVE_END (R480): A context's save image is complete and it becomes PREEMPTED or HELD. -/
  | saveEnd (ctx : Nat)
  /-- RESTORE (R483): A saved context is restored once every image has a core. -/
  | restore (ctx : Nat) (second : Nat) (bad : List Nat)
  /-- HORIZON (R478): A context waiting beyond HORIZON_MS becomes urgent. -/
  | horizon (ctx : Nat)
  /-- SLOWDOWN_INTERVAL (R486): Every 10 ms the interference FACTOR of each cove is formed. -/
  | slowdownInterval (m : List Slow)
  /-- PMBUS_POLL (R492): Every 250 µs converters are polled; misses and hard clamps are handled. -/
  | pmbusPoll (pins : List (Option Nat)) (vinMv : Nat) (rails : List (Nat × Nat))
  /-- POWER_MS (R495): At each 1 ms boundary the controller checks excursions, window and swell commitments. -/
  | powerMs
  /-- CLOCK_CHANGE (R498): A pending clock, gating or pacing change applies at an allowed tick. -/
  | clockChange
  /-- DROOP (R499): A supply droop stretches an island's clock. -/
  | droop (island : Nat)
  /-- DROOP_END (R499): After HOLD_CYC cycles and recovery the stretch ends. -/
  | droopEnd (island : Nat) (cycles : Nat)
  /-- SWELL_END (R501): A committed swell phase reaches its end and the target returns to the cap. -/
  | swellEnd
  /-- PWR_CAP_WRITE (R502): A PWR_CAP write applies at the next 1 ms and re-checks any commitment. -/
  | pwrCapWrite (w : RegW)
  /-- PEAK_CLR (R510): Writing PWR_INPUT.PEAK_CLR sets PEAK_W to MS_W. -/
  | peakClr (w : RegW)
  /-- SLEEP_ENTRY (R504): An idle core enters the deepest allowed sleep state. -/
  | sleepEntry (core : Nat) (nextNs : Option Nat)
  /-- WAKE (R506): A wake event brings a sleeping core back. -/
  | wake (core : Nat)
  /-- PREWAKE (R506): A core begins its exit one exit time before its planned event. -/
  | prewake (core : Nat)
  /-- THERMAL (R508): A die temperature sample triggers limiting or shutdown. -/
  | thermal (die : Nat) (temp : Nat)
  /-- VIN_SHUTDOWN (R508): Input outside 38-62 V for 1 ms shuts the regulators down. -/
  | vinShutdown
  /-- BUCKET_LEAK (R513): Once per leak period each bucket falls by LEAK. -/
  | bucketLeak (cls : Nat) (inst : Nat)
  /-- D2D_FLIT (R515): A die-to-die flit is received, CRC-checked and replayed if bad. -/
  | d2dFlit (group : Nat) (crcOk : Bool) (lanes : List Nat)
  /-- D2D_RETRAIN (R515): A lane-group retrain ends or fails, isolating a die or losing the device. -/
  | d2dRetrain (group : Nat) (ok : Bool)
  /-- PRIMARY_REWRITE (R523): After a mirror delivery the primary tile is rewritten and read back. -/
  | primaryRewrite (tile : Nat) (readOk : Bool)
  /-- COMMONS_COMPARE (R524): The commons scrubber compares a tile with its mirror. -/
  | commonsCompare (tile : Nat) (uePrimary : Bool) (ueMirror : Bool) (readOk : Bool)
  /-- POWER_ON (R532): VIN rising through 40 V causes a module reset. -/
  | powerOn
  /-- PERST (R532): PERST# deassertion resets the module for the primary port, or a secondary port. -/
  | perst (port : Nat)
  /-- WATCHDOG (R532): The Vemuco watchdog expires and resets the module. -/
  | watchdog
  /-- STAGE_END (R533): A start-up stage ends and the next begins. -/
  | stageEnd (info : StageIn)
  /-- STAGE_LIMIT (R533): A start-up stage exceeding its limit takes its fault outcome. -/
  | stageLimit (info : StageIn)
  /-- RESET (R550): The vendor RESET message closes Tidemark and resets the module. -/
  | reset (medium : Nat) (owner : Bool) (msg : List Byte)
  /-- GET_CHALLENGE (R549): Returns a challenge record with a fresh nonce. -/
  | getChallenge (medium : Nat) (msg : List Byte)
  /-- SUBMIT_TOKEN (R552): Checks a signed token and performs its unlock, list clear or Tidemark clear. -/
  | submitToken (medium : Nat) (msg : List Byte)
  /-- SUBMIT_PASSWORD (R549): Checks the manufacturing password and unlocks all scopes. -/
  | submitPassword (medium : Nat) (msg : List Byte)
  /-- GET_STAGE (R550): Returns the SEC_STAGE value. -/
  | getStage (medium : Nat) (msg : List Byte)
  /-- DBG_AUTH (R550): The TAP instruction carrying the vendor unlock exchange. -/
  | dbgAuth (msg : List Byte)
  /-- EXTEST (R548): Loading EXTEST, CLAMP or HIGHZ stops every unit. -/
  | extest
  /-- TEST_LOGIC_RESET (R548): Leaving boundary scan through Test-Logic-Reset restarts at stage 1. -/
  | testLogicReset
  /-- GET_VERSION (R543): SPDM GET_VERSION. -/
  | getVersion (msg : List Byte)
  /-- GET_CAPABILITIES (R543): SPDM GET_CAPABILITIES. -/
  | getCapabilities (msg : List Byte)
  /-- NEGOTIATE_ALGORITHMS (R543): SPDM NEGOTIATE_ALGORITHMS. -/
  | negotiateAlgorithms (msg : List Byte)
  /-- GET_DIGESTS (R544): SPDM GET_DIGESTS of the slot 0 chain. -/
  | getDigests (msg : List Byte)
  /-- GET_CERTIFICATE (R544): SPDM GET_CERTIFICATE of slot 0. -/
  | getCertificate (msg : List Byte)
  /-- CHALLENGE (R543): SPDM CHALLENGE. -/
  | challenge (msg : List Byte)
  /-- GET_MEASUREMENTS (R544): Returns measurement indices of Table 19-6. -/
  | getMeasurements (index : Nat) (raw : Bool)
  /-- KEY_EXCHANGE (R543): SPDM KEY_EXCHANGE opens a session. -/
  | keyExchange (mutAuth : Bool) (root : List Byte)
  /-- FINISH (R543): SPDM FINISH completes a session handshake. -/
  | finish (ok : Bool)
  /-- HEARTBEAT (R543): SPDM HEARTBEAT. -/
  | heartbeat (session : Nat)
  /-- KEY_UPDATE (R543): SPDM KEY_UPDATE. -/
  | keyUpdate (session : Nat)
  /-- END_SESSION (R543): SPDM END_SESSION. -/
  | endSession (session : Nat)
  /-- KEY_IMPORT (R547): Loads a chosen key into a FREE owner's slot in an authenticated session. -/
  | keyImport (session : Nat) (body : List Byte)
  /-- GENERATE (R546): SEC_KEY_CTL.OP GENERATE loads a fresh random key into a slot. -/
  | generate (w : RegW)
  /-- QUERY_DEVICE_IDENTIFIERS (R540): PLDM firmware-update QueryDeviceIdentifiers. -/
  | queryDeviceIdentifiers
  /-- GET_FIRMWARE_PARAMETERS (R540): PLDM GetFirmwareParameters. -/
  | getFirmwareParameters
  /-- REQUEST_UPDATE (R540): PLDM RequestUpdate enters update mode. -/
  | requestUpdate (size : Nat)
  /-- PASS_COMPONENT_TABLE (R540): PLDM PassComponentTable. -/
  | passComponentTable
  /-- UPDATE_COMPONENT (R540): PLDM UpdateComponent starts writing the bundle to the idle slot. -/
  | updateComponent (hdr : Machine.Slot)
  /-- REQUEST_FIRMWARE_DATA (R540): Firmware data arrives for the idle slot; at the end it is verified. -/
  | requestFirmwareData (bytes : Nat) (verifies : Bool)
  /-- ACTIVATE_FIRMWARE (R540): Sets the preference bit for the next module reset. -/
  | activateFirmware
  /-- GET_STATUS (R540): PLDM GetStatus. -/
  | getStatus
  /-- CANCEL_UPDATE_COMPONENT (R540): PLDM CancelUpdateComponent. -/
  | cancelUpdateComponent
  /-- CANCEL_UPDATE (R540): PLDM CancelUpdate. -/
  | cancelUpdate
  /-- INTERVAL_CLOSE (R557): After PERIOD_MIN the Tidemark interval closes and writes a record. -/
  | intervalClose
  /-- CLOSE_NOW (R557): Writing TMK_CFG.CLOSE_NOW closes the interval with a CLOSE record. -/
  | closeNow (w : RegW)
  /-- CLEAR_ERASE_END (R564): The circulating erase of a clear ends and DONE is programmed. -/
  | clearEraseEnd
  /-- GET_TIDEMARK_INFO (R567): Returns TMK_STATE and TMK_SEQ. -/
  | getTidemarkInfo
  /-- READ_TIDEMARK_SLOT (R567): Returns a Tidemark slot and its status. -/
  | readTidemarkSlot (area : Nat) (slot : Nat)
  /-- READ_CLEAR_LEDGER (R567): Returns a clear-ledger entry. -/
  | readClearLedger (entry : Nat)
  /-- SUBMIT_TIDEMARK_CLEAR (R564): Submits a TYPE 3 token to clear the circulating area. -/
  | submitTidemarkClear (token : List Byte)
  /-- REGISTER_WRITE (R6): A write to a register field with no behaviour of its own, per its access code. -/
  | registerWrite (w : RegW)
  /-- LOCK (R577): A write of LOCK fixes its bits until module reset. -/
  | lock (w : RegW)
  /-- EVT_SEL (R578): Writing EVT_SEL_n zeroes its counter and selects a new event. -/
  | evtSel (w : RegW)
  /-- EVT_CLR (R578): UNIT_CTRL.EVT_CLR zeroes all four counters. -/
  | evtClr (w : RegW)
  /-- ERRCNT_CLR (R574): UNIT_CTRL.ERRCNT_CLR zeroes ERR_COUNT. -/
  | errcntClr (w : RegW)
  /-- ERR_INJECT (R576): Arming ERR_INJECT makes the next check carry an injected error. -/
  | errInject (w : RegW)
  /-- PRED_CLEAR (R215): ATOM_CTL.PRED_CLEAR sets all predictor counters to 1. -/
  | predClear (w : RegW)
  /-- RECONV_HWM_CLR (R85): RECONV_HWM.HWM_CLR sets DEPTH_HWM to zero. -/
  | reconvHwmClr (w : RegW)
  /-- GHOST_HWM_CLR (R299): GHOST_STATE.HWM_CLR sets HWM to LIVE. -/
  | ghostHwmClr (w : RegW)
  /-- HIST_CLR (R396): TD_CTL.HIST_CLR clears slip histograms, totals and TD_SLIP_MAX. -/
  | histClr (w : RegW)
  /-- L1_MAINT_WRITE_BACK (R242): L1_MAINT OP 0b01 writes back every dirty line of an idle core. -/
  | l1MaintWriteBack (w : RegW)
  /-- L1_MAINT_EVICT (R242): L1_MAINT OP 0b10 evicts every valid line of an idle core. -/
  | l1MaintEvict (w : RegW)
  /-- PARTNER_LOST (R423): A Tideway partner module resets or stops sending, and the port goes DOWN with reason PARTNER_LOST, discarding credits. -/
  | partnerLost (port : Nat)
  /-- LINK_UP (R458): An edge port's PCIe/CXL link finishes training or returns after going down, setting EDGE_STATE.LINK_UP and letting stopped queues resume. -/
  | linkUp (port : Nat) (speed : Nat) (width : Nat) (flit : Bool) (cxl : Bool)
  /-- HOST_COMPLETION (R428): A completion or ATS translation completion from the host arrives at an edge port for a device-initiated read, translation request or AtomicOp. -/
  | hostCompletion (port : Nat) (tag : Nat) (data : List Byte) (poison : Bool) (granted : Bool)
  /-- CONFIGURATION_REQUEST (R534): A host configuration request (VF enable, ATS enable, BAR resize, MSI-X control, DOE CDAT) is answered and applied. -/
  | configurationRequest (port : Nat) (req : Nat) (a : Nat) (b : Nat)
  /-- MCTP_CONTROL_MESSAGE (R535): An MCTP control message on SMBus or PCIe VDM is answered, including by the recovery responder. -/
  | mctpControlMessage (medium : Nat) (msg : List Byte)
  /-- SEC_BUSY_TIMEOUT (R550): A vendor-defined MCTP request that has waited 100 ms for the SEC unit is answered with COMPLETION 2 (BUSY). -/
  | secBusyTimeout (medium : Nat)
  /-- SLEEP_EXIT_END (R507): A core or die finishes its sleep-state exit and runs again, releasing waiting block placements and register accesses. -/
  | sleepExitEnd (core : Nat)
  deriving DecidableEq, Repr

end Sys2Proof
end

