-- ==== Sys2Proof/Decode.lean ====
section
/-! DEFINITION. The opcode table gives its 286 rows no bits (its `"bits"` is empty), so no word spells a command. -/

namespace Sys2Proof

/-- The command that a word spells by the table's bits: none, since no row has bits. -/
def decodeTableWord (_nbits _w : Nat) : Option Instr := none

end Sys2Proof
end

