-- ==== Sys2Proof/Config.lean ====
section
/-! DEFINITION. The free values: what the spec leaves open, and results it fixes but does not spell out. None has a
body, so no proof can lean on a value (log entries 1 and 5). -/

namespace Sys2Proof.Config

/-- The `n`-th free draw: a choice the spec leaves to timing, or a value it leaves open (log entry 1). -/
opaque freeNat : Nat → Nat
/-- A byte read from a place whose contents the spec leaves undefined (log entry 6). -/
opaque freeByte : Nat → Byte
/-- A transcendental micro-op: operation code and FP32 operand to FP32 result, within the bound of R161 (log entry 7). -/
opaque transcendental : Nat → Nat → Nat
/-- SHA-384 (FIPS 180-4), which the spec uses and does not spell out (log entry 8). -/
opaque sha384 : List Byte → List Byte
/-- Whether an ECDSA P-384 signature verifies under a key with the fused debug authority hash: digest, r and s (log entry 8). -/
opaque signatureOk : List Byte → List Byte → Bool
/-- Whether 16 bytes are the module's manufacturing password (R549; log entry 8). -/
opaque passwordOk : List Byte → Bool
/-- The start-measured sections of the distance table: measurement number and byte offset (R580; log entry 9). -/
opaque measured : Nat → Nat → Byte
/-- Bytes of the replies of the attestation, firmware-update and control protocols that their own standards fix
(SPDM, PLDM, MCTP): command, argument, position (log entry 10). -/
opaque replyByte : Nat → Nat → Nat → Byte
/-- The digest of a measurement: index and what the module measures there (R544, log entry 10). -/
opaque measurement : Nat → List Nat → List Byte
/-- The KIND byte of a RAS record for a cause to which the spec gives no number (R526, log entry 22). -/
opaque rasKind : Nat → Nat

end Sys2Proof.Config
end

