-- ==== Sys2Proof/Machine/Registers.lean ====
section
/-! DEFINITION. The register pages as data: every register of spec/21_register_pages.md (common header) and of the
unit chapters, with its class, offset, instances and the access code and reset value of each field (R6, R571, R574).
A field marked S in the spec has reset 0 here until the start-up sequence loads it (log entry 4). -/

namespace Sys2Proof.Machine

/-- Access codes of Table 0-4. A bit no field names is reserved (R7). -/
inductive Acc | ro | rw | rw1c | rw1s | wo | wl
  deriving DecidableEq, Repr

/-- A field: page offset of its register (of entry 0 where the register repeats), its bits and its reset value. -/
structure Fld where
  off : Nat
  hi : Nat
  lo : Nat
  rst : Nat := 0
  deriving DecidableEq, Repr

structure FldDef where
  fld : Fld
  acc : Acc
  deriving DecidableEq, Repr

/-- A register, `count` times at `off + stride * i`, on instances `lo` to `hi` of a class. `cls` 0x1F stands for
the common header that every page carries. -/
structure RegDef where
  name : String
  cls : Nat
  off : Nat
  stride : Nat
  count : Nat
  lo : Nat
  hi : Nat
  lock : Bool
  fields : List FldDef
  deriving DecidableEq, Repr

/-! ### Class codes (Table 21-1) -/

def clsSys : Nat := 0x00
def clsDist : Nat := 0x01
def clsSec : Nat := 0x02
def clsRas : Nat := 0x03
def clsTmk : Nat := 0x04
def clsPwr : Nat := 0x05
def clsTide : Nat := 0x06
def clsCove : Nat := 0x07
def clsCtx : Nat := 0x08
def clsCmdq : Nat := 0x0A
def clsEdge : Nat := 0x0B
def clsTwp : Nat := 0x0C
def clsNoc : Nat := 0x0D
def clsSpindle : Nat := 0x0E
def clsHbmc : Nat := 0x0F
def clsHome : Nat := 0x10
def clsSlice : Nat := 0x11
def clsCore : Nat := 0x12
/-- Stands for the common header in the register tables. -/
def clsHdr : Nat := 0x1F

/-! ### Fields, by register and name -/

def R.CORE_MAP_LCORE : Fld := ⟨0x100, 42, 32, 0x0⟩
def R.CORE_MAP_COVE : Fld := ⟨0x100, 21, 16, 0x0⟩
def R.CORE_MAP_COVE_VALID : Fld := ⟨0x100, 8, 8, 0x0⟩
def R.CORE_MAP_ACTIVE : Fld := ⟨0x100, 0, 0, 0x0⟩
def R.CORE_STATE_RES_GROUPS : Fld := ⟨0x108, 37, 32, 0x0⟩
def R.CORE_STATE_RES_BLOCKS : Fld := ⟨0x108, 29, 24, 0x0⟩
def R.CORE_STATE_SPLIT : Fld := ⟨0x108, 18, 16, 0x0⟩
def R.CORE_STATE_FAULTED : Fld := ⟨0x108, 3, 3, 0x0⟩
def R.CORE_STATE_SLEEP : Fld := ⟨0x108, 2, 0, 0x0⟩
def R.ISSUE_CTL_AGE_LIMIT : Fld := ⟨0x110, 15, 8, 0x40⟩
def R.ISSUE_CTL_NO_DUAL : Fld := ⟨0x110, 2, 2, 0x0⟩
def R.ISSUE_CTL_NO_SAME_GROUP : Fld := ⟨0x110, 1, 1, 0x0⟩
def R.ISSUE_CTL_OLDEST_ONLY : Fld := ⟨0x110, 0, 0, 0x0⟩
def R.RECONV_HWM_HWM_CLR : Fld := ⟨0x118, 8, 8, 0x0⟩
def R.RECONV_HWM_DEPTH_HWM : Fld := ⟨0x118, 5, 0, 0x0⟩
def R.FAULT_INFO_FAULT_CODE : Fld := ⟨0x120, 39, 32, 0x0⟩
def R.FAULT_INFO_VALID : Fld := ⟨0x120, 31, 31, 0x0⟩
def R.FAULT_INFO_RESUMABLE : Fld := ⟨0x120, 30, 30, 0x0⟩
def R.FAULT_INFO_SLOT : Fld := ⟨0x120, 20, 16, 0x0⟩
def R.FAULT_INFO_CTX : Fld := ⟨0x120, 11, 0, 0x0⟩
def R.FAULT_PC_PC : Fld := ⟨0x128, 56, 0, 0x0⟩
def R.FAULT_MASK_MASK : Fld := ⟨0x130, 63, 0, 0x0⟩
def R.FAULT_ADDR_ADDR : Fld := ⟨0x138, 56, 0, 0x0⟩
def R.MX_CTL_NO_OVERLAP : Fld := ⟨0x300, 4, 4, 0x0⟩
def R.MX_CTL_QDEPTH : Fld := ⟨0x300, 3, 0, 0x8⟩
def R.MX_STATE_ACC_USED : Fld := ⟨0x308, 40, 32, 0x0⟩
def R.MX_STATE_OPEN_REGIONS : Fld := ⟨0x308, 21, 16, 0x0⟩
def R.MX_STATE_QUEUE : Fld := ⟨0x308, 11, 8, 0x0⟩
def R.MX_STATE_BUSY : Fld := ⟨0x308, 0, 0, 0x0⟩
def R.MX_DIV_INFO_REC_MASK : Fld := ⟨0x310, 63, 0, 0x0⟩
def R.MX_ACC_ERR_VALID : Fld := ⟨0x318, 31, 31, 0x0⟩
def R.MX_ACC_ERR_TILE : Fld := ⟨0x318, 18, 16, 0x0⟩
def R.MX_ACC_ERR_ROW : Fld := ⟨0x318, 13, 8, 0x0⟩
def R.MX_ACC_ERR_COL : Fld := ⟨0x318, 5, 0, 0x0⟩
def R.EL_CTL_NO_PROG_BUF : Fld := ⟨0x400, 5, 5, 0x0⟩
def R.EL_CTL_SERIAL : Fld := ⟨0x400, 4, 4, 0x0⟩
def R.EL_CTL_QDEPTH : Fld := ⟨0x400, 3, 0, 0x8⟩
def R.EL_STATE_TABLES : Fld := ⟨0x408, 27, 24, 0x0⟩
def R.EL_STATE_PROGS : Fld := ⟨0x408, 19, 16, 0x0⟩
def R.EL_STATE_QUEUE : Fld := ⟨0x408, 11, 8, 0x0⟩
def R.EL_STATE_BUSY : Fld := ⟨0x408, 0, 0, 0x0⟩
def R.EL_ERR_VALID : Fld := ⟨0x410, 63, 63, 0x0⟩
def R.EL_ERR_SOURCE : Fld := ⟨0x410, 58, 56, 0x0⟩
def R.EL_ERR_SLOT : Fld := ⟨0x410, 36, 32, 0x0⟩
def R.EL_ERR_OFFSET : Fld := ⟨0x410, 31, 0, 0x0⟩
def R.ATOM_CTL_PRED_CLEAR : Fld := ⟨0x500, 2, 2, 0x0⟩
def R.ATOM_CTL_PRED_MODE : Fld := ⟨0x500, 1, 0, 0x0⟩
def R.SCOPE_MM_INFO_VALID : Fld := ⟨0x508, 63, 63, 0x0⟩
def R.SCOPE_MM_INFO_TAG_SCOPE : Fld := ⟨0x508, 57, 56, 0x0⟩
def R.SCOPE_MM_INFO_REL_LCORE : Fld := ⟨0x508, 41, 32, 0x0⟩
def R.SCOPE_MM_INFO_REL_BLOCK : Fld := ⟨0x508, 28, 24, 0x0⟩
def R.SCOPE_MM_INFO_REL_SLOT : Fld := ⟨0x508, 20, 16, 0x0⟩
def R.SCOPE_MM_INFO_ACQ_SLOT : Fld := ⟨0x508, 4, 0, 0x0⟩
def R.SCOPE_MM_PC_PC : Fld := ⟨0x510, 56, 0, 0x0⟩
def R.L1_CTL_MISS_LIMIT : Fld := ⟨0x200, 13, 8, 0x0⟩
def R.L1_CTL_FULL_LINE_FETCH : Fld := ⟨0x200, 2, 2, 0x0⟩
def R.L1_CTL_NO_MERGE : Fld := ⟨0x200, 1, 1, 0x0⟩
def R.L1_CTL_NO_FULL_SECTOR_WRITE : Fld := ⟨0x200, 0, 0, 0x0⟩
def R.L1_STATE_VALID_LINES : Fld := ⟨0x208, 44, 32, 0x0⟩
def R.L1_STATE_MISS_BUSY : Fld := ⟨0x208, 22, 16, 0x0⟩
def R.L1_STATE_REPLAY : Fld := ⟨0x208, 13, 8, 0x0⟩
def R.L1_STATE_SPLIT_BUSY : Fld := ⟨0x208, 5, 5, 0x0⟩
def R.L1_STATE_L1_WAYS : Fld := ⟨0x208, 4, 0, 0x18⟩
def R.SP_MAP_LAND_SLOTS : Fld := ⟨0x210, 40, 32, 0x0⟩
def R.SP_MAP_LAND_KIB : Fld := ⟨0x210, 25, 16, 0x0⟩
def R.SP_MAP_USED_KIB : Fld := ⟨0x210, 9, 0, 0x0⟩
def R.L1_MAINT_REFUSED : Fld := ⟨0x218, 3, 3, 0x0⟩
def R.L1_MAINT_BUSY : Fld := ⟨0x218, 2, 2, 0x0⟩
def R.L1_MAINT_OP : Fld := ⟨0x218, 1, 0, 0x0⟩
def R.L1_ERR_VALID : Fld := ⟨0x220, 63, 63, 0x0⟩
def R.L1_ERR_SOURCE : Fld := ⟨0x220, 62, 60, 0x0⟩
def R.L1_ERR_ADDR : Fld := ⟨0x220, 51, 0, 0x0⟩
def R.HOME_CFG_PTR_LIMIT : Fld := ⟨0x100, 10, 8, 0x4⟩
def R.HOME_CFG_NO_E_GRANT : Fld := ⟨0x100, 4, 4, 0x0⟩
def R.HOME_STATE_CQ_USED : Fld := ⟨0x108, 38, 32, 0x0⟩
def R.HOME_STATE_TXN_USED : Fld := ⟨0x108, 21, 16, 0x0⟩
def R.HOME_STATE_BUSY : Fld := ⟨0x108, 0, 0, 0x0⟩
def R.HOME_PERR_VALID : Fld := ⟨0x110, 63, 63, 0x0⟩
def R.HOME_PERR_TYPE : Fld := ⟨0x110, 62, 57, 0x0⟩
def R.HOME_PERR_SRC : Fld := ⟨0x110, 56, 45, 0x0⟩
def R.HOME_PERR_LINE : Fld := ⟨0x110, 44, 0, 0x0⟩
def R.HOME_DERR_VALID : Fld := ⟨0x118, 63, 63, 0x0⟩
def R.HOME_DERR_RECOVERED : Fld := ⟨0x118, 45, 45, 0x0⟩
def R.HOME_DERR_LINE : Fld := ⟨0x118, 44, 0, 0x0⟩
def R.SLICE_CFG_ROLE : Fld := ⟨0x100, 9, 8, 0x0⟩
def R.SLICE_CFG_COVE : Fld := ⟨0x100, 5, 0, 0x0⟩
def R.SLICE_STATE_VALID_LINES : Fld := ⟨0x108, 48, 32, 0x0⟩
def R.SLICE_STATE_DIRTY_LINES : Fld := ⟨0x108, 16, 0, 0x0⟩
def R.SLICE_ERR_VALID : Fld := ⟨0x110, 63, 63, 0x0⟩
def R.SLICE_ERR_SOURCE : Fld := ⟨0x110, 62, 60, 0x0⟩
def R.SLICE_ERR_SECTORS : Fld := ⟨0x110, 59, 56, 0x0⟩
def R.SLICE_ERR_LINE : Fld := ⟨0x110, 44, 0, 0x0⟩
def R.SHELF_CARVE_STATE_WINDOW_K : Fld := ⟨0x200, 24, 16, 0x0⟩
def R.SHELF_CARVE_STATE_CARVE_BUSY : Fld := ⟨0x200, 4, 4, 0x0⟩
def R.SHELF_CARVE_STATE_WAYS : Fld := ⟨0x200, 3, 0, 0x0⟩
def R.MOOR_STATE_MAX_SET : Fld := ⟨0x208, 35, 32, 0x0⟩
def R.MOOR_STATE_MOORED_LINES : Fld := ⟨0x208, 15, 0, 0x0⟩
def R.GHOST_CFG_STRICT : Fld := ⟨0x210, 0, 0, 0x0⟩
def R.GHOST_STATE_HWM_CLR : Fld := ⟨0x218, 32, 32, 0x0⟩
def R.GHOST_STATE_HWM : Fld := ⟨0x218, 28, 16, 0x0⟩
def R.GHOST_STATE_LIVE : Fld := ⟨0x218, 12, 0, 0x0⟩
def R.GHOST_INFO_VALID : Fld := ⟨0x220, 63, 63, 0x0⟩
def R.GHOST_INFO_STRICT_HIT : Fld := ⟨0x220, 62, 62, 0x0⟩
def R.GHOST_INFO_SRC : Fld := ⟨0x220, 56, 45, 0x0⟩
def R.GHOST_INFO_LINE : Fld := ⟨0x220, 44, 0, 0x0⟩
def R.HBMC_MAP_INDEX : Fld := ⟨0x100, 41, 32, 0x0⟩
def R.HBMC_MAP_MODE : Fld := ⟨0x100, 24, 24, 0x0⟩
def R.HBMC_MAP_KEY_SLOT : Fld := ⟨0x100, 22, 16, 0x0⟩
def R.HBMC_MAP_COVE : Fld := ⟨0x100, 13, 8, 0x0⟩
def R.HBMC_MAP_OWNER : Fld := ⟨0x100, 5, 4, 0x0⟩
def R.HBMC_MAP_STATE : Fld := ⟨0x100, 2, 0, 0x0⟩
def R.HBMC_CLEAR_DONE_MIB : Fld := ⟨0x108, 43, 32, 0x0⟩
def R.HBMC_CLEAR_BUSY : Fld := ⟨0x108, 0, 0, 0x0⟩
def R.HBMC_SCRUB_POSITION : Fld := ⟨0x110, 56, 32, 0x0⟩
def R.HBMC_SCRUB_PASS_DONE : Fld := ⟨0x110, 16, 16, 0x0⟩
def R.HBMC_SCRUB_PERIOD : Fld := ⟨0x110, 15, 0, 0xC⟩
def R.HBMC_UE_VALID : Fld := ⟨0x118, 63, 63, 0x0⟩
def R.HBMC_UE_SCRUB : Fld := ⟨0x118, 62, 62, 0x0⟩
def R.HBMC_UE_SECTORS : Fld := ⟨0x118, 61, 60, 0x0⟩
def R.HBMC_UE_SYMBOLS : Fld := ⟨0x118, 51, 36, 0x0⟩
def R.HBMC_UE_BURST : Fld := ⟨0x118, 24, 0, 0x0⟩
def R.NOC_CFG_BULK_SHARE : Fld := ⟨0x100, 3, 0, 0x6⟩
def R.NOC_LINK_OCC_IO : Fld := ⟨0x108, 55, 48, 0x0⟩
def R.NOC_LINK_OCC_SLICE : Fld := ⟨0x108, 47, 40, 0x0⟩
def R.NOC_LINK_OCC_CORE : Fld := ⟨0x108, 39, 32, 0x0⟩
def R.NOC_LINK_OCC_W : Fld := ⟨0x108, 31, 24, 0x0⟩
def R.NOC_LINK_OCC_S : Fld := ⟨0x108, 23, 16, 0x0⟩
def R.NOC_LINK_OCC_E : Fld := ⟨0x108, 15, 8, 0x0⟩
def R.NOC_LINK_OCC_N : Fld := ⟨0x108, 7, 0, 0x0⟩
def R.NOC_RED_STATE_SLOTS_USED : Fld := ⟨0x110, 40, 32, 0x0⟩
def R.NOC_RED_STATE_ACTIVE : Fld := ⟨0x110, 7, 0, 0x0⟩
def R.NOC_ERR_VALID : Fld := ⟨0x118, 63, 63, 0x0⟩
def R.NOC_ERR_SOURCE : Fld := ⟨0x118, 62, 60, 0x0⟩
def R.NOC_ERR_NODE : Fld := ⟨0x118, 11, 0, 0x0⟩
def R.SPN_CTL_MAX_INFLIGHT : Fld := ⟨0x100, 8, 0, 0x0⟩
def R.SPN_STATE_POISON_ENTRIES : Fld := ⟨0x108, 38, 32, 0x0⟩
def R.SPN_STATE_INFLIGHT : Fld := ⟨0x108, 25, 16, 0x0⟩
def R.SPN_STATE_STREAMS : Fld := ⟨0x108, 3, 0, 0x0⟩
def R.SPN_SEAL_ERR_VALID : Fld := ⟨0x110, 63, 63, 0x0⟩
def R.SPN_SEAL_ERR_OUTCOME : Fld := ⟨0x110, 62, 61, 0x0⟩
def R.SPN_SEAL_ERR_UE : Fld := ⟨0x110, 60, 60, 0x0⟩
def R.SPN_SEAL_ERR_ADDR : Fld := ⟨0x110, 51, 5, 0x0⟩
def R.SPN_POISON_n_VALID : Fld := ⟨0x200, 63, 63, 0x0⟩
def R.SPN_POISON_n_ADDR : Fld := ⟨0x200, 51, 5, 0x0⟩
def R.TIDE_NOW_TICK : Fld := ⟨0x100, 63, 0, 0x0⟩
def R.TIDE_PHASE_PHASE : Fld := ⟨0x108, 7, 0, 0x0⟩
def R.TIDE_ALIGN_OFFSET : Fld := ⟨0x110, 47, 32, 0x0⟩
def R.TIDE_ALIGN_HOPS : Fld := ⟨0x110, 29, 24, 0x0⟩
def R.TIDE_ALIGN_UPSTREAM : Fld := ⟨0x110, 20, 16, 0x0⟩
def R.TIDE_ALIGN_STATE : Fld := ⟨0x110, 2, 0, 0x0⟩
def R.TIDE_SYNC_CFG_HOLDOVER_LIMIT : Fld := ⟨0x118, 31, 16, 0x100⟩
def R.TIDE_SYNC_CFG_MASTER : Fld := ⟨0x118, 0, 0, 0x0⟩
def R.TD_CFG_DOMAIN_ID : Fld := ⟨0x100, 63, 48, 0x0⟩
def R.TD_CFG_WAIT_LIMIT : Fld := ⟨0x100, 47, 32, 0x0⟩
def R.TD_CFG_HOLD_LEAD : Fld := ⟨0x100, 27, 24, 0x0⟩
def R.TD_CFG_SPN_PLAT : Fld := ⟨0x100, 23, 16, 0x0⟩
def R.TD_CFG_WINDOW_LOG2 : Fld := ⟨0x100, 3, 0, 0x0⟩
def R.TD_STATE_RANK : Fld := ⟨0x108, 62, 48, 0x0⟩
def R.TD_STATE_CTX : Fld := ⟨0x108, 43, 32, 0x0⟩
def R.TD_STATE_COVE : Fld := ⟨0x108, 21, 16, 0x0⟩
def R.TD_STATE_STATE : Fld := ⟨0x108, 2, 0, 0x0⟩
def R.TD_EPOCH_EPOCH : Fld := ⟨0x110, 63, 0, 0x0⟩
def R.TD_HOLD_VALID : Fld := ⟨0x118, 63, 63, 0x0⟩
def R.TD_HOLD_BOUNDARY : Fld := ⟨0x118, 31, 0, 0x0⟩
def R.TD_CTL_HIST_CLR : Fld := ⟨0x120, 0, 0, 0x0⟩
def R.TD_SLIP_MAX_LCORE : Fld := ⟨0x128, 57, 48, 0x0⟩
def R.TD_SLIP_MAX_SLOT : Fld := ⟨0x128, 47, 40, 0x0⟩
def R.TD_SLIP_MAX_CYCLES : Fld := ⟨0x128, 31, 0, 0x0⟩
def R.TD_SLIP_TOTAL_CYCLES : Fld := ⟨0x130, 63, 0, 0x0⟩
def R.TD_SEND_TOTAL_CYCLES : Fld := ⟨0x138, 63, 0, 0x0⟩
def R.TD_SLIP_HIST_n_COUNT : Fld := ⟨0x200, 63, 0, 0x0⟩
def R.TD_SEND_HIST_n_COUNT : Fld := ⟨0x280, 63, 0, 0x0⟩
def R.LAND_STATE_FULL : Fld := ⟨0x600, 40, 32, 0x0⟩
def R.LAND_STATE_FILLING : Fld := ⟨0x600, 24, 16, 0x0⟩
def R.LAND_STATE_RESERVED : Fld := ⟨0x600, 8, 0, 0x0⟩
def R.LAND_SEL_SLOT : Fld := ⟨0x608, 7, 0, 0x0⟩
def R.LAND_VIEW_OWNER : Fld := ⟨0x610, 63, 52, 0x0⟩
def R.LAND_VIEW_QUOTA : Fld := ⟨0x610, 51, 44, 0x0⟩
def R.LAND_VIEW_READS : Fld := ⟨0x610, 43, 36, 0x0⟩
def R.LAND_VIEW_POISON : Fld := ⟨0x610, 35, 35, 0x0⟩
def R.LAND_VIEW_STATE : Fld := ⟨0x610, 33, 32, 0x0⟩
def R.LAND_VIEW_PLAN : Fld := ⟨0x610, 31, 0, 0x0⟩
def R.TWP_CFG_ASYM_TRIM : Fld := ⟨0x100, 39, 32, 0x0⟩
def R.TWP_CFG_REPLAY_BUDGET : Fld := ⟨0x100, 31, 24, 0x8⟩
def R.TWP_CFG_REPLAY_TIMEOUT : Fld := ⟨0x100, 19, 8, 0x3E8⟩
def R.TWP_CFG_FORCE_RETRAIN : Fld := ⟨0x100, 2, 2, 0x0⟩
def R.TWP_CFG_DEGRADE_OK : Fld := ⟨0x100, 1, 1, 0x1⟩
def R.TWP_CFG_ENABLE : Fld := ⟨0x100, 0, 0, 0x1⟩
def R.TWP_STATE_DOWN_REASON : Fld := ⟨0x108, 19, 16, 0x0⟩
def R.TWP_STATE_SPARED : Fld := ⟨0x108, 15, 12, 0xF⟩
def R.TWP_STATE_WIDTH : Fld := ⟨0x108, 9, 8, 0x0⟩
def R.TWP_STATE_STATE : Fld := ⟨0x108, 3, 0, 0x0⟩
def R.TWP_PARTNER_PORT : Fld := ⟨0x110, 52, 48, 0x0⟩
def R.TWP_PARTNER_COORD : Fld := ⟨0x110, 46, 32, 0x0⟩
def R.TWP_PARTNER_SERIAL : Fld := ⟨0x110, 31, 0, 0x0⟩
def R.TWP_LAT_LAT_REF : Fld := ⟨0x118, 47, 32, 0x0⟩
def R.TWP_LAT_LAT_PS : Fld := ⟨0x118, 31, 0, 0x0⟩
def R.TWP_LANES_MARGIN : Fld := ⟨0x120, 62, 0, 0x0⟩
def R.TWP_ERR_VALID : Fld := ⟨0x128, 63, 63, 0x0⟩
def R.TWP_ERR_KIND : Fld := ⟨0x128, 62, 59, 0x0⟩
def R.TWP_ERR_LANE : Fld := ⟨0x128, 51, 48, 0x0⟩
def R.TWP_ERR_FSEQ : Fld := ⟨0x128, 11, 0, 0x0⟩
def R.TWP_CABLE_OUI : Fld := ⟨0x130, 63, 40, 0x0⟩
def R.TWP_CABLE_LENGTH_DM : Fld := ⟨0x130, 39, 24, 0x0⟩
def R.TWP_CABLE_MEDIA : Fld := ⟨0x130, 23, 16, 0x0⟩
def R.TWP_CABLE_POWER_W : Fld := ⟨0x130, 15, 8, 0x0⟩
def R.TWP_CABLE_PRESENT : Fld := ⟨0x130, 0, 0, 0x0⟩
def R.TORUS_CFG_DZM1 : Fld := ⟨0x100, 29, 25, 0x0⟩
def R.TORUS_CFG_DYM1 : Fld := ⟨0x100, 24, 20, 0x0⟩
def R.TORUS_CFG_DXM1 : Fld := ⟨0x100, 19, 15, 0x0⟩
def R.TORUS_CFG_Z : Fld := ⟨0x100, 14, 10, 0x0⟩
def R.TORUS_CFG_Y : Fld := ⟨0x100, 9, 5, 0x0⟩
def R.TORUS_CFG_X : Fld := ⟨0x100, 4, 0, 0x0⟩
def R.TORUS_STATE_RED_BUSY : Fld := ⟨0x108, 48, 48, 0x0⟩
def R.TORUS_STATE_RID : Fld := ⟨0x108, 47, 32, 0x0⟩
def R.TORUS_STATE_ACTIVE : Fld := ⟨0x108, 17, 0, 0x0⟩
def R.Q_SQ_BASE_SPACE : Fld := ⟨0x100, 63, 62, 0x0⟩
def R.Q_SQ_BASE_BASE : Fld := ⟨0x100, 56, 12, 0x0⟩
def R.Q_CQ_BASE_SPACE : Fld := ⟨0x108, 63, 62, 0x0⟩
def R.Q_CQ_BASE_BASE : Fld := ⟨0x108, 56, 12, 0x0⟩
def R.Q_CFG_ENABLE : Fld := ⟨0x110, 63, 63, 0x0⟩
def R.Q_CFG_HALT_ON_ERR : Fld := ⟨0x110, 62, 62, 0x0⟩
def R.Q_CFG_RESUME : Fld := ⟨0x110, 61, 61, 0x0⟩
def R.Q_CFG_LOG2 : Fld := ⟨0x110, 52, 48, 0x4⟩
def R.Q_CFG_COAL_COUNT : Fld := ⟨0x110, 47, 40, 0x1⟩
def R.Q_CFG_COAL_US : Fld := ⟨0x110, 39, 24, 0x0⟩
def R.Q_CFG_VECTOR : Fld := ⟨0x110, 10, 0, 0x0⟩
def R.Q_STATE_HALTED : Fld := ⟨0x118, 63, 63, 0x0⟩
def R.Q_STATE_RING_FAULT : Fld := ⟨0x118, 62, 62, 0x0⟩
def R.Q_STATE_INFLIGHT : Fld := ⟨0x118, 47, 32, 0x0⟩
def R.Q_STATE_CQ_TAIL : Fld := ⟨0x118, 31, 16, 0x0⟩
def R.Q_STATE_SQ_HEAD : Fld := ⟨0x118, 15, 0, 0x0⟩
def R.EDGE_STATE_LINK_UP : Fld := ⟨0x100, 17, 17, 0x0⟩
def R.EDGE_STATE_FLIT : Fld := ⟨0x100, 16, 16, 0x0⟩
def R.EDGE_STATE_SPEED : Fld := ⟨0x100, 15, 12, 0x0⟩
def R.EDGE_STATE_WIDTH : Fld := ⟨0x100, 11, 8, 0x0⟩
def R.EDGE_STATE_CXL : Fld := ⟨0x100, 3, 3, 0x0⟩
def R.EDGE_STATE_PRIMARY : Fld := ⟨0x100, 2, 2, 0x0⟩
def R.EDGE_STATE_ROLE : Fld := ⟨0x100, 1, 0, 0x0⟩
def R.EDGE_BAR4_BASE : Fld := ⟨0x108, 40, 31, 0x0⟩
def R.EDGE_ERR_VALID : Fld := ⟨0x110, 63, 63, 0x0⟩
def R.EDGE_ERR_KIND : Fld := ⟨0x110, 62, 59, 0x0⟩
def R.EDGE_ERR_RID : Fld := ⟨0x110, 47, 32, 0x0⟩
def R.EDGE_ERR_INFO : Fld := ⟨0x110, 31, 0, 0x0⟩
def R.EDGE_ROLES_ROLE : Fld := ⟨0x100, 15, 0, 0x9AA6⟩
def R.TIERB_CFG_ACTIVE : Fld := ⟨0x108, 9, 8, 0x0⟩
def R.TIERB_CFG_WAYS : Fld := ⟨0x108, 1, 0, 0x0⟩
def R.TIERC_LOC_r_VALID : Fld := ⟨0x200, 63, 63, 0x0⟩
def R.TIERC_LOC_r_PORT : Fld := ⟨0x200, 58, 56, 0x0⟩
def R.TIERC_LOC_r_SIZE : Fld := ⟨0x200, 42, 32, 0x0⟩
def R.TIERC_LOC_r_TARGET : Fld := ⟨0x200, 11, 0, 0x0⟩
def R.TIERC_BASE_r_BASE : Fld := ⟨0x208, 51, 30, 0x0⟩
def R.COVE_CTL_RESULT : Fld := ⟨0x100, 11, 8, 0x0⟩
def R.COVE_CTL_OP : Fld := ⟨0x100, 5, 4, 0x0⟩
def R.COVE_CTL_STATE : Fld := ⟨0x100, 2, 0, 0x0⟩
def R.COVE_CFG_WEIGHT : Fld := ⟨0x108, 39, 32, 0x10⟩
def R.COVE_CFG_HOST_PORT : Fld := ⟨0x108, 11, 8, 0xF⟩
def R.COVE_CFG_PEER_ACCEPT : Fld := ⟨0x108, 2, 2, 0x0⟩
def R.COVE_CFG_STRICT : Fld := ⟨0x108, 1, 1, 0x0⟩
def R.COVE_CFG_MODE : Fld := ⟨0x108, 0, 0, 0x0⟩
def R.COVE_FRAMES_N : Fld := ⟨0x110, 42, 32, 0x0⟩
def R.COVE_FRAMES_FB : Fld := ⟨0x110, 9, 0, 0x0⟩
def R.COVE_PT_ROOT_ROOT : Fld := ⟨0x118, 51, 21, 0x0⟩
def R.COVE_PT_ROOT_V : Fld := ⟨0x118, 0, 0, 0x0⟩
def R.COVE_MOOR_USED : Fld := ⟨0x120, 56, 32, 0x0⟩
def R.COVE_MOOR_BUDGET : Fld := ⟨0x120, 24, 0, 0x0⟩
def R.COVE_SEM_COUNT : Fld := ⟨0x128, 44, 32, 0x0⟩
def R.COVE_SEM_BASE : Fld := ⟨0x128, 11, 0, 0x0⟩
def R.COVE_CTX_COUNT : Fld := ⟨0x130, 43, 32, 0x0⟩
def R.COVE_CTX_BASE : Fld := ⟨0x130, 11, 0, 0x0⟩
def R.COVE_SAVE_USED_MIB : Fld := ⟨0x138, 53, 32, 0x0⟩
def R.COVE_SAVE_FRAMES : Fld := ⟨0x138, 10, 0, 0x0⟩
def R.COVE_SLOWDOWN_EDGE : Fld := ⟨0x140, 63, 56, 0x0⟩
def R.COVE_SLOWDOWN_ENGINE : Fld := ⟨0x140, 55, 48, 0x0⟩
def R.COVE_SLOWDOWN_TIDEWAY : Fld := ⟨0x140, 47, 40, 0x0⟩
def R.COVE_SLOWDOWN_COMMONS : Fld := ⟨0x140, 39, 32, 0x0⟩
def R.COVE_SLOWDOWN_MESH : Fld := ⟨0x140, 31, 24, 0x0⟩
def R.COVE_SLOWDOWN_FACTOR : Fld := ⟨0x140, 15, 0, 0x100⟩
def R.COVE_ACCT_CORE_US : Fld := ⟨0x148, 63, 0, 0x0⟩
def R.COVE_ACCT_ENGINE_US : Fld := ⟨0x150, 63, 0, 0x0⟩
def R.COVE_CHANNELS_n_CH : Fld := ⟨0x200, 63, 0, 0x0⟩
def R.COVE_SLICES_n_SL : Fld := ⟨0x280, 63, 0, 0x0⟩
def R.COVE_CORES_n_CORE : Fld := ⟨0x2C0, 63, 0, 0x0⟩
def R.COMMONS_CFG_MIRROR : Fld := ⟨0x180, 8, 8, 0x0⟩
def R.COMMONS_CFG_C : Fld := ⟨0x180, 3, 0, 0x0⟩
def R.SCHED_CFG_HALF_LIFE_MS : Fld := ⟨0x188, 47, 32, 0x3E8⟩
def R.SCHED_CFG_QUANTUM_US : Fld := ⟨0x188, 15, 0, 0x7D0⟩
def R.GRANULE_SEL_INDEX : Fld := ⟨0x190, 14, 0, 0x0⟩
def R.GRANULE_VIEW_MODE : Fld := ⟨0x198, 9, 8, 0x0⟩
def R.GRANULE_VIEW_COVE : Fld := ⟨0x198, 5, 0, 0x0⟩
def R.GRANULE_MASK_COVES : Fld := ⟨0x1A0, 63, 0, 0x0⟩
def R.CTX_CFG_WEIGHT : Fld := ⟨0x100, 63, 56, 0x10⟩
def R.CTX_CFG_CLASS : Fld := ⟨0x100, 55, 54, 0x1⟩
def R.CTX_CFG_HORIZON_MS : Fld := ⟨0x100, 41, 32, 0x32⟩
def R.CTX_CFG_FAULT_VECTOR : Fld := ⟨0x100, 10, 0, 0x0⟩
def R.CTX_CTL_REFILL : Fld := ⟨0x108, 7, 7, 0x0⟩
def R.CTX_CTL_MX_REBASE : Fld := ⟨0x108, 6, 6, 0x0⟩
def R.CTX_CTL_OP : Fld := ⟨0x108, 2, 0, 0x0⟩
def R.CTX_STATE_COVE : Fld := ⟨0x110, 57, 52, 0x0⟩
def R.CTX_STATE_RUNNING : Fld := ⟨0x110, 47, 32, 0x0⟩
def R.CTX_STATE_CTL_REFUSED : Fld := ⟨0x110, 8, 8, 0x0⟩
def R.CTX_STATE_URGENT : Fld := ⟨0x110, 7, 7, 0x0⟩
def R.CTX_STATE_WAITING : Fld := ⟨0x110, 6, 6, 0x0⟩
def R.CTX_STATE_HELD_BY_SW : Fld := ⟨0x110, 5, 5, 0x0⟩
def R.CTX_STATE_STATE : Fld := ⟨0x110, 2, 0, 0x0⟩
def R.LAST_ERROR_VALUE : Fld := ⟨0x118, 63, 0, 0x0⟩
def R.CTX_BUFTAB_COUNT : Fld := ⟨0x120, 63, 48, 0x0⟩
def R.CTX_BUFTAB_BASE : Fld := ⟨0x120, 44, 0, 0x0⟩
def R.CTX_FAULT_VALID : Fld := ⟨0x128, 63, 63, 0x0⟩
def R.CTX_FAULT_RESUMABLE : Fld := ⟨0x128, 48, 48, 0x0⟩
def R.CTX_FAULT_CODE : Fld := ⟨0x128, 47, 40, 0x0⟩
def R.CTX_FAULT_LCORE : Fld := ⟨0x128, 25, 16, 0x0⟩
def R.CTX_ACCT_CORE_US : Fld := ⟨0x130, 63, 0, 0x0⟩
def R.CTX_ACCT_ENGINE_US : Fld := ⟨0x138, 63, 0, 0x0⟩
def R.CTX_SAVE_IMAGE_KIB : Fld := ⟨0x140, 31, 0, 0x0⟩
def R.PWR_CAP_WINDOW_S : Fld := ⟨0x100, 21, 16, 0x8⟩
def R.PWR_CAP_CAP_W : Fld := ⟨0x100, 12, 0, 0x1900⟩
def R.PWR_CTL_CORE_SHARE : Fld := ⟨0x108, 15, 8, 0x8E⟩
def R.PWR_CTL_PREWAKE : Fld := ⟨0x108, 2, 2, 0x1⟩
def R.PWR_CTL_SWELL_VF : Fld := ⟨0x108, 1, 1, 0x1⟩
def R.PWR_CTL_SWELL_EN : Fld := ⟨0x108, 0, 0, 0x1⟩
def R.PWR_STATUS_AVG_W : Fld := ⟨0x110, 63, 48, 0x0⟩
def R.PWR_STATUS_MS_W : Fld := ⟨0x110, 47, 32, 0x0⟩
def R.PWR_STATUS_CLOCK_MHZ : Fld := ⟨0x110, 31, 20, 0x708⟩
def R.PWR_STATUS_GATE : Fld := ⟨0x110, 19, 15, 0x10⟩
def R.PWR_STATUS_PACE : Fld := ⟨0x110, 14, 10, 0x10⟩
def R.PWR_STATUS_SWELL : Fld := ⟨0x110, 3, 3, 0x0⟩
def R.PWR_STATUS_STAGE : Fld := ⟨0x110, 2, 0, 0x0⟩
def R.PWR_BANK_BANK_J : Fld := ⟨0x118, 31, 0, 0x0⟩
def R.PWR_SWELL_REMAIN_US : Fld := ⟨0x120, 63, 32, 0x0⟩
def R.PWR_SWELL_COMMIT_MHZ : Fld := ⟨0x120, 31, 20, 0x0⟩
def R.PWR_SWELL_LEVEL_W : Fld := ⟨0x120, 12, 0, 0x0⟩
def R.PWR_INPUT_PEAK_CLR : Fld := ⟨0x128, 48, 48, 0x0⟩
def R.PWR_INPUT_PEAK_W : Fld := ⟨0x128, 47, 32, 0x0⟩
def R.PWR_INPUT_VIN_MV : Fld := ⟨0x128, 15, 0, 0x0⟩
def R.PWR_SLEEP_THR_D3_THR : Fld := ⟨0x130, 63, 48, 0x64⟩
def R.PWR_SLEEP_THR_C3_THR : Fld := ⟨0x130, 47, 32, 0x96⟩
def R.PWR_SLEEP_THR_C2_THR : Fld := ⟨0x130, 31, 16, 0x50⟩
def R.PWR_SLEEP_THR_C1_THR : Fld := ⟨0x130, 15, 0, 0x32⟩
def R.PWR_SLEEP_CTL_IDLE_DETECT : Fld := ⟨0x138, 15, 8, 0x20⟩
def R.PWR_SLEEP_CTL_MAX_STATE : Fld := ⟨0x138, 2, 0, 0x4⟩
def R.PWR_ERR_VALID : Fld := ⟨0x140, 63, 63, 0x0⟩
def R.PWR_ERR_KIND : Fld := ⟨0x140, 62, 59, 0x0⟩
def R.PWR_ERR_INFO : Fld := ⟨0x140, 47, 0, 0x0⟩
def R.ISL_STATE_TEMP_C : Fld := ⟨0x100, 39, 32, 0x0⟩
def R.ISL_STATE_CLOCK_MHZ : Fld := ⟨0x100, 31, 20, 0x0⟩
def R.ISL_STATE_THERM : Fld := ⟨0x100, 2, 2, 0x0⟩
def R.ISL_STATE_POWER : Fld := ⟨0x100, 1, 0, 0x0⟩
def R.ISL_DROOP_HOLD_CYC : Fld := ⟨0x108, 23, 16, 0x40⟩
def R.ISL_DROOP_THRESH_MV : Fld := ⟨0x108, 7, 0, 0x23⟩
def R.RAS_STATUS_LOST : Fld := ⟨0x100, 63, 63, 0x0⟩
def R.RAS_STATUS_BADPRIM : Fld := ⟨0x100, 47, 40, 0x0⟩
def R.RAS_STATUS_ISOLATED : Fld := ⟨0x100, 39, 32, 0x0⟩
def R.RAS_CFG_INT_CONTAINED : Fld := ⟨0x108, 1, 1, 0x0⟩
def R.RAS_CFG_LOG_CE : Fld := ⟨0x108, 0, 0, 0x0⟩
def R.RAS_LOG_STATE_HEAD : Fld := ⟨0x110, 41, 32, 0x0⟩
def R.RAS_LOG_STATE_SEQ : Fld := ⟨0x110, 31, 0, 0x0⟩
def R.RAS_LOG_SEL_SLOT : Fld := ⟨0x118, 9, 0, 0x0⟩
def R.RAS_BKT_SEL_CLASS : Fld := ⟨0x160, 18, 16, 0x0⟩
def R.RAS_BKT_SEL_INSTANCE : Fld := ⟨0x160, 15, 0, 0x0⟩
def R.RAS_BKT_VIEW_PERMANENT : Fld := ⟨0x168, 32, 32, 0x0⟩
def R.RAS_BKT_VIEW_LEVEL : Fld := ⟨0x168, 31, 0, 0x0⟩
def R.RAS_CSCRUB_PASS_DONE : Fld := ⟨0x170, 32, 32, 0x0⟩
def R.RAS_CSCRUB_PERIOD_H : Fld := ⟨0x170, 15, 0, 0x18⟩
def R.RAS_RETIRE_FULL : Fld := ⟨0x1A8, 9, 9, 0x0⟩
def R.RAS_RETIRE_COUNT : Fld := ⟨0x1A8, 8, 0, 0x0⟩
def R.RAS_REC_WORD : Fld := ⟨0x120, 63, 0, 0x0⟩
def R.RAS_BKT_CFG_c_WEIGHT_HI : Fld := ⟨0x180, 63, 50, 0x0⟩
def R.RAS_BKT_CFG_c_PERIOD : Fld := ⟨0x180, 48, 48, 0x0⟩
def R.RAS_BKT_CFG_c_LEAK : Fld := ⟨0x180, 47, 32, 0x0⟩
def R.RAS_BKT_CFG_c_LIMIT : Fld := ⟨0x180, 31, 0, 0x0⟩
def R.SEC_STAGE_FAILED : Fld := ⟨0x100, 63, 63, 0x0⟩
def R.SEC_STAGE_RECOVERY : Fld := ⟨0x100, 62, 62, 0x0⟩
def R.SEC_STAGE_ELAPSED_MS : Fld := ⟨0x100, 47, 32, 0x0⟩
def R.SEC_STAGE_REASON : Fld := ⟨0x100, 15, 8, 0x0⟩
def R.SEC_STAGE_STAGE : Fld := ⟨0x100, 3, 0, 0x0⟩
def R.SEC_BOOT_SVN : Fld := ⟨0x108, 47, 32, 0x0⟩
def R.SEC_BOOT_FW_MAJOR : Fld := ⟨0x108, 31, 24, 0x0⟩
def R.SEC_BOOT_FW_MINOR : Fld := ⟨0x108, 23, 16, 0x0⟩
def R.SEC_BOOT_SLOT_FALLBACK : Fld := ⟨0x108, 8, 8, 0x0⟩
def R.SEC_BOOT_PENDING : Fld := ⟨0x108, 1, 1, 0x0⟩
def R.SEC_BOOT_SLOT : Fld := ⟨0x108, 0, 0, 0x0⟩
def R.SEC_DEBUG_UNLOCKS_LEFT : Fld := ⟨0x110, 37, 32, 0x0⟩
def R.SEC_DEBUG_SCOPE : Fld := ⟨0x110, 11, 8, 0x0⟩
def R.SEC_DEBUG_PASSWORD_USED : Fld := ⟨0x110, 1, 1, 0x0⟩
def R.SEC_DEBUG_OPEN : Fld := ⟨0x110, 0, 0, 0x0⟩
def R.SEC_KEY_CTL_BUSY : Fld := ⟨0x118, 16, 16, 0x0⟩
def R.SEC_KEY_CTL_RESULT : Fld := ⟨0x118, 15, 12, 0x0⟩
def R.SEC_KEY_CTL_OP : Fld := ⟨0x118, 9, 8, 0x0⟩
def R.SEC_KEY_CTL_SLOT : Fld := ⟨0x118, 6, 0, 0x0⟩
def R.SEC_LOG_SEL_COUNT : Fld := ⟨0x150, 16, 8, 0x0⟩
def R.SEC_LOG_SEL_ENTRY : Fld := ⟨0x150, 7, 0, 0x0⟩
def R.SEC_LOG_VIEW_0_WORD : Fld := ⟨0x158, 63, 0, 0x0⟩
def R.SEC_LOG_VIEW_1_WORD : Fld := ⟨0x160, 63, 0, 0x0⟩
def R.SEC_IMPORT_ROOT_n_HASH : Fld := ⟨0x120, 63, 0, 0x0⟩
def R.SEC_DIEMAP_S_SITE_0 : Fld := ⟨0x200, 7, 0, 0x0⟩
def R.SEC_DIEMAP_S_SITE_1 : Fld := ⟨0x200, 15, 8, 0x0⟩
def R.SEC_DIEMAP_S_SITE_2 : Fld := ⟨0x200, 23, 16, 0x0⟩
def R.SEC_DIEMAP_S_SITE_3 : Fld := ⟨0x200, 31, 24, 0x0⟩
def R.SEC_DIEMAP_S_SITE_4 : Fld := ⟨0x200, 39, 32, 0x0⟩
def R.TMK_CFG_CLOSE_NOW : Fld := ⟨0x100, 16, 16, 0x0⟩
def R.TMK_CFG_PERIOD_MIN : Fld := ⟨0x100, 10, 0, 0x3C⟩
def R.TMK_STATE_ERASING : Fld := ⟨0x108, 49, 49, 0x0⟩
def R.TMK_STATE_CLEAR_BUSY : Fld := ⟨0x108, 48, 48, 0x0⟩
def R.TMK_STATE_LEDGER_USED : Fld := ⟨0x108, 38, 32, 0x0⟩
def R.TMK_STATE_CIRC_VALID : Fld := ⟨0x108, 26, 16, 0x0⟩
def R.TMK_STATE_PERM_USED : Fld := ⟨0x108, 10, 0, 0x0⟩
def R.TMK_SEQ_RESETS : Fld := ⟨0x110, 63, 32, 0x0⟩
def R.TMK_SEQ_NEXT_SEQ : Fld := ⟨0x110, 31, 0, 0x0⟩
def R.TMK_SEL_VALID : Fld := ⟨0x118, 63, 63, 0x0⟩
def R.TMK_SEL_TORN : Fld := ⟨0x118, 62, 62, 0x0⟩
def R.TMK_SEL_AREA : Fld := ⟨0x118, 17, 16, 0x0⟩
def R.TMK_SEL_SLOT : Fld := ⟨0x118, 10, 0, 0x0⟩
def R.TMK_ERR_VALID : Fld := ⟨0x120, 63, 63, 0x0⟩
def R.TMK_ERR_KIND : Fld := ⟨0x120, 62, 60, 0x0⟩
def R.TMK_ERR_AREA : Fld := ⟨0x120, 12, 11, 0x0⟩
def R.TMK_ERR_SLOT : Fld := ⟨0x120, 10, 0, 0x0⟩
def R.TMK_REC_w_WORD : Fld := ⟨0x200, 63, 0, 0x0⟩
def R.SYS_SERIAL_SERIAL : Fld := ⟨0x100, 63, 0, 0x0⟩
def R.SYS_CAPACITY_PENDING : Fld := ⟨0x108, 58, 48, 0x0⟩
def R.SYS_CAPACITY_FRAMES : Fld := ⟨0x108, 42, 32, 0x0⟩
def R.SYS_CAPACITY_CORES : Fld := ⟨0x108, 26, 16, 0x0⟩
def R.SYS_CAPACITY_DIES : Fld := ⟨0x108, 6, 0, 0x0⟩
def R.SYS_MAPCHG_GEN : Fld := ⟨0x110, 31, 0, 0x0⟩
def R.SYS_UPTIME_US : Fld := ⟨0x118, 63, 0, 0x0⟩
def R.SYS_ERR_SUMMARY_CLASS : Fld := ⟨0x120, 18, 0, 0x0⟩
def R.SYS_LDIE_L_PRESENT : Fld := ⟨0x200, 8, 8, 0x0⟩
def R.SYS_LDIE_L_PDIE : Fld := ⟨0x200, 6, 0, 0x0⟩
def R.UNIT_ID_PART : Fld := ⟨0x000, 63, 48, 0x4B39⟩
def R.UNIT_ID_CLASS : Fld := ⟨0x000, 47, 43, 0x0⟩
def R.UNIT_ID_INSTANCE : Fld := ⟨0x000, 42, 32, 0x0⟩
def R.UNIT_ID_UREV : Fld := ⟨0x000, 15, 8, 0x0⟩
def R.UNIT_ID_STEPPING : Fld := ⟨0x000, 7, 0, 0xB0⟩
def R.UNIT_CAPS_EVT_PAIRS : Fld := ⟨0x008, 23, 16, 0x4⟩
def R.UNIT_CAPS_INJECT : Fld := ⟨0x008, 0, 0, 0x0⟩
def R.UNIT_CTRL_ERRCNT_CLR : Fld := ⟨0x010, 2, 2, 0x0⟩
def R.UNIT_CTRL_EVT_FREEZE : Fld := ⟨0x010, 1, 1, 0x0⟩
def R.UNIT_CTRL_EVT_CLR : Fld := ⟨0x010, 0, 0, 0x0⟩
def R.UNIT_STATUS_ERR_PENDING : Fld := ⟨0x018, 2, 2, 0x0⟩
def R.UNIT_STATUS_LOCKED : Fld := ⟨0x018, 1, 1, 0x0⟩
def R.UNIT_STATUS_PRESENT : Fld := ⟨0x018, 0, 0, 0x0⟩
def R.ERR_STATUS_INJECTED : Fld := ⟨0x020, 5, 5, 0x0⟩
def R.ERR_STATUS_FAULT : Fld := ⟨0x020, 4, 4, 0x0⟩
def R.ERR_STATUS_UNRECORDED : Fld := ⟨0x020, 3, 3, 0x0⟩
def R.ERR_STATUS_PROTOCOL : Fld := ⟨0x020, 2, 2, 0x0⟩
def R.ERR_STATUS_UE : Fld := ⟨0x020, 1, 1, 0x0⟩
def R.ERR_STATUS_CE : Fld := ⟨0x020, 0, 0, 0x0⟩
def R.ERR_ENABLE_EN : Fld := ⟨0x028, 5, 0, 0x3F⟩
def R.ERR_FIRST_VALID : Fld := ⟨0x030, 63, 63, 0x0⟩
def R.ERR_FIRST_BIT : Fld := ⟨0x030, 55, 48, 0x0⟩
def R.ERR_FIRST_TICK : Fld := ⟨0x030, 47, 0, 0x0⟩
def R.ERR_INJECT_ARM : Fld := ⟨0x038, 8, 8, 0x0⟩
def R.ERR_INJECT_KIND : Fld := ⟨0x038, 1, 0, 0x0⟩
def R.ERR_COUNT_UNRECORDED : Fld := ⟨0x040, 63, 32, 0x0⟩
def R.ERR_COUNT_TOTAL : Fld := ⟨0x040, 31, 0, 0x0⟩
def R.LOCK_INJECT_LOCK : Fld := ⟨0x048, 1, 1, 0x0⟩
def R.LOCK_CFG_LOCK : Fld := ⟨0x048, 0, 0, 0x0⟩
def R.EVT_SEL_n_CODE : Fld := ⟨0x080, 7, 0, 0x0⟩
def R.EVT_COUNT_n_COUNT : Fld := ⟨0x088, 63, 0, 0x0⟩

/-! ### Registers, by unit -/

def regsCore : List RegDef :=
  [ { name := "CORE_MAP", cls := clsCore, off := 0x100, stride := 0, count := 1, lo := 0, hi := 1279, lock := false,
      fields := [⟨R.CORE_MAP_LCORE, .ro⟩, ⟨R.CORE_MAP_COVE, .ro⟩, ⟨R.CORE_MAP_COVE_VALID, .ro⟩, ⟨R.CORE_MAP_ACTIVE, .ro⟩] },
    { name := "CORE_STATE", cls := clsCore, off := 0x108, stride := 0, count := 1, lo := 0, hi := 1279, lock := false,
      fields := [⟨R.CORE_STATE_RES_GROUPS, .ro⟩, ⟨R.CORE_STATE_RES_BLOCKS, .ro⟩, ⟨R.CORE_STATE_SPLIT, .ro⟩, ⟨R.CORE_STATE_FAULTED, .ro⟩, ⟨R.CORE_STATE_SLEEP, .ro⟩] },
    { name := "ISSUE_CTL", cls := clsCore, off := 0x110, stride := 0, count := 1, lo := 0, hi := 1279, lock := true,
      fields := [⟨R.ISSUE_CTL_AGE_LIMIT, .rw⟩, ⟨R.ISSUE_CTL_NO_DUAL, .rw⟩, ⟨R.ISSUE_CTL_NO_SAME_GROUP, .rw⟩, ⟨R.ISSUE_CTL_OLDEST_ONLY, .rw⟩] },
    { name := "RECONV_HWM", cls := clsCore, off := 0x118, stride := 0, count := 1, lo := 0, hi := 1279, lock := false,
      fields := [⟨R.RECONV_HWM_HWM_CLR, .wo⟩, ⟨R.RECONV_HWM_DEPTH_HWM, .ro⟩] },
    { name := "FAULT_INFO", cls := clsCore, off := 0x120, stride := 0, count := 1, lo := 0, hi := 1279, lock := false,
      fields := [⟨R.FAULT_INFO_FAULT_CODE, .ro⟩, ⟨R.FAULT_INFO_VALID, .ro⟩, ⟨R.FAULT_INFO_RESUMABLE, .ro⟩, ⟨R.FAULT_INFO_SLOT, .ro⟩, ⟨R.FAULT_INFO_CTX, .ro⟩] },
    { name := "FAULT_PC", cls := clsCore, off := 0x128, stride := 0, count := 1, lo := 0, hi := 1279, lock := false,
      fields := [⟨R.FAULT_PC_PC, .ro⟩] },
    { name := "FAULT_MASK", cls := clsCore, off := 0x130, stride := 0, count := 1, lo := 0, hi := 1279, lock := false,
      fields := [⟨R.FAULT_MASK_MASK, .ro⟩] },
    { name := "FAULT_ADDR", cls := clsCore, off := 0x138, stride := 0, count := 1, lo := 0, hi := 1279, lock := false,
      fields := [⟨R.FAULT_ADDR_ADDR, .ro⟩] },
    { name := "MX_CTL", cls := clsCore, off := 0x300, stride := 0, count := 1, lo := 0, hi := 1279, lock := true,
      fields := [⟨R.MX_CTL_NO_OVERLAP, .rw⟩, ⟨R.MX_CTL_QDEPTH, .rw⟩] },
    { name := "MX_STATE", cls := clsCore, off := 0x308, stride := 0, count := 1, lo := 0, hi := 1279, lock := false,
      fields := [⟨R.MX_STATE_ACC_USED, .ro⟩, ⟨R.MX_STATE_OPEN_REGIONS, .ro⟩, ⟨R.MX_STATE_QUEUE, .ro⟩, ⟨R.MX_STATE_BUSY, .ro⟩] },
    { name := "MX_DIV_INFO", cls := clsCore, off := 0x310, stride := 0, count := 1, lo := 0, hi := 1279, lock := false,
      fields := [⟨R.MX_DIV_INFO_REC_MASK, .ro⟩] },
    { name := "MX_ACC_ERR", cls := clsCore, off := 0x318, stride := 0, count := 1, lo := 0, hi := 1279, lock := false,
      fields := [⟨R.MX_ACC_ERR_VALID, .rw1c⟩, ⟨R.MX_ACC_ERR_TILE, .ro⟩, ⟨R.MX_ACC_ERR_ROW, .ro⟩, ⟨R.MX_ACC_ERR_COL, .ro⟩] },
    { name := "EL_CTL", cls := clsCore, off := 0x400, stride := 0, count := 1, lo := 0, hi := 1279, lock := true,
      fields := [⟨R.EL_CTL_NO_PROG_BUF, .rw⟩, ⟨R.EL_CTL_SERIAL, .rw⟩, ⟨R.EL_CTL_QDEPTH, .rw⟩] },
    { name := "EL_STATE", cls := clsCore, off := 0x408, stride := 0, count := 1, lo := 0, hi := 1279, lock := false,
      fields := [⟨R.EL_STATE_TABLES, .ro⟩, ⟨R.EL_STATE_PROGS, .ro⟩, ⟨R.EL_STATE_QUEUE, .ro⟩, ⟨R.EL_STATE_BUSY, .ro⟩] },
    { name := "EL_ERR", cls := clsCore, off := 0x410, stride := 0, count := 1, lo := 0, hi := 1279, lock := false,
      fields := [⟨R.EL_ERR_VALID, .rw1c⟩, ⟨R.EL_ERR_SOURCE, .ro⟩, ⟨R.EL_ERR_SLOT, .ro⟩, ⟨R.EL_ERR_OFFSET, .ro⟩] },
    { name := "ATOM_CTL", cls := clsCore, off := 0x500, stride := 0, count := 1, lo := 0, hi := 1279, lock := true,
      fields := [⟨R.ATOM_CTL_PRED_CLEAR, .wo⟩, ⟨R.ATOM_CTL_PRED_MODE, .rw⟩] },
    { name := "SCOPE_MM_INFO", cls := clsCore, off := 0x508, stride := 0, count := 1, lo := 0, hi := 1279, lock := false,
      fields := [⟨R.SCOPE_MM_INFO_VALID, .rw1c⟩, ⟨R.SCOPE_MM_INFO_TAG_SCOPE, .ro⟩, ⟨R.SCOPE_MM_INFO_REL_LCORE, .ro⟩, ⟨R.SCOPE_MM_INFO_REL_BLOCK, .ro⟩, ⟨R.SCOPE_MM_INFO_REL_SLOT, .ro⟩, ⟨R.SCOPE_MM_INFO_ACQ_SLOT, .ro⟩] },
    { name := "SCOPE_MM_PC", cls := clsCore, off := 0x510, stride := 0, count := 1, lo := 0, hi := 1279, lock := false,
      fields := [⟨R.SCOPE_MM_PC_PC, .ro⟩] },
    { name := "L1_CTL", cls := clsCore, off := 0x200, stride := 0, count := 1, lo := 0, hi := 1279, lock := true,
      fields := [⟨R.L1_CTL_MISS_LIMIT, .rw⟩, ⟨R.L1_CTL_FULL_LINE_FETCH, .rw⟩, ⟨R.L1_CTL_NO_MERGE, .rw⟩, ⟨R.L1_CTL_NO_FULL_SECTOR_WRITE, .rw⟩] },
    { name := "L1_STATE", cls := clsCore, off := 0x208, stride := 0, count := 1, lo := 0, hi := 1279, lock := false,
      fields := [⟨R.L1_STATE_VALID_LINES, .ro⟩, ⟨R.L1_STATE_MISS_BUSY, .ro⟩, ⟨R.L1_STATE_REPLAY, .ro⟩, ⟨R.L1_STATE_SPLIT_BUSY, .ro⟩, ⟨R.L1_STATE_L1_WAYS, .ro⟩] },
    { name := "SP_MAP", cls := clsCore, off := 0x210, stride := 0, count := 1, lo := 0, hi := 1279, lock := false,
      fields := [⟨R.SP_MAP_LAND_SLOTS, .ro⟩, ⟨R.SP_MAP_LAND_KIB, .ro⟩, ⟨R.SP_MAP_USED_KIB, .ro⟩] },
    { name := "L1_MAINT", cls := clsCore, off := 0x218, stride := 0, count := 1, lo := 0, hi := 1279, lock := false,
      fields := [⟨R.L1_MAINT_REFUSED, .rw1c⟩, ⟨R.L1_MAINT_BUSY, .ro⟩, ⟨R.L1_MAINT_OP, .wo⟩] },
    { name := "L1_ERR", cls := clsCore, off := 0x220, stride := 0, count := 1, lo := 0, hi := 1279, lock := false,
      fields := [⟨R.L1_ERR_VALID, .rw1c⟩, ⟨R.L1_ERR_SOURCE, .ro⟩, ⟨R.L1_ERR_ADDR, .ro⟩] },
    { name := "LAND_STATE", cls := clsCore, off := 0x600, stride := 0, count := 1, lo := 0, hi := 1279, lock := false,
      fields := [⟨R.LAND_STATE_FULL, .ro⟩, ⟨R.LAND_STATE_FILLING, .ro⟩, ⟨R.LAND_STATE_RESERVED, .ro⟩] },
    { name := "LAND_SEL", cls := clsCore, off := 0x608, stride := 0, count := 1, lo := 0, hi := 1279, lock := false,
      fields := [⟨R.LAND_SEL_SLOT, .rw⟩] },
    { name := "LAND_VIEW", cls := clsCore, off := 0x610, stride := 0, count := 1, lo := 0, hi := 1279, lock := false,
      fields := [⟨R.LAND_VIEW_OWNER, .ro⟩, ⟨R.LAND_VIEW_QUOTA, .ro⟩, ⟨R.LAND_VIEW_READS, .ro⟩, ⟨R.LAND_VIEW_POISON, .ro⟩, ⟨R.LAND_VIEW_STATE, .ro⟩, ⟨R.LAND_VIEW_PLAN, .ro⟩] } ]

def regsHome : List RegDef :=
  [ { name := "HOME_CFG", cls := clsHome, off := 0x100, stride := 0, count := 1, lo := 0, hi := 511, lock := true,
      fields := [⟨R.HOME_CFG_PTR_LIMIT, .rw⟩, ⟨R.HOME_CFG_NO_E_GRANT, .rw⟩] },
    { name := "HOME_STATE", cls := clsHome, off := 0x108, stride := 0, count := 1, lo := 0, hi := 511, lock := false,
      fields := [⟨R.HOME_STATE_CQ_USED, .ro⟩, ⟨R.HOME_STATE_TXN_USED, .ro⟩, ⟨R.HOME_STATE_BUSY, .ro⟩] },
    { name := "HOME_PERR", cls := clsHome, off := 0x110, stride := 0, count := 1, lo := 0, hi := 511, lock := false,
      fields := [⟨R.HOME_PERR_VALID, .rw1c⟩, ⟨R.HOME_PERR_TYPE, .ro⟩, ⟨R.HOME_PERR_SRC, .ro⟩, ⟨R.HOME_PERR_LINE, .ro⟩] },
    { name := "HOME_DERR", cls := clsHome, off := 0x118, stride := 0, count := 1, lo := 0, hi := 511, lock := false,
      fields := [⟨R.HOME_DERR_VALID, .rw1c⟩, ⟨R.HOME_DERR_RECOVERED, .ro⟩, ⟨R.HOME_DERR_LINE, .ro⟩] } ]

def regsSlice : List RegDef :=
  [ { name := "SLICE_CFG", cls := clsSlice, off := 0x100, stride := 0, count := 1, lo := 0, hi := 511, lock := false,
      fields := [⟨R.SLICE_CFG_ROLE, .ro⟩, ⟨R.SLICE_CFG_COVE, .ro⟩] },
    { name := "SLICE_STATE", cls := clsSlice, off := 0x108, stride := 0, count := 1, lo := 0, hi := 511, lock := false,
      fields := [⟨R.SLICE_STATE_VALID_LINES, .ro⟩, ⟨R.SLICE_STATE_DIRTY_LINES, .ro⟩] },
    { name := "SLICE_ERR", cls := clsSlice, off := 0x110, stride := 0, count := 1, lo := 0, hi := 511, lock := false,
      fields := [⟨R.SLICE_ERR_VALID, .rw1c⟩, ⟨R.SLICE_ERR_SOURCE, .ro⟩, ⟨R.SLICE_ERR_SECTORS, .ro⟩, ⟨R.SLICE_ERR_LINE, .ro⟩] },
    { name := "SHELF_CARVE_STATE", cls := clsSlice, off := 0x200, stride := 0, count := 1, lo := 0, hi := 511, lock := false,
      fields := [⟨R.SHELF_CARVE_STATE_WINDOW_K, .ro⟩, ⟨R.SHELF_CARVE_STATE_CARVE_BUSY, .ro⟩, ⟨R.SHELF_CARVE_STATE_WAYS, .ro⟩] },
    { name := "MOOR_STATE", cls := clsSlice, off := 0x208, stride := 0, count := 1, lo := 0, hi := 511, lock := false,
      fields := [⟨R.MOOR_STATE_MAX_SET, .ro⟩, ⟨R.MOOR_STATE_MOORED_LINES, .ro⟩] },
    { name := "GHOST_CFG", cls := clsSlice, off := 0x210, stride := 0, count := 1, lo := 0, hi := 511, lock := true,
      fields := [⟨R.GHOST_CFG_STRICT, .rw⟩] },
    { name := "GHOST_STATE", cls := clsSlice, off := 0x218, stride := 0, count := 1, lo := 0, hi := 511, lock := false,
      fields := [⟨R.GHOST_STATE_HWM_CLR, .wo⟩, ⟨R.GHOST_STATE_HWM, .ro⟩, ⟨R.GHOST_STATE_LIVE, .ro⟩] },
    { name := "GHOST_INFO", cls := clsSlice, off := 0x220, stride := 0, count := 1, lo := 0, hi := 511, lock := false,
      fields := [⟨R.GHOST_INFO_VALID, .rw1c⟩, ⟨R.GHOST_INFO_STRICT_HIT, .ro⟩, ⟨R.GHOST_INFO_SRC, .ro⟩, ⟨R.GHOST_INFO_LINE, .ro⟩] } ]

def regsHbmc : List RegDef :=
  [ { name := "HBMC_MAP", cls := clsHbmc, off := 0x100, stride := 0, count := 1, lo := 0, hi := 1023, lock := false,
      fields := [⟨R.HBMC_MAP_INDEX, .ro⟩, ⟨R.HBMC_MAP_MODE, .ro⟩, ⟨R.HBMC_MAP_KEY_SLOT, .ro⟩, ⟨R.HBMC_MAP_COVE, .ro⟩, ⟨R.HBMC_MAP_OWNER, .ro⟩, ⟨R.HBMC_MAP_STATE, .ro⟩] },
    { name := "HBMC_CLEAR", cls := clsHbmc, off := 0x108, stride := 0, count := 1, lo := 0, hi := 1023, lock := false,
      fields := [⟨R.HBMC_CLEAR_DONE_MIB, .ro⟩, ⟨R.HBMC_CLEAR_BUSY, .ro⟩] },
    { name := "HBMC_SCRUB", cls := clsHbmc, off := 0x110, stride := 0, count := 1, lo := 0, hi := 1023, lock := true,
      fields := [⟨R.HBMC_SCRUB_POSITION, .ro⟩, ⟨R.HBMC_SCRUB_PASS_DONE, .rw1c⟩, ⟨R.HBMC_SCRUB_PERIOD, .rw⟩] },
    { name := "HBMC_UE", cls := clsHbmc, off := 0x118, stride := 0, count := 1, lo := 0, hi := 1023, lock := false,
      fields := [⟨R.HBMC_UE_VALID, .rw1c⟩, ⟨R.HBMC_UE_SCRUB, .ro⟩, ⟨R.HBMC_UE_SECTORS, .ro⟩, ⟨R.HBMC_UE_SYMBOLS, .ro⟩, ⟨R.HBMC_UE_BURST, .ro⟩] } ]

def regsNoc : List RegDef :=
  [ { name := "NOC_CFG", cls := clsNoc, off := 0x100, stride := 0, count := 1, lo := 0, hi := 255, lock := true,
      fields := [⟨R.NOC_CFG_BULK_SHARE, .rw⟩] },
    { name := "NOC_LINK_OCC", cls := clsNoc, off := 0x108, stride := 0, count := 1, lo := 0, hi := 255, lock := false,
      fields := [⟨R.NOC_LINK_OCC_IO, .ro⟩, ⟨R.NOC_LINK_OCC_SLICE, .ro⟩, ⟨R.NOC_LINK_OCC_CORE, .ro⟩, ⟨R.NOC_LINK_OCC_W, .ro⟩, ⟨R.NOC_LINK_OCC_S, .ro⟩, ⟨R.NOC_LINK_OCC_E, .ro⟩, ⟨R.NOC_LINK_OCC_N, .ro⟩] },
    { name := "NOC_RED_STATE", cls := clsNoc, off := 0x110, stride := 0, count := 1, lo := 0, hi := 255, lock := false,
      fields := [⟨R.NOC_RED_STATE_SLOTS_USED, .ro⟩, ⟨R.NOC_RED_STATE_ACTIVE, .ro⟩] },
    { name := "NOC_ERR", cls := clsNoc, off := 0x118, stride := 0, count := 1, lo := 0, hi := 255, lock := false,
      fields := [⟨R.NOC_ERR_VALID, .rw1c⟩, ⟨R.NOC_ERR_SOURCE, .ro⟩, ⟨R.NOC_ERR_NODE, .ro⟩] } ]

def regsSpindle : List RegDef :=
  [ { name := "SPN_CTL", cls := clsSpindle, off := 0x100, stride := 0, count := 1, lo := 0, hi := 15, lock := true,
      fields := [⟨R.SPN_CTL_MAX_INFLIGHT, .rw⟩] },
    { name := "SPN_STATE", cls := clsSpindle, off := 0x108, stride := 0, count := 1, lo := 0, hi := 15, lock := false,
      fields := [⟨R.SPN_STATE_POISON_ENTRIES, .ro⟩, ⟨R.SPN_STATE_INFLIGHT, .ro⟩, ⟨R.SPN_STATE_STREAMS, .ro⟩] },
    { name := "SPN_SEAL_ERR", cls := clsSpindle, off := 0x110, stride := 0, count := 1, lo := 0, hi := 15, lock := false,
      fields := [⟨R.SPN_SEAL_ERR_VALID, .rw1c⟩, ⟨R.SPN_SEAL_ERR_OUTCOME, .ro⟩, ⟨R.SPN_SEAL_ERR_UE, .ro⟩, ⟨R.SPN_SEAL_ERR_ADDR, .ro⟩] },
    { name := "SPN_POISON_n", cls := clsSpindle, off := 0x200, stride := 8, count := 64, lo := 0, hi := 15, lock := false,
      fields := [⟨R.SPN_POISON_n_VALID, .ro⟩, ⟨R.SPN_POISON_n_ADDR, .ro⟩] } ]

def regsTide : List RegDef :=
  [ { name := "TIDE_NOW", cls := clsTide, off := 0x100, stride := 0, count := 1, lo := 0, hi := 0, lock := false,
      fields := [⟨R.TIDE_NOW_TICK, .ro⟩] },
    { name := "TIDE_PHASE", cls := clsTide, off := 0x108, stride := 0, count := 1, lo := 0, hi := 0, lock := false,
      fields := [⟨R.TIDE_PHASE_PHASE, .ro⟩] },
    { name := "TIDE_ALIGN", cls := clsTide, off := 0x110, stride := 0, count := 1, lo := 0, hi := 0, lock := false,
      fields := [⟨R.TIDE_ALIGN_OFFSET, .ro⟩, ⟨R.TIDE_ALIGN_HOPS, .ro⟩, ⟨R.TIDE_ALIGN_UPSTREAM, .ro⟩, ⟨R.TIDE_ALIGN_STATE, .ro⟩] },
    { name := "TIDE_SYNC_CFG", cls := clsTide, off := 0x118, stride := 0, count := 1, lo := 0, hi := 0, lock := true,
      fields := [⟨R.TIDE_SYNC_CFG_HOLDOVER_LIMIT, .rw⟩, ⟨R.TIDE_SYNC_CFG_MASTER, .rw⟩] },
    { name := "TD_CFG", cls := clsTide, off := 0x100, stride := 0, count := 1, lo := 1, hi := 8, lock := false,
      fields := [⟨R.TD_CFG_DOMAIN_ID, .ro⟩, ⟨R.TD_CFG_WAIT_LIMIT, .ro⟩, ⟨R.TD_CFG_HOLD_LEAD, .ro⟩, ⟨R.TD_CFG_SPN_PLAT, .ro⟩, ⟨R.TD_CFG_WINDOW_LOG2, .ro⟩] },
    { name := "TD_STATE", cls := clsTide, off := 0x108, stride := 0, count := 1, lo := 1, hi := 8, lock := false,
      fields := [⟨R.TD_STATE_RANK, .ro⟩, ⟨R.TD_STATE_CTX, .ro⟩, ⟨R.TD_STATE_COVE, .ro⟩, ⟨R.TD_STATE_STATE, .ro⟩] },
    { name := "TD_EPOCH", cls := clsTide, off := 0x110, stride := 0, count := 1, lo := 1, hi := 8, lock := false,
      fields := [⟨R.TD_EPOCH_EPOCH, .ro⟩] },
    { name := "TD_HOLD", cls := clsTide, off := 0x118, stride := 0, count := 1, lo := 1, hi := 8, lock := false,
      fields := [⟨R.TD_HOLD_VALID, .ro⟩, ⟨R.TD_HOLD_BOUNDARY, .ro⟩] },
    { name := "TD_CTL", cls := clsTide, off := 0x120, stride := 0, count := 1, lo := 1, hi := 8, lock := false,
      fields := [⟨R.TD_CTL_HIST_CLR, .wo⟩] },
    { name := "TD_SLIP_MAX", cls := clsTide, off := 0x128, stride := 0, count := 1, lo := 1, hi := 8, lock := false,
      fields := [⟨R.TD_SLIP_MAX_LCORE, .ro⟩, ⟨R.TD_SLIP_MAX_SLOT, .ro⟩, ⟨R.TD_SLIP_MAX_CYCLES, .ro⟩] },
    { name := "TD_SLIP_TOTAL", cls := clsTide, off := 0x130, stride := 0, count := 1, lo := 1, hi := 8, lock := false,
      fields := [⟨R.TD_SLIP_TOTAL_CYCLES, .ro⟩] },
    { name := "TD_SEND_TOTAL", cls := clsTide, off := 0x138, stride := 0, count := 1, lo := 1, hi := 8, lock := false,
      fields := [⟨R.TD_SEND_TOTAL_CYCLES, .ro⟩] },
    { name := "TD_SLIP_HIST_n", cls := clsTide, off := 0x200, stride := 8, count := 16, lo := 1, hi := 8, lock := false,
      fields := [⟨R.TD_SLIP_HIST_n_COUNT, .ro⟩] },
    { name := "TD_SEND_HIST_n", cls := clsTide, off := 0x280, stride := 8, count := 16, lo := 1, hi := 8, lock := false,
      fields := [⟨R.TD_SEND_HIST_n_COUNT, .ro⟩] } ]

def regsTwp : List RegDef :=
  [ { name := "TWP_CFG", cls := clsTwp, off := 0x100, stride := 0, count := 1, lo := 0, hi := 23, lock := true,
      fields := [⟨R.TWP_CFG_ASYM_TRIM, .rw⟩, ⟨R.TWP_CFG_REPLAY_BUDGET, .rw⟩, ⟨R.TWP_CFG_REPLAY_TIMEOUT, .rw⟩, ⟨R.TWP_CFG_FORCE_RETRAIN, .wo⟩, ⟨R.TWP_CFG_DEGRADE_OK, .rw⟩, ⟨R.TWP_CFG_ENABLE, .rw⟩] },
    { name := "TWP_STATE", cls := clsTwp, off := 0x108, stride := 0, count := 1, lo := 0, hi := 23, lock := false,
      fields := [⟨R.TWP_STATE_DOWN_REASON, .ro⟩, ⟨R.TWP_STATE_SPARED, .ro⟩, ⟨R.TWP_STATE_WIDTH, .ro⟩, ⟨R.TWP_STATE_STATE, .ro⟩] },
    { name := "TWP_PARTNER", cls := clsTwp, off := 0x110, stride := 0, count := 1, lo := 0, hi := 23, lock := false,
      fields := [⟨R.TWP_PARTNER_PORT, .ro⟩, ⟨R.TWP_PARTNER_COORD, .ro⟩, ⟨R.TWP_PARTNER_SERIAL, .ro⟩] },
    { name := "TWP_LAT", cls := clsTwp, off := 0x118, stride := 0, count := 1, lo := 0, hi := 23, lock := false,
      fields := [⟨R.TWP_LAT_LAT_REF, .ro⟩, ⟨R.TWP_LAT_LAT_PS, .ro⟩] },
    { name := "TWP_LANES", cls := clsTwp, off := 0x120, stride := 0, count := 1, lo := 0, hi := 23, lock := false,
      fields := [⟨R.TWP_LANES_MARGIN, .ro⟩] },
    { name := "TWP_ERR", cls := clsTwp, off := 0x128, stride := 0, count := 1, lo := 0, hi := 23, lock := false,
      fields := [⟨R.TWP_ERR_VALID, .rw1c⟩, ⟨R.TWP_ERR_KIND, .ro⟩, ⟨R.TWP_ERR_LANE, .ro⟩, ⟨R.TWP_ERR_FSEQ, .ro⟩] },
    { name := "TWP_CABLE", cls := clsTwp, off := 0x130, stride := 0, count := 1, lo := 0, hi := 23, lock := false,
      fields := [⟨R.TWP_CABLE_OUI, .ro⟩, ⟨R.TWP_CABLE_LENGTH_DM, .ro⟩, ⟨R.TWP_CABLE_MEDIA, .ro⟩, ⟨R.TWP_CABLE_POWER_W, .ro⟩, ⟨R.TWP_CABLE_PRESENT, .ro⟩] },
    { name := "TORUS_CFG", cls := clsTwp, off := 0x100, stride := 0, count := 1, lo := 24, hi := 24, lock := true,
      fields := [⟨R.TORUS_CFG_DZM1, .rw⟩, ⟨R.TORUS_CFG_DYM1, .rw⟩, ⟨R.TORUS_CFG_DXM1, .rw⟩, ⟨R.TORUS_CFG_Z, .rw⟩, ⟨R.TORUS_CFG_Y, .rw⟩, ⟨R.TORUS_CFG_X, .rw⟩] },
    { name := "TORUS_STATE", cls := clsTwp, off := 0x108, stride := 0, count := 1, lo := 24, hi := 24, lock := false,
      fields := [⟨R.TORUS_STATE_RED_BUSY, .ro⟩, ⟨R.TORUS_STATE_RID, .ro⟩, ⟨R.TORUS_STATE_ACTIVE, .ro⟩] } ]

def regsCmdq : List RegDef :=
  [ { name := "Q_SQ_BASE", cls := clsCmdq, off := 0x100, stride := 32, count := 8, lo := 0, hi := 2047, lock := false,
      fields := [⟨R.Q_SQ_BASE_SPACE, .rw⟩, ⟨R.Q_SQ_BASE_BASE, .rw⟩] },
    { name := "Q_CQ_BASE", cls := clsCmdq, off := 0x108, stride := 32, count := 8, lo := 0, hi := 2047, lock := false,
      fields := [⟨R.Q_CQ_BASE_SPACE, .rw⟩, ⟨R.Q_CQ_BASE_BASE, .rw⟩] },
    { name := "Q_CFG", cls := clsCmdq, off := 0x110, stride := 32, count := 8, lo := 0, hi := 2047, lock := false,
      fields := [⟨R.Q_CFG_ENABLE, .rw⟩, ⟨R.Q_CFG_HALT_ON_ERR, .rw⟩, ⟨R.Q_CFG_RESUME, .wo⟩, ⟨R.Q_CFG_LOG2, .rw⟩, ⟨R.Q_CFG_COAL_COUNT, .rw⟩, ⟨R.Q_CFG_COAL_US, .rw⟩, ⟨R.Q_CFG_VECTOR, .rw⟩] },
    { name := "Q_STATE", cls := clsCmdq, off := 0x118, stride := 32, count := 8, lo := 0, hi := 2047, lock := false,
      fields := [⟨R.Q_STATE_HALTED, .ro⟩, ⟨R.Q_STATE_RING_FAULT, .ro⟩, ⟨R.Q_STATE_INFLIGHT, .ro⟩, ⟨R.Q_STATE_CQ_TAIL, .ro⟩, ⟨R.Q_STATE_SQ_HEAD, .ro⟩] } ]

def regsEdge : List RegDef :=
  [ { name := "EDGE_STATE", cls := clsEdge, off := 0x100, stride := 0, count := 1, lo := 0, hi := 7, lock := false,
      fields := [⟨R.EDGE_STATE_LINK_UP, .ro⟩, ⟨R.EDGE_STATE_FLIT, .ro⟩, ⟨R.EDGE_STATE_SPEED, .ro⟩, ⟨R.EDGE_STATE_WIDTH, .ro⟩, ⟨R.EDGE_STATE_CXL, .ro⟩, ⟨R.EDGE_STATE_PRIMARY, .ro⟩, ⟨R.EDGE_STATE_ROLE, .ro⟩] },
    { name := "EDGE_BAR4", cls := clsEdge, off := 0x108, stride := 0, count := 1, lo := 0, hi := 7, lock := false,
      fields := [⟨R.EDGE_BAR4_BASE, .rw⟩] },
    { name := "EDGE_ERR", cls := clsEdge, off := 0x110, stride := 0, count := 1, lo := 0, hi := 7, lock := false,
      fields := [⟨R.EDGE_ERR_VALID, .rw1c⟩, ⟨R.EDGE_ERR_KIND, .ro⟩, ⟨R.EDGE_ERR_RID, .ro⟩, ⟨R.EDGE_ERR_INFO, .ro⟩] },
    { name := "EDGE_ROLES", cls := clsEdge, off := 0x100, stride := 0, count := 1, lo := 8, hi := 8, lock := false,
      fields := [⟨R.EDGE_ROLES_ROLE, .rw⟩] },
    { name := "TIERB_CFG", cls := clsEdge, off := 0x108, stride := 0, count := 1, lo := 8, hi := 8, lock := false,
      fields := [⟨R.TIERB_CFG_ACTIVE, .ro⟩, ⟨R.TIERB_CFG_WAYS, .rw⟩] },
    { name := "TIERC_LOC_r", cls := clsEdge, off := 0x200, stride := 16, count := 16, lo := 8, hi := 8, lock := false,
      fields := [⟨R.TIERC_LOC_r_VALID, .rw⟩, ⟨R.TIERC_LOC_r_PORT, .rw⟩, ⟨R.TIERC_LOC_r_SIZE, .rw⟩, ⟨R.TIERC_LOC_r_TARGET, .rw⟩] },
    { name := "TIERC_BASE_r", cls := clsEdge, off := 0x208, stride := 16, count := 16, lo := 8, hi := 8, lock := false,
      fields := [⟨R.TIERC_BASE_r_BASE, .rw⟩] } ]

def regsCove : List RegDef :=
  [ { name := "COVE_CTL", cls := clsCove, off := 0x100, stride := 0, count := 1, lo := 0, hi := 64, lock := false,
      fields := [⟨R.COVE_CTL_RESULT, .ro⟩, ⟨R.COVE_CTL_OP, .wo⟩, ⟨R.COVE_CTL_STATE, .ro⟩] },
    { name := "COVE_CFG", cls := clsCove, off := 0x108, stride := 0, count := 1, lo := 0, hi := 64, lock := false,
      fields := [⟨R.COVE_CFG_WEIGHT, .rw⟩, ⟨R.COVE_CFG_HOST_PORT, .rw⟩, ⟨R.COVE_CFG_PEER_ACCEPT, .rw⟩, ⟨R.COVE_CFG_STRICT, .rw⟩, ⟨R.COVE_CFG_MODE, .rw⟩] },
    { name := "COVE_FRAMES", cls := clsCove, off := 0x110, stride := 0, count := 1, lo := 0, hi := 64, lock := false,
      fields := [⟨R.COVE_FRAMES_N, .ro⟩, ⟨R.COVE_FRAMES_FB, .rw⟩] },
    { name := "COVE_PT_ROOT", cls := clsCove, off := 0x118, stride := 0, count := 1, lo := 0, hi := 64, lock := false,
      fields := [⟨R.COVE_PT_ROOT_ROOT, .rw⟩, ⟨R.COVE_PT_ROOT_V, .rw⟩] },
    { name := "COVE_MOOR", cls := clsCove, off := 0x120, stride := 0, count := 1, lo := 0, hi := 64, lock := false,
      fields := [⟨R.COVE_MOOR_USED, .ro⟩, ⟨R.COVE_MOOR_BUDGET, .rw⟩] },
    { name := "COVE_SEM", cls := clsCove, off := 0x128, stride := 0, count := 1, lo := 0, hi := 64, lock := false,
      fields := [⟨R.COVE_SEM_COUNT, .rw⟩, ⟨R.COVE_SEM_BASE, .rw⟩] },
    { name := "COVE_CTX", cls := clsCove, off := 0x130, stride := 0, count := 1, lo := 0, hi := 64, lock := false,
      fields := [⟨R.COVE_CTX_COUNT, .rw⟩, ⟨R.COVE_CTX_BASE, .rw⟩] },
    { name := "COVE_SAVE", cls := clsCove, off := 0x138, stride := 0, count := 1, lo := 0, hi := 64, lock := false,
      fields := [⟨R.COVE_SAVE_USED_MIB, .ro⟩, ⟨R.COVE_SAVE_FRAMES, .rw⟩] },
    { name := "COVE_SLOWDOWN", cls := clsCove, off := 0x140, stride := 0, count := 1, lo := 0, hi := 64, lock := false,
      fields := [⟨R.COVE_SLOWDOWN_EDGE, .ro⟩, ⟨R.COVE_SLOWDOWN_ENGINE, .ro⟩, ⟨R.COVE_SLOWDOWN_TIDEWAY, .ro⟩, ⟨R.COVE_SLOWDOWN_COMMONS, .ro⟩, ⟨R.COVE_SLOWDOWN_MESH, .ro⟩, ⟨R.COVE_SLOWDOWN_FACTOR, .ro⟩] },
    { name := "COVE_ACCT_CORE", cls := clsCove, off := 0x148, stride := 0, count := 1, lo := 0, hi := 64, lock := false,
      fields := [⟨R.COVE_ACCT_CORE_US, .ro⟩] },
    { name := "COVE_ACCT_ENGINE", cls := clsCove, off := 0x150, stride := 0, count := 1, lo := 0, hi := 64, lock := false,
      fields := [⟨R.COVE_ACCT_ENGINE_US, .ro⟩] },
    { name := "COVE_CHANNELS_n", cls := clsCove, off := 0x200, stride := 8, count := 16, lo := 0, hi := 64, lock := false,
      fields := [⟨R.COVE_CHANNELS_n_CH, .rw⟩] },
    { name := "COVE_SLICES_n", cls := clsCove, off := 0x280, stride := 8, count := 8, lo := 0, hi := 63, lock := false,
      fields := [⟨R.COVE_SLICES_n_SL, .rw⟩] },
    { name := "COVE_CORES_n", cls := clsCove, off := 0x2C0, stride := 8, count := 16, lo := 0, hi := 63, lock := false,
      fields := [⟨R.COVE_CORES_n_CORE, .rw⟩] },
    { name := "COMMONS_CFG", cls := clsCove, off := 0x180, stride := 0, count := 1, lo := 64, hi := 64, lock := true,
      fields := [⟨R.COMMONS_CFG_MIRROR, .rw⟩, ⟨R.COMMONS_CFG_C, .rw⟩] },
    { name := "SCHED_CFG", cls := clsCove, off := 0x188, stride := 0, count := 1, lo := 64, hi := 64, lock := true,
      fields := [⟨R.SCHED_CFG_HALF_LIFE_MS, .rw⟩, ⟨R.SCHED_CFG_QUANTUM_US, .rw⟩] },
    { name := "GRANULE_SEL", cls := clsCove, off := 0x190, stride := 0, count := 1, lo := 64, hi := 64, lock := false,
      fields := [⟨R.GRANULE_SEL_INDEX, .rw⟩] },
    { name := "GRANULE_VIEW", cls := clsCove, off := 0x198, stride := 0, count := 1, lo := 64, hi := 64, lock := false,
      fields := [⟨R.GRANULE_VIEW_MODE, .rw⟩, ⟨R.GRANULE_VIEW_COVE, .rw⟩] },
    { name := "GRANULE_MASK", cls := clsCove, off := 0x1A0, stride := 0, count := 1, lo := 64, hi := 64, lock := false,
      fields := [⟨R.GRANULE_MASK_COVES, .rw⟩] } ]

def regsCtx : List RegDef :=
  [ { name := "CTX_CFG", cls := clsCtx, off := 0x100, stride := 0, count := 1, lo := 0, hi := 2047, lock := false,
      fields := [⟨R.CTX_CFG_WEIGHT, .rw⟩, ⟨R.CTX_CFG_CLASS, .rw⟩, ⟨R.CTX_CFG_HORIZON_MS, .rw⟩, ⟨R.CTX_CFG_FAULT_VECTOR, .rw⟩] },
    { name := "CTX_CTL", cls := clsCtx, off := 0x108, stride := 0, count := 1, lo := 0, hi := 2047, lock := false,
      fields := [⟨R.CTX_CTL_REFILL, .wo⟩, ⟨R.CTX_CTL_MX_REBASE, .wo⟩, ⟨R.CTX_CTL_OP, .wo⟩] },
    { name := "CTX_STATE", cls := clsCtx, off := 0x110, stride := 0, count := 1, lo := 0, hi := 2047, lock := false,
      fields := [⟨R.CTX_STATE_COVE, .ro⟩, ⟨R.CTX_STATE_RUNNING, .ro⟩, ⟨R.CTX_STATE_CTL_REFUSED, .rw1c⟩, ⟨R.CTX_STATE_URGENT, .ro⟩, ⟨R.CTX_STATE_WAITING, .ro⟩, ⟨R.CTX_STATE_HELD_BY_SW, .ro⟩, ⟨R.CTX_STATE_STATE, .ro⟩] },
    { name := "LAST_ERROR", cls := clsCtx, off := 0x118, stride := 0, count := 1, lo := 0, hi := 2047, lock := false,
      fields := [⟨R.LAST_ERROR_VALUE, .ro⟩] },
    { name := "CTX_BUFTAB", cls := clsCtx, off := 0x120, stride := 0, count := 1, lo := 0, hi := 2047, lock := false,
      fields := [⟨R.CTX_BUFTAB_COUNT, .rw⟩, ⟨R.CTX_BUFTAB_BASE, .rw⟩] },
    { name := "CTX_FAULT", cls := clsCtx, off := 0x128, stride := 0, count := 1, lo := 0, hi := 2047, lock := false,
      fields := [⟨R.CTX_FAULT_VALID, .ro⟩, ⟨R.CTX_FAULT_RESUMABLE, .ro⟩, ⟨R.CTX_FAULT_CODE, .ro⟩, ⟨R.CTX_FAULT_LCORE, .ro⟩] },
    { name := "CTX_ACCT_CORE", cls := clsCtx, off := 0x130, stride := 0, count := 1, lo := 0, hi := 2047, lock := false,
      fields := [⟨R.CTX_ACCT_CORE_US, .ro⟩] },
    { name := "CTX_ACCT_ENGINE", cls := clsCtx, off := 0x138, stride := 0, count := 1, lo := 0, hi := 2047, lock := false,
      fields := [⟨R.CTX_ACCT_ENGINE_US, .ro⟩] },
    { name := "CTX_SAVE", cls := clsCtx, off := 0x140, stride := 0, count := 1, lo := 0, hi := 2047, lock := false,
      fields := [⟨R.CTX_SAVE_IMAGE_KIB, .ro⟩] } ]

def regsPwr : List RegDef :=
  [ { name := "PWR_CAP", cls := clsPwr, off := 0x100, stride := 0, count := 1, lo := 0, hi := 0, lock := true,
      fields := [⟨R.PWR_CAP_WINDOW_S, .rw⟩, ⟨R.PWR_CAP_CAP_W, .rw⟩] },
    { name := "PWR_CTL", cls := clsPwr, off := 0x108, stride := 0, count := 1, lo := 0, hi := 0, lock := true,
      fields := [⟨R.PWR_CTL_CORE_SHARE, .rw⟩, ⟨R.PWR_CTL_PREWAKE, .rw⟩, ⟨R.PWR_CTL_SWELL_VF, .rw⟩, ⟨R.PWR_CTL_SWELL_EN, .rw⟩] },
    { name := "PWR_STATUS", cls := clsPwr, off := 0x110, stride := 0, count := 1, lo := 0, hi := 0, lock := false,
      fields := [⟨R.PWR_STATUS_AVG_W, .ro⟩, ⟨R.PWR_STATUS_MS_W, .ro⟩, ⟨R.PWR_STATUS_CLOCK_MHZ, .ro⟩, ⟨R.PWR_STATUS_GATE, .ro⟩, ⟨R.PWR_STATUS_PACE, .ro⟩, ⟨R.PWR_STATUS_SWELL, .ro⟩, ⟨R.PWR_STATUS_STAGE, .ro⟩] },
    { name := "PWR_BANK", cls := clsPwr, off := 0x118, stride := 0, count := 1, lo := 0, hi := 0, lock := false,
      fields := [⟨R.PWR_BANK_BANK_J, .ro⟩] },
    { name := "PWR_SWELL", cls := clsPwr, off := 0x120, stride := 0, count := 1, lo := 0, hi := 0, lock := false,
      fields := [⟨R.PWR_SWELL_REMAIN_US, .ro⟩, ⟨R.PWR_SWELL_COMMIT_MHZ, .ro⟩, ⟨R.PWR_SWELL_LEVEL_W, .ro⟩] },
    { name := "PWR_INPUT", cls := clsPwr, off := 0x128, stride := 0, count := 1, lo := 0, hi := 0, lock := false,
      fields := [⟨R.PWR_INPUT_PEAK_CLR, .wo⟩, ⟨R.PWR_INPUT_PEAK_W, .ro⟩, ⟨R.PWR_INPUT_VIN_MV, .ro⟩] },
    { name := "PWR_SLEEP_THR", cls := clsPwr, off := 0x130, stride := 0, count := 1, lo := 0, hi := 0, lock := true,
      fields := [⟨R.PWR_SLEEP_THR_D3_THR, .rw⟩, ⟨R.PWR_SLEEP_THR_C3_THR, .rw⟩, ⟨R.PWR_SLEEP_THR_C2_THR, .rw⟩, ⟨R.PWR_SLEEP_THR_C1_THR, .rw⟩] },
    { name := "PWR_SLEEP_CTL", cls := clsPwr, off := 0x138, stride := 0, count := 1, lo := 0, hi := 0, lock := true,
      fields := [⟨R.PWR_SLEEP_CTL_IDLE_DETECT, .rw⟩, ⟨R.PWR_SLEEP_CTL_MAX_STATE, .rw⟩] },
    { name := "PWR_ERR", cls := clsPwr, off := 0x140, stride := 0, count := 1, lo := 0, hi := 0, lock := false,
      fields := [⟨R.PWR_ERR_VALID, .rw1c⟩, ⟨R.PWR_ERR_KIND, .ro⟩, ⟨R.PWR_ERR_INFO, .ro⟩] },
    { name := "ISL_STATE", cls := clsPwr, off := 0x100, stride := 0, count := 1, lo := 1, hi := 96, lock := false,
      fields := [⟨R.ISL_STATE_TEMP_C, .ro⟩, ⟨R.ISL_STATE_CLOCK_MHZ, .ro⟩, ⟨R.ISL_STATE_THERM, .ro⟩, ⟨R.ISL_STATE_POWER, .ro⟩] },
    { name := "ISL_DROOP", cls := clsPwr, off := 0x108, stride := 0, count := 1, lo := 1, hi := 96, lock := true,
      fields := [⟨R.ISL_DROOP_HOLD_CYC, .rw⟩, ⟨R.ISL_DROOP_THRESH_MV, .rw⟩] } ]

def regsRas : List RegDef :=
  [ { name := "RAS_STATUS", cls := clsRas, off := 0x100, stride := 0, count := 1, lo := 0, hi := 0, lock := false,
      fields := [⟨R.RAS_STATUS_LOST, .ro⟩, ⟨R.RAS_STATUS_BADPRIM, .ro⟩, ⟨R.RAS_STATUS_ISOLATED, .ro⟩] },
    { name := "RAS_CFG", cls := clsRas, off := 0x108, stride := 0, count := 1, lo := 0, hi := 0, lock := true,
      fields := [⟨R.RAS_CFG_INT_CONTAINED, .rw⟩, ⟨R.RAS_CFG_LOG_CE, .rw⟩] },
    { name := "RAS_LOG_STATE", cls := clsRas, off := 0x110, stride := 0, count := 1, lo := 0, hi := 0, lock := false,
      fields := [⟨R.RAS_LOG_STATE_HEAD, .ro⟩, ⟨R.RAS_LOG_STATE_SEQ, .ro⟩] },
    { name := "RAS_LOG_SEL", cls := clsRas, off := 0x118, stride := 0, count := 1, lo := 0, hi := 0, lock := false,
      fields := [⟨R.RAS_LOG_SEL_SLOT, .rw⟩] },
    { name := "RAS_BKT_SEL", cls := clsRas, off := 0x160, stride := 0, count := 1, lo := 0, hi := 0, lock := false,
      fields := [⟨R.RAS_BKT_SEL_CLASS, .rw⟩, ⟨R.RAS_BKT_SEL_INSTANCE, .rw⟩] },
    { name := "RAS_BKT_VIEW", cls := clsRas, off := 0x168, stride := 0, count := 1, lo := 0, hi := 0, lock := false,
      fields := [⟨R.RAS_BKT_VIEW_PERMANENT, .ro⟩, ⟨R.RAS_BKT_VIEW_LEVEL, .ro⟩] },
    { name := "RAS_CSCRUB", cls := clsRas, off := 0x170, stride := 0, count := 1, lo := 0, hi := 0, lock := true,
      fields := [⟨R.RAS_CSCRUB_PASS_DONE, .rw1c⟩, ⟨R.RAS_CSCRUB_PERIOD_H, .rw⟩] },
    { name := "RAS_RETIRE", cls := clsRas, off := 0x1A8, stride := 0, count := 1, lo := 0, hi := 0, lock := false,
      fields := [⟨R.RAS_RETIRE_FULL, .ro⟩, ⟨R.RAS_RETIRE_COUNT, .ro⟩] },
    { name := "RAS_REC", cls := clsRas, off := 0x120, stride := 8, count := 8, lo := 0, hi := 0, lock := false,
      fields := [⟨R.RAS_REC_WORD, .ro⟩] },
    { name := "RAS_BKT_CFG_c", cls := clsRas, off := 0x180, stride := 8, count := 5, lo := 0, hi := 0, lock := true,
      fields := [⟨R.RAS_BKT_CFG_c_WEIGHT_HI, .rw⟩, ⟨R.RAS_BKT_CFG_c_PERIOD, .rw⟩, ⟨R.RAS_BKT_CFG_c_LEAK, .rw⟩, ⟨R.RAS_BKT_CFG_c_LIMIT, .rw⟩] } ]

def regsSec : List RegDef :=
  [ { name := "SEC_STAGE", cls := clsSec, off := 0x100, stride := 0, count := 1, lo := 0, hi := 0, lock := false,
      fields := [⟨R.SEC_STAGE_FAILED, .ro⟩, ⟨R.SEC_STAGE_RECOVERY, .ro⟩, ⟨R.SEC_STAGE_ELAPSED_MS, .ro⟩, ⟨R.SEC_STAGE_REASON, .ro⟩, ⟨R.SEC_STAGE_STAGE, .ro⟩] },
    { name := "SEC_BOOT", cls := clsSec, off := 0x108, stride := 0, count := 1, lo := 0, hi := 0, lock := false,
      fields := [⟨R.SEC_BOOT_SVN, .ro⟩, ⟨R.SEC_BOOT_FW_MAJOR, .ro⟩, ⟨R.SEC_BOOT_FW_MINOR, .ro⟩, ⟨R.SEC_BOOT_SLOT_FALLBACK, .ro⟩, ⟨R.SEC_BOOT_PENDING, .ro⟩, ⟨R.SEC_BOOT_SLOT, .ro⟩] },
    { name := "SEC_DEBUG", cls := clsSec, off := 0x110, stride := 0, count := 1, lo := 0, hi := 0, lock := false,
      fields := [⟨R.SEC_DEBUG_UNLOCKS_LEFT, .ro⟩, ⟨R.SEC_DEBUG_SCOPE, .ro⟩, ⟨R.SEC_DEBUG_PASSWORD_USED, .ro⟩, ⟨R.SEC_DEBUG_OPEN, .ro⟩] },
    { name := "SEC_KEY_CTL", cls := clsSec, off := 0x118, stride := 0, count := 1, lo := 0, hi := 0, lock := false,
      fields := [⟨R.SEC_KEY_CTL_BUSY, .ro⟩, ⟨R.SEC_KEY_CTL_RESULT, .ro⟩, ⟨R.SEC_KEY_CTL_OP, .wo⟩, ⟨R.SEC_KEY_CTL_SLOT, .rw⟩] },
    { name := "SEC_LOG_SEL", cls := clsSec, off := 0x150, stride := 0, count := 1, lo := 0, hi := 0, lock := false,
      fields := [⟨R.SEC_LOG_SEL_COUNT, .ro⟩, ⟨R.SEC_LOG_SEL_ENTRY, .rw⟩] },
    { name := "SEC_LOG_VIEW_0", cls := clsSec, off := 0x158, stride := 0, count := 1, lo := 0, hi := 0, lock := false,
      fields := [⟨R.SEC_LOG_VIEW_0_WORD, .ro⟩] },
    { name := "SEC_LOG_VIEW_1", cls := clsSec, off := 0x160, stride := 0, count := 1, lo := 0, hi := 0, lock := false,
      fields := [⟨R.SEC_LOG_VIEW_1_WORD, .ro⟩] },
    { name := "SEC_IMPORT_ROOT_n", cls := clsSec, off := 0x120, stride := 8, count := 6, lo := 0, hi := 0, lock := false,
      fields := [⟨R.SEC_IMPORT_ROOT_n_HASH, .wl⟩] },
    { name := "SEC_DIEMAP_S", cls := clsSec, off := 0x200, stride := 8, count := 16, lo := 0, hi := 0, lock := false,
      fields := [⟨R.SEC_DIEMAP_S_SITE_0, .ro⟩, ⟨R.SEC_DIEMAP_S_SITE_1, .ro⟩, ⟨R.SEC_DIEMAP_S_SITE_2, .ro⟩, ⟨R.SEC_DIEMAP_S_SITE_3, .ro⟩, ⟨R.SEC_DIEMAP_S_SITE_4, .ro⟩] } ]

def regsTmk : List RegDef :=
  [ { name := "TMK_CFG", cls := clsTmk, off := 0x100, stride := 0, count := 1, lo := 0, hi := 0, lock := true,
      fields := [⟨R.TMK_CFG_CLOSE_NOW, .wo⟩, ⟨R.TMK_CFG_PERIOD_MIN, .rw⟩] },
    { name := "TMK_STATE", cls := clsTmk, off := 0x108, stride := 0, count := 1, lo := 0, hi := 0, lock := false,
      fields := [⟨R.TMK_STATE_ERASING, .ro⟩, ⟨R.TMK_STATE_CLEAR_BUSY, .ro⟩, ⟨R.TMK_STATE_LEDGER_USED, .ro⟩, ⟨R.TMK_STATE_CIRC_VALID, .ro⟩, ⟨R.TMK_STATE_PERM_USED, .ro⟩] },
    { name := "TMK_SEQ", cls := clsTmk, off := 0x110, stride := 0, count := 1, lo := 0, hi := 0, lock := false,
      fields := [⟨R.TMK_SEQ_RESETS, .ro⟩, ⟨R.TMK_SEQ_NEXT_SEQ, .ro⟩] },
    { name := "TMK_SEL", cls := clsTmk, off := 0x118, stride := 0, count := 1, lo := 0, hi := 0, lock := false,
      fields := [⟨R.TMK_SEL_VALID, .ro⟩, ⟨R.TMK_SEL_TORN, .ro⟩, ⟨R.TMK_SEL_AREA, .rw⟩, ⟨R.TMK_SEL_SLOT, .rw⟩] },
    { name := "TMK_ERR", cls := clsTmk, off := 0x120, stride := 0, count := 1, lo := 0, hi := 0, lock := false,
      fields := [⟨R.TMK_ERR_VALID, .rw1c⟩, ⟨R.TMK_ERR_KIND, .ro⟩, ⟨R.TMK_ERR_AREA, .ro⟩, ⟨R.TMK_ERR_SLOT, .ro⟩] },
    { name := "TMK_REC_w", cls := clsTmk, off := 0x200, stride := 8, count := 32, lo := 0, hi := 0, lock := false,
      fields := [⟨R.TMK_REC_w_WORD, .ro⟩] } ]

def regsSys : List RegDef :=
  [ { name := "SYS_SERIAL", cls := clsSys, off := 0x100, stride := 0, count := 1, lo := 0, hi := 0, lock := false,
      fields := [⟨R.SYS_SERIAL_SERIAL, .ro⟩] },
    { name := "SYS_CAPACITY", cls := clsSys, off := 0x108, stride := 0, count := 1, lo := 0, hi := 0, lock := false,
      fields := [⟨R.SYS_CAPACITY_PENDING, .ro⟩, ⟨R.SYS_CAPACITY_FRAMES, .ro⟩, ⟨R.SYS_CAPACITY_CORES, .ro⟩, ⟨R.SYS_CAPACITY_DIES, .ro⟩] },
    { name := "SYS_MAPCHG", cls := clsSys, off := 0x110, stride := 0, count := 1, lo := 0, hi := 0, lock := false,
      fields := [⟨R.SYS_MAPCHG_GEN, .ro⟩] },
    { name := "SYS_UPTIME", cls := clsSys, off := 0x118, stride := 0, count := 1, lo := 0, hi := 0, lock := false,
      fields := [⟨R.SYS_UPTIME_US, .ro⟩] },
    { name := "SYS_ERR_SUMMARY", cls := clsSys, off := 0x120, stride := 0, count := 1, lo := 0, hi := 0, lock := false,
      fields := [⟨R.SYS_ERR_SUMMARY_CLASS, .ro⟩] },
    { name := "SYS_LDIE_L", cls := clsSys, off := 0x200, stride := 8, count := 64, lo := 0, hi := 0, lock := false,
      fields := [⟨R.SYS_LDIE_L_PRESENT, .ro⟩, ⟨R.SYS_LDIE_L_PDIE, .ro⟩] } ]

def regsHdr : List RegDef :=
  [ { name := "UNIT_ID", cls := clsHdr, off := 0x000, stride := 0, count := 1, lo := 0, hi := 0, lock := false,
      fields := [⟨R.UNIT_ID_PART, .ro⟩, ⟨R.UNIT_ID_CLASS, .ro⟩, ⟨R.UNIT_ID_INSTANCE, .ro⟩, ⟨R.UNIT_ID_UREV, .ro⟩, ⟨R.UNIT_ID_STEPPING, .ro⟩] },
    { name := "UNIT_CAPS", cls := clsHdr, off := 0x008, stride := 0, count := 1, lo := 0, hi := 0, lock := false,
      fields := [⟨R.UNIT_CAPS_EVT_PAIRS, .ro⟩, ⟨R.UNIT_CAPS_INJECT, .ro⟩] },
    { name := "UNIT_CTRL", cls := clsHdr, off := 0x010, stride := 0, count := 1, lo := 0, hi := 0, lock := false,
      fields := [⟨R.UNIT_CTRL_ERRCNT_CLR, .wo⟩, ⟨R.UNIT_CTRL_EVT_FREEZE, .rw⟩, ⟨R.UNIT_CTRL_EVT_CLR, .wo⟩] },
    { name := "UNIT_STATUS", cls := clsHdr, off := 0x018, stride := 0, count := 1, lo := 0, hi := 0, lock := false,
      fields := [⟨R.UNIT_STATUS_ERR_PENDING, .ro⟩, ⟨R.UNIT_STATUS_LOCKED, .ro⟩, ⟨R.UNIT_STATUS_PRESENT, .ro⟩] },
    { name := "ERR_STATUS", cls := clsHdr, off := 0x020, stride := 0, count := 1, lo := 0, hi := 0, lock := false,
      fields := [⟨R.ERR_STATUS_INJECTED, .rw1c⟩, ⟨R.ERR_STATUS_FAULT, .rw1c⟩, ⟨R.ERR_STATUS_UNRECORDED, .rw1c⟩, ⟨R.ERR_STATUS_PROTOCOL, .rw1c⟩, ⟨R.ERR_STATUS_UE, .rw1c⟩, ⟨R.ERR_STATUS_CE, .rw1c⟩] },
    { name := "ERR_ENABLE", cls := clsHdr, off := 0x028, stride := 0, count := 1, lo := 0, hi := 0, lock := false,
      fields := [⟨R.ERR_ENABLE_EN, .rw⟩] },
    { name := "ERR_FIRST", cls := clsHdr, off := 0x030, stride := 0, count := 1, lo := 0, hi := 0, lock := false,
      fields := [⟨R.ERR_FIRST_VALID, .ro⟩, ⟨R.ERR_FIRST_BIT, .ro⟩, ⟨R.ERR_FIRST_TICK, .ro⟩] },
    { name := "ERR_INJECT", cls := clsHdr, off := 0x038, stride := 0, count := 1, lo := 0, hi := 0, lock := false,
      fields := [⟨R.ERR_INJECT_ARM, .rw⟩, ⟨R.ERR_INJECT_KIND, .rw⟩] },
    { name := "ERR_COUNT", cls := clsHdr, off := 0x040, stride := 0, count := 1, lo := 0, hi := 0, lock := false,
      fields := [⟨R.ERR_COUNT_UNRECORDED, .ro⟩, ⟨R.ERR_COUNT_TOTAL, .ro⟩] },
    { name := "LOCK", cls := clsHdr, off := 0x048, stride := 0, count := 1, lo := 0, hi := 0, lock := false,
      fields := [⟨R.LOCK_INJECT_LOCK, .wl⟩, ⟨R.LOCK_CFG_LOCK, .wl⟩] },
    { name := "EVT_SEL_n", cls := clsHdr, off := 0x080, stride := 32, count := 4, lo := 0, hi := 0, lock := false,
      fields := [⟨R.EVT_SEL_n_CODE, .rw⟩] },
    { name := "EVT_COUNT_n", cls := clsHdr, off := 0x088, stride := 32, count := 4, lo := 0, hi := 0, lock := false,
      fields := [⟨R.EVT_COUNT_n_COUNT, .ro⟩] } ]

/-- The registers of a class code beside the header. CTX takes two codes (R571). -/
def unitRegs (cls : Nat) : List RegDef :=
  match cls with
  | 0x00 => regsSys
  | 0x02 => regsSec
  | 0x03 => regsRas
  | 0x04 => regsTmk
  | 0x05 => regsPwr
  | 0x06 => regsTide
  | 0x07 => regsCove
  | 0x08 => regsCtx
  | 0x09 => regsCtx
  | 0x0A => regsCmdq
  | 0x0B => regsEdge
  | 0x0C => regsTwp
  | 0x0D => regsNoc
  | 0x0E => regsSpindle
  | 0x0F => regsHbmc
  | 0x10 => regsHome
  | 0x11 => regsSlice
  | 0x12 => regsCore
  | _ => []

/-- Instances of a class: the largest instance number (Table 21-1), or none for a reserved class. -/
def classMax (cls : Nat) : Option Nat :=
  match cls with
  | 0x00 => some 0
  | 0x01 => some 29
  | 0x02 => some 0
  | 0x03 => some 0
  | 0x04 => some 0
  | 0x05 => some 96
  | 0x06 => some 8
  | 0x07 => some 64
  | 0x08 => some 2047
  | 0x09 => some 2047
  | 0x0A => some 2047
  | 0x0B => some 8
  | 0x0C => some 24
  | 0x0D => some 255
  | 0x0E => some 15
  | 0x0F => some 1023
  | 0x10 => some 511
  | 0x11 => some 511
  | 0x12 => some 1279
  | _ => none

/-! ### Event select codes of each unit's chapter (R88, R149, R180, R216, R244, R281, R300, R331, R356, R358,
R398, R425, R460, R489, R511, R531, R556, R570, R582) -/

def Ev.CORE_CYCLES : Nat := 0x01
def Ev.CORE_ISSUE_ONE : Nat := 0x02
def Ev.CORE_ISSUE_TWO : Nat := 0x03
def Ev.CORE_ISSUE_SAME_GROUP : Nat := 0x04
def Ev.CORE_ISSUE_NONE_READY : Nat := 0x05
def Ev.CORE_AGE_PROMOTE : Nat := 0x06
def Ev.CORE_MX_ARB_LOSS : Nat := 0x07
def Ev.CORE_EL_ARB_LOSS : Nat := 0x08
def Ev.CORE_MEM_OUTSTANDING_STALL : Nat := 0x09
def Ev.CORE_NAN_DROP : Nat := 0x10
def Ev.CORE_INEXACT_WIDE : Nat := 0x11
def Ev.CORE_BRANCH_DIVERGENT : Nat := 0x18
def Ev.CORE_PATH_SWITCH : Nat := 0x19
def Ev.CORE_BARRIER_WAIT : Nat := 0x1A
def Ev.CORE_ICACHE_MISS : Nat := 0x20
def Ev.CORE_CCACHE_MISS : Nat := 0x21
def Ev.CORE_DCACHE_MISS : Nat := 0x22
def Ev.CORE_CONST_SERIAL : Nat := 0x23
def Ev.CORE_BLOCK_START : Nat := 0x28
def Ev.CORE_GROUP_CLEAR_CYCLES : Nat := 0x29
def Ev.CORE_MX_BUSY : Nat := 0x80
def Ev.CORE_MX_IDLE_OPEN : Nat := 0x81
def Ev.CORE_MMA_4_6BIT : Nat := 0x82
def Ev.CORE_MMA_8BIT : Nat := 0x83
def Ev.CORE_MMA_16BIT : Nat := 0x84
def Ev.CORE_MMA_FP32 : Nat := 0x85
def Ev.CORE_MMA_FP64 : Nat := 0x86
def Ev.CORE_MMA_SCALED : Nat := 0x87
def Ev.CORE_MX_QUEUE_FULL : Nat := 0x88
def Ev.CORE_MX_LAND_HOLD : Nat := 0x89
def Ev.CORE_MX_SP_INTERLOCK : Nat := 0x8A
def Ev.CORE_MX_END_HOLD : Nat := 0x8B
def Ev.CORE_MX_TILE_WAIT : Nat := 0x8C
def Ev.CORE_WIDE_SLOW : Nat := 0x8D
def Ev.CORE_DRAIN_ELEMENTS : Nat := 0x90
def Ev.CORE_DRAIN_STICKY : Nat := 0x91
def Ev.CORE_MX_DIVERGE_EVT : Nat := 0x92
def Ev.CORE_ACC_UNCORR : Nat := 0x93
def Ev.CORE_EL_BUSY : Nat := 0xC0
def Ev.CORE_EL_RUN : Nat := 0xC1
def Ev.CORE_EL_REDUCE : Nat := 0xC2
def Ev.CORE_EL_COMPACT : Nat := 0xC3
def Ev.CORE_EL_LUT : Nat := 0xC4
def Ev.CORE_EL_QUEUE_FULL : Nat := 0xC5
def Ev.CORE_EL_PROG_MISS : Nat := 0xC6
def Ev.CORE_EL_TABLE_MISS : Nat := 0xC7
def Ev.CORE_EL_BEATS : Nat := 0xC8
def Ev.CORE_EL_PORT_BOUND : Nat := 0xC9
def Ev.CORE_EL_GATHER_SECTORS : Nat := 0xCA
def Ev.CORE_EL_GATHER_BOUND : Nat := 0xCB
def Ev.CORE_EL_LAND_HOLD : Nat := 0xCC
def Ev.CORE_EL_SP_INTERLOCK : Nat := 0xCD
def Ev.CORE_EL_WAIT_HOLD : Nat := 0xCE
def Ev.CORE_EL_ISSUE_HOLD : Nat := 0xCF
def Ev.CORE_EL_SATURATE : Nat := 0xD0
def Ev.CORE_EL_UNCORR : Nat := 0xD1
def Ev.CORE_SCOPE_MISMATCH : Nat := 0x60
def Ev.CORE_ATOM_NEAR : Nat := 0x61
def Ev.CORE_ATOM_FAR : Nat := 0x62
def Ev.CORE_ATOM_COMBINED : Nat := 0x63
def Ev.CORE_ATOM_MEMBERS_MERGED : Nat := 0x64
def Ev.CORE_PRED_WRONG : Nat := 0x65
def Ev.CORE_FENCE_HOLD : Nat := 0x66
def Ev.CORE_REL_WAIT : Nat := 0x67
def Ev.CORE_ACQ_HOLD : Nat := 0x68
def Ev.CORE_SYS_OUTER_WAIT : Nat := 0x69
def Ev.CORE_HOST_ATOMIC : Nat := 0x6A
def Ev.CORE_L1_HIT_SECTOR : Nat := 0x40
def Ev.CORE_L1_MISS_SECTOR : Nat := 0x41
def Ev.CORE_MISS_MERGE : Nat := 0x42
def Ev.CORE_MR_FULL_REPLAY : Nat := 0x43
def Ev.CORE_WAITER_FULL_REPLAY : Nat := 0x44
def Ev.CORE_L1_BACKPRESSURE : Nat := 0x45
def Ev.CORE_L1_BANK_CONFLICT : Nat := 0x46
def Ev.CORE_SP_BANK_CONFLICT : Nat := 0x47
def Ev.CORE_STORE_FULL_SECTOR : Nat := 0x48
def Ev.CORE_STORE_FETCH : Nat := 0x49
def Ev.CORE_UPGRADE : Nat := 0x4A
def Ev.CORE_EVICT_DIRTY : Nat := 0x4B
def Ev.CORE_EVICT_CLEAN : Nat := 0x4C
def Ev.CORE_EBB_LINES : Nat := 0x4D
def Ev.CORE_EBB_REFUSED : Nat := 0x4E
def Ev.CORE_SPLIT_CHANGE_LINES : Nat := 0x4F
def Ev.CORE_L1_CORRECTED : Nat := 0x50
def Ev.CORE_L1_REFETCH : Nat := 0x51
def Ev.CORE_SP_CORRECTED : Nat := 0x52
def Ev.CORE_BYPASS_ACCESS : Nat := 0x53
def Ev.CORE_MR_OCCUPANCY : Nat := 0x54
def Ev.CORE_SP_CLEAR_CYCLES : Nat := 0x55
def Ev.CORE_STORE_LOAD_WAIT : Nat := 0x56
def Ev.HOME_REQ_ACCEPTED : Nat := 0x01
def Ev.HOME_GETS : Nat := 0x02
def Ev.HOME_GETM : Nat := 0x03
def Ev.HOME_UPG : Nat := 0x04
def Ev.HOME_PUT : Nat := 0x05
def Ev.HOME_STALE_PUT : Nat := 0x06
def Ev.HOME_SNOOPRD : Nat := 0x07
def Ev.HOME_ATOMFAR : Nat := 0x08
def Ev.HOME_ATOM_CONT : Nat := 0x09
def Ev.HOME_FWD_SENT : Nat := 0x0A
def Ev.HOME_INV_SENT : Nat := 0x0B
def Ev.HOME_COARSE_INV : Nat := 0x0C
def Ev.HOME_E_GRANT : Nat := 0x0D
def Ev.HOME_GRANT_AHEAD : Nat := 0x0E
def Ev.HOME_NOTHELD_ACK : Nat := 0x0F
def Ev.HOME_STALL : Nat := 0x10
def Ev.HOME_NACK : Nat := 0x11
def Ev.HOME_TXN_OCCUPANCY : Nat := 0x12
def Ev.HOME_SLICE_MISS : Nat := 0x13
def Ev.HOME_RECALL : Nat := 0x14
def Ev.HOME_EBB_ACTION : Nat := 0x15
def Ev.HOME_DIR_CORRECTED : Nat := 0x16
def Ev.HOME_DIR_BROADCAST : Nat := 0x17
def Ev.HOME_PROTOCOL_ERR : Nat := 0x18
def Ev.SLICE_SHELF_READ : Nat := 0x40
def Ev.SLICE_SHELF_WRITE : Nat := 0x41
def Ev.SLICE_MOOR_LINES : Nat := 0x42
def Ev.SLICE_MOOR_REFUSED : Nat := 0x43
def Ev.SLICE_UNMOOR_LINES : Nat := 0x44
def Ev.SLICE_EBB_GHOSTED : Nat := 0x45
def Ev.SLICE_EBB_CLEAN : Nat := 0x46
def Ev.SLICE_GHOST_OVERFLOW : Nat := 0x47
def Ev.SLICE_EBB_DIRTY_SECTORS : Nat := 0x48
def Ev.SLICE_EBB_REREAD : Nat := 0x49
def Ev.SLICE_GHOST_END_WRITE : Nat := 0x4A
def Ev.SLICE_GHOST_END_CMD : Nat := 0x4B
def Ev.HBMC_READ_BURSTS : Nat := 0x01
def Ev.HBMC_WRITE_BURSTS : Nat := 0x02
def Ev.HBMC_RMW_BURSTS : Nat := 0x03
def Ev.HBMC_BUSY_CYCLES : Nat := 0x04
def Ev.HBMC_TURNAROUND_CYCLES : Nat := 0x05
def Ev.HBMC_CE : Nat := 0x06
def Ev.HBMC_UE_RETRY_OK : Nat := 0x07
def Ev.HBMC_UE : Nat := 0x08
def Ev.HBMC_POISON_READ : Nat := 0x09
def Ev.HBMC_CE_WRITEBACK_DROPPED : Nat := 0x0A
def Ev.HBMC_SCRUB_BURSTS : Nat := 0x0B
def Ev.HBMC_CLEAR_BURSTS : Nat := 0x0C
def Ev.HBMC_PT_FAULT : Nat := 0x0D
def Ev.NOC_FLITS_OUT : Nat := 0x01
def Ev.NOC_MCAST_COPIES : Nat := 0x02
def Ev.NOC_BULK_HELD : Nat := 0x03
def Ev.NOC_LINK_BLOCKED : Nat := 0x04
def Ev.NOC_RED_ADDS : Nat := 0x05
def Ev.NOC_RED_OPERAND_WAIT : Nat := 0x06
def Ev.NOC_RED_ALLOC_WAIT : Nat := 0x07
def Ev.NOC_IO_FLITS : Nat := 0x08
def Ev.NOC_SYNC_RESEND : Nat := 0x09
def Ev.NOC_INEXACT_WIDE : Nat := 0x0A
def Ev.NOC_BUF_CORRECTED : Nat := 0x0B
def Ev.NOC_NAN_DROP : Nat := 0x0C
def Ev.SPINDLE_ENTRIES_DELIVERED : Nat := 0x01
def Ev.SPINDLE_SECTORS_READ : Nat := 0x02
def Ev.SPINDLE_SEAL_FAIL : Nat := 0x03
def Ev.SPINDLE_MIRROR_USED : Nat := 0x04
def Ev.SPINDLE_ENTRIES_POISONED : Nat := 0x05
def Ev.SPINDLE_POISON_TABLE_HIT : Nat := 0x06
def Ev.SPINDLE_CREDIT_WAIT : Nat := 0x07
def Ev.SPINDLE_INFLIGHT_FULL : Nat := 0x08
def Ev.SPINDLE_TAP_FULL : Nat := 0x09
def Ev.SPINDLE_MCAST_TARGETS : Nat := 0x0A
def Ev.SPINDLE_COPY_INEXACT_WIDE : Nat := 0x0B
def Ev.SPINDLE_COPY_NAN_DROP : Nat := 0x0C
def Ev.TIDE_TICKS : Nat := 0x01
def Ev.TIDE_SYNC_SENT : Nat := 0x02
def Ev.TIDE_SYNC_RECV : Nat := 0x03
def Ev.TIDE_SLEW_CYCLES : Nat := 0x04
def Ev.TIDE_HOLDOVER_PERIODS : Nat := 0x05
def Ev.TIDE_MASTER_CONFLICT : Nat := 0x06
def Ev.TIDE_WAIT_SLIPS : Nat := 0x10
def Ev.TIDE_SEND_SLIPS : Nat := 0x11
def Ev.TIDE_HOLDS : Nat := 0x12
def Ev.TIDE_ABORTS : Nat := 0x13
def Ev.TIDE_CREDITS_RETURNED : Nat := 0x14
def Ev.TIDE_LAND_PROTOCOL : Nat := 0x15
def Ev.TIDE_REFILLS : Nat := 0x16
def Ev.TIDE_START_CHECK_FAIL : Nat := 0x17
def Ev.TIDE_RESUME_LATE : Nat := 0x18
def Ev.TWP_FRAMES_TX : Nat := 0x01
def Ev.TWP_CRC_ERR : Nat := 0x02
def Ev.TWP_NAK_SENT : Nat := 0x03
def Ev.TWP_REPLAYS : Nat := 0x04
def Ev.TWP_REPLAY_FRAMES : Nat := 0x05
def Ev.TWP_REPLAY_FULL : Nat := 0x06
def Ev.TWP_RECOVERS : Nat := 0x07
def Ev.TWP_VC_CREDIT_WAIT : Nat := 0x08
def Ev.TWP_DATA_SEGMENTS : Nat := 0x09
def Ev.TWP_RED_SEGMENTS : Nat := 0x0A
def Ev.TWP_MEM_SEGMENTS : Nat := 0x0B
def Ev.TWP_SLOT_CREDITS : Nat := 0x0C
def Ev.TWP_SYNC_STALE : Nat := 0x0D
def Ev.TWP_MSG_PROTOCOL : Nat := 0x0E
def Ev.TWP_RED_ADDS : Nat := 0x0F
def Ev.TWP_PEER_FORWARD : Nat := 0x10
def Ev.TWP_INEXACT_WIDE : Nat := 0x11
def Ev.TWP_NAN_DROP : Nat := 0x12
def Ev.CMDQ_FETCHED : Nat := 0x01
def Ev.CMDQ_COMPLETED : Nat := 0x02
def Ev.CMDQ_REJECTED : Nat := 0x03
def Ev.CMDQ_NOOP : Nat := 0x04
def Ev.CMDQ_CQ_FULL_WAIT : Nat := 0x05
def Ev.CMDQ_INTERRUPTS : Nat := 0x06
def Ev.CMDQ_HALTS : Nat := 0x07
def Ev.EDGE_TLP_RX : Nat := 0x01
def Ev.EDGE_TLP_TX : Nat := 0x02
def Ev.EDGE_LINK_REPLAY : Nat := 0x03
def Ev.EDGE_CORR_ERR : Nat := 0x04
def Ev.EDGE_ATC_MISS : Nat := 0x05
def Ev.EDGE_ATS_INVAL : Nat := 0x06
def Ev.EDGE_DOORBELL : Nat := 0x07
def Ev.EDGE_DOORBELL_DROP : Nat := 0x08
def Ev.EDGE_BAR4_READ : Nat := 0x09
def Ev.EDGE_BAR4_WRITE : Nat := 0x0A
def Ev.EDGE_CXL_SNOOP : Nat := 0x0B
def Ev.CTX_PREEMPT_SCHED : Nat := 0x01
def Ev.CTX_PREEMPT_REQ : Nat := 0x02
def Ev.CTX_RESTORES : Nat := 0x03
def Ev.CTX_URGENT_PROMOTE : Nat := 0x04
def Ev.CTX_WAIT_US : Nat := 0x05
def Ev.CTX_SAVE_KIB : Nat := 0x06
def Ev.CTX_SAVE_POOL_WAIT : Nat := 0x07
def Ev.CTX_RESTORE_SECOND_COPY : Nat := 0x08
def Ev.PWR_THROTTLE_MS : Nat := 0x01
def Ev.PWR_EXCURSIONS : Nat := 0x02
def Ev.PWR_EXC_CLAMP : Nat := 0x03
def Ev.PWR_HARD_CLAMP : Nat := 0x04
def Ev.PWR_SWELL_ACCEPT : Nat := 0x05
def Ev.PWR_SWELL_REDUCED : Nat := 0x06
def Ev.PWR_SWELL_DECLINED : Nat := 0x07
def Ev.PWR_SWELL_BROKEN : Nat := 0x08
def Ev.PWR_PMBUS_MISS : Nat := 0x09
def Ev.PWR_CLOCK_CHANGES : Nat := 0x0A
def Ev.PWR_CAP_UNMET_MS : Nat := 0x0B
def Ev.PWR_DROOP_EVENTS : Nat := 0x10
def Ev.PWR_DROOP_CYCLES : Nat := 0x11
def Ev.PWR_C1_ENTRY : Nat := 0x12
def Ev.PWR_C2_ENTRY : Nat := 0x13
def Ev.PWR_C3_ENTRY : Nat := 0x14
def Ev.PWR_D3_ENTRY : Nat := 0x15
def Ev.PWR_EARLY_WAKE : Nat := 0x16
def Ev.PWR_SLEEP_US : Nat := 0x17
def Ev.PWR_THERM_CLAMP_MS : Nat := 0x18
def Ev.RAS_RECORDS : Nat := 0x01
def Ev.RAS_LOG_OVERFLOW : Nat := 0x02
def Ev.RAS_DECLARATIONS : Nat := 0x03
def Ev.RAS_MIRROR_LINE : Nat := 0x04
def Ev.RAS_PRIMARY_REWRITE : Nat := 0x05
def Ev.RAS_MIRROR_REWRITE : Nat := 0x06
def Ev.RAS_TILES_POISONED : Nat := 0x07
def Ev.RAS_D2D_REPLAY : Nat := 0x08
def Ev.RAS_D2D_RETRAIN : Nat := 0x09
def Ev.RAS_FORCED_LANE_TEST : Nat := 0x0A
def Ev.RAS_CSCRUB_TILES : Nat := 0x0B
def Ev.SEC_SPDM_REQUESTS : Nat := 0x01
def Ev.SEC_SPDM_SESSIONS : Nat := 0x02
def Ev.SEC_KEY_LOADS : Nat := 0x03
def Ev.SEC_IMPORT_REFUSED : Nat := 0x04
def Ev.SEC_TOKEN_REFUSED : Nat := 0x05
def Ev.SEC_PASSWORD_FAIL : Nat := 0x06
def Ev.SEC_CHALLENGES : Nat := 0x07
def Ev.TMK_RECORDS : Nat := 0x01
def Ev.TMK_WRITE_RETRY : Nat := 0x02
def Ev.TMK_ERASES : Nat := 0x03
def Ev.TMK_TORN_FOUND : Nat := 0x04
def Ev.TMK_CORRUPT_FOUND : Nat := 0x05
def Ev.TMK_CLEARS : Nat := 0x06
def Ev.TMK_CLEAR_REFUSED : Nat := 0x07
def Ev.TMK_RECORDS_DROPPED : Nat := 0x08
def Ev.SYS_BAR0_UNMAPPED : Nat := 0x01
def Ev.SYS_BAR0_LOCKED_WRITE : Nat := 0x02
def Ev.SYS_MAP_CHANGES : Nat := 0x03
def Ev.DIST_OCC_UPDATES : Nat := 0x01
def Ev.DIST_REMEASURE : Nat := 0x02

/-- The codes a class's chapter lists; any other code counts nothing (R578). -/
def listedEvents (cls : Nat) : List Nat :=
  match cls with
  | 0x12 => [0x1, 0x2, 0x3, 0x4, 0x5, 0x6, 0x7, 0x8, 0x9, 0x10, 0x11, 0x18, 0x19, 0x1a, 0x20, 0x21, 0x22, 0x23, 0x28, 0x29, 0x80, 0x81, 0x82, 0x83, 0x84, 0x85, 0x86, 0x87, 0x88, 0x89, 0x8a, 0x8b, 0x8c, 0x8d, 0x90, 0x91, 0x92, 0x93, 0xc0, 0xc1, 0xc2, 0xc3, 0xc4, 0xc5, 0xc6, 0xc7, 0xc8, 0xc9, 0xca, 0xcb, 0xcc, 0xcd, 0xce, 0xcf, 0xd0, 0xd1, 0x60, 0x61, 0x62, 0x63, 0x64, 0x65, 0x66, 0x67, 0x68, 0x69, 0x6a, 0x40, 0x41, 0x42, 0x43, 0x44, 0x45, 0x46, 0x47, 0x48, 0x49, 0x4a, 0x4b, 0x4c, 0x4d, 0x4e, 0x4f, 0x50, 0x51, 0x52, 0x53, 0x54, 0x55, 0x56]
  | 0x10 => [0x1, 0x2, 0x3, 0x4, 0x5, 0x6, 0x7, 0x8, 0x9, 0xa, 0xb, 0xc, 0xd, 0xe, 0xf, 0x10, 0x11, 0x12, 0x13, 0x14, 0x15, 0x16, 0x17, 0x18]
  | 0x11 => [0x40, 0x41, 0x42, 0x43, 0x44, 0x45, 0x46, 0x47, 0x48, 0x49, 0x4a, 0x4b]
  | 0x0F => [0x1, 0x2, 0x3, 0x4, 0x5, 0x6, 0x7, 0x8, 0x9, 0xa, 0xb, 0xc, 0xd]
  | 0x0D => [0x1, 0x2, 0x3, 0x4, 0x5, 0x6, 0x7, 0x8, 0x9, 0xa, 0xb, 0xc]
  | 0x0E => [0x1, 0x2, 0x3, 0x4, 0x5, 0x6, 0x7, 0x8, 0x9, 0xa, 0xb, 0xc]
  | 0x06 => [0x1, 0x2, 0x3, 0x4, 0x5, 0x6, 0x10, 0x11, 0x12, 0x13, 0x14, 0x15, 0x16, 0x17, 0x18]
  | 0x0C => [0x1, 0x2, 0x3, 0x4, 0x5, 0x6, 0x7, 0x8, 0x9, 0xa, 0xb, 0xc, 0xd, 0xe, 0xf, 0x10, 0x11, 0x12]
  | 0x0A => [0x1, 0x2, 0x3, 0x4, 0x5, 0x6, 0x7]
  | 0x0B => [0x1, 0x2, 0x3, 0x4, 0x5, 0x6, 0x7, 0x8, 0x9, 0xa, 0xb]
  | 0x08 => [0x1, 0x2, 0x3, 0x4, 0x5, 0x6, 0x7, 0x8]
  | 0x09 => [0x1, 0x2, 0x3, 0x4, 0x5, 0x6, 0x7, 0x8]
  | 0x05 => [0x1, 0x2, 0x3, 0x4, 0x5, 0x6, 0x7, 0x8, 0x9, 0xa, 0xb, 0x10, 0x11, 0x12, 0x13, 0x14, 0x15, 0x16, 0x17, 0x18]
  | 0x03 => [0x1, 0x2, 0x3, 0x4, 0x5, 0x6, 0x7, 0x8, 0x9, 0xa, 0xb]
  | 0x02 => [0x1, 0x2, 0x3, 0x4, 0x5, 0x6, 0x7]
  | 0x04 => [0x1, 0x2, 0x3, 0x4, 0x5, 0x6, 0x7, 0x8]
  | 0x00 => [0x1, 0x2, 0x3]
  | 0x01 => [0x1, 0x2]
  | _ => []

end Sys2Proof.Machine
end

