-- ==== Sys2Proof/Machine/StateCore.lean ====
section
/-! DEFINITION. The state of a core and of the shelf cache: groups, blocks, L1, miss registers, matrix unit and
element engine queues, home directories (spec chapters 03 to 10). Plain data. -/

namespace Sys2Proof.Machine

/-- One reconvergence-stack entry (R73). -/
structure Recon where
  rpc : Nat
  full : W64
  pend : W64
  pendPc : Nat
  deriving DecidableEq, Repr

/-- What a group waits on at issue. A held instruction has not issued; it is presented again. -/
inductive Hold
  | none
  | scoreboard      -- R70: an operand or destination register is not ready
  | memory          -- R70 (16 outstanding), R231 (replay queue full)
  | acquire         -- R189
  | fence           -- R190
  | barrier         -- R80, arrived and waiting
  | landing (slot : Nat)  -- R123: an operand's arrival flag
  | waitLand (slot : Nat) -- R378
  | matrix          -- R142, R141, R140
  | engine          -- R154, R164, R151
  deriving DecidableEq, Repr

/-- A group slot (R59 to R62, R73, R132). Registers are sparse: v by 64*reg+thread, the rest by number.
`since` is the program tick from which a `wait.land` has been held (R388); `memSeq` counts the memory-class instructions
the group has issued (R70); `hinted` is 1 from a `sleep.hint` to the group's next hold of R504 and 2 during that hold. -/
structure Group where
  occupied : Bool := false
  blk : Nat := 0
  gid : Nat := 0
  quarter : Nat := 0
  age : Nat := 0
  pc : Nat := 0
  live : W64 := 0
  v : List (Nat × W32) := []
  s : List (Nat × W32) := []
  p : List (Nat × W64) := []
  m : List (Nat × W64) := []
  stack : List Recon := []
  poison : List Nat := []
  ghost : List Nat := []
  region : Option W64 := none
  busyV : List Nat := []
  busyS : List Nat := []
  hold : Hold := .none
  since : Option Int := none
  stopped : Bool := false
  ebbed : Bool := false
  memSeq : Nat := 0
  hinted : Nat := 0
  deriving DecidableEq, Repr

/-- The holds of an idle core's groups (R504). -/
def Hold.sleeps : Hold → Bool
  | .barrier => true
  | .waitLand _ => true
  | .landing _ => true
  | _ => false

/-- A group begins or goes on to hold; a `sleep.hint` before a hold of R504 is for that hold. -/
def Group.holding (g : Group) (h : Hold) : Group :=
  { g with hold := h, hinted := if h.sleeps && g.hinted = 1 then 2 else g.hinted }

/-- What a launch fixes (Table 15-9, R63 to R67, R125, and the format options of R32 and R33). `slots` holds the words of
its slot table that differ from the default of R376. -/
structure Launch where
  ctx : Nat := 0
  cove : Nat := 0
  cmd : Nat := 0
  code : Nat := 0
  dtab : Nat := 0
  gx : Nat := 0
  gy : Nat := 0
  gz : Nat := 0
  threads : Nat := 0
  alloc : Nat := 8
  split : Nat := 0
  land : Nat := 0
  spBytes : Nat := 0
  tileMap : List (Nat × Nat) := []
  slotTab : Nat := 0
  slots : List (Nat × Nat) := []
  cores : List Nat := []
  shelfBase : Nat := 0
  shelfLen : Nat := 0
  const : Nat := 0
  constBytes : Nat := 0
  rm : RMode := .rn
  sat : SatMode := .sat
  tide : Option Nat := none
  deriving DecidableEq, Repr

/-- A resident block (R63 to R67, R127, R221): its scratchpad region and its accumulator tiles. A tile's
element images are sparse over the tile's initial image. -/
structure Block where
  launch : Launch := {}
  index : Nat := 0
  ngrp : Nat := 0
  spOff : Nat := 0
  spLen : Nat := 0
  tiles : List (Nat × List (Nat × Nat)) := []
  arrived : List Nat := []
  order : Nat := 0
  deriving DecidableEq, Repr

/-- Blocks of one launch that a core has still to place (R64, R599): the next index, how many, and the stride. -/
structure Pend where
  launch : Launch
  next : Nat
  left : Nat
  stride : Nat
  deriving DecidableEq, Repr

/-- L1 states: M, O, E, S, I and the transient states of Table 9-7. -/
inductive LSt
  | i | s | e | o | m | isD | isDI | imD | smG | omG | miP | oiP | eiP | siP | xiP | iiP
  deriving DecidableEq, Repr

/-- An L1 line (R226). `data` is by byte offset in the line. -/
structure L1Line where
  st : LSt := .i
  way : Nat := 0
  valid : Nat := 0
  dirty : Nat := 0
  poison : Nat := 0
  data : Mem := []
  tag : Option RelTag := none
  ref : Bool := false
  deferred : Option Msg := none
  ebbBy : Bool := false
  deriving DecidableEq, Repr

/-- A miss register (R229): one sector, its waiters in the order they joined, and the store buffer. -/
structure MissReg where
  sector : Nat
  waiters : List Nat := []
  bufMask : Nat := 0
  buf : Mem := []
  fetch : Bool := false
  got : Option (List Byte) := none
  gotOwner : Bool := false
  poison : Bool := false
  dirty : Bool := false
  ghost : Bool := false
  once : Bool := false
  ready : Bool := false
  deriving DecidableEq, Repr

/-- A request the L1 has sent and not completed (R259, R262, R268). Requests that pass the L1 by (SnoopRd, AtomFar)
name their instruction and the threads they serve. -/
structure L1Req where
  txn : Nat
  line : Nat
  ty : MTy
  mask : Nat
  nacks : Nat := 0
  nacked : Bool := false
  fwd : Bool := false
  homeIn : Bool := false
  ownerIn : Bool := false
  grant : Nat := 0
  cont : Bool := false
  ghost : Bool := false
  stale : Bool := false
  op : Nat := 0
  threads : List Nat := []
  msg : Msg
  deriving DecidableEq, Repr

/-- One thread's access: thread number, physical address, bytes, and whether its page is write-through (R201). -/
structure Access where
  thread : Nat
  pa : Nat
  bytes : Nat
  wt : Bool := false
  deriving DecidableEq, Repr

/-- What kind of memory instruction is outstanding: through the L1 (`load`, `store`, `near`), past it to a slice
(`far`, `bypLoad`, `bypStore`), or to the host (`hostLd`, `hostSt`, `hostAt`). -/
inductive OpKind | load | store | near | far | bypLoad | bypStore | hostLd | hostSt | hostAt
  deriving DecidableEq, Repr

/-- An outstanding memory instruction of a group (R70), or the part of one that goes to one place; `seq` is its number
among them and `seg` the part's place in the order of an atomic's requests (R210). `left` lists what it waits on: sectors,
target addresses or host tags; `todo` the lines not looked up yet (R231); `got` the sectors a load has received, `fwd` the
bytes it read from the store queue, by address (R233); `olds` the old values of an atomic by thread; `cont` the lines whose
grant needed a forward or an invalidation (R209). -/
structure MemOp where
  id : Nat
  slot : Nat
  blk : Nat := 0
  seq : Nat := 0
  seg : Nat := 0
  kind : OpKind
  dst : Nat := 255
  bytes : Nat := 4
  acc : List Access := []
  vals : List (Nat × Nat) := []
  vals2 : List (Nat × Nat) := []
  left : List Nat := []
  todo : List Nat := []
  got : List (Nat × List Byte) := []
  fwd : List (Nat × Byte) := []
  olds : List (Nat × Nat) := []
  started : Bool := false
  acquire : Bool := false
  release : Bool := false
  scope : Nat := 0
  ebb : Bool := false
  outer : Bool := false
  aop : AOp := .add
  fmt : Fmt := .int32
  predicted : Bool := false
  cont : List Nat := []
  poison : Bool := false
  ghost : Bool := false
  pc : Nat := 0
  deriving DecidableEq, Repr

/-- An access in the replay queue (R231): the instruction and the line it could not enter. -/
structure Replay where
  op : Nat
  line : Nat
  deriving DecidableEq, Repr

/-- An accepted matrix instruction with its operand values (R140). -/
inductive MxKind
  | mma (ta tb : Fmt) (tile a b : Nat) (la lb : Bool) (sca scb : Option Nat) (rm : RMode) (sm : SatMode)
  | drain (tile off : Nat) (dst : Fmt) (rm : RMode) (sm : SatMode)
  | zero (tile : Nat)
  | save (tile off : Nat)
  | load (tile off : Nat)
  deriving DecidableEq, Repr

/-- An entry of the matrix unit's queue, with the scratchpad ranges of the block that it reads and writes (R141). -/
structure MxEntry where
  slot : Nat
  blk : Nat
  pc : Nat
  kind : MxKind
  rd : List (Nat × Nat) := []
  wr : List (Nat × Nat) := []
  deriving DecidableEq, Repr

/-- An accepted element-engine instruction (R151, R163) with its operand values. -/
inductive ElKind
  | run (n : Nat) (streams : List Nat) (gbase prog : Nat)
  | compress (ty : Fmt) (n src mask dst sreg : Nat)
  | expand (ty : Fmt) (n src mask dst sreg : Nat) (fill : Bool)
  | reduce (ty dty : Fmt) (n row src scale dst : Nat) (scaled square : Bool)
  | lut (ty : Fmt) (n src dst table : Nat)
  deriving DecidableEq, Repr

/-- An entry of the element engine's queue, with the scratchpad ranges of the block that it reads and writes (R164), the
descriptors it took with it, its gathers, and the first memory instruction that its group issues after it (R167). -/
structure ElEntry where
  slot : Nat
  blk : Nat
  pc : Nat
  kind : ElKind
  desc : List (Nat × List Byte) := []
  gather : List Access := []
  rd : List (Nat × Nat) := []
  wr : List (Nat × Nat) := []
  mark : Nat := 0
  deriving DecidableEq, Repr

/-- A line of a read-only cache (Table 3-8, R603). -/
structure RoLine where
  way : Nat := 0
  ref : Bool := false
  poison : Bool := false
  data : List Byte := []
  deriving DecidableEq, Repr

/-- A read-only cache: its lines by line number, and the rotating pointer of each set. -/
structure RoCache where
  lines : List (Nat × RoLine) := []
  rot : List (Nat × Nat) := []
  deriving DecidableEq, Repr

/-- A translation held by a TLB (R111, R313): page number, page size in bits, page address, W and WT. A core's four
micro-TLBs are kept as one list by quarter, the oldest entry first; the walk cache holds non-leaf entries by address
(R313). -/
structure TlbEnt where
  vpn : Nat
  shift : Nat
  pa : Nat
  w : Bool
  wt : Bool
  deriving DecidableEq, Repr

/-- A landing slot (R372 to R376, R379, R391). `st` is 0 FREE, 1 FILLING, 2 FULL; `waitFrom` is the program tick
from which an instruction has waited for the fill; `fills` names the entries that filled it. -/
structure LandSlot where
  st : Nat := 0
  poison : Bool := false
  reads : Nat := 0
  quota : Nat := 0
  owner : Nat := 0
  plan : Nat := 0
  waitFrom : Option Int := none
  waited : Bool := false
  mark : Bool := false
  fills : List (Src × Nat) := []
  deriving DecidableEq, Repr

/-- A logical core (R59, R217, R229, R140, R151, R209, R81). -/
structure Core where
  groups : List (Nat × Group) := []
  blocks : List (Nat × Block) := []
  placed : Nat := 0
  waiting : List Pend := []
  split : Nat := 0
  sp : Mem := []
  spPoison : List Nat := []
  spGhost : List Nat := []
  land : List (Nat × LandSlot) := []
  landCount : Nat := 0
  landTab : Nat := 0
  maint : Nat := 0
  l1 : List (Nat × L1Line) := []
  rot : List (Nat × Nat) := []
  miss : List MissReg := []
  replay : List Replay := []
  ops : List MemOp := []
  nextOp : Nat := 0
  reqs : List L1Req := []
  nextTxn : Nat := 0
  pred : List (Nat × Nat) := []
  mxq : List MxEntry := []
  elq : List ElEntry := []
  elBuf : List (Nat × List Byte) := []
  elTab : List (Nat × List Byte) := []
  icache : RoCache := {}
  ccache : RoCache := {}
  dcache : RoCache := {}
  tlb : List TlbEnt := []
  utlb : List (Nat × TlbEnt) := []
  walkCache : List (Nat × Nat) := []
  deriving DecidableEq, Repr

/-- A core at power-on or after every block left it. -/
def Core.empty : Core := {}

/-- Home directory states (R250). -/
inductive DSt | i | s | em | o
  deriving DecidableEq, Repr

/-- A directory entry (Table 9-1). `ptr` lists the sharers; `coarse` holds the vector of the coarse form. -/
structure Dir where
  st : DSt := .i
  owner : Nat := 0
  ptr : List Nat := []
  coarse : Option Nat := none
  deriving DecidableEq, Repr

/-- A line of a shelf-cache slice with its directory entry (R245, R249, R287). -/
structure SLine where
  set : Nat := 0
  way : Nat := 0
  present : Bool := false
  valid : Nat := 0
  dirty : Nat := 0
  poison : Nat := 0
  data : Mem := []
  moored : Bool := false
  dir : Dir := {}
  ref : Bool := false
  cove : Nat := 0
  commons : Bool := false
  deriving DecidableEq, Repr

/-- What a home's transient state is for (Tables 9-11 and 9-12). -/
inductive TKind
  | mem | fwdGetS | fwdSnp | fwdGetM | invGrant | invAtom | invRecall | invEbb | invDir
  deriving DecidableEq, Repr

/-- A transaction entry of a home (R257, R269, R275 to R277). `came` lists the Puts that a broadcast of R277 has met. -/
structure HTxn where
  line : Nat
  kind : TKind
  msg : Option Msg := none
  sharers : List Nat := []
  owner : Option Nat := none
  puts : List Nat := []
  held : Option Msg := none
  ack : Option Msg := none
  kept : Nat := 0
  notHeld : Bool := false
  ebb : Bool := false
  dirtyBack : Bool := false
  came : List Msg := []
  ahead : Option Msg := none
  aheadWait : List Nat := []
  granted : Bool := false
  way : Nat := 0
  node : Nat := 0
  deriving DecidableEq, Repr

/-- A slice and its home (R245, R257, R246, R283, R290). Lines are keyed by line number. -/
structure Slice where
  role : Nat := 0
  cove : Nat := 0
  lines : List (Nat × SLine) := []
  rot : List (Nat × Nat) := []
  txns : List HTxn := []
  queue : List Msg := []
  ebbs : List (Nat × Nat) := []
  ghosts : List (Nat × Nat) := []
  ghostHwm : Nat := 0
  atomHist : List (Nat × Nat) := []
  carve : Nat := 0
  windowK : Nat := 0
  deriving DecidableEq, Repr

end Sys2Proof.Machine
end

