-- ==== Sys2Proof/Machine/StateHost.lean ====
section
/-! DEFINITION. The state of commands, queues, contexts, coves and the host ports
(spec/15_host_ports_and_commands.md, spec/16_coves_contexts_and_sharing.md). Plain data. -/

namespace Sys2Proof.Machine

/-- Where a fetched command stands (R434 to R436, R479). -/
inductive CSt
  | fetched    -- its CQ entry is reserved; it has not started
  | running    -- it has started
  | waiting    -- started or validated, waiting for a slot, a semaphore or an engine
  | stopped    -- stopped by a preemption, resumed on restore
  | faulted    -- its launch faulted and the fault is resumable or not yet ended
  deriving DecidableEq, Repr

/-- A buffer as read at validation (Table 15-6). -/
structure Buf where
  fmt : Fmt := .int8
  space : Nat := 0
  base : Nat := 0
  bound : Nat := 0
  r : Bool := false
  w : Bool := false
  off : Nat := 0
  deriving DecidableEq, Repr

/-- A command in flight (R434 to R448). `desc` is its 64-byte descriptor; `pos` counts finished granules,
tiles, entries or lines of its work; `since` is the time it began to wait, `record` the record it read at validation. -/
structure Cmd where
  ctx : Nat
  queue : Nat
  idx : Nat
  desc : List Byte := []
  st : CSt := .fetched
  seq : Nat := 0
  order : Nat := 0
  a : Buf := {}
  b : Buf := {}
  c : Buf := {}
  pos : Nat := 0
  result : Nat := 0
  inexact : Bool := false
  poisoned : Bool := false
  reason : Nat := 0
  status : Nat := 0
  coreUs : Nat := 0
  blocksLeft : Nat := 0
  acks : Nat := 0
  faultCode : Nat := 0
  nodes : List Nat := []
  since : Nat := 0
  record : Nat := 0
  deriving DecidableEq, Repr

/-- A queue of a context (R433 to R437, Tables 15-3 and 15-17). -/
structure Queue where
  sqTail : Nat := 0
  cqHead : Nat := 0
  sqHead : Nat := 0
  cqTail : Nat := 0
  written : Nat := 0
  phase : Bool := true
  halted : Bool := false
  ringFault : Bool := false
  held : List (List Byte × Nat) := []
  counted : Nat := 0
  armed : Bool := false
  hostStop : Bool := false
  deriving DecidableEq, Repr

/-- A group saved, or a core's part of a save image (R480, Table 16-3). -/
structure Image where
  core : Nat
  body : Core := {}
  deriving DecidableEq, Repr

/-- A context (R453, R471 to R485). `st`: 0 FREE, 1 READY, 2 BUSY, 3 PREEMPTED, 4 FAULTED. `bySw` says that a PREEMPT has
been accepted and its save has not ended. -/
structure Ctx where
  st : Nat := 0
  heldBySw : Bool := false
  bySw : Bool := false
  urgent : Bool := false
  waiting : Bool := false
  waitFrom : Nat := 0
  saving : Bool := false
  restoring : Bool := false
  eligible : Bool := false
  stopping : Bool := false
  images : List Image := []
  shelf : List (Nat × List Byte) := []
  poolKib : Nat := 0
  poolFrom : Nat := 0
  usage : Nat := 0
  ran : Nat := 0
  faultCore : Nat := 0
  faultSlot : Nat := 0
  rebase : Bool := false
  refill : Bool := false
  queues : List (Nat × Queue) := []
  deriving DecidableEq, Repr

/-- A cove's own state (R462 to R466). `st`: 0 FREE, 1 CREATING, 2 ACTIVE, 3 RESETTING, 4 DESTROYING. -/
structure Cove where
  st : Nat := 0
  result : Nat := 0
  clearing : List Nat := []
  leaving : List Nat := []
  moored : Nat := 0
  poolUsed : Nat := 0
  coreUs : Nat := 0
  engineUs : Nat := 0
  decayed : Nat := 0
  sinceHalf : Nat := 0
  carve : Nat := 0
  ats : Bool := true
  deriving DecidableEq, Repr

/-- A granule of an outer tier (R467, Table 16-10). -/
structure Granule where
  mode : Nat := 0
  cove : Nat := 0
  mask : Nat := 0
  deriving DecidableEq, Repr

/-- What leaves the block: an interrupt, a message to a neighbour or a reply (R457, R414, R550). -/
structure OutMsg where
  kind : Nat
  a : Nat := 0
  b : Nat := 0
  data : List Byte := []
  deriving DecidableEq, Repr

/-- An access outstanding at a HOST port (R428, R458, R598); one of no bytes is a translation request. -/
structure HostAcc where
  port : Nat
  tag : Nat
  core : Nat := 0
  op : Nat := 0
  thread : Nat := 0
  addr : Nat := 0
  bytes : Nat := 0
  write : Bool := false
  deriving DecidableEq, Repr

/-- An edge port (R426 to R431, Table 15-18). `atc` is its translation cache, oldest first: key (R428, `atcKey`) and
whether the host grants the page; `invals` the invalidations not yet answered: cove, address, bytes. -/
structure Edge where
  up : Bool := false
  cxl : Bool := false
  flit : Bool := false
  speed : Nat := 0
  width : Nat := 0
  owned : List Nat := []
  atc : List (Nat × Nat) := []
  invals : List (Nat × Nat × Nat) := []
  failed : Bool := false
  deriving DecidableEq, Repr

/-- Everything of chapters 15 and 16 that no register field holds. -/
structure HostSt where
  ctxs : List (Nat × Ctx) := []
  cmds : List Cmd := []
  nextSeq : Nat := 0
  nextStart : Nat := 0
  coves : List (Nat × Cove) := []
  granules : List (Nat × Granule) := []
  sems : List (Nat × Nat) := []
  edges : List (Nat × Edge) := []
  accs : List HostAcc := []
  masked : List Nat := []
  msixPend : List Nat := []
  /-- Of pending vectors, the context whose queue raised each, plus 1. -/
  pendFrom : List (Nat × Nat) := []
  bar4Log : Nat := 36
  vfBar4Log : Nat := 36
  vfs : Nat := 0
  out : List OutMsg := []
  quantum : Nat := 0
  deriving DecidableEq, Repr

end Sys2Proof.Machine
end

