-- ==== Sys2Proof/Machine/StateNet.lean ====
section
/-! DEFINITION. The state of the networks, spindle engines, reductions, tide domains and Tideway ports
(spec chapters 12, 13 and 14). Plain data. -/

namespace Sys2Proof.Machine

/-- A slot credit: owner node, core, slot (R373, R376). -/
structure Credit where
  owner : Nat
  core : Nat
  slot : Nat
  deriving DecidableEq, Repr

/-- An entry issued and not yet delivered (R342 to R346): its words, its number in the list, its physical address. -/
structure Flight where
  src : Src
  num : Nat
  words : List Nat
  pa : Nat
  cores : List Nat
  deriving DecidableEq, Repr

/-- A landing message on its way to a core (R345, R373, R414). -/
structure LandMsg where
  node : Nat
  core : Nat
  slot : Nat
  off : Nat
  data : List Byte
  poison : Bool
  setf : Bool
  mark : Bool
  plan : Nat
  src : Src
  num : Nat
  dom : Option Nat
  deriving DecidableEq, Repr

/-- An issued entry of a table: its number, SETF, the cores and slots it lands in (R345, R374). -/
structure Fill where
  num : Nat
  setf : Bool
  cores : List Nat
  slots : List Nat
  deriving DecidableEq, Repr

/-- A running spindle stream or a table of a tide domain (R340, R370). `kind` is 0 for tile entries and 1 for link
entries; `target` the shelf die, the port, or 0x100 + S. `spent` lists the (core, slot) credits of the fill that is
open, `issued` the entries whose flags are not yet set, `landed` (entry, core) pairs. `ended` is the status that ends it. -/
structure Table where
  src : Src
  kind : Nat
  target : Nat
  cove : Nat
  space : Nat := 0
  va : Nat
  count : Nat
  next : Nat := 0
  msets : List (List Nat) := []
  spent : List (Nat × Nat) := []
  issued : List Fill := []
  landed : List (Nat × Nat) := []
  delivered : Nat := 0
  poisoned : Bool := false
  waitFrom : Option Int := none
  ended : Nat := 0
  reason : Nat := 0
  detail : Nat := 0
  deriving DecidableEq, Repr

/-- A partial sum or contribution of one chunk at a router (R351, R352). -/
structure Part where
  router : Nat
  chunk : Nat
  low : Nat
  vals : List Nat
  poison : Bool
  deriving DecidableEq, Repr

/-- A network reduction (R348 to R354). `srcs` holds (address, shelf, INJ) of each contributor. -/
structure NetRed where
  src : Src
  num : Nat := 0
  cove : Nat
  ctx : Nat
  words : Nat
  srcs : List (Nat × Bool × Nat)
  root : Nat
  rm : RMode := .rn
  sm : SatMode := .sat
  alloc : Bool := false
  parts : List Part := []
  done : List Nat := []
  gone : List (Nat × Nat) := []
  out : List (Nat × List Nat) := []
  plan : Nat := 0
  poisoned : Bool := false
  deriving DecidableEq, Repr

/-- A message of the payload channels (Table 14-3): two header words and the body. -/
structure TwMsg where
  w0 : Nat
  w1 : Nat
  body : List Byte := []
  deriving DecidableEq, Repr

/-- A torus reduction of this module (R416 to R420). `words` is its descriptor, `raw` this module's contributions, `vals`
the pinned values and `exps` the exponents of the present pass; chunks are named by direction + 2 × number: `poison`
those poisoned, `begun` those whose journey this module has begun. `held` waits for a neighbour, `left` counts the
chunks that have yet to be complete, `since` is the tick of the last arrival. -/
structure TorRed where
  src : Src
  num : Nat := 0
  cove : Nat
  words : Nat
  addr : Nat := 0
  space : Nat := 0
  rm : RMode := .rn
  sm : SatMode := .sat
  port : Nat := 0
  rank : Nat := 0
  pass : Nat := 1
  dim : Nat := 0
  raw : List Nat := []
  exps : List Int := []
  vals : List Nat := []
  poison : List Nat := []
  begun : List Nat := []
  held : List (Nat × TwMsg) := []
  left : Nat := 0
  since : Nat := 0
  deriving DecidableEq, Repr

/-- A tide domain slot (R366 to R391). `st` is TD_STATE.STATE; `plans` are the planned land ticks of the domain's entries, by
core (R504). -/
structure Dom where
  st : Nat := 0
  ctx : Nat := 0
  cove : Nat := 0
  cmd : Option (Nat × Nat × Nat) := none
  domainId : Nat := 0
  hash : Nat := 0
  rank : Nat := 0
  nmod : Nat := 1
  winLog : Nat := 6
  spnPlat : Nat := 1
  holdLead : Nat := 1
  waitLimit : Nat := 1
  rm : RMode := .rn
  sm : SatMode := .sat
  cores : List Nat := []
  launches : List Launch := []
  slotTabs : List (Nat × List (Nat × Nat)) := []
  tables : List Table := []
  epoch : Int := 0
  resumeAt : Int := 0
  holdAt : Option Int := none
  boundary : Option Nat := none
  faultHold : Bool := false
  checks : List (Nat × Bool) := []
  neigh : List Nat := []
  remote : List (Nat × Nat) := []
  plans : List (Nat × Nat) := []
  late : Bool := false
  checked : Bool := false
  reserved : Bool := false
  deriving DecidableEq, Repr

/-- A sync message (Table 14-6): STYPE and the two words. -/
structure SyncMsg where
  w0 : Nat
  w1 : Nat
  replay : Bool := false
  deriving DecidableEq, Repr

/-- A kept frame (R409): FSEQ, its segments by channel, its sync slot, slot credits and buffer credits, how often it was
replayed. -/
structure Kept where
  fseq : Nat
  segs : List (Nat × List Byte) := []
  sync : Option SyncMsg := none
  credits : List Nat := []
  cr : List Nat := []
  replays : Nat := 0
  deriving DecidableEq, Repr

/-- A Tideway port (R399 to R415, Table 14-10). -/
structure Twp where
  st : Nat := 0
  down : Nat := 0
  spared : Nat := 15
  width : Nat := 0
  badLanes : List Nat := []
  lat : Int := 0
  serial : Nat := 0
  coord : Nat := 0
  pport : Nat := 0
  hasCable : Bool := false
  cable : Nat := 0
  lanes : Nat := 0
  fseq : Nat := 0
  ackseq : Nat := 4095
  acked : Nat := 4095
  nak : Bool := false
  nakWait : Bool := false
  kept : List Kept := []
  waitSegs : List (Nat × List Byte) := []
  waitSync : List SyncMsg := []
  creditsOut : List Nat := []
  vc : List (Nat × Nat) := []
  freed : List (Nat × Nat) := []
  asm : List (Nat × List Byte) := []
  rx : List TwMsg := []
  rxSync : List SyncMsg := []
  recovers : List Nat := []
  fill : List (Nat × Nat) := []
  forced : Bool := false
  keep : Bool := false
  deriving DecidableEq, Repr

/-- A peer write of this module that has not been answered (R421). -/
structure Peer where
  txn : Nat
  cmd : Nat × Nat × Nat
  deriving DecidableEq, Repr

/-- What the synchronization network and the tide counter hold (R359 to R365, Table 13-13). `geo` is, by dimension, 32 ×
the module's coordinate + the torus size − 1, as the ports of the dimension last trained with it (R400). -/
structure NetSt where
  credits : List Credit := []
  flying : List Credit := []
  flights : List Flight := []
  landings : List LandMsg := []
  streams : List Table := []
  badTiles : List (Nat × Nat) := []
  reds : List NetRed := []
  torus : Option TorRed := none
  doms : List (Nat × Dom) := []
  ports : List (Nat × Twp) := []
  geo : List (Nat × Nat) := []
  peers : List Peer := []
  nextTxn : Nat := 0
  peerWait : List (Nat × TwMsg) := []
  readies : List (Nat × Nat × Nat) := []
  tick : Nat := 0
  phase : Nat := 0
  lastSync : Option Nat := none
  align : Nat := 0
  hops : Nat := 0
  upstream : Nat := 0
  master : Nat := 0
  offset : Int := 0
  good : Nat := 0
  missed : Nat := 0
  heard : List (Nat × Nat × Nat) := []
  deriving DecidableEq, Repr

end Sys2Proof.Machine
end

