-- ==== Sys2Proof/Machine/StateSys.lean ====
section
/-! DEFINITION. The state of memory channels, power, reliability, start-up, security and the Tidemark recorder
(spec chapters 11, 17, 18, 19, 20 and 21). Plain data. -/

namespace Sys2Proof.Machine

/-- An HBM channel (R319 to R322, Table 11-8). `st`: 0 NOT_PRESENT, 1 IN_SERVICE, 2 RETIRE_PENDING, 3 RETIRED.
`owner`: 0 unassigned, 1 cove, 2 commons, 3 management. -/
structure Chan where
  st : Nat := 0
  owner : Nat := 0
  cove : Nat := 0
  clearing : Bool := false
  doneMib : Nat := 0
  scrubPos : Nat := 0
  deriving DecidableEq, Repr

/-- Memory and the outer tiers. Poison marks are 32-byte sector numbers (R317). `keyEpoch` counts the keys a slot has
held, and `src` says how the present one came: 0 release, 1 GENERATE, 2 IMPORT (R545 to R547). -/
structure HbmSt where
  chans : List (Nat × Chan) := []
  present : List Nat := []
  expanders : List (Nat × Nat × Nat) := []
  tierbWays : Nat := 0
  expFailed : List Nat := []
  keyEpoch : List (Nat × Nat) := []
  keySrc : List (Nat × Nat) := []
  keyBusy : Option Nat := none
  deriving DecidableEq, Repr

/-- A sleeping core (R503 to R507). `st`: 1 C1, 2 C2, 3 C3; `exit` says that its exit has begun. -/
structure Sleep where
  st : Nat := 0
  planned : Bool := false
  exit : Bool := false
  wakeAt : Option Nat := none
  deriving DecidableEq, Repr

/-- The committed swell (R500 to R502). -/
structure Swell where
  levelW : Nat
  remainUs : Nat
  mhz : Nat
  ctx : Nat
  deriving DecidableEq, Repr

/-- The power controller (R492 to R508). Frequencies are in quarter MHz (6.25 MHz is 25). `ms` lists 1 ms powers, newest first. -/
structure PwrSt where
  clock4 : Nat := 7200
  gate : Nat := 16
  pace : Nat := 16
  want4 : Nat := 7200
  wantGate : Nat := 16
  wantPace : Nat := 16
  ms : List Nat := []
  polls : List (List Nat) := []
  silent : List (Nat × Nat) := []
  peak : Nat := 0
  excMs : Nat := 0
  excOn : Bool := false
  hard : Bool := false
  throttling : Bool := false
  overMs : Nat := 0
  unmetMs : Nat := 0
  swell : Option Swell := none
  breakMs : Nat := 0
  capW : Nat := 6400
  capWin : Nat := 8
  vin : Nat := 0
  vinOutMs : Nat := 0
  sleep : List (Nat × Sleep) := []
  d3 : List (Nat × Nat) := []
  therm : List (Nat × Nat) := []
  thermMs : List (Nat × Nat) := []
  temps : List (Nat × Nat) := []
  droop : List Nat := []
  idleHint : List (Nat × Nat) := []
  hint : List (Nat × Nat × Nat) := []
  off : Bool := false
  deriving DecidableEq, Repr

/-- A leaky bucket (R513). -/
structure Bucket where
  level : Nat := 0
  perm : Bool := false
  deriving DecidableEq, Repr

/-- A die-to-die lane group (R515): replays of the present flit, times of its retrains. -/
structure Lane where
  replays : Nat := 0
  times : List Nat := []
  failed : Bool := false
  training : Bool := false
  deriving DecidableEq, Repr

/-- Reliability: the RAS log, buckets, lists (R512 to R528). A record is eight 64-bit words. -/
structure RasSt where
  lost : Bool := false
  log : List (Nat × List Nat) := []
  head : Nat := 0
  seq : Nat := 0
  written : Nat := 0
  buckets : List (Nat × Bucket) := []
  retire : List Nat := []
  retireGen : Nat := 0
  deadSlices : List Nat := []
  badPrim : List Nat := []
  rewriting : List Nat := []
  seals : List (Nat × Nat) := []
  sealLoaded : List Nat := []
  scrubPos : Nat := 0
  isolated : List Nat := []
  lanes : List (Nat × Lane) := []
  watchdogUs : Option Nat := none
  deriving DecidableEq, Repr

/-- The SPDM responder (R543, R544): negotiation progress and the session. -/
structure Spdm where
  step : Nat := 0
  challenged : Bool := false
  session : Nat := 0
  mutAuth : Bool := false
  root : Nat := 0
  deriving DecidableEq, Repr

/-- Start-up and security (R532 to R553). Flash and fuse contents survive a module reset. -/
structure SecSt where
  failed : Bool := false
  recovery : Bool := false
  off : Bool := false
  reason : Nat := 0
  stage : Nat := 1
  elapsed : Nat := 0
  log : List (Nat × Nat) := []
  logLost : Nat := 0
  serial : Nat := 0
  slots : List Slot := [{}, {}]
  prefer : Nat := 0
  running : Nat := 0
  fallback : Bool := false
  pendingImg : Bool := false
  minSvn : Nat := 0
  nonce : Option Nat := none
  wrong : Nat := 0
  pwUsed : Bool := false
  fuses : Nat := 32
  ledger : List (List Byte) := []
  debugOpen : Bool := false
  scope : Nat := 0
  scan : Bool := false
  update : Nat := 0
  updGot : Nat := 0
  updSize : Nat := 0
  updHdr : Slot := {}
  spdm : Spdm := {}
  identity : List (Nat × List Byte) := []
  diemap : List (Nat × Nat) := []
  ldie : List (Nat × Nat) := []
  busyWait : List (Nat × List Byte) := []
  nodes : List Nat := []
  resets : Nat := 0
  stackSerial : List (Nat × Nat) := []
  carrier : Nat := 0
  powerOk : Bool := true
  tripped : Bool := false
  deriving DecidableEq, Repr

/-- The open Tidemark interval (Table 20-1): the accumulators of one record. -/
structure TmkOpen where
  openUs : Nat := 0
  tempP : List (Nat × Nat) := []
  tempS : List (Nat × Nat) := []
  vinMin : Nat := 65535
  railMin : Nat := 65535
  railIsl : Nat := 0
  peakW : Nat := 0
  energyMs : Nat := 0
  throttleS : Nat := 0
  throttleAt : Nat := 0
  cls : List (Nat × Nat) := []
  sev : List (Nat × Nat) := []
  droop : Nat := 0
  tw : List (Nat × Nat) := []
  d2d : List (Nat × Nat) := []
  slip : List (Nat × Nat) := []
  slipMax : Nat := 0
  portDown : Nat := 0
  domain : Bool := false
  restart : Bool := false
  twNow : List (Nat × Nat) := []
  d2dNow : Nat := 0
  period : Nat := 60
  deriving DecidableEq, Repr

/-- The Tidemark recorder (R557 to R570). A flash slot that is not listed is erased. -/
structure TmkSt where
  running : Bool := false
  cur : TmkOpen := {}
  perm : List (Nat × List Byte) := []
  circ : List (Nat × List Byte) := []
  ledger : List (Nat × List Byte) := []
  seq : Nat := 0
  nextCirc : Nat := 0
  clearing : Option Nat := none
  clearVia : Nat := 0
  waitRec : List (List Byte) := []
  deriving DecidableEq, Repr

end Sys2Proof.Machine
end

