-- ==== Sys2Proof/Machine/State.lean ====
section
/-! DEFINITION. The state of the block, its state right after a module reset, and the reasons a step can stop. -/

namespace Sys2Proof.Machine

/-- The whole module. Memories list the bytes that differ from `Mem.unlisted`; every map is sparse over a default that
the operations of Machine/Ops.lean name; register fields that differ from their reset value are in `regs`. -/
structure State where
  /-- Register fields by `64 * (BAR0 offset) + low bit` (R571); an unlisted field reads its reset value. -/
  regs : List (Nat × Nat) := []
  /-- WL fields written since the module reset (R9). -/
  wl : List Nat := []
  /-- Cores by logical number (R59, R217). -/
  cores : List (Nat × Core) := []
  /-- Slices with their homes (R245). -/
  slices : List (Nat × Slice) := []
  /-- Coherence messages on the bulk mesh (R253). -/
  net : List Msg := []
  /-- Device memory by physical address: HBM frames, tiers B and C (R301). -/
  mem : Mem := []
  /-- Poisoned 32-byte sectors of device memory (R317). -/
  poison : List Nat := []
  /-- Host memory by host address. -/
  host : Mem := []
  /-- Queues, commands, contexts, coves, ports (chapters 15 and 16). -/
  hs : HostSt := {}
  /-- Networks, engines, tide, Tideway (chapters 12 to 14). -/
  ns : NetSt := {}
  /-- Channels, tiers and keys (chapter 11). -/
  hb : HbmSt := {}
  /-- The power controller (chapter 17). -/
  pw : PwrSt := {}
  /-- Reliability (chapter 18). -/
  ra : RasSt := {}
  /-- Start-up and security (chapter 19). -/
  se : SecSt := {}
  /-- The Tidemark recorder (chapter 20). -/
  tm : TmkSt := {}
  /-- Occupancy section of the distance table, its count of updates, the count of measurements and when (R580). -/
  occ : List (Nat × Nat) := []
  occGen : Nat := 0
  measGen : Nat := 0
  measUs : Nat := 0
  /-- Nanoseconds since the module reset (SYS_UPTIME, R579). -/
  now : Nat := 0
  /-- The model's own: how many free values have been drawn (log entry 1). -/
  free : Nat := 0
  /-- The commands that wait, first in, first out. -/
  pending : List Instr := []
  deriving DecidableEq, Repr

/-- No command of this model raises a fault: an instruction fault is state (R84), a refused access is a reply (R431). -/
inductive Fault
  /-- Raised by nothing; kept so that the type is inhabited (safe). -/
  | never
  deriving DecidableEq, Repr

/-- Why a command has no meaning in the model. -/
inductive Refusal
  /-- Raised by an arm of `exec` for a command that has no meaning yet (safe). -/
  | notModelled (mnemonic : String)
  deriving DecidableEq, Repr

/-- The module right after a module reset (R532): start-up stage 1, every register field at its reset value, every
queue, context, cove and domain free, no message on any network, memory with nothing listed. -/
def State.reset : State := {}

end Sys2Proof.Machine
end

