-- ==== Sys2Proof/Machine/Ops.lean ====
section
/-! DEFINITION. Named operations over the state: register fields, event counters, error reporting, units by number,
free draws (R6 to R11, R574 to R578). -/

namespace Sys2Proof.Machine

/-! ### Register fields -/

/-- Key of a field: 64 × BAR0 offset + low bit (R571). `d` is the byte distance from entry 0 of a repeated register. -/
def fkey (cls inst : Nat) (f : Fld) (d : Nat) : Nat := (cls * 2 ^ 23 + inst * 2 ^ 12 + f.off + d) * 64 + f.lo

def State.fldN (s : State) (cls inst : Nat) (f : Fld) (d : Nat) : Nat := mget f.rst s.regs (fkey cls inst f d)

/-- The value of a register field of a page. -/
def State.fld (s : State) (cls inst : Nat) (f : Fld) : Nat := s.fldN cls inst f 0

/-- Write a register field, keeping the bits the field has. -/
def State.setFldN (s : State) (cls inst : Nat) (f : Fld) (d v : Nat) : State :=
  { s with regs := mset f.rst s.regs (fkey cls inst f d) (v % 2 ^ (f.hi + 1 - f.lo)) }

def State.setFld (s : State) (cls inst : Nat) (f : Fld) (v : Nat) : State := s.setFldN cls inst f 0 v

/-- Write several fields of one page. -/
def State.setFlds (s : State) (cls inst : Nat) (l : List (Fld × Nat)) : State :=
  l.foldl (fun s p => s.setFld cls inst p.1 p.2) s

/-- The CTX page of a context: class 8 or 9 (R571). -/
def ctxCls (n : Nat) : Nat := 8 + n / 2048
def State.xfld (s : State) (n : Nat) (f : Fld) : Nat := s.fld (ctxCls n) (n % 2048) f
def State.setX (s : State) (n : Nat) (f : Fld) (v : Nat) : State := s.setFld (ctxCls n) (n % 2048) f v

/-- The CORE page of a logical core: physical die and core number (R16, R85, Table 21-5). -/
def State.corePage (s : State) (c : Nat) : Nat := mget 0 s.se.ldie (c / 16) * 16 + c % 16
def State.kfld (s : State) (c : Nat) (f : Fld) : Nat := s.fld clsCore (s.corePage c) f
def State.setK (s : State) (c : Nat) (f : Fld) (v : Nat) : State := s.setFld clsCore (s.corePage c) f v

/-! ### Event counters (R574, R578) -/

/-- Count `n` events of a code on one counter pair of a page. -/
def countOne (cls inst code n k : Nat) (s : State) : State :=
  if s.fldN cls inst R.EVT_SEL_n_CODE (0x20 * k) = code then
    s.setFldN cls inst R.EVT_COUNT_n_COUNT (0x20 * k) (s.fldN cls inst R.EVT_COUNT_n_COUNT (0x20 * k) + n)
  else s

/-- Count `n` events: the pairs that select the code, unless the page is frozen. -/
def State.count (s : State) (cls inst code n : Nat) : State :=
  if n = 0 ∨ code = 0 ∨ s.fld cls inst R.UNIT_CTRL_EVT_FREEZE = 1 then s
  else countOne cls inst code n 3 (countOne cls inst code n 2 (countOne cls inst code n 1 (countOne cls inst code n 0 s)))

/-- Count on the CORE page of a logical core. -/
def State.kcount (s : State) (c code n : Nat) : State := s.count clsCore (s.corePage c) code n
def State.xcount (s : State) (x code n : Nat) : State := s.count (ctxCls x) (x % 2048) code n

/-! ### Errors (Table 21-3) -/

def State.tide (s : State) : Nat := s.ns.tick

/-- ERR_STATUS as a 6-bit number. -/
def State.errStatus (s : State) (cls inst : Nat) : Nat :=
  s.fld cls inst R.ERR_STATUS_CE + 2 * s.fld cls inst R.ERR_STATUS_UE + 4 * s.fld cls inst R.ERR_STATUS_PROTOCOL
  + 8 * s.fld cls inst R.ERR_STATUS_UNRECORDED + 16 * s.fld cls inst R.ERR_STATUS_FAULT + 32 * s.fld cls inst R.ERR_STATUS_INJECTED

/-- ERR_STATUS bit numbers. -/
def errFld : Nat → Fld
  | 0 => R.ERR_STATUS_CE | 1 => R.ERR_STATUS_UE | 2 => R.ERR_STATUS_PROTOCOL | 3 => R.ERR_STATUS_UNRECORDED
  | 4 => R.ERR_STATUS_FAULT | _ => R.ERR_STATUS_INJECTED

/-- Set an ERR_STATUS bit; ERR_FIRST takes the first bit set while ERR_STATUS was zero. -/
def State.errBit (s : State) (cls inst b : Nat) : State :=
  let s' := if s.errStatus cls inst = 0 then
      s.setFlds cls inst [(R.ERR_FIRST_VALID, 1), (R.ERR_FIRST_BIT, b), (R.ERR_FIRST_TICK, s.tide)]
    else s
  s'.setFld cls inst (errFld b) 1

/-- An error event of a unit: its ERR_STATUS bit, ERR_COUNT, and UNRECORDED when its ERR register already holds one. -/
def State.raise (s : State) (cls inst b : Nat) (recorded : Bool) : State :=
  let s := s.errBit cls inst b
  let s := s.setFld cls inst R.ERR_COUNT_TOTAL (satAdd 32 (s.fld cls inst R.ERR_COUNT_TOTAL) 1)
  if recorded then s
  else (s.errBit cls inst 3).setFld cls inst R.ERR_COUNT_UNRECORDED (satAdd 32 (s.fld cls inst R.ERR_COUNT_UNRECORDED) 1)

/-- Record an event in an ERR register whose VALID field is `v`: the first is recorded, later ones are counted. -/
def State.record (s : State) (cls inst b : Nat) (v : Fld) (l : List (Fld × Nat)) : State :=
  if s.fld cls inst v = 0 then ((s.setFlds cls inst l).setFld cls inst v 1).raise cls inst b true
  else s.raise cls inst b false

/-! ### Injected errors (R576) -/

/-- Whether an injection of a kind (0 CE, 1 UE, 2 PROTOCOL) is armed on a page. -/
def State.armed (s : State) (cls inst kind : Nat) : Bool :=
  s.fld cls inst R.ERR_INJECT_ARM == 1 && s.fld cls inst R.ERR_INJECT_KIND == kind

/-- The check that an armed injection meets: ARM clears and INJECTED is set. -/
def State.disarm (s : State) (cls inst : Nat) : State := (s.setFld cls inst R.ERR_INJECT_ARM 0).errBit cls inst 5

/-- Take an armed injection of one kind from a page. -/
def State.takeInjection (s : State) (cls inst kind : Nat) : Option State :=
  if s.armed cls inst kind then some (s.disarm cls inst) else none

/-! ### Units by number -/

def State.core (s : State) (c : Nat) : Core := mget {} s.cores c
def State.setCore (s : State) (c : Nat) (k : Core) : State := { s with cores := mset {} s.cores c k }
def State.modCore (s : State) (c : Nat) (f : Core → Core) : State := s.setCore c (f (s.core c))
def State.slice (s : State) (n : Nat) : Slice := mget {} s.slices n
def State.setSlice (s : State) (n : Nat) (x : Slice) : State := { s with slices := mset {} s.slices n x }
def State.modSlice (s : State) (n : Nat) (f : Slice → Slice) : State := s.setSlice n (f (s.slice n))

def State.ctx (s : State) (n : Nat) : Ctx := mget {} s.hs.ctxs n
def State.setCtx (s : State) (n : Nat) (x : Ctx) : State := { s with hs := { s.hs with ctxs := mset {} s.hs.ctxs n x } }
def State.modCtx (s : State) (n : Nat) (f : Ctx → Ctx) : State := s.setCtx n (f (s.ctx n))
def State.queue (s : State) (n q : Nat) : Queue := mget {} (s.ctx n).queues q
def State.modQueue (s : State) (n q : Nat) (f : Queue → Queue) : State :=
  s.modCtx n (fun x => { x with queues := mset {} x.queues q (f (mget {} x.queues q)) })
def State.cove (s : State) (c : Nat) : Cove := mget {} s.hs.coves c
def State.modCove (s : State) (c : Nat) (f : Cove → Cove) : State :=
  { s with hs := { s.hs with coves := mset {} s.hs.coves c (f (s.cove c)) } }
def State.edge (s : State) (p : Nat) : Edge := mget {} s.hs.edges p
def State.modEdge (s : State) (p : Nat) (f : Edge → Edge) : State :=
  { s with hs := { s.hs with edges := mset {} s.hs.edges p (f (s.edge p)) } }
def State.dom (s : State) (d : Nat) : Dom := mget {} s.ns.doms d
def State.modDom (s : State) (d : Nat) (f : Dom → Dom) : State :=
  { s with ns := { s.ns with doms := mset {} s.ns.doms d (f (s.dom d)) } }
def State.port (s : State) (p : Nat) : Twp := mget {} s.ns.ports p
def State.modPort (s : State) (p : Nat) (f : Twp → Twp) : State :=
  { s with ns := { s.ns with ports := mset {} s.ns.ports p (f (s.port p)) } }
def State.chan (s : State) (c : Nat) : Chan := mget {} s.hb.chans c
def State.modChan (s : State) (c : Nat) (f : Chan → Chan) : State :=
  { s with hb := { s.hb with chans := mset {} s.hb.chans c (f (s.chan c)) } }

/-! ### Groups and blocks of a core -/

def Core.group (k : Core) (g : Nat) : Group := mget {} k.groups g
def Core.setGroup (k : Core) (g : Nat) (x : Group) : Core := { k with groups := mset {} k.groups g x }
def Core.modGroup (k : Core) (g : Nat) (f : Group → Group) : Core := k.setGroup g (f (k.group g))
def Core.block (k : Core) (b : Nat) : Block := mget {} k.blocks b
def Core.setBlock (k : Core) (b : Nat) (x : Block) : Core := { k with blocks := mset {} k.blocks b x }
def State.group (s : State) (c g : Nat) : Group := (s.core c).group g
def State.modGroup (s : State) (c g : Nat) (f : Group → Group) : State := s.modCore c (fun k => k.modGroup g f)

/-- The block and launch of a group. -/
def State.blockOf (s : State) (c g : Nat) : Block := (s.core c).block (s.group c g).blk
def State.launchOf (s : State) (c g : Nat) : Launch := (s.blockOf c g).launch

/-! ### Free draws (log entry 1) -/

/-- The next free number, below `n` when `n` is not zero; the counter advances. -/
def State.draw (s : State) (n : Nat) : Nat × State :=
  (if n = 0 then Config.freeNat s.free else Config.freeNat s.free % n, { s with free := s.free + 1 })

/-- The next free bytes. -/
def State.drawBytes (s : State) (n : Nat) : List Byte × State :=
  ((List.range n).map (fun i => Config.freeByte (s.free + i)), { s with free := s.free + n })

/-! ### Outputs -/

def State.emit (s : State) (m : OutMsg) : State := { s with hs := { s.hs with out := s.hs.out ++ [m] } }

/-- Kinds of output. -/
def outMsix : Nat := 0
def outBar4 : Nat := 1
def outFrame : Nat := 2
def outVendor : Nat := 3
def outSpdm : Nat := 4
def outPldm : Nat := 5
def outMctp : Nat := 6
def outConfig : Nat := 7
def outEvent : Nat := 8
def outHostReq : Nat := 9
def outAts : Nat := 10
def outUnsupported : Nat := 11

/-! ### Memory and poison -/

/-- A device sector is 32 bytes of physical address. -/
def State.poisoned (s : State) (pa : Nat) : Bool := s.poison.contains (pa / 32)
def State.setPoison (s : State) (pa : Nat) (b : Bool) : State :=
  { s with poison := if b then sadd (pa / 32) s.poison else sdel (pa / 32) s.poison }

/-! ### Reading the module's own configuration -/

/-- R534: every page and doorbell is open from READY on. -/
def State.ready (s : State) : Bool := s.se.stage == 10 && !s.se.failed && !s.se.off && !s.se.scan

/-- Bits of a repeated 64-bit register as a list of numbers (channels, slices, cores). -/
def State.bitmap (s : State) (cls inst : Nat) (f : Fld) (n : Nat) : List Nat :=
  (List.range n).flatMap (fun i =>
    let v := s.fldN cls inst f (8 * i)
    if v = 0 then [] else ((List.range 64).filter (fun j => v.testBit j)).map (fun j => 64 * i + j))

def State.coveChans (s : State) (c : Nat) : List Nat := s.bitmap clsCove c R.COVE_CHANNELS_n_CH 16
def State.coveSlices (s : State) (c : Nat) : List Nat := s.bitmap clsCove c R.COVE_SLICES_n_SL 8
def State.coveCoreBits (s : State) (c : Nat) : List Nat := s.bitmap clsCove c R.COVE_CORES_n_CORE 16

/-- Cores a cove holds: those its bits name and those still leaving it (R464). -/
def State.coveCores (s : State) (c : Nat) : List Nat :=
  (s.cove c).leaving.foldl (fun l k => sadd k l) (s.coveCoreBits c)

/-- The cove a context belongs to: the one whose range holds it (R470). -/
def State.ctxCove (s : State) (n : Nat) : Option Nat :=
  (s.hs.coves.find? (fun p => p.1 < 64 && p.2.st != 0 &&
    decide (s.fld clsCove p.1 R.COVE_CTX_BASE ≤ n) &&
    decide (n < s.fld clsCove p.1 R.COVE_CTX_BASE + s.fld clsCove p.1 R.COVE_CTX_COUNT))).map Prod.fst

/-- Commons slices per shelf die (Table 16-10). -/
def State.commonsC (s : State) : Nat := min 8 (s.fld clsCove 64 R.COMMONS_CFG_C)

/-- The primary HOST port: the lowest-numbered one (R427). -/
def State.primary (s : State) : Option Nat :=
  (List.range 8).find? (fun e => s.fld clsEdge e R.EDGE_STATE_ROLE == 1)

/-! ### Codes of the instruction faults (Table 4-9) -/

def Flt.illegal : Nat := 1
def Flt.regRange : Nat := 2
def Flt.mxRegion : Nat := 3
def Flt.mxDiverge : Nat := 4
def Flt.reconv : Nat := 5
def Flt.barDiverge : Nat := 6
def Flt.align : Nat := 7
def Flt.translate : Nat := 8
def Flt.protect : Nat := 9
def Flt.spRange : Nat := 10
def Flt.shelfRange : Nat := 11
def Flt.landRange : Nat := 12
def Flt.poison : Nat := 13
def Flt.ebbReread : Nat := 14
def Flt.uncorr : Nat := 15
def Flt.tideStall : Nat := 16
def Flt.breakpoint : Nat := 17

/-! ### The program tick -/

/-- The program tick: the counter less the epoch (R382). -/
def State.progTick (s : State) (d : Dom) : Int := (s.ns.tick : Int) - d.epoch

/-- A change of the power controller's state. -/
def State.setPw (s : State) (f : PwrSt → PwrSt) : State := { s with pw := f s.pw }

end Sys2Proof.Machine
end

