-- ==== Sys2Proof/Machine/Ras.lean ====
section
/-! DEFINITION. Interrupt vectors, the RAS log, leaky buckets, declarations, the retirement list, map-out of channels
(R322, R456, R512 to R516, R518, R526, R527, R575, R576, R579). -/

namespace Sys2Proof.Machine

/-! ### Vectors (R456, R457) -/

/-- VFs 0 to NumVFs − 1 are enabled. -/
def State.vfOn (s : State) (c : Nat) : Bool := decide (c < s.hs.vfs)

/-- The mask and pending entry of a vector of a function: of the PF `v`, of a VF 4096 and its pool entry (R456). -/
def maskKey (vf : Option Nat) (v : Nat) : Nat := match vf with | none => v | some c => 4096 + 32 * c + 1 + v

/-- Whether a vector of a function ever fires: the PF's copies of an enabled VF's entries do not (R456). -/
def State.vectorFires (s : State) (fn : Option Nat) (v : Nat) : Bool :=
  match fn with | none => v % 32 == 0 || !s.vfOn (v / 32) | some _ => true

/-- Raise vector `v` of a function: pool entry `v` for the PF, `32 c + 1 + v` for VF `c`. A masked one is pending. -/
def State.raiseVector (s : State) (fn : Option Nat) (v : Nat) : State :=
  match fn with
  | none =>
    if v % 32 ≠ 0 && s.vfOn (v / 32) then s
    else if s.hs.masked.contains v then { s with hs := { s.hs with msixPend := sadd v s.hs.msixPend } }
    else s.emit { kind := outMsix, a := v }
  | some c =>
    let p := 32 * c + 1 + v
    if s.hs.masked.contains (4096 + p) then { s with hs := { s.hs with msixPend := sadd (4096 + p) s.hs.msixPend } }
    else s.emit { kind := outMsix, a := p, b := c + 1 }

/-! ### The open Tidemark interval (R557 to R559) -/

/-- What the recorder accumulates, while it runs. -/
def State.tmk (s : State) (f : TmkOpen → TmkOpen) : State :=
  if s.tm.running then { s with tm := { s.tm with cur := f s.tm.cur } } else s

/-- One more at an index of a sparse count. -/
def bump (l : List (Nat × Nat)) (i n : Nat) : List (Nat × Nat) := mset 0 l i (mget 0 l i + n)

/-! ### Records (R526, Table 18-5) -/

/-- An error event: the detecting page, severity, cause, where, whom it met, its bucket and weight, the ERR register. -/
structure RasEv where
  cls : Nat
  inst : Nat
  sev : Nat
  kind : Nat := 0
  addr : Nat := 0
  cove : Option Nat := none
  ctx : Nat := 0
  count : Nat := 0
  bcls : Nat := 7
  binst : Nat := 0
  weight : Nat := 0
  info : List Nat := []

/-- Severities of Table 18-5. -/
def Sev.corrected : Nat := 0
def Sev.recovered : Nat := 1
def Sev.contained : Nat := 2
def Sev.retire : Nat := 3
def Sev.fatal : Nat := 4

/-- Causes to which the spec gives a name and no number (log entry 22). -/
def kindOf (n : Nat) : Nat := Config.rasKind n % 256
def Knd.commonsDiverge : Nat := kindOf 0
def Knd.retireListFull : Nat := kindOf 1
def Knd.portSuspect : Nat := kindOf 2
def Knd.other : Nat := kindOf 3

def RasEv.words (e : RasEv) (seq tick level : Nat) : List Nat :=
  [ seq % 2 ^ 32 * 2 ^ 32 + e.cls % 32 * 2 ^ 27 + e.inst % 2048 * 2 ^ 16 + e.kind % 256 * 2 ^ 8 + e.sev % 8, tick, e.addr % 2 ^ 52,
    (match e.cove with | some c => 2 ^ 63 + c % 64 * 2 ^ 56 | none => 0) + e.ctx % 4096 * 2 ^ 32 + e.count % 2 ^ 32,
    e.bcls * 2 ^ 32 + level % 2 ^ 32, e.info.getD 0 0, e.info.getD 1 0, e.info.getD 2 0 ]

/-- Write a record: into the ring, to PLDM, to PF vector 0. CORRECTED records need LOG_CE; a lost device records only
FATAL (Table 18-6). SEQ numbers the records from 1 (DEDUCED, log entry 23). -/
def State.rasRecord (s : State) (e : RasEv) (level : Nat) : State :=
  let s := s.tmk (fun t => { t with sev := bump t.sev e.sev 1 })
  if e.sev = 0 && s.fld clsRas 0 R.RAS_CFG_LOG_CE = 0 then s
  else if s.ra.lost && e.sev ≠ 4 then s
  else
    let ws := e.words (s.ra.seq + 1) s.ns.tick level
    let full := s.ra.log.any (fun p => p.1 == s.ra.head)
    let s := if full then s.count clsRas 0 Ev.RAS_LOG_OVERFLOW 1 else s
    let s := { s with ra := { s.ra with
      log := minsert s.ra.head ws (merase s.ra.log s.ra.head)
      head := (s.ra.head + 1) % 1024
      seq := (s.ra.seq + 1) % 2 ^ 32 } }
    let s := (s.count clsRas 0 Ev.RAS_RECORDS 1).emit { kind := outEvent, a := e.sev, b := e.kind, data := ws.flatMap (leBytes 8) }
    if e.sev = 3 || e.sev = 4 || (e.sev = 2 && s.fld clsRas 0 R.RAS_CFG_INT_CONTAINED = 1) then s.raiseVector none 0 else s

/-! ### Map-out (R321, R322) -/

/-- R579: a change of capacity or of the die map. -/
def State.mapChange (s : State) : State :=
  ((s.setFld clsSys 0 R.SYS_MAPCHG_GEN (s.fld clsSys 0 R.SYS_MAPCHG_GEN + 1)).count clsSys 0 Ev.SYS_MAP_CHANGES 1).emit
    { kind := outEvent, a := s.fld clsSys 0 R.SYS_MAPCHG_GEN + 1 }

/-- Whether an owner holds a frame. -/
def State.frameOwned (s : State) (f : Nat) : Bool :=
  f < 2 || s.hs.coves.any (fun p => p.2.st != 0 &&
    decide (s.fld clsCove p.1 R.COVE_FRAMES_FB ≤ f) && decide (f < s.fld clsCove p.1 R.COVE_FRAMES_FB + (s.coveChans p.1).length))

/-- The highest present frame that no owner holds is withdrawn. -/
def State.withdrawFrame (s : State) : State :=
  match (s.hb.present.reverse).find? (fun f => !s.frameOwned f) with
  | some f => { s with hb := { s.hb with present := sdel f s.hb.present } }
  | none => s

/-- A channel declared permanent (R322). -/
def State.mapOut (s : State) (ch : Nat) : State :=
  let c := s.chan ch
  if c.st ≠ 1 then s
  else if c.owner = 0 && !c.clearing then ((s.modChan ch (fun c => { c with st := 3 })).withdrawFrame).mapChange
  else (s.modChan ch (fun c => { c with st := 2 })).mapChange

/-! ### The retirement list (R527) -/

def retireEntry (ty index lane : Nat) : Nat := ty * 2 ^ 60 + index * 2 ^ 44 + lane

/-- Enter a source once; answers whether the list was full. -/
def State.retireAdd (s : State) (e : Nat) : State × Bool :=
  if s.ra.retire.contains e then (s, false)
  else if 256 ≤ s.ra.retire.length then (s, true)
  else ({ s with ra := { s.ra with retire := s.ra.retire ++ [e] } }, false)

/-- The entry of a bucket's source. -/
def bucketEntry (cls inst : Nat) : Nat :=
  if cls = 3 then retireEntry 3 (inst / 65536) (inst % 65536) else retireEntry cls inst 0

/-! ### Buckets (R513, Table 18-2) -/

def bucketKey (cls inst : Nat) : Nat := cls * 2 ^ 32 + inst
def State.bucket (s : State) (cls inst : Nat) : Bucket := mget {} s.ra.buckets (bucketKey cls inst)
def State.setBucket (s : State) (cls inst : Nat) (b : Bucket) : State :=
  { s with ra := { s.ra with buckets := mset {} s.ra.buckets (bucketKey cls inst) b } }
def State.bucketLimit (s : State) (cls : Nat) : Nat := s.fldN clsRas 0 R.RAS_BKT_CFG_c_LIMIT (8 * cls)
def State.bucketHeavy (s : State) (cls : Nat) : Nat := s.fldN clsRas 0 R.RAS_BKT_CFG_c_WEIGHT_HI (8 * cls)

/-- R514, R516: what a source's bucket at its limit brings about. A Tideway port runs a forced lane test (R516). -/
def State.declareSource (s : State) (e : RasEv) : State :=
  let b := s.bucket e.bcls e.binst
  if e.bcls = 4 then
    let p := s.port e.binst
    if p.st = 6 then
      (s.modPort e.binst (fun p => { p with st := 7, forced := true })).count clsRas 0 Ev.RAS_FORCED_LANE_TEST 1
    else s
  else
    let s := (s.setBucket e.bcls e.binst { b with perm := true }).count clsRas 0 Ev.RAS_DECLARATIONS 1
    let r := s.retireAdd (bucketEntry e.bcls e.binst)
    let s := r.1.rasRecord { e with sev := Sev.retire, kind := if r.2 then Knd.retireListFull else e.kind } b.level
    if e.bcls = 0 then s.mapOut e.binst else s

/-- A level that reaches LIMIT declares its source, once. -/
def State.checkBucket (s : State) (e : RasEv) : State :=
  let b := s.bucket e.bcls e.binst
  let l := s.bucketLimit e.bcls
  if b.perm || l = 0 || b.level < l then s else s.declareSource e

/-- An error event: its bucket is charged, unless it was injected (R576); it is recorded once; its source may be declared. -/
def State.rasEvent (s : State) (e : RasEv) (injected : Bool) : State :=
  if injected || e.bcls = 7 || e.weight = 0 then s.rasRecord e (if e.bcls = 7 then 0 else (s.bucket e.bcls e.binst).level)
  else
    let b := s.bucket e.bcls e.binst
    let s := s.tmk (fun t => if e.weight = 1 then { t with cls := bump t.cls e.bcls 1 } else t)
    let b' := if b.perm then b else { b with level := min (b.level + e.weight) (2 ^ 32 - 1) }
    let s := (s.setBucket e.bcls e.binst b').rasRecord e b'.level
    if b.perm then s else s.checkBucket e

/-- The words of a unit's ERR register, as INFO copies them. -/
def State.regWord (s : State) (cls inst off : Nat) : Nat :=
  (((unitRegs cls).filter (fun r => r.off == off)).flatMap (fun r => r.fields)).foldl
    (fun v f => v + s.fld cls inst f.fld * 2 ^ f.fld.lo) 0

/-- The compute die of a logical core: its physical number (class 2 instances). -/
def State.dieOf (s : State) (c : Nat) : Nat := s.corePage c / 16

/-- An uncorrectable error of a core, contained by its fault (Table 18-1). -/
def State.coreUncorr (s : State) (c errOff : Nat) (injected : Bool) : State :=
  s.rasEvent {
    cls := clsCore, inst := s.corePage c, sev := Sev.contained, kind := Knd.other, bcls := 2, binst := s.dieOf c,
    weight := s.bucketHeavy 2, info := if errOff = 0 then [] else [s.regWord clsCore (s.corePage c) errOff] } injected

/-- A corrected error of a core. -/
def State.coreCorrected (s : State) (c : Nat) (injected : Bool) : State :=
  s.rasEvent {
    cls := clsCore, inst := s.corePage c, sev := Sev.corrected, kind := Knd.other, bcls := 2, binst := s.dieOf c, weight := 1 } injected

end Sys2Proof.Machine
end

