-- ==== Sys2Proof/Machine/Addr.lean ====
section
/-! DEFINITION. The physical map, channels, homes, page walks and reach checks
(R245 to R248, R284, R301 to R314, R323 to R328, R467 to R469). -/

namespace Sys2Proof.Machine

/-- Who owns an HBM frame or channel (R305). -/
inductive Owner
  | none
  | cove (c : Nat)
  | commons
  | mgmt
  deriving DecidableEq, Repr

/-- The ranges of Table 11-1. -/
inductive Region
  | hbm (frame : Nat)
  | shelf (cove off : Nat)
  | tierB (slot : Nat)
  | tierC (region : Nat)
  | regs
  | hostWin (addr : Nat)
  | unmapped
  deriving DecidableEq, Repr

/-- Table 11-1, before the extent of each expander, region and window is looked at. -/
def region (pa : Nat) : Region :=
  if pa < 0x020000000000 then .hbm (pa / 2 ^ 31)
  else if pa < 0x030000000000 then .unmapped
  else if pa < 0x034000000000 then .shelf ((pa - 0x030000000000) / 2 ^ 32) (pa % 2 ^ 32)
  else if pa < 0x040000000000 then .unmapped
  else if pa < 0x0A0000000000 then .tierB ((pa - 0x040000000000) / 2 ^ 40)
  else if pa < 0x100000000000 then .unmapped
  else if pa < 0x200000000000 then .tierC ((pa - 0x100000000000) / 2 ^ 40)
  else if pa < 0xF00000000000 then .unmapped
  else if pa < 0xF00010000000 then .regs
  else if pa < 0xF80000000000 then .unmapped
  else if pa < 0x1000000000000 then .hostWin (pa - 0xF80000000000)
  else .unmapped

/-- The physical address of a cove's shelf-scratch window (R284). -/
def shelfBase (c : Nat) : Nat := 0x030000000000 + c * 2 ^ 32

/-- Frames of a cove or the commons: first frame and count; an owner holds as many frames as channels (R305). -/
def State.framesOf (s : State) (c : Nat) : Nat × Nat :=
  (s.fld clsCove c R.COVE_FRAMES_FB, (s.coveChans c).length)

/-- The owner of a frame: frames 0 and 1 are the management region's from start-up stage 5 on (R305). -/
def State.frameOwner (s : State) (f : Nat) : Owner :=
  if f < 2 then (if s.se.stage < 5 then .none else .mgmt)
  else match s.hs.coves.find? (fun p => p.2.st != 0 &&
      decide ((s.framesOf p.1).1 ≤ f) && decide (f < (s.framesOf p.1).1 + (s.framesOf p.1).2)) with
    | some (64, _) => .commons
    | some (c, _) => .cove c
    | none => .none

/-- The channels an owner holds, ascending (R305, R306). The management region holds the lowest in-service channel of
each stack of shelf die S0. -/
def State.ownerChans (s : State) : Owner → List Nat
  | .none => []
  | .cove c => s.coveChans c
  | .commons => s.coveChans 64
  | .mgmt => ((s.hb.chans.filter (fun p => p.2.owner == 3)).map Prod.fst)

def State.ownerBase (s : State) : Owner → Nat
  | .cove c => s.fld clsCove c R.COVE_FRAMES_FB
  | .commons => s.fld clsCove 64 R.COVE_FRAMES_FB
  | _ => 0

/-- LOCAL for the commons and the coves that chose it (R306, Table 16-6). -/
def State.ownerLocal (s : State) : Owner → Bool
  | .cove c => s.fld clsCove c R.COVE_CFG_MODE == 1
  | .commons => true
  | _ => false

/-- LOCAL: the group of frame index `i` among channel lists grouped by shelf die. -/
def localGroup (cs : List Nat) (i : Nat) : Nat → Nat → Option (List Nat × Nat)
  | _, 0 => none
  | d, k + 1 =>
    let g := cs.filter (fun c => c / 64 == d)
    if i < g.length then some (g, i) else localGroup cs (i - g.length) (d + 1) k

/-- R306: channel and channel offset of an HBM byte of an owner. -/
def State.chanOf (s : State) (o : Owner) (pa : Nat) : Option (Nat × Nat) :=
  let cs := s.ownerChans o
  let n := cs.length
  let i := pa / 2 ^ 31 - s.ownerBase o
  let off := pa % 2 ^ 31
  if n = 0 then none
  else if s.ownerLocal o then
    match localGroup cs i 0 16 with
    | none => none
    | some (g, k) =>
      let x := k * 2 ^ 31 + off
      (g[(x / 4096) % g.length]?).map (fun c => (c, x / 4096 / g.length * 4096 + x % 4096))
  else
    let x := i * 2 ^ 31 + off
    (cs[(x / 4096) % n]?).map (fun c => (c, x / 4096 / n * 4096 + x % 4096))

/-- The channel of an HBM address, whoever owns it. -/
def State.paChan (s : State) (pa : Nat) : Option Nat :=
  match region pa with
  | .hbm f => (s.chanOf (s.frameOwner f) pa).map Prod.fst
  | _ => none

/-- The physical address of a channel's byte: the converse of R306. -/
def State.chanPa (s : State) (ch choff : Nat) : Option Nat :=
  let c := s.chan ch
  let o : Owner := match c.owner with | 1 => .cove c.cove | 2 => .commons | 3 => .mgmt | _ => .none
  let cs := s.ownerChans o
  match cs.findIdx? (fun x => x == ch) with
  | none => none
  | some j =>
    if s.ownerLocal o then
      let d := ch / 64
      let g := cs.filter (fun x => x / 64 == d)
      let i0 := (cs.filter (fun x => x / 64 < d)).length
      match g.findIdx? (fun x => x == ch) with
      | none => none
      | some k =>
        let x := (choff / 4096 * g.length + k) * 4096 + choff % 4096
        some ((s.ownerBase o + i0) * 2 ^ 31 + x)
    else
      let x := (choff / 4096 * cs.length + j) * 4096 + choff % 4096
      some (s.ownerBase o * 2 ^ 31 + x)

/-- R247: the two hashes of a line number. -/
def homeHash (a : Nat) : Nat := (a &&& 0xFFFF) ^^^ (a / 2 ^ 16 % 2 ^ 16) ^^^ (a / 2 ^ 32)
def setHash (a : Nat) : Nat := (a % 2 ^ 13) ^^^ (a / 2 ^ 13 % 2 ^ 13) ^^^ (a / 2 ^ 26 % 2 ^ 13) ^^^ (a / 2 ^ 39)

/-- The set of a line (R247). -/
def lineSet (line : Nat) : Nat := setHash line * 5120 / 2 ^ 13

/-- Whether an address lies in the commons or the management region. -/
def State.isCommons (s : State) (pa : Nat) : Bool :=
  match region pa with
  | .hbm f => s.frameOwner f == .commons
  | _ => false

def State.isMgmt (s : State) (pa : Nat) : Bool :=
  match region pa with
  | .hbm f => s.frameOwner f == .mgmt
  | _ => false

/-! ### Shelf scratch (R284) -/

/-- Bytes of a cove's window. -/
def State.windowBytes (s : State) (c : Nat) : Nat := (s.coveSlices c).length * (s.cove c).carve * 655360

/-- The slice of a window offset. -/
def State.windowSlice (s : State) (c o : Nat) : Nat :=
  (s.coveSlices c).getD (o / ((s.cove c).carve * 655360)) 0

/-- The set and the way of a byte of a slice's carve (R284). -/
def shelfPlace (r : Nat) : Nat × Nat := (r / 128 % 5120, 15 - r / 128 / 5120)

/-- The home slice of a line for a request of cove `c` (R247, R307); of shelf scratch, the slice that holds it (R248, R284). -/
def State.home (s : State) (c line : Nat) : Nat :=
  let pa := line * 128
  let pick : List Nat → Nat := fun l => l.getD (homeHash line * l.length / 2 ^ 16) 0
  let commons : Unit → Nat := fun _ =>
    let d := (s.paChan pa).getD 0 / 64
    if s.commonsC = 0 then 32 * d else 32 * d + homeHash line * s.commonsC / 2 ^ 16
  match region pa with
  | .hbm f => match s.frameOwner f with
    | .commons => commons ()
    | .mgmt => commons ()
    | .cove o => pick (s.coveSlices o)
    | .none => pick (s.coveSlices c)
  | .shelf w o => s.windowSlice w o
  | _ => pick (s.coveSlices c)

/-! ### Tiers B and C -/

/-- The tier B interleave in effect: W ways when at least W expanders are present (R324). -/
def tierbW : Nat → Nat
  | 1 => 2 | 2 => 3 | 3 => 6 | _ => 0

/-- Bytes of the expander in a slot. -/
def State.expanderBytes (s : State) (e : Nat) : Nat :=
  match s.hb.expanders.find? (fun p => p.1 == e) with
  | some (_, _, g) => g * 2 ^ 30
  | none => 0

/-- The expander slot and device offset of a tier B address; none where it is not mapped (R323, R324). -/
def State.tierB (s : State) (pa : Nat) : Option (Nat × Nat) :=
  let y := pa - 0x040000000000
  let w := s.hb.tierbWays
  if y < w * 2 ^ 40 then
    let m := (List.range w).foldl (fun a e => min a (s.expanderBytes e)) (2 ^ 40)
    if y < w * m then some (y / 4096 % w, y / 4096 / w * 4096 + y % 4096) else none
  else if y % 2 ^ 40 < s.expanderBytes (y / 2 ^ 40) then some (y / 2 ^ 40, y % 2 ^ 40) else none

/-- Whether a tier C address is mapped (R326). -/
def State.tierC (s : State) (pa : Nat) : Bool :=
  let r := (pa - 0x100000000000) / 2 ^ 40
  s.fldN clsEdge 8 R.TIERC_LOC_r_VALID (16 * r) == 1 &&
    decide (pa % 2 ^ 40 < s.fldN clsEdge 8 R.TIERC_LOC_r_SIZE (16 * r) * 2 ^ 30)

/-- The granule number of an outer address (R467). -/
def granuleOf (pa : Nat) : Nat :=
  if pa < 0x100000000000 then (pa - 0x040000000000) / 2 ^ 30 else 6144 + (pa - 0x100000000000) / 2 ^ 30

def State.granule (s : State) (g : Nat) : Granule := mget {} s.hs.granules g

/-- Whether a cove may reach an outer granule (R467). -/
def State.granuleOk (s : State) (c pa : Nat) : Bool :=
  let g := s.granule (granuleOf pa)
  (g.mode == 1 && g.cove == c) || (g.mode == 2 && g.mask.testBit c)

/-- Whether an address is mapped at all (Table 11-1, R304, R323, R326, R284). -/
def State.mapped (s : State) (pa : Nat) : Bool :=
  match region pa with
  | .hbm f => s.hb.present.contains f
  | .shelf c o => decide (o < s.windowBytes c)
  | .tierB _ => (s.tierB pa).isSome
  | .tierC _ => s.tierC pa
  | .regs => true
  | .hostWin _ => true
  | .unmapped => false

/-- The frames a cove may use: its own less the save pool (R481). -/
def State.ownFrame (s : State) (c f : Nat) : Bool :=
  decide (s.fld clsCove c R.COVE_FRAMES_FB ≤ f) &&
    decide (f + s.fld clsCove c R.COVE_SAVE_FRAMES < s.fld clsCove c R.COVE_FRAMES_FB + (s.coveChans c).length) &&
    s.frameOwner f == .cove c

/-! ### Memory as it is read (R317, R329, R344, R469, R522, R525) -/

/-- R329: an address behind an expander whose link has failed. -/
def State.linkLost (s : State) (pa : Nat) : Bool :=
  match region pa with
  | .tierB _ => match s.tierB pa with
    | some (e, _) => s.hb.expFailed.contains e
    | none => false
  | _ => false

/-- R525: a line of a commons tile that the poisoned-tile table lists. -/
def State.badTile (s : State) (pa : Nat) : Bool := s.isCommons pa && s.ns.badTiles.any (fun p => p.2 / 128 == pa / 4096)

/-- The mirror of a commons address in its primary half (R469). -/
def State.mirrorOf (s : State) (pa : Nat) : Option Nat :=
  let n := (s.coveChans 64).length
  let d := pa - s.fld clsCove 64 R.COVE_FRAMES_FB * 2 ^ 31
  if s.isCommons pa && s.fld clsCove 64 R.COMMONS_CFG_MIRROR = 1 && d < n * 2 ^ 30 then some (pa + n * 2 ^ 30) else none

/-- The address whose bytes a read of memory uses, and the poison mark (R522). -/
def State.memFrom (s : State) (pa : Nat) : Nat × Bool :=
  if s.linkLost pa || s.badTile pa then (pa, true)
  else if !s.poisoned pa then (pa, false)
  else match s.mirrorOf pa with
    | some q => if s.poisoned q then (pa, true) else (q, false)
    | none => (pa, true)

/-- A byte of memory as it is read, and its mark. -/
def State.memByte (s : State) (pa : Nat) : Byte × Bool :=
  let r := s.memFrom pa
  (s.mem.read r.1, r.2)

/-! ### Page tables (R309 to R313) -/

/-- A translation: page number, page size in bits, page address, W and WT. -/
abbrev Leaf := TlbEnt

/-- What a walk ends in: a page, or TRANSLATE with the address of the last entry read (R311). -/
inductive Walk
  | page (e : TlbEnt)
  | fault (last : Option Nat)
  deriving DecidableEq, Repr

/-- An address bits [63:57] of which all equal bit 56 (R98). -/
def canonical (va : Nat) : Bool := va / 2 ^ 56 % 2 ^ 8 == 0 || va / 2 ^ 56 % 2 ^ 8 == 255

/-- A 57-bit address field as the canonical address it stands for (R98). -/
def sx57 (va : Nat) : Nat := if 2 ^ 56 ≤ va && va < 2 ^ 57 then va + (2 ^ 64 - 2 ^ 57) else va

/-- Level shift and index width of Table 11-2, levels 4 to 1. -/
def levelShift : Nat → Nat | 4 => 39 | 3 => 30 | 2 => 21 | _ => 16
def levelBits : Nat → Nat | 4 => 18 | 3 => 9 | 2 => 9 | _ => 5
/-- Alignment, in bits, of the table a level-`l` entry points to. -/
def tableAlign : Nat → Nat | 4 => 12 | 3 => 12 | _ => 8

/-- R311: whether an entry is well formed at its level. -/
def entryOk (level e : Nat) : Bool :=
  let leaf := bit e 1
  let adr := bits e 51 8 * 256
  bit e 0 && bits e 63 52 == 0 && bits e 7 5 == 0 && !bit e 3 &&
  (if leaf then level != 4 && adr % 2 ^ levelShift level == 0
   else level != 1 && !bit e 4 && !bit e 2 && adr % 2 ^ tableAlign level == 0)

/-- A walk from a table of `level` at `table`; `rd` reads an entry, `own` says whether a table may lie there. -/
def walkFrom (rd : Nat → Nat) (own : Nat → Bool) (va : Nat) : Nat → Nat → Option Nat → Walk
  | 0, _, last => .fault last
  | l + 1, table, last =>
    if !own table then .fault last
    else
      let a := table + 8 * (va / 2 ^ levelShift (l + 1) % 2 ^ levelBits (l + 1))
      let e := rd a
      if !entryOk (l + 1) e then .fault (some a)
      else if bit e 1 then
        .page { vpn := va % 2 ^ 57 / 2 ^ levelShift (l + 1), shift := levelShift (l + 1), pa := bits e 51 8 * 256,
                w := bit e 2, wt := bit e 4 }
      else walkFrom rd own va l (bits e 51 8 * 256) (some a)

/-- The addresses of the entries that the walk reads. -/
def walkPath (rd : Nat → Nat) (own : Nat → Bool) (va : Nat) : Nat → Nat → List Nat
  | 0, _ => []
  | l + 1, table =>
    if !own table then []
    else
      let a := table + 8 * (va / 2 ^ levelShift (l + 1) % 2 ^ levelBits (l + 1))
      let e := rd a
      a :: (if !entryOk (l + 1) e || bit e 1 then [] else walkPath rd own va l (bits e 51 8 * 256))

/-- R312: whether a cove's access to a page is refused. `core` is a core `ld`, `st` or atomic; `wr` a store or atomic. -/
def State.pageRefused (s : State) (c : Nat) (e : TlbEnt) (pa : Nat) (core wr : Bool) : Bool :=
  let last := e.pa + 2 ^ e.shift - 1
  (match region pa with
   | .hbm f =>
     let own := s.ownFrame c f && s.ownFrame c (last / 2 ^ 31)
     let com := s.frameOwner f == .commons
     !(s.hb.present.contains f) || !(own || (com && !wr)) || e.wt
   | .shelf w _ => w != c || core || e.wt || decide (s.windowBytes c ≤ last - shelfBase c)
   | .tierB _ => !s.mapped pa || !s.granuleOk c pa || (s.granule (granuleOf pa)).mode == 2 && !e.wt
   | .tierC _ => !s.mapped pa || !s.granuleOk c pa || (s.granule (granuleOf pa)).mode == 2 && !e.wt
   | .hostWin _ => e.wt
   | _ => true)
  || (wr && !e.w)

end Sys2Proof.Machine
end

