-- ==== Sys2Proof/Machine/Coh.lean ====
section
/-! DEFINITION. Reads and writes of memory by agents that keep no copy: command processor, engines, ports, read-only
caches, the walker (R195, R264, R265, R291, R292, R428). They act on the line and at its home as SnoopRd and AtomFar WRITE
do, and only while no message of the protocol is under way for the line (log entry 12). -/

namespace Sys2Proof.Machine

/-- The outcome of a read: bytes with a poison mark, a live ghost of a strict cove, a refusal, a host port that is
down, or a line that is busy. -/
inductive Rd
  | ok (bytes : List Byte) (poison : Bool)
  | ghost
  | refused
  | down
  | wait
  deriving DecidableEq, Repr

/-- The outcome of a write. -/
inductive Wr
  | ok (s : State)
  | refused
  | down
  | wait

/-- Whether the protocol has something under way for a line. -/
def State.lineBusy (s : State) (line : Nat) : Bool :=
  s.net.any (fun m => m.line == line) ||
  s.slices.any (fun p => p.2.txns.any (fun t => t.line == line) || p.2.queue.any (fun m => m.line == line) ||
    p.2.ebbs.any (fun e => e.1 == line)) ||
  s.cores.any (fun p => p.2.reqs.any (fun r => r.line == line))

def Slice.line (x : Slice) (l : Nat) : SLine := mget {} x.lines l
def Slice.setLine (x : Slice) (l : Nat) (v : SLine) : Slice := { x with lines := mset {} x.lines l v }
def Core.line (k : Core) (l : Nat) : L1Line := mget {} k.l1 l
def Core.setLine (k : Core) (l : Nat) (v : L1Line) : Core := { k with l1 := mset {} k.l1 l v }
def Slice.ghost (x : Slice) (l : Nat) : Option Nat := (x.ghosts.find? (fun p => p.1 == l)).map Prod.snd

/-- A sector mask of a line and its sectors. -/
def maskOfSecs (l : List Nat) : Nat := l.foldl (fun m i => m ||| 2 ^ i) 0
def secsOfMask (m : Nat) : List Nat := (List.range 4).filter (fun i => bit m i)

/-- The core that owns a line, by the directory (R250). -/
def SLine.ownerOf (x : SLine) : Option Nat :=
  match x.dir.st with
  | .em => some x.dir.owner
  | .o => some x.dir.owner
  | _ => none

/-- Where the newest copy of a byte of a coherent line is (R250): the owner, the slice, a ghost's zero, memory. -/
def State.lineByte (s : State) (c pa : Nat) : Byte × Bool :=
  let line := pa / 128
  let o := pa % 128
  let h := s.slice (s.home c line)
  let x := h.line line
  let own := match x.ownerOf with
    | some k => let l := (s.core k).line line; if bit l.valid (o / 32) then some l else none
    | none => none
  match own with
  | some l => (l.data.read o, bit l.poison (o / 32))
  | none =>
    if x.present && bit x.valid (o / 32) then (x.data.read o, bit x.poison (o / 32))
    else if (h.ghost line).isSome then (0, false)
    else s.memByte pa

/-- Whether a region takes part in the protocol (R248). -/
def coherent : Region → Bool
  | .hbm _ => true
  | .tierB _ => true
  | .tierC _ => true
  | _ => false

/-- The pieces of a byte range, cut at multiples of 128. -/
def pieces : Nat → Nat → Nat → List (Nat × Nat)
  | 0, _, _ => []
  | k + 1, a, n => if n = 0 then [] else
      let m := min n (128 - a % 128)
      (a, m) :: pieces k (a + m) (n - m)

def cut (a n : Nat) : List (Nat × Nat) := pieces (n / 128 + 2) a n

/-- The HOST port of a cove's host-window accesses (R428). -/
def State.hostPort (s : State) (c : Nat) : Option Nat :=
  let p := s.fld clsCove c R.COVE_CFG_HOST_PORT
  if p < 8 then some p else s.primary

/-- The entry of a cove's page in a translation cache (R428). -/
def atcKey (c a : Nat) : Nat := c * 2 ^ 52 + a / 4096 % 2 ^ 52

/-- Whether a cove can reach host memory now, and whether the host grants a page (R428): the translation cache of the
port holds `0` for a page whose translation granted nothing. -/
def State.hostUp (s : State) (c : Nat) : Bool :=
  match s.hostPort c with | some p => (s.edge p).up | none => false
def State.hostGrants (s : State) (c a : Nat) : Bool :=
  match s.hostPort c with
  | some p => !((s.edge p).atc.any (fun e => e.1 == atcKey c a && e.2 == 0))
  | none => false

/-- R192 of host accesses: a read of host memory. -/
def State.hostRead (s : State) (c a n : Nat) : Rd :=
  if !s.hostUp c then .down
  else if !s.hostGrants c a then .refused
  else .ok (s.host.readBytes a n) false

/-- A poison mark on some sector of a range of memory. -/
def State.poisonIn (s : State) (pa n : Nat) : Bool :=
  (List.range ((pa % 32 + n + 31) / 32)).any (fun i => s.poison.contains (pa / 32 + i))

/-- A read of at most one line of physical memory, as a SnoopRd (R264, R291). -/
def State.paRead (s : State) (c pa n : Nat) : Rd :=
  match region pa with
  | .hostWin a => s.hostRead c a n
  | .shelf _ _ => .ok (s.mem.readBytes pa n) (s.poisonIn pa n)
  | r =>
    if !coherent r then .refused
    else if s.lineBusy (pa / 128) then .wait
    else
      let h := s.slice (s.home c (pa / 128))
      let x := h.line (pa / 128)
      if (h.ghost (pa / 128)).isSome && !x.present && s.fld clsSlice (s.home c (pa / 128)) R.GHOST_CFG_STRICT == 1 then .ghost
      else
        let l := (List.range n).map (fun i => s.lineByte c (pa + i))
        .ok (l.map Prod.fst) (l.any Prod.snd)

/-! ### Errors of a burst (R316) -/

/-- The cove that owns a channel. -/
def State.chanCove (s : State) (ch : Nat) : Option Nat := if (s.chan ch).owner = 1 then some (s.chan ch).cove else none

/-- A corrected burst. -/
def State.hbmCe (s : State) (ch burst : Nat) (injected : Bool) : State :=
  ((s.count clsHbmc ch Ev.HBMC_CE 1).raise clsHbmc ch 0 true).rasEvent {
    cls := clsHbmc, inst := ch, sev := Sev.corrected, kind := Knd.other, addr := (s.chanPa ch (64 * burst)).getD 0
    cove := s.chanCove ch, bcls := 0, binst := ch, weight := 1 } injected

/-- An uncorrectable read that its retry clears: transient (R512). -/
def State.hbmRetryOk (s : State) (ch : Nat) : State := s.count clsHbmc ch Ev.HBMC_UE_RETRY_OK 1

/-- An uncorrectable burst: both sectors are poisoned, recorded and reported once. A burst whose sectors carry marks
already raises no new error (R317). The symbols flagged are open: positions 0 to 35, or unknown (Table 11-11). -/
def State.hbmUe (s : State) (ch burst : Nat) (scrub injected : Bool) : State :=
  match s.chanPa ch (64 * burst) with
  | none => s
  | some pa =>
    if s.poisoned pa && s.poisoned (pa + 32) then s
    else
      let s := (s.setPoison pa true).setPoison (pa + 32) true
      let (a, s) := s.draw 37
      let (b, s) := s.draw 37
      let sym := (if a = 36 then 255 else a) + 256 * (if b = 36 then 255 else b)
      let s := (s.count clsHbmc ch Ev.HBMC_UE 1).record clsHbmc ch 1 R.HBMC_UE_VALID
        [(R.HBMC_UE_SCRUB, boolNat scrub), (R.HBMC_UE_SECTORS, 3), (R.HBMC_UE_SYMBOLS, sym), (R.HBMC_UE_BURST, burst)]
      s.rasEvent {
        cls := clsHbmc, inst := ch, sev := Sev.contained, kind := Knd.other, addr := pa, cove := s.chanCove ch, count := 2, bcls := 0
        binst := ch, weight := s.bucketHeavy 0, info := [s.regWord clsHbmc ch 0x118] } injected

/-- The bursts that a write of a line's sectors writes: those that are written whole, and those of which some bytes are
(R317). -/
def State.countWrites (s : State) (line full part : Nat) : State :=
  (List.range 2).foldl (fun s i =>
    let f := bits full (2 * i + 1) (2 * i)
    if f = 0 && bits part (2 * i + 1) (2 * i) = 0 then s
    else match s.paChan (line * 128 + 64 * i) with
      | some ch => (s.count clsHbmc ch Ev.HBMC_WRITE_BURSTS 1).count clsHbmc ch Ev.HBMC_RMW_BURSTS (boolNat (f != 3))
      | none => s) s

/-- Write bytes of one line to memory proper; a fully written sector loses its poison mark unless `poison` is set. -/
def State.memPut (s : State) (pa : Nat) (bs : List Byte) (poison : Bool) : State :=
  let n := bs.length
  if s.linkLost pa then s else
  let s := { s with mem := s.mem.writeBytes pa bs }
  (List.range (n / 32 + 2)).foldl (fun s i =>
    let sec := pa / 32 * 32 + 32 * i
    if pa + n ≤ sec then s
    else if poison then s.setPoison sec true
    else if pa ≤ sec && sec + 32 ≤ pa + n then s.setPoison sec false
    else s) s

/-- One sector of an L1 or slice into the slice when it holds the line, else into memory. -/
def State.sectorDown (s : State) (c line sec : Nat) (data : Mem) (poison : Bool) : State :=
  let h := s.home c line
  let x := (s.slice h).line line
  let bs := data.readBytes (32 * sec) 32
  if x.present then
    s.modSlice h (fun y => y.setLine line { x with
      data := x.data.writeBytes (32 * sec) bs, valid := x.valid ||| 2 ^ sec, dirty := x.dirty ||| 2 ^ sec,
      poison := setBits x.poison sec sec (boolNat poison) })
  else (s.countWrites line (2 ^ sec) 0).memPut (line * 128 + 32 * sec) bs poison

/-- Every L1 copy of a line goes, dirty sectors to the slice; the directory entry returns to I (R265). -/
def State.recallLine (s : State) (c line : Nat) : State :=
  let s := s.cores.foldl (fun s p =>
    let l := p.2.line line
    if l.st = .i then s
    else
      let s := (List.range 4).foldl (fun s i =>
        if bit l.dirty i then s.sectorDown c line i l.data (bit l.poison i) else s) s
      s.modCore p.1 (fun k => k.setLine line {})) s
  let h := s.home c line
  let x := (s.slice h).line line
  if x.present then s.modSlice h (fun y => y.setLine line { x with dir := {} }) else s

/-- The line as R292 installs it: sectors that were not valid are zero, and all four are valid and dirty. -/
def SLine.zeroed (x : SLine) : SLine :=
  { x with data := x.data.filter (fun p => bit x.valid (p.1 / 32)), valid := 15, dirty := 15, poison := x.poison &&& x.valid }

/-- R292: a write ends a live ghost; the line then reads as zeros. -/
def State.ghostWrite (s : State) (c line : Nat) : State :=
  let h := s.home c line
  if ((s.slice h).ghost line).isNone then s
  else
    let s := s.modSlice h (fun y => { y with ghosts := y.ghosts.filter (fun g => g.1 != line) })
    let s := s.count clsSlice h Ev.SLICE_GHOST_END_WRITE 1
    let x := (s.slice h).line line
    if x.present then s.modSlice h (fun y => y.setLine line x.zeroed)
    else (s.countWrites line 15 0).memPut (line * 128) (List.replicate 128 0) false

/-! ### The directory -/

def Slice.txn (x : Slice) (l : Nat) : Option HTxn := x.txns.find? (fun t => t.line == l)
def Slice.setTxn (x : Slice) (t : HTxn) : Slice := { x with txns := x.txns.filter (fun u => u.line != t.line) ++ [t] }
def Slice.dropTxn (x : Slice) (l : Nat) : Slice := { x with txns := x.txns.filter (fun u => u.line != l) }
def State.hline (s : State) (h l : Nat) : SLine := (s.slice h).line l
def State.setHline (s : State) (h l : Nat) (x : SLine) : State := s.modSlice h (fun y => y.setLine l x)
def State.hcount (s : State) (h code n : Nat) : State := s.count clsHome h code n
def State.scount (s : State) (h code n : Nat) : State := s.count clsSlice h code n

/-- Sharer pointers before the coarse form (Table 9-14). -/
def State.ptrLimit (s : State) (h : Nat) : Nat :=
  let n := s.fld clsHome h R.HOME_CFG_PTR_LIMIT
  if 1 ≤ n && n ≤ 4 then n else 4

/-- R251: one more sharer. The coarse form is kept until the line returns to I; in EM its vector is empty. -/
def Dir.add (d : Dir) (limit n : Nat) : Dir :=
  match d.coarse with
  | some v => { d with coarse := some (v ||| 2 ^ (n / 32)) }
  | none =>
    let p := sadd n d.ptr
    if p.length ≤ limit then { d with ptr := p }
    else { d with ptr := [], coarse := some (p.foldl (fun v k => v ||| 2 ^ (k / 32)) 0) }

/-- R251: PutS removes a pointer and no coarse bit. -/
def Dir.del (d : Dir) (n : Nat) : Dir := { d with ptr := sdel n d.ptr }

def Dir.noSharer (d : Dir) : Bool := d.ptr.isEmpty && (d.coarse.getD 0 == 0)

/-- No sharer left, in the form the entry has (R251). -/
def Dir.unshared (d : Dir) : Dir := { d with ptr := [], coarse := d.coarse.map (fun _ => 0) }

/-- One core owns the line in E or M and no other holds it (R250). -/
def Dir.toEM (d : Dir) (n : Nat) : Dir := { d.unshared with st := .em, owner := n }

/-- The active cores of a line's cove, or of the device for a commons line. -/
def State.activeCores (s : State) (cove : Nat) (commons : Bool) : List Nat :=
  if commons then s.hs.coves.foldl (fun l p => if p.1 < 64 then (s.coveCores p.1).foldl (fun l k => sadd k l) l else l) []
  else s.coveCores cove

/-- The cores that an invalidation of every sharer goes to (R251). -/
def State.sharersOf (s : State) (d : Dir) (cove : Nat) (commons : Bool) : List Nat :=
  match d.coarse with
  | none => d.ptr
  | some v => (s.activeCores cove commons).filter (fun k => bit v (k / 32))

/-- As if the recorded owner had sent PutE (R270). -/
def Dir.ownerGone (d : Dir) : Dir :=
  match d.st with
  | .em => {}
  | .o => if d.noSharer then {} else { d with st := .s, owner := 0 }
  | _ => d

def Dir.isOwner (d : Dir) (n : Nat) : Bool := (d.st == .em || d.st == .o) && d.owner == n
def Dir.isSharer (d : Dir) (n : Nat) : Bool := (d.st == .s || d.st == .o) && d.ptr.contains n
/-- A holder: the recorded owner or a pointer-listed sharer (R274). -/
def Dir.listed (d : Dir) (n : Nat) : Bool := d.isOwner n || d.isSharer n
/-- Whether a Put comes from a holder; under the coarse form a PutS does (R274). -/
def Dir.putHolder (d : Dir) (n : Nat) (putS : Bool) : Bool :=
  d.listed n || (putS && (d.st == .s || d.st == .o) && d.coarse.isSome)

/-- The sectors of a line that a range of bytes touches. -/
def touched (pa n : Nat) : Nat :=
  (List.range 4).foldl (fun m i => if pa % 128 < 32 * i + 32 && decide (32 * i < pa % 128 + n) then m ||| 2 ^ i else m) 0

/-! ### Memory side of a slice -/

/-- Memory's sectors into a slice line, in 64-byte halves that hold a needed sector; valid sectors stay (R266). -/
def State.fillFromMem (s : State) (line need : Nat) (x : SLine) : SLine :=
  (List.range 4).foldl (fun x i =>
    if bit x.valid i || !(bit need i || bit need (i ^^^ 1)) then x
    else
      let pa := line * 128 + 32 * i
      let r := s.memFrom pa
      { x with data := x.data.writeBytes (32 * i) (s.mem.readBytes r.1 32), valid := x.valid ||| 2 ^ i
               poison := setBits x.poison i i (boolNat r.2) }) x

/-- The bursts that a demand read of a line's sectors reads: an injection is found, poison marks and mirror reads are
counted (R317, R522, R576). An armed uncorrectable error is left to a read of a core or the scrubber where `ue` is off, a read
of an engine (DESIGN CHOICE, log entry 20). -/
def State.memCheck (s : State) (line need : Nat) (ue : Bool) : State :=
  (List.range 2).foldl (fun s i =>
    let pa := line * 128 + 64 * i
    if bits need (2 * i + 1) (2 * i) = 0 then s
    else match region pa with
      | .hbm f => match s.chanOf (s.frameOwner f) pa with
        | none => s
        | some (ch, off) =>
          let s := s.count clsHbmc ch Ev.HBMC_READ_BURSTS 1
          let s := match (if ue then s.takeInjection clsHbmc ch 1 else none) with
            | some s => s.hbmUe ch (off / 64) false true
            | none => match s.takeInjection clsHbmc ch 0 with
              | some s => s.hbmCe ch (off / 64) true
              | none => s
          let s := s.count clsHbmc ch Ev.HBMC_POISON_READ (boolNat (s.poisoned pa) + boolNat (s.poisoned (pa + 32)))
          if (s.poisoned pa && !(s.memFrom pa).2) || (s.poisoned (pa + 32) && !(s.memFrom (pa + 32)).2) then
            s.count clsRas 0 Ev.RAS_MIRROR_LINE 1
          else s
      | _ => s) s

/-- The sectors that a slice line needs are read from memory where it does not hold them (R266, R316). -/
def State.fetch (s : State) (h line need : Nat) (ue : Bool) : State :=
  let x := s.hline h line
  let miss := maskOfSecs ((List.range 4).filter (fun i => !bit x.valid i && (bit need i || bit need (i ^^^ 1))))
  let s := s.memCheck line miss ue
  s.setHline h line (s.fillFromMem line need (s.hline h line))

/-- Write every dirty sector of a slice line to memory, with its poison mark. -/
def State.writeDown (s : State) (h line : Nat) : State :=
  let x := s.hline h line
  let s := (secsOfMask x.dirty).foldl (fun (s : State) i =>
    s.memPut (line * 128 + 32 * i) (x.data.readBytes (32 * i) 32) (bit x.poison i)) s
  (s.countWrites line x.dirty 0).setHline h line { x with dirty := 0 }

/-- Dirty sectors that a message brought, into the slice. -/
def SLine.absorb (x : SLine) (m : Msg) (dirty : Nat) : SLine :=
  ((secsOfMask m.mask).zipIdx).foldl (fun x p =>
    if !bit dirty p.1 then x
    else { x with data := x.data.writeBytes (32 * p.1) ((m.data.drop (32 * p.2)).take 32), valid := x.valid ||| 2 ^ p.1
                  dirty := x.dirty ||| 2 ^ p.1, poison := setBits x.poison p.1 p.1 (boolNat (bit m.poison p.1)) }) x

/-! ### Ways (R245, R266, R282) -/

/-- Lines of a slice in one set. -/
def Slice.inSet (x : Slice) (set : Nat) : List (Nat × SLine) := x.lines.filter (fun p => p.2.present && p.2.set == set)

/-- What claiming a way needs: nothing more, a recall of a victim, or room that is not there. -/
inductive Claim
  | free (way : Nat)
  | evict (victim way : Nat)
  | recall (victim way : Nat)
  | none

/-- Choose among candidate lines of a set in not-recently-used order; when every bit is set, all bits of the set are
cleared first. -/
def Slice.choose (y : Slice) (set : Nat) (cand : List (Nat × SLine)) : Option ((Nat × SLine) × Slice) :=
  match nruPick 16 (mget 0 y.rot set) (cand.map (fun p => (p.2.way, p.2.ref))) with
  | none => none
  | some w => match cand.find? (fun p => p.2.way == w) with
    | none => none
    | some p => some (p, if cand.all (fun p => p.2.ref) then
        { y with lines := y.lines.map (fun p => if p.2.set = set then (p.1, { p.2 with ref := false }) else p) } else y)

/-- A way for a line: a free one, else the victim of R266, one in I before others. -/
def State.findWay (s : State) (h line : Nat) : Claim × State :=
  let y := s.slice h
  let set := lineSet line
  let ls := y.inSet set
  match (List.range (16 - y.carve)).find? (fun w => !ls.any (fun p => p.2.way == w)) with
  | some w => (.free w, s)
  | none =>
    let cand := ls.filter (fun p => !p.2.moored && (y.txn p.1).isNone && !y.ebbs.any (fun e => e.1 == p.1))
    match y.choose set (cand.filter (fun p => p.2.dir.st == .i)) with
    | some (p, y) => (.evict p.1 p.2.way, s.setSlice h y)
    | none => match y.choose set cand with
      | some (p, y) => (.recall p.1 p.2.way, s.setSlice h y)
      | none => (.none, s)

/-- A line takes a way. A line with a live ghost is installed as zeros (R291, R292): dirty for a write, which ends the ghost. -/
def State.claimWay (s : State) (h : Nat) (m : Msg) (way : Nat) : State :=
  let line := m.line
  let set := lineSet line
  let write := m.ty = .getM || m.ty = .upg || m.ty = .atomFar
  let ghost := ((s.slice h).ghost line).isSome
  let x : SLine := { set := set, way := way, present := true, ref := true, cove := m.cove, commons := m.commons,
                     valid := if ghost then 15 else 0, dirty := if ghost && write then 15 else 0 }
  let s := s.modSlice h (fun y => { y.setLine line x with rot := mset 0 y.rot set ((way + 1) % 16) })
  if ghost && write then
    (s.modSlice h (fun y => { y with ghosts := y.ghosts.filter (fun g => g.1 != line) })).scount h Ev.SLICE_GHOST_END_WRITE 1
  else s

/-! ### Agents without an L1 at a home -/

/-- A request that a home accepts (R281). -/
def State.accepted (s : State) (h code : Nat) : State := (s.hcount h Ev.HOME_REQ_ACCEPTED 1).hcount h code 1

/-- The invalidations that a write of a line needs (R265). -/
def State.countInvs (s : State) (c h line : Nat) : State :=
  let x := s.hline h line
  let sh := match x.dir.st with
    | .s | .o => (s.sharersOf x.dir c x.commons).filter (fun k => some k != x.ownerOf)
    | _ => []
  (s.hcount h Ev.HOME_INV_SENT (sh.length + boolNat x.ownerOf.isSome)).hcount h Ev.HOME_COARSE_INV
    (if x.dir.coarse.isSome then sh.length else 0)

/-- R201: a line of tier B or C, whose writes go through to its device (DEDUCED, log entry 74). -/
def outerTier (pa : Nat) : Bool := match region pa with | .tierB _ => true | .tierC _ => true | _ => false

/-- A write within one coherent line, as an AtomFar WRITE: sectors the slice holds there, the others in memory; a line of
tier B or C in its device as well (R201). -/
def State.linePut (s : State) (c pa : Nat) (bs : List Byte) (poison : Bool) : State :=
  let line := pa / 128
  let o := pa % 128
  let n := bs.length
  let h := s.home c line
  let s := ((s.accepted h Ev.HOME_ATOMFAR).countInvs c h line).hcount h Ev.HOME_SLICE_MISS (boolNat (!(s.hline h line).present))
  let s := (s.recallLine c line).ghostWrite c line
  let down := (List.range 4).filter (fun i => bit (touched pa n) i &&
    !((s.hline h line).present && bit (s.hline h line).valid i && !outerTier pa))
  let whole := fun i => decide (o ≤ 32 * i) && decide (32 * i + 32 ≤ o + n)
  let s := s.countWrites line (maskOfSecs (down.filter whole)) (maskOfSecs (down.filter (fun i => !whole i)))
  (List.range 4).foldl (fun s i =>
    let lo := max o (32 * i)
    let hi := min (o + n) (32 * i + 32)
    if hi ≤ lo then s
    else
      let part := (bs.drop (lo - o)).take (hi - lo)
      let x := (s.slice h).line line
      let here := x.present && bit x.valid i
      let out := outerTier pa
      let s := if !here || out then s.memPut (line * 128 + lo) part poison else s
      if here then
        s.modSlice h (fun y => y.setLine line { x with
          data := x.data.writeBytes lo part, dirty := if out then x.dirty else x.dirty ||| 2 ^ i,
          poison := if poison then x.poison ||| 2 ^ i
            else if hi - lo = 32 then setBits x.poison i i 0 else x.poison })
      else s) s

/-- A write of at most one line of physical memory. -/
def State.paWrite (s : State) (c pa : Nat) (bs : List Byte) (poison : Bool) : Wr :=
  match region pa with
  | .hostWin a =>
    if !s.hostUp c then .down
    else if !s.hostGrants c a then .refused
    else .ok { s with host := s.host.writeBytes a bs }
  | .shelf _ _ => .ok (s.memPut pa bs poison)
  | r => if !coherent r then .refused
    else if s.lineBusy (pa / 128) then .wait
    else .ok (s.linePut c pa bs poison)

/-- R291: a read that finds a live ghost counts; the first is recorded. -/
def State.reread (s : State) (h line src : Nat) (strict : Bool) : State :=
  let s := s.scount h Ev.SLICE_EBB_REREAD 1
  if s.fld clsSlice h R.GHOST_INFO_VALID = 1 then s
  else s.setFlds clsSlice h [(R.GHOST_INFO_VALID, 1), (R.GHOST_INFO_STRICT_HIT, boolNat strict), (R.GHOST_INFO_SRC, src),
    (R.GHOST_INFO_LINE, line)]

/-- A line leaves a slice as an ordinary victim does (R266): recalls, then its dirty sectors to memory. -/
def State.dropLine (s : State) (c h line : Nat) : State :=
  let s := if (s.hline h line).dir.st = .i then s else (s.countInvs c h line).hcount h Ev.HOME_RECALL 1
  ((s.recallLine c line).writeDown h line).setHline h line {}

/-- A way for a line that misses: a free one, or a victim's, which is recalled and written back first (R266); the line stays out
of the slice while the protocol has something under way for the victim (log entry 12). -/
def State.makeRoom (s : State) (h : Nat) (m : Msg) : State :=
  match s.findWay h m.line with
  | (.free w, s) => s.claimWay h m w
  | (.evict v w, s) => if s.lineBusy v then s else (s.dropLine (s.hline h v).cove h v).claimWay h m w
  | (.recall v w, s) => if s.lineBusy v then s else (s.dropLine (s.hline h v).cove h v).claimWay h m w
  | (.none, s) => s

/-- What a SnoopRd of an agent without an L1 does at the home of an idle line, beside the data (R264, R266, R281, R291). With
`alloc` off a miss takes no way (R342). -/
def State.snoopAt (s : State) (node c line mask : Nat) (alloc : Bool) : State :=
  let h := s.home c line
  let s := s.accepted h Ev.HOME_SNOOPRD
  let x := s.hline h line
  let strict := s.fld clsSlice h R.GHOST_CFG_STRICT = 1
  if x.present then
    ((s.hcount h Ev.HOME_FWD_SENT (boolNat x.ownerOf.isSome)).setHline h line { x with ref := true }).fetch h line mask false
  else
    let s := s.hcount h Ev.HOME_SLICE_MISS 1
    let ghost := ((s.slice h).ghost line).isSome
    let s := if ghost then s.reread h line node strict else s
    if ghost && strict then s
    else if !alloc then (if ghost then s else s.memCheck line mask false)
    else
      let s := s.makeRoom h { ty := .snoopRd, dst := 0x400 + h, src := node, cove := c, line := line,
                              commons := s.isCommons (line * 128) || s.isMgmt (line * 128) }
      if (s.hline h line).present then s.fetch h line mask false else s.memCheck line mask false

/-- A read of at most one line by a node: what it leaves at the home or at the slice (R248, R264). -/
def State.noteRead (s : State) (node c pa n : Nat) (alloc : Bool := true) : State :=
  match region pa with
  | .shelf w o => s.scount (s.windowSlice w o) Ev.SLICE_SHELF_READ ((pa % 32 + n + 31) / 32)
  | r => if coherent r && n != 0 then s.snoopAt node c (pa / 128) (touched pa n) alloc else s

/-! ### Through a cove's translation (R309 to R312) -/

/-- Read one 8-byte table entry; a busy line reads as it stands (R313 reads through the shelf cache). -/
def State.entryAt (s : State) (c a : Nat) : Nat :=
  leNat ((List.range 8).map (fun i => (s.lineByte c (a + i)).1))

/-- Where a cove's tables may lie (R311). -/
def State.tableIn (s : State) (c a : Nat) : Bool := match region a with | .hbm f => s.ownFrame c f | _ => false

/-- A walk of a cove's tables from its root (R309, R310), with a way to read an entry. -/
def State.walkWith (s : State) (c va : Nat) (rd : Nat → Nat) : Walk :=
  if s.fld clsCove c R.COVE_PT_ROOT_V = 0 || !canonical va then .fault none
  else walkFrom rd (s.tableIn c) va 4 (s.fld clsCove c R.COVE_PT_ROOT_ROOT * 2 ^ 21) none

/-- The walk of the tables as they stand. -/
def State.walk (s : State) (c va : Nat) : Walk := s.walkWith c va (s.entryAt c)

/-- The addresses of the entries that it reads, in order. -/
def State.walkReads (s : State) (c va : Nat) (rd : Nat → Nat) : List Nat :=
  if s.fld clsCove c R.COVE_PT_ROOT_V = 0 || !canonical va then []
  else walkPath rd (s.tableIn c) va 4 (s.fld clsCove c R.COVE_PT_ROOT_ROOT * 2 ^ 21)

/-- Where an agent's address leads, or that it may not go there: buffer space 0 is a device VA, 1 an offset of the
shelf-scratch window, 2 a host address (Table 15-6). -/
inductive Loc
  | dev (pa : Nat)
  | host (a : Nat)
  | bad
  deriving DecidableEq, Repr

def State.locate (s : State) (c space a : Nat) (wr : Bool) : Loc :=
  match space with
  | 0 => match s.walk c (sx57 a) with
    | .fault _ => .bad
    | .page e =>
      let pa := e.pa + a % 2 ^ e.shift
      if s.pageRefused c e pa false wr then .bad else .dev pa
  | 1 => if a < s.windowBytes c then .dev (shelfBase c + a) else .bad
  | _ => .host a

/-- One piece of a read. -/
def State.pieceRead (s : State) (c space a n : Nat) : Rd :=
  match s.locate c space a false with
  | .bad => .refused
  | .host h => s.hostRead c h n
  | .dev pa => s.paRead c pa n

def Rd.then (r : Rd) (f : Unit → Rd) : Rd :=
  match r with
  | .ok b p => match f () with
    | .ok b' p' => .ok (b ++ b') (p || p')
    | x => x
  | x => x

/-- A read of a range: the first piece that cannot be read decides. -/
def State.rangeRead (s : State) (c space : Nat) : List (Nat × Nat) → Rd
  | [] => .ok [] false
  | (a, n) :: l => (s.pieceRead c space a n).then (fun _ => s.rangeRead c space l)

/-- What a read of a range by a node leaves at the homes and slices. -/
def State.noteBuf (s : State) (node c space a n : Nat) : State :=
  (cut a n).foldl (fun s p => match s.locate c space p.1 false with
    | .dev pa => s.noteRead node c pa p.2
    | _ => s) s

def State.bufRead (s : State) (c space a n : Nat) : Rd := s.rangeRead c space (cut a n)

/-- The poison mark of each piece's sectors, for a copy that carries marks along: which bytes lie in a poisoned sector. -/
def State.bufPoison (s : State) (c space a n : Nat) : List Bool :=
  (List.range n).map (fun i => match s.locate c space (a + i) false with
    | .dev pa => if coherent (region pa) then (s.lineByte c pa).2 else s.poisoned pa
    | _ => false)

def State.pieceWrite (s : State) (c space a : Nat) (bs : List Byte) (poison : Bool) : Wr :=
  match s.locate c space a true with
  | .bad => .refused
  | .host h =>
    if !s.hostUp c then .down
    else if !s.hostGrants c h then .refused
    else .ok { s with host := s.host.writeBytes h bs }
  | .dev pa => s.paWrite c pa bs poison

/-- A write of a range; nothing is written when some piece would wait or be refused. -/
def State.rangeWrite (s : State) (c space : Nat) (bs : List Byte) (poison : Bool) : List (Nat × Nat) → Nat → Wr
  | [], _ => .ok s
  | (a, n) :: l, o => match s.pieceWrite c space a ((bs.drop o).take n) poison with
    | .ok s' => s'.rangeWrite c space bs poison l (o + n)
    | x => x

def State.bufWrite (s : State) (c space a : Nat) (bs : List Byte) (poison : Bool) : Wr :=
  s.rangeWrite c space bs poison (cut a bs.length) 0

end Sys2Proof.Machine
end

