-- ==== Sys2Proof/Machine/Cmds.lean ====
section
/-! DEFINITION. What every command of a queue shares: statuses and reasons, its record, interrupts, the context's
state, the end of its ghosts (R293, R433 to R437, R442, R454 to R457, R471). -/

namespace Sys2Proof.Machine

/-! ### Status codes (Table 15-13) and reason codes (Table 15-12) -/

def Sta.ok : Nat := 0
def Sta.bounds : Nat := 1
def Sta.lenReserved : Nat := 2
def Sta.state : Nat := 3
def Sta.permission : Nat := 4
def Sta.poison : Nat := 5
def Sta.preempted : Nat := 6
def Sta.deadline : Nat := 7
def Sta.mxDiverge : Nat := 8
def Sta.format : Nat := 9
def Sta.aborted : Nat := 10
def Sta.deviceLost : Nat := 11
def Sta.tideFault : Nat := 12
def Sta.queueFull : Nat := 13
def Sta.moorFull : Nat := 16

def Rsn.none : Nat := 0
def Rsn.opcode : Nat := 1
def Rsn.rsvBit : Nat := 2
def Rsn.bufIndex : Nat := 3
def Rsn.bufAccess : Nat := 4
def Rsn.bound : Nat := 5
def Rsn.lenAllOnes : Nat := 6
def Rsn.pfOnly : Nat := 7
def Rsn.ctxState : Nat := 8
def Rsn.domainState : Nat := 9
def Rsn.coreReserved : Nat := 10
def Rsn.shelfInUse : Nat := 11
def Rsn.notAligned : Nat := 12
def Rsn.bufDesc : Nat := 13
def Rsn.offAlign : Nat := 14
def Rsn.groups : Nat := 0x10
def Rsn.scratchpad : Nat := 0x11
def Rsn.split : Nat := 0x12
def Rsn.landSlots : Nat := 0x13
def Rsn.tileClass : Nat := 0x14
def Rsn.tileOwner : Nat := 0x15
def Rsn.tileBytes : Nat := 0x16
def Rsn.coreSet : Nat := 0x17
def Rsn.grid : Nat := 0x18
def Rsn.moorBudget : Nat := 0x19
def Rsn.moorSet : Nat := 0x1A
def Rsn.peerRefused : Nat := 0x1B
def Rsn.commonsSpace : Nat := 0x1C
def Rsn.mset : Nat := 0x1D
def Rsn.entryCross : Nat := 0x1E
def Rsn.image : Nat := 0x20
def Rsn.startCheck : Nat := 0x21
def Rsn.domainAbort : Nat := 0x22
def Rsn.creditStall : Nat := 0x23
def Rsn.redMismatch : Nat := 0x24
def Rsn.redStall : Nat := 0x25
def Rsn.linkDown : Nat := 0x26
def Rsn.ebbReread : Nat := 0x27
def Rsn.seal : Nat := 0x28
def Rsn.descPoison : Nat := 0x29
def Rsn.timeout : Nat := 0x2A
def Rsn.fault : Nat := 0x2B
def Rsn.epoch : Nat := 0x2C
def Rsn.fieldRange : Nat := 0x2D
def Rsn.ringAccess : Nat := 0x2E

/-! ### Queue registers -/

/-- A field of queue `q` of context `x` (R459). -/
def State.qfld (s : State) (x q : Nat) (f : Fld) : Nat :=
  s.fldN clsCmdq (x / 2) f (0x20 * (x % 2 * 4 + q))
def State.setQ (s : State) (x q : Nat) (f : Fld) (v : Nat) : State :=
  s.setFldN clsCmdq (x / 2) f (0x20 * (x % 2 * 4 + q)) v
def State.qcount (s : State) (x code n : Nat) : State := s.count clsCmdq (x / 2) code n

/-- Ring entries: 2^k, k from 4 to 16, other values acting as 4 (Table 15-16). -/
def State.ringSize (s : State) (x q : Nat) : Nat :=
  let k := s.qfld x q R.Q_CFG_LOG2
  if 4 ≤ k && k ≤ 16 then 2 ^ k else 16

/-! ### Commands in flight -/

def Cmd.is (k : Cmd) (x q i : Nat) : Bool := k.ctx == x && k.queue == q && k.idx == i
def State.cmdAt (s : State) (x q i : Nat) : Option Cmd := s.hs.cmds.find? (fun k => k.is x q i)
def State.setCmd (s : State) (k : Cmd) : State :=
  { s with hs := { s.hs with cmds := s.hs.cmds.map (fun j => if j.is k.ctx k.queue k.idx then k else j) } }
def State.dropCmd (s : State) (x q i : Nat) : State :=
  { s with hs := { s.hs with cmds := s.hs.cmds.filter (fun j => !j.is x q i) } }

/-- Descriptor byte and little-endian fields. -/
def Cmd.byte (k : Cmd) (i : Nat) : Nat := (k.desc.getD i 0).toNat
def Cmd.num (k : Cmd) (i n : Nat) : Nat := leNat ((k.desc.drop i).take n)
def Cmd.opcode (k : Cmd) : Nat := k.byte 0
def Cmd.waitPrev (k : Cmd) : Bool := bit (k.byte 1) 0
def Cmd.intr (k : Cmd) : Bool := bit (k.byte 1) 1
def Cmd.noWait (k : Cmd) : Bool := bit (k.byte 1) 2
def Cmd.rm (k : Cmd) : RMode := RMode.ofCode (k.byte 2 % 4)
def Cmd.sm (k : Cmd) : SatMode := if bit (k.byte 2) 2 then .nosat else .sat
def Cmd.tag (k : Cmd) : Nat := k.num 4 4

/-- Started and not yet ended (R436). -/
def Cmd.live (k : Cmd) : Bool := k.st != .fetched
def State.inflight (s : State) (x q : Nat) : Nat := (s.hs.cmds.filter (fun k => k.ctx == x && k.queue == q)).length
def State.runningOf (s : State) (x : Nat) : List Cmd := s.hs.cmds.filter (fun k => k.ctx == x && k.live)

/-! ### Interrupts (R456, R457) -/

/-- The function that serves a context (R443, R470): the cove's VF while it is enabled, else the PF. -/
def State.fnOf (s : State) (x : Nat) : Option Nat :=
  match s.ctxCove x with | some c => if s.vfOn c then some c else none | none => none

def State.faultVector (s : State) (x : Nat) : State :=
  s.raiseVector (s.fnOf x) (s.xfld x R.CTX_CFG_FAULT_VECTOR)

/-- A queue's interrupt: its vector; the CMDQ page counts it when it is sent, a masked one when it is unmasked (R460). The
count of completions restarts. -/
def State.queueIntr (s : State) (x q : Nat) : State :=
  let v := s.qfld x q R.Q_CFG_VECTOR
  let k := maskKey (s.fnOf x) v
  let s1 := s.raiseVector (s.fnOf x) v
  let s :=
    if !s.vectorFires (s.fnOf x) v then s1
    else if !s.hs.masked.contains k then s1.qcount x Ev.CMDQ_INTERRUPTS 1
    else if s.hs.msixPend.contains k then s1
    else { s1 with hs := { s1.hs with pendFrom := mset 0 s.hs.pendFrom k (x + 1) } }
  s.modQueue x q (fun u => { u with counted := 0, armed := false })

/-- A counted completion (R457). -/
def State.countIntr (s : State) (x q : Nat) : State :=
  let s := s.modQueue x q (fun u => { u with counted := u.counted + 1, armed := (s.qfld x q R.Q_CFG_COAL_US != 0) })
  if max 1 (s.qfld x q R.Q_CFG_COAL_COUNT) ≤ (s.queue x q).counted then s.queueIntr x q else s

/-! ### Records -/

/-- A halt of a queue (R437, R601). -/
def State.haltQueue (s : State) (x q : Nat) (ring : Bool) : State :=
  let s := if (s.queue x q).halted then s else s.qcount x Ev.CMDQ_HALTS 1
  s.modQueue x q (fun u => { u with halted := true, ringFault := u.ringFault || ring })

/-- Write a 32-byte record at CQ entry `n`. -/
def State.putRecord (s : State) (x q n : Nat) (bs : List Byte) : Wr :=
  let c := (s.ctxCove x).getD 0
  let a := s.qfld x q R.Q_CQ_BASE_BASE * 4096 + 32 * n
  s.bufWrite c (if s.qfld x q R.Q_CQ_BASE_SPACE = 1 then 2 else 0) a bs false

/-- Write the records that wait, oldest first, until one cannot be written (R601). -/
def State.flushHeld (s : State) (x q : Nat) : List (List Byte × Nat) → State
  | [] => s.modQueue x q (fun u => { u with held := [] })
  | (bs, n) :: l => match s.putRecord x q n bs with
    | .ok s' => s'.flushHeld x q l
    | .wait => s.modQueue x q (fun u => { u with held := (bs, n) :: l })
    | _ =>
      let s := (s.modQueue x q (fun u => { u with held := (bs, n) :: l }))
      if (s.queue x q).ringFault then s else (s.haltQueue x q true).faultVector x

/-- The bytes of a completion record (Table 15-11). -/
def recordBytes (tag idx status flags result coreUs reason time : Nat) : List Byte :=
  leBytes 4 tag ++ leBytes 2 idx ++ leBytes 1 status ++ leBytes 1 flags ++ leBytes 8 result
    ++ leBytes 4 (min coreUs (2 ^ 32 - 1)) ++ leBytes 1 reason ++ leBytes 3 0 ++ leBytes 8 time

/-- The next record of a queue: reserved entry, PHASE, in order of completion (R435). -/
def State.addRecord (s : State) (x q tag idx status flags result coreUs reason : Nat) : State :=
  let u := s.queue x q
  let bs := recordBytes tag idx status (flags + boolNat u.phase) result coreUs reason s.ns.tick
  let n := u.cqTail
  let t := (n + 1) % s.ringSize x q
  let s := s.modQueue x q (fun u => { u with
    cqTail := t, phase := (u.phase != (t == 0)), written := u.written + 1 })
  let s := s.qcount x Ev.CMDQ_COMPLETED 1
  s.flushHeld x q ((s.queue x q).held ++ [(bs, n)])

/-- LAST_ERROR (Table 15-7). -/
def lastError (status opcode queue reason detail : Nat) : Nat :=
  status * 2 ^ 56 + opcode * 2 ^ 48 + queue * 2 ^ 46 + reason * 2 ^ 32 + detail % 2 ^ 32

/-- R293: ghosts stamped with a node on which the command ran end, in every slice of the cove. -/
def State.endGhosts (s : State) (c : Nat) (nodes : List Nat) : State :=
  (s.coveSlices c).foldl (fun s h =>
    let g := (s.slice h).ghosts
    let k := g.filter (fun p => nodes.contains p.2)
    if k.isEmpty then s
    else (s.modSlice h (fun y => { y with ghosts := g.filter (fun p => !nodes.contains p.2) })).count
      clsSlice h Ev.SLICE_GHOST_END_CMD k.length) s

/-- A context's save-pool reservation is released (R472, R482). -/
def State.releasePool (s : State) (x : Nat) : State :=
  let n := (s.ctx x).poolKib
  (s.modCove ((s.ctxCove x).getD 0) (fun v => { v with poolUsed := v.poolUsed - n })).modCtx x (fun u => { u with poolKib := 0, poolFrom := 0 })

/-- R471: a BUSY context with no running command is READY. A preemption under way then saves nothing (R487): one by
PREEMPT leaves the context PREEMPTED, a displacement leaves it READY. -/
def State.settleCtx (s : State) (x : Nat) : State :=
  if (s.ctx x).st = 2 && (s.runningOf x).isEmpty then
    (s.releasePool x).modCtx x (fun u => { u with
      st := if u.bySw then 3 else 1, heldBySw := u.bySw, bySw := false, saving := false, stopping := false })
  else s

/-- A command ends: its ghosts, LAST_ERROR, its record, the halt and the interrupt of its queue, the state of its
context. `detail` is LAST_ERROR's DETAIL. -/
def State.complete (s : State) (k : Cmd) (status reason detail : Nat) (noop : Bool) : State :=
  let x := k.ctx
  let q := k.queue
  let s := s.endGhosts ((s.ctxCove x).getD 0) k.nodes
  let s := s.dropCmd x q k.idx
  let s := if status = 0 then s else s.setX x R.LAST_ERROR_VALUE (lastError status k.opcode q reason detail)
  let flags := 2 * boolNat k.inexact + 4 * boolNat noop + 8 * boolNat k.poisoned
  let s := s.addRecord x q k.tag k.idx status flags k.result k.coreUs reason
  let s := if noop then s.qcount x Ev.CMDQ_NOOP 1 else s
  let s := if status ≠ 0 && !k.live then s.qcount x Ev.CMDQ_REJECTED 1 else s
  let s := if status ≠ 0 && s.qfld x q R.Q_CFG_HALT_ON_ERR = 1 then s.haltQueue x q false else s
  let s := if k.intr then s.countIntr x q else s
  s.settleCtx x

/-- A running command ends with a result. -/
def State.finish (s : State) (k : Cmd) (result : Nat) : State := s.complete { k with result := result } 0 0 0 false

/-- A command ends with a status other than OK. -/
def State.fail (s : State) (k : Cmd) (status reason detail : Nat) : State := s.complete k status reason detail false

/-- A read that an engine made for a running command failed (R291, R428, R458, R601): status and reason. -/
def State.failRead (s : State) (k : Cmd) (r : Rd) : State :=
  match r with
  | .ghost => s.fail k Sta.aborted Rsn.ebbReread 0
  | .refused => s.fail k Sta.permission Rsn.bufAccess 0
  | .down => s.fail k Sta.aborted Rsn.linkDown 0
  | _ => s

/-- The same for a read by an engine: one that met a live ghost has been to the home (R291). -/
def State.failReadAt (s : State) (node c space a n : Nat) (k : Cmd) (r : Rd) : State :=
  (if r = .ghost then s.noteBuf node c space a n else s).failRead k r

/-! ### The command of a launch -/

def State.cmdOfSeq (s : State) (seq : Nat) : Option Cmd := s.hs.cmds.find? (fun k => k.seq == seq && k.live)

/-- NaN and INEXACT_WIDE events of a core; the second also marks the launch's command (R53, R88). -/
def State.noteWide (s : State) (c : Nat) (l : Launch) (nan wide : Nat) : State :=
  let s := (s.kcount c Ev.CORE_NAN_DROP nan).kcount c Ev.CORE_INEXACT_WIDE wide
  if wide = 0 then s
  else
    let mark := fun (k : Cmd) => { k with inexact := true }
    match l.tide with
    | none => match s.cmdOfSeq l.cmd with
      | some k => s.setCmd (mark k)
      | none => s
    | some d => match (s.dom d).cmd with
      | some (x, q, i) => match s.cmdAt x q i with
        | some k => s.setCmd (mark k)
        | none => s
      | none => s

end Sys2Proof.Machine
end

