-- ==== Sys2Proof/Machine/Landing.lean ====
section
/-! DEFINITION. The scratchpad of a core with its marks, the scratchpad part, its landing area and its slots as their readers see them
(R121, R123, R217, R222, R372, R375, R376). -/

namespace Sys2Proof.Machine

/-- Marks of the scratchpad sectors a range touches (R115). -/
def sectorsOfRange (a n : Nat) : List Nat := (List.range ((a % 32 + n + 31) / 32)).map (fun i => a / 32 + i)

/-- Poison and ghost marks of scratchpad sectors that a range reads: POISON, EBB_REREAD (R115). -/
def State.spMarkFaults (s : State) (c : Nat) (l : List (Nat × Nat)) : List (Nat × Nat) :=
  let k := s.core c
  let sec := l.flatMap (fun p => sectorsOfRange p.1 p.2)
  (if sec.any (fun x => k.spPoison.contains x) then [(Flt.poison, 0)] else [])
  ++ (if sec.any (fun x => k.spGhost.contains x) then [(Flt.ebbReread, 0)] else [])

/-- An uncorrectable error of the L1 or the scratchpad (Table 8-7, R243): L1_ERR records the first, the rest are counted. -/
def State.l1ErrRecord (s : State) (c source addr : Nat) : State :=
  s.record clsCore (s.corePage c) 1 R.L1_ERR_VALID [(R.L1_ERR_SOURCE, source), (R.L1_ERR_ADDR, addr)]

/-- Write bytes to the scratchpad array; wholly written sectors lose their marks. -/
def Core.spWrite (k : Core) (a : Nat) (bs : List Byte) (poison : Bool) : Core :=
  let secs := sectorsOfRange a bs.length
  let full := secs.filter (fun x => a ≤ 32 * x && decide (32 * x + 32 ≤ a + bs.length))
  { k with
    sp := k.sp.writeBytes a bs
    spPoison := if poison then secs.foldl (fun l x => sadd x l) k.spPoison else k.spPoison.filter (fun x => !full.contains x)
    spGhost := k.spGhost.filter (fun x => !full.contains x) }

/-- The accesses of one scratchpad store in thread order; sectors that the instruction writes wholly lose their marks
(R115, R225, log entry 19). -/
def Core.spStores (k : Core) (l : List (Nat × Nat)) (n : Nat) : Core :=
  let bytes := l.flatMap (fun p => (List.range n).map (fun i => p.1 + i))
  let secs := dedup (bytes.map (fun a => a / 32))
  let full := secs.filter (fun x => (List.range 32).all (fun i => bytes.contains (32 * x + i)))
  { k with
    sp := l.foldl (fun m p => m.writeLE p.1 n p.2) k.sp
    spPoison := k.spPoison.filter (fun x => !full.contains x)
    spGhost := k.spGhost.filter (fun x => !full.contains x) }

/-- Bytes of the scratchpad part (Table 8-1). -/
def spPart (split : Nat) : Nat := split * 131072

def up4k (n : Nat) : Nat := (n + 4095) / 4096 * 4096

/-- The first byte of the landing area: slots lie at the top of the scratchpad part (R222). -/
def Core.landBase (k : Core) : Nat := spPart k.split - up4k (k.landCount * 2048)

def Core.slot (k : Core) (n : Nat) : LandSlot := mget {} k.land n
def Core.setSlot (k : Core) (n : Nat) (x : LandSlot) : Core := { k with land := mset {} k.land n x }

/-- Bytes from the first byte of slot `n` on. -/
def Core.slotBytes (k : Core) (n len : Nat) : List Byte := k.sp.readBytes (k.landBase + 2048 * n) len

/-- The slots that `c` bytes from slot `n` occupy (R123). -/
def slotRange (n c : Nat) : List Nat := (List.range ((c + 2047) / 2048)).map (fun i => n + i)

/-- The shelf die of a logical core (R17). -/
def shelfDie (c : Nat) : Nat := c / 64

/-- A slot's credit leaves for its owner (R376). -/
def State.sendCredit (s : State) (c n : Nat) : State :=
  let o := ((s.core c).slot n).owner
  let o := if o = 0xFFF then 0x600 + shelfDie c else o
  { s with ns := { s.ns with flying := s.ns.flying ++ [{ owner := o, core := c, slot := n }] } }

/-- R375: one reported read; at a nonzero quota the slot becomes FREE and its credit is sent. -/
def State.slotRead (s : State) (c n : Nat) : State :=
  let x := (s.core c).slot n
  if x.quota ≠ 0 && x.quota ≤ x.reads + 1 then
    (s.modCore c (fun k => k.setSlot n { quota := x.quota, owner := x.owner })).sendCredit c n
  else s.modCore c (fun k => k.setSlot n { x with reads := x.reads + 1 })

def State.slotsRead (s : State) (c : Nat) (l : List Nat) : State := l.foldl (fun s n => s.slotRead c n) s

/-- The first slot of a range at or beyond the reserved count (R123). -/
def Core.landFault (k : Core) (l : List Nat) : List (Nat × Nat) :=
  match l.find? (fun n => decide (k.landCount ≤ n)) with | some n => [(Flt.landRange, n)] | none => []

/-- Whether every slot of a list has arrived. -/
def Core.landed (k : Core) (l : List Nat) : Bool := l.all (fun n => (k.slot n).st == 2)

/-- POISON of a slot that has arrived. -/
def Core.landPoison (k : Core) (l : List Nat) : List (Nat × Nat) :=
  if l.any (fun n => (k.slot n).st == 2 && (k.slot n).poison) then [(Flt.poison, 0)] else []

/-- An instruction of a tide program begins to wait for slots that have not arrived (R379). -/
def State.beginWait (s : State) (c : Nat) (tide : Option Nat) (l : List Nat) : State :=
  match tide with
  | none => s
  | some d => l.foldl (fun s n =>
    let x := (s.core c).slot n
    if x.st = 2 || x.waitFrom.isSome || x.waited then s
    else s.modCore c (fun k => k.setSlot n { x with waitFrom := some (s.progTick (s.dom d)) })) s

/-! ### Scratchpad operands (R121) -/

/-- An offset register of a matrix operand: bits [6:0] are ignored. -/
def off128 (v : Nat) : Nat := v / 128 * 128

/-- Whether two lists of ranges share a 128-byte line (R141, R164). -/
def near128 (l m : List (Nat × Nat)) : Bool :=
  l.any (fun p => m.any (fun q => decide (0 < p.2) && decide (0 < q.2) &&
    decide (p.1 / 128 ≤ (q.1 + q.2 - 1) / 128) && decide (q.1 / 128 ≤ (p.1 + p.2 - 1) / 128)))

/-- The ranges that a group's accepted matrix and engine instructions read and write. -/
def Core.mxRd (k : Core) (g : Nat) : List (Nat × Nat) := (k.mxq.filter (fun e => e.slot == g)).flatMap MxEntry.rd
def Core.mxWr (k : Core) (g : Nat) : List (Nat × Nat) := (k.mxq.filter (fun e => e.slot == g)).flatMap MxEntry.wr
def Core.elRd (k : Core) (g : Nat) : List (Nat × Nat) := (k.elq.filter (fun e => e.slot == g)).flatMap ElEntry.rd
def Core.elWr (k : Core) (g : Nat) : List (Nat × Nat) := (k.elq.filter (fun e => e.slot == g)).flatMap ElEntry.wr

/-- R164: a read waits for the bytes that an unfinished engine instruction of the group writes, a write for those it reads
as well. -/
def Core.elClash (k : Core) (g : Nat) (rd wr : List (Nat × Nat)) : Bool :=
  near128 (rd ++ wr) (k.elWr g) || near128 wr (k.elRd g)

/-- R141, R164: what a scratchpad access of a group waits for. -/
def Core.spClash (k : Core) (g : Nat) (rd wr : List (Nat × Nat)) : Hold :=
  if near128 (rd ++ wr) (k.mxWr g) || near128 wr (k.mxRd g) then .matrix
  else if k.elClash g rd wr then .engine
  else .none

/-- What a matrix instruction waits for: an operand that an earlier drain or save writes, or the engine. -/
def Core.mxClash (k : Core) (g : Nat) (rd wr : List (Nat × Nat)) : Hold :=
  if k.elClash g rd wr then .engine else if near128 rd (k.mxWr g) then .matrix else .none

/-- R164: an engine instruction waits for the bytes that an earlier drain or save writes. -/
def Core.elMxClash (k : Core) (g : Nat) (rd wr : List (Nat × Nat)) : Bool := near128 (rd ++ wr) (k.mxWr g)

/-- SP_RANGE of a range beyond a block's region: the lowest offset beyond. -/
def rangeFault (len a n : Nat) : List (Nat × Nat) :=
  if n ≠ 0 ∧ len < a + n then [(Flt.spRange, max a len)] else []

end Sys2Proof.Machine
end

