-- ==== Sys2Proof/Machine/MatrixUnit.lean ====
section
/-! DEFINITION. The matrix unit: shapes, operands, tiles by class, and what a queued instruction does (R118 to R139). -/

namespace Sys2Proof.Machine

/-! ### Shapes and pairs (Tables 5-1 to 5-3) -/

/-- Format groups of Table 5-2. -/
inductive MxGrp | low | int4 | b8 | int8 | fp16 | bf16 | fp32 | fp64
  deriving DecidableEq, Repr

def lowFmt (f : Fmt) : Bool := f == .e3m2 || f == .e2m3 || f == .e2m1
def b8Fmt (f : Fmt) : Bool := f == .e5m2 || f == .e4m3

/-- The legal operand pairs. -/
def mxPair (a b : Fmt) : Option MxGrp :=
  if lowFmt a && lowFmt b then some .low
  else if b8Fmt a && b8Fmt b then some .b8
  else if a ≠ b then none
  else match a with
    | .int4 => some .int4 | .int8 => some .int8 | .fp16 => some .fp16 | .bf16 => some .bf16
    | .fp32 => some .fp32 | .fp64 => some .fp64 | _ => none

def MxGrp.scalable : MxGrp → Bool
  | .low | .int4 | .b8 | .int8 => true
  | _ => false

/-- K of Table 5-1. -/
def MxGrp.k : MxGrp → Nat
  | .low | .int4 => 128 | .b8 | .int8 => 64 | .fp16 | .bf16 => 32 | .fp32 | .fp64 => 8

/-- Rows and columns of the tile. -/
def MxGrp.rows : MxGrp → Nat | .fp64 => 32 | _ => 64

/-- What a tile class accepts (Table 5-3). -/
def classAccepts (cls : Nat) (g : MxGrp) (scaled : Bool) : Bool :=
  match cls with
  | 1 => !scaled && (g == .low || g == .int4 || g == .int8)
  | 2 => !scaled && (g == .low || g == .int4 || g == .int8 || g == .b8 || g == .fp16)
  | 3 => g != .fp64
  | 4 => g == .fp64
  | _ => false

/-- Rows of a tile and bytes of an element by class (Tables 5-3 and 5-4). -/
def classRows (cls : Nat) : Nat := if cls = 4 then 32 else 64
def classBytes : Nat → Nat | 1 => 8 | 2 => 16 | 3 => 40 | 4 => 8 | _ => 0
def tileBytes (cls : Nat) : Nat := classRows cls * classRows cls * classBytes cls

/-- An element's initial image (R127): EMPTY for N, S and W, +0 for D. -/
def classInit : Nat → Nat | 1 => 2 ^ 56 | 2 => 2 ^ 115 | 3 => 2 ^ 304 | _ => 0

def Launch.tileByte (l : Launch) (t : Nat) : Nat := mget 0 l.tileMap t
def Launch.tileClass (l : Launch) (t : Nat) : Nat := l.tileByte t / 32
def Launch.tileOwner (l : Launch) (t : Nat) : Nat := l.tileByte t % 32
/-- Bytes of a block's tiles. -/
def Launch.tileTotal (l : Launch) : Nat := ((List.range 8).map (fun t => tileBytes (l.tileClass t))).sum

/-! ### Tiles -/

def Block.tile (b : Block) (t : Nat) : List (Nat × Nat) := mget [] b.tiles t
def Block.setTile (b : Block) (t : Nat) (l : List (Nat × Nat)) : Block := { b with tiles := mset [] b.tiles t l }

/-- A tile's images in order. -/
def tileArr (cls : Nat) (l : List (Nat × Nat)) : Array Nat :=
  l.foldl (fun a p => a.setIfInBounds p.1 p.2) (Array.replicate (classRows cls * classRows cls) (classInit cls))

/-- The canonical list of a tile's images that differ from the initial one. -/
def tileList (cls : Nat) (f : Nat → Nat) : List (Nat × Nat) :=
  (List.range (classRows cls * classRows cls)).filterMap (fun i => let v := f i; if v = classInit cls then none else some (i, v))

/-! ### Element sums (R129 to R131) -/

/-- Fixed-point width and unit exponent of classes N and S. -/
def fixWidth (cls : Nat) : Nat := if cls = 1 then 56 else 112
def fixUnit (cls : Nat) : Nat := if cls = 1 then 8 else 48
def fixEmptyBit (cls : Nat) : Nat := if cls = 1 then 56 else 115

/-- One exact contribution into a class N or S element. It enters the sum that the image holds also where a loaded image
has EMPTY set beside a nonzero sum (DESIGN CHOICE, log entry 70). -/
def addFixed (cls img : Nat) (v : FVal) : Nat :=
  let w := fixWidth cls
  let sp : Special := match v with | .nan => .nan | .inf n => if n then .negInf else .posInf | _ => .finite
  let old : Special := if cls = 1 then .finite else Special.ofCode (bits img 114 112)
  if sp ≠ .finite then 2 ^ 112 * (old.join sp).code + img % 2 ^ 112
  else match v with
    | .fin m e =>
      let k := e + fixUnit cls
      let g := if 0 ≤ k then m * 2 ^ k.toNat else m.fdiv (2 ^ (-k).toNat)
      if old ≠ .finite then img % 2 ^ fixEmptyBit cls
      else ofInt w (sext w img + g)
    | _ => img

/-- The value of a class N or S element. -/
def fixedVal (cls img : Nat) (zneg : Bool) : FVal :=
  let w := fixWidth cls
  match (if cls = 1 then Special.finite else Special.ofCode (bits img 114 112)) with
  | .posInf => .inf false
  | .negInf => .inf true
  | .nan => .nan
  | .finite => if bit img (fixEmptyBit cls) then .zero zneg else FVal.mk (sext w img) (-(fixUnit cls : Int)) zneg

/-- Class D (R58, R131): the exact sum of the element and its products, rounded once. -/
def dotFp64 (rm : RMode) (sm : SatMode) (acc : Nat) (ps : List FVal) : Nat :=
  match ps.foldl (FVal.add rm) (Fmt.fp64.decode acc) with
  | .zero _ => (Fmt.fp64.round rm sm (.zero (decide (rm = .rd)))).bits
  | v => (Fmt.fp64.round rm sm v).bits

/-- A class W element takes products one by one in ascending k; the flag says that a step discarded a bit (R130). -/
def addWide (img : Nat) (ps : List FVal) : Nat × Bool :=
  let a := Wes.decode img
  let r : Wes := ps.foldl (fun (x : Wes) v => x.addFloat (Wes.ofVal v)) { a with sticky := false, pinned := false }
  let kept : Wes := if r.special = .nan then r else { r with sticky := r.sticky || a.sticky }
  (kept.encode, r.sticky)

/-- One element under its class. -/
def mmaElem (cls : Nat) (rm : RMode) (sm : SatMode) (img : Nat) (ps : List FVal) : Nat × Bool :=
  match cls with
  | 1 | 2 => (ps.foldl (addFixed cls) img, false)
  | 3 => addWide img ps
  | _ => (dotFp64 rm sm img ps, false)

/-! ### Operand bytes -/

/-- Element `i` of packed bytes (R23). -/
def elemAt (a : Array Byte) (w i : Nat) : Nat :=
  let p := i * w
  let b : Nat → Nat := fun k => (a.getD (p / 8 + k) 0).toNat
  if w ≤ 8 then (b 0 + 256 * (if p % 8 + w ≤ 8 then 0 else b 1)) / 2 ^ (p % 8) % 2 ^ w
  else leNat ((List.range (w / 8)).map (fun k => a.getD (p / 8 + k) 0))

/-- Bytes of an operand: of the block's scratchpad, or of landing slots. -/
def State.mxBytes (s : State) (c blk : Nat) (land : Bool) (a n : Nat) : List Byte :=
  let k := s.core c
  if land then k.slotBytes a n else k.sp.readBytes ((k.block blk).spOff + a) n

/-- An operand as exact values, row by row, under its scales. -/
def operandVals (f : Fmt) (k n : Nat) (bs : List Byte) (sc : Option (List Byte)) : Array FVal :=
  let a := bs.toArray
  let sa := (sc.getD []).toArray
  ((List.range (n * k)).map (fun i =>
    let v := f.decode (elemAt a f.width i)
    match sc with
    | none => v
    | some _ => scaleBy ((sa.getD (i / 32) 0).toNat) v)).toArray

/-! ### Operands of an `mma` -/

/-- What an `mma` word says. -/
structure MmaW where
  ta : Fmt
  tb : Fmt
  grp : MxGrp
  la : Bool
  lb : Bool
  sc : Bool

/-- Operand and scale bytes. -/
def MmaW.aBytes (w : MmaW) : Nat := w.grp.rows * w.grp.k * w.ta.width / 8
def MmaW.bBytes (w : MmaW) : Nat := w.grp.rows * w.grp.k * w.tb.width / 8
def MmaW.scBytes (w : MmaW) : Nat := w.grp.rows * w.grp.k / 32

/-- The landing slots among some operands. -/
def partSlots (l : List (Bool × Nat × Nat)) : List Nat :=
  dedup (l.flatMap (fun p => if p.1 then slotRange p.2.1 p.2.2 else []))

/-! ### Execution (R130, R135 to R139) -/

/-- An element image as `mx.load` takes it (R139). -/
def loadImage (cls img : Nat) : Nat :=
  match cls with
  | 1 => img % 2 ^ 57
  | 2 => bits img 111 0 + 2 ^ 112 * (Special.ofCode (bits img 114 112)).code + 2 ^ 115 * bits img 115 115
  | 3 => ({ Wes.decode img with pinned := false }).encode
  | _ => img

/-- One drained element (R136, R137). -/
def drainElem (cls : Nat) (dst : Fmt) (rm : RMode) (sm : SatMode) (img : Nat) : Rounded :=
  match cls with
  | 3 => if dst = .wes then { bits := img } else (Wes.decode img).round dst rm sm
  | 4 =>
    if dst = .wes then { bits := (Wes.ofVal (Fmt.fp64.decode img)).encode }
    else if dst = .fp64 then { bits := img } else convert .fp64 dst rm sm img
  | _ =>
    if dst = .wes then
      if bit img (fixEmptyBit cls) then { bits := Wes.zero.encode }
      else match fixedVal cls img false with
        | .zero _ => { bits := ({ Wes.zero with empty := false }).encode }
        | v => { bits := (Wes.ofVal v).encode }
    else dst.round rm sm (fixedVal cls img (decide (rm = .rd)))

/-- Bytes of packed images of whole-byte width. -/
def imageBytes (n : Nat) (l : List Nat) : List Byte := l.flatMap (fun v => leBytes n v)

/-- The event that counts an `mma`. -/
def mmaEvent : MxGrp → Nat
  | .low | .int4 => Ev.CORE_MMA_4_6BIT
  | .b8 | .int8 => Ev.CORE_MMA_8BIT
  | .fp16 | .bf16 => Ev.CORE_MMA_16BIT
  | .fp32 => Ev.CORE_MMA_FP32
  | .fp64 => Ev.CORE_MMA_FP64

/-- Store a tile of a block. -/
def State.setTile (s : State) (c blk t : Nat) (l : List (Nat × Nat)) : State :=
  s.modCore c (fun k => k.setBlock blk ((k.block blk).setTile t l))

/-- An `mma` executes. -/
def State.runMma (s : State) (c : Nat) (e : MxEntry) (w : MmaW) (t a b : Nat) (sca scb : Option Nat) (rm : RMode) (sm : SatMode) : State :=
  let blk := (s.core c).block e.blk
  let cls := blk.launch.tileClass t
  let n := w.grp.rows
  let k := w.grp.k
  let va := operandVals w.ta k n (s.mxBytes c e.blk w.la a w.aBytes) (sca.map (fun x => s.mxBytes c e.blk w.la x w.scBytes))
  let vb := operandVals w.tb k n (s.mxBytes c e.blk w.lb b w.bBytes) (scb.map (fun x => s.mxBytes c e.blk w.lb x w.scBytes))
  let old := tileArr cls (blk.tile t)
  let res := ((List.range (n * n)).map (fun i =>
    mmaElem cls rm sm (old.getD i 0) ((List.range k).map (fun j =>
      FVal.mul (va.getD (i / n * k + j) .nan) (vb.getD (i % n * k + j) .nan))))).toArray
  let s := s.setTile c e.blk t (tileList cls (fun i => (res.getD i (0, false)).1))
  let s := (s.kcount c (mmaEvent w.grp) 1).kcount c Ev.CORE_MMA_SCALED (boolNat sca.isSome)
  let slow := boolNat (res.any (fun p => p.2))
  let s := (s.kcount c Ev.CORE_WIDE_SLOW slow).kcount c Ev.CORE_MX_BUSY (32 + 256 * slow)
  let parts := [(w.la, a, w.aBytes), (w.lb, b, w.bBytes)]
    ++ (match sca with | some x => [(w.la, x, w.scBytes)] | none => [])
    ++ (match scb with | some x => [(w.lb, x, w.scBytes)] | none => [])
  s.slotsRead c (partSlots parts)

/-- Cycles of the execute stage (Tables 5-5 and 5-6, R139); an `mma` counts its own. -/
def mxCycles (cls : Nat → Nat) : MxKind → Nat
  | .mma .. => 0
  | .drain t _ dst _ _ => max (if cls t = 4 then 8 else 32) (classRows (cls t) * classRows (cls t) * (dst.width / 8) / 512)
  | .zero _ => 4
  | .save t _ => tileBytes (cls t) / 512
  | .load _ _ => 4

/-- One queued instruction executes. DRAIN_ELEMENTS counts a drain to WES-320 as well, whose elements are written unrounded
(DESIGN CHOICE, log entry 70). -/
def State.runMx (s : State) (c : Nat) (e : MxEntry) : State :=
  let blk := (s.core c).block e.blk
  let cls := fun t => blk.launch.tileClass t
  let s := s.kcount c Ev.CORE_MX_BUSY (mxCycles cls e.kind)
  match e.kind with
  | .mma ta tb t a b la lb sca scb rm sm =>
    match mxPair ta tb with
    | none => s
    | some g => s.runMma c e { ta := ta, tb := tb, grp := g, la := la, lb := lb, sc := sca.isSome } t a b sca scb rm sm
  | .drain t off dst rm sm =>
    let imgs := (tileArr (cls t) (blk.tile t)).toList
    let rs := imgs.map (drainElem (cls t) dst rm sm)
    let s := s.modCore c (fun k => k.spWrite (blk.spOff + off) (imageBytes (dst.width / 8) (rs.map Rounded.bits)) false)
    let s := s.kcount c Ev.CORE_DRAIN_ELEMENTS rs.length
    let s := s.kcount c Ev.CORE_DRAIN_STICKY (if cls t = 3 then (imgs.filter (fun v => bit v 305)).length else 0)
    s.noteWide c blk.launch (rs.filter Rounded.nanDrop).length (rs.filter Rounded.wide).length
  | .zero t => s.setTile c e.blk t []
  | .save t off =>
    let imgs := (tileArr (cls t) (blk.tile t)).toList
    s.modCore c (fun k => k.spWrite (blk.spOff + off) (imageBytes (classBytes (cls t)) imgs) false)
  | .load t off =>
    let bs := (s.mxBytes c e.blk false off (tileBytes (cls t))).toArray
    let n := classBytes (cls t)
    s.setTile c e.blk t (tileList (cls t) (fun i => loadImage (cls t) (leNat ((List.range n).map (fun j => bs.getD (i * n + j) 0)))))

/-- R143: on a preemption, a fault or an abort the unit first finishes every instruction it has accepted. -/
def State.finishMx (s : State) (c : Nat) : State :=
  let q := (s.core c).mxq
  q.foldl (fun s e => s.runMx c e) (s.modCore c (fun k => { k with mxq := [] }))

end Sys2Proof.Machine
end

