-- ==== Sys2Proof/Machine/Sched.lean ====
section
/-! DEFINITION. The shares of contexts and the scheduler: what a context holds on cores, the size of its image, how contexts
rank, who is displaced (R474 to R477, R480, R482). -/

namespace Sys2Proof.Machine

/-- The cove of a context. -/
def State.coveOf (s : State) (x : Nat) : Nat := (s.ctxCove x).getD 0

/-- Whether a stream or reduction is a context's command. -/
def Src.inCtx (x : Nat) : Src → Bool
  | .cmd y _ _ => y == x
  | _ => false

/-- The contexts of a cove that are not FREE. -/
def State.ctxsOf (s : State) (c : Nat) : List Nat :=
  ((s.hs.ctxs.filter (fun p => p.2.st != 0)).map Prod.fst).filter (fun x => s.ctxCove x == some c)

/-- Whether a core holds blocks of a context, resident or waiting. -/
def Core.ofCtx (k : Core) (x : Nat) : Bool := k.blocks.any (fun p => p.2.launch.ctx == x) || k.waiting.any (fun w => w.launch.ctx == x)
def Core.blocksOf (k : Core) (x : Nat) : List (Nat × Block) := k.blocks.filter (fun p => p.2.launch.ctx == x)

/-- The group slots a context holds on a core. -/
def Core.slotsOf (k : Core) (x : Nat) : List Nat :=
  let b := (k.blocksOf x).map Prod.fst
  (k.groups.filter (fun p => p.2.occupied && b.contains p.2.blk)).map Prod.fst

/-- The TIDE slot of a launch's command, if it has one. -/
def State.domOfCtx (s : State) (x : Nat) : Option Nat :=
  (s.ns.doms.find? (fun p => p.2.st != 0 && p.2.ctx == x)).map Prod.fst
def State.heldDom (s : State) (x : Nat) : Option Nat :=
  (s.ns.doms.find? (fun p => p.2.st == 5 && p.2.ctx == x)).map Prod.fst
/-- A domain of the context that is ARMED, RUNNING or HOLDING. -/
def State.activeDom (s : State) (x : Nat) : Option Nat :=
  (s.ns.doms.find? (fun p => (p.2.st == 2 || p.2.st == 3 || p.2.st == 4) && p.2.ctx == x)).map Prod.fst

/-- The cores that hold a block of a context. -/
def State.holds (s : State) (x : Nat) : List Nat := (s.cores.filter (fun p => !(p.2.blocksOf x).isEmpty)).map Prod.fst

/-- R477: how a waiting command ranks: its cove's share of engine time, its context's urgency, class and virtual time,
its context's number. Shares are compared as fractions. -/
structure Rank where
  engine : Nat
  weight : Nat
  late : Nat
  cls : Nat
  usage : Nat
  cweight : Nat
  ctx : Nat

def atLeast1 (n : Nat) : Nat := if n = 0 then 1 else n

def State.rankOf (s : State) (x : Nat) : Rank :=
  let c := s.coveOf x
  { engine := (s.cove c).decayed, weight := atLeast1 (s.fld clsCove c R.COVE_CFG_WEIGHT), late := boolNat (!(s.ctx x).urgent)
    cls := min 2 (s.xfld x R.CTX_CFG_CLASS), usage := (s.ctx x).usage, cweight := atLeast1 (s.xfld x R.CTX_CFG_WEIGHT), ctx := x }

/-- R475: rank among contexts of one cove. -/
def Rank.ctxBefore (a b : Rank) : Bool :=
  if a.late ≠ b.late then decide (a.late < b.late)
  else if a.cls ≠ b.cls then decide (a.cls < b.cls)
  else if a.usage * b.cweight ≠ b.usage * a.cweight then decide (a.usage * b.cweight < b.usage * a.cweight)
  else decide (a.ctx < b.ctx)

def Rank.before (a b : Rank) : Bool :=
  if a.engine * b.weight ≠ b.engine * a.weight then decide (a.engine * b.weight < b.engine * a.weight) else a.ctxBefore b

/-- Bytes of a context's image on one core. -/
def Core.imageBytes (k : Core) (x : Nat) : Nat :=
  let bs := k.blocksOf x
  if bs.isEmpty then 0
  else
    let regs := ((k.slotsOf x).map (fun g => 256 * (k.block (k.group g).blk).launch.alloc)).sum
    regs + 45 * 1024 + (bs.map (fun p => p.2.spLen + p.2.launch.tileTotal)).sum + up4k (k.landCount * 2048)

/-- The running launches of a context, those whose blocks all wait among them, once each. -/
def State.launchesOf (s : State) (x : Nat) : List Launch :=
  (s.cores.flatMap (fun p => (p.2.blocksOf x).map (fun b => b.2.launch)
    ++ (p.2.waiting.filter (fun w => w.launch.ctx == x)).map Pend.launch)).foldl (fun l j => if l.any (fun i => i == j) then l else l ++ [j]) []

/-- Shelf ranges that running launches of a context declare (R286). -/
def State.shelfRanges (s : State) (x : Nat) : List (Nat × Nat) :=
  ((s.launchesOf x).filter (fun l => l.shelfLen != 0)).map (fun l => (shelfBase l.cove + l.shelfBase, l.shelfLen))

/-- Size of the image in KiB. -/
def State.imageKib (s : State) (x : Nat) : Nat :=
  let eng := 64 * ((s.runningOf x).filter (fun k => k.opcode != 1)).length
  ((s.cores.map (fun p => p.2.imageBytes x)).sum + ((s.shelfRanges x).map Prod.snd).sum + eng + 1023) / 1024

/-- Room in a cove's save pool, in KiB (R482). -/
def State.poolRoom (s : State) (c : Nat) : Nat := s.fld clsCove c R.COVE_SAVE_FRAMES * 2 ^ 21 - (s.cove c).poolUsed

/-- Reserve twice the image, or begin to wait for room. -/
def State.reserve (s : State) (x : Nat) : State × Bool :=
  let c := s.coveOf x
  let n := 2 * s.imageKib x
  let u := s.ctx x
  if u.poolKib ≠ 0 then (s, true)
  else if n ≤ s.poolRoom c then
    let s := if u.poolFrom = 0 then s else s.xcount x Ev.CTX_SAVE_POOL_WAIT ((s.now + 1 - u.poolFrom) / 1000)
    ((s.modCove c (fun v => { v with poolUsed := v.poolUsed + n })).modCtx x (fun u => { u with poolKib := n, poolFrom := 0 }), true)
  else (s.modCtx x (fun u => { u with poolFrom := if u.poolFrom = 0 then s.now + 1 else u.poolFrom }), false)

/-- A preemption starts once the pool has room. -/
def State.beginSave (s : State) (x : Nat) : State :=
  match s.reserve x with
  | (s, true) => s.modCtx x (fun u => { u with saving := true, stopping := true })
  | (s, false) => s

/-- The cores on which blocks of a context wait. -/
def State.needs (s : State) (x : Nat) : List Nat :=
  let u := s.ctx x
  if u.eligible then (u.images.filter (fun i => !i.body.blocks.isEmpty)).map Image.core
  else if u.st = 2 && !u.stopping && !u.saving then (s.cores.filter (fun p => p.2.waiting.any (fun w => w.launch.ctx == x))).map Prod.fst
  else []

/-- Contexts other than one that hold cores it needs. -/
def State.rivals (s : State) (x : Nat) : List Nat :=
  dedup ((s.needs x).flatMap (fun c => ((s.core c).blocks.map (fun p => p.2.launch.ctx)).filter (fun y => y != x)))

/-- R475: waiting for cores or for an engine slot that another context holds. -/
def State.isWaiting (s : State) (x : Nat) : Bool :=
  !(s.rivals x).isEmpty || (s.ctx x).eligible ||
    s.hs.cmds.any (fun k => k.ctx == x && k.st == .waiting && k.opcode == 0x08 &&
      s.ns.streams.any (fun t => t.target == k.byte 29 && !t.src.inCtx x))

/-- WAITING and the wait clocks of a cove's contexts. -/
def State.noteWaits (s : State) (c : Nat) : State :=
  (s.ctxsOf c).foldl (fun s x =>
    let w := s.isWaiting x
    s.modCtx x (fun u => { u with waiting := w, waitFrom := if w && !u.waiting then s.now else u.waitFrom })) s

def State.quantumUs (s : State) : Nat := max 100 (s.fld clsCove 64 R.SCHED_CFG_QUANTUM_US)

def State.halfLifeUs (s : State) : Nat :=
  let n := s.fld clsCove 64 R.SCHED_CFG_HALF_LIFE_MS
  1000 * (if n = 0 then 1000 else n)

/-- Whether `w` may displace `v` (R476). -/
def State.displaceable (s : State) (v w : Nat) : Bool :=
  let a := s.rankOf v
  let b := s.rankOf w
  let held := ((s.needs w).filter (fun c => !((s.core c).blocksOf v).isEmpty)).length
  let u := s.ctx v
  (s.activeDom v).isNone && decide (s.quantumUs ≤ u.ran) && !u.saving && !u.restoring &&
    (((s.ctx w).urgent && !u.urgent) || decide (b.cls < a.cls) ||
      (b.cls == a.cls && decide (b.usage * a.cweight + s.quantumUs * held * b.cweight ≤ a.usage * b.cweight)))

/-- R482: the pool has room for the images of every victim. -/
def State.poolFits (s : State) (c : Nat) (vs : List Nat) : Bool := decide ((vs.map (fun v => 2 * s.imageKib v)).sum ≤ s.poolRoom c)

/-- Insert by rank. -/
def State.rankIn (s : State) (x : Nat) : List Nat → List Nat
  | [] => [x]
  | y :: l => if (s.rankOf x).ctxBefore (s.rankOf y) then x :: y :: l else y :: s.rankIn x l

/-- One pass of R476 over the waiting contexts in rank order. A victim whose save has begun needs no second one. -/
def State.schedule (s : State) (c : Nat) : State :=
  (((s.ctxsOf c).filter s.isWaiting).foldl (fun l x => s.rankIn x l) []).foldl (fun s w =>
    let vs := s.rivals w
    if !vs.isEmpty && vs.all (fun v => s.displaceable v w) && s.poolFits c vs then
      vs.foldl (fun s v => (s.xcount v Ev.CTX_PREEMPT_SCHED 1).beginSave v) s
    else s) s

/-- R476: cores of a cove have freed, and its scheduler acts. -/
def State.coresFreed (s : State) (c : Nat) : State := if c < 64 && (s.cove c).st = 2 then (s.noteWaits c).schedule c else s

end Sys2Proof.Machine
end

