-- ==== Sys2Proof/Machine/Stop.lean ====
section
/-! DEFINITION. Stopping work: a launch that ends, a hold and an abort of a tide domain, taking an instruction fault
(R84, R87, R112 to R117, R385, R388 to R391, R484). -/

namespace Sys2Proof.Machine

/-! ### Blocks that leave a core -/

/-- An outstanding memory instruction whose group has left: it completes without a destination, under a slot number that
no group has (R117). -/
def MemOp.orphan (o : MemOp) : MemOp := if o.slot < 32 then { o with slot := 32 + o.slot, dst := 255, ebb := false } else o

/-- R218: the shared slots stay while a block is resident, and between blocks while the next block of the core's order belongs
to a launch that shares them. -/
def Core.keepsLand (k : Core) : Bool :=
  !k.blocks.isEmpty || (match k.waiting with
    | w :: _ => w.launch.land == k.landCount && w.launch.slotTab == k.landTab && w.launch.split == k.split
    | [] => false)
def Core.settleLand (k : Core) : Core := if k.keepsLand then k else { k with land := [], landCount := 0, landTab := 0 }

/-- The blocks a test names leave a core with their groups and their engine entries; what their groups have outstanding in
memory completes (R117); the landing area goes with the last block of the launches that share it. -/
def Core.evict (k : Core) (f : Launch → Bool) : Core :=
  let gone := (k.blocks.filter (fun p => f p.2.launch)).map Prod.fst
  if gone.isEmpty then { k with waiting := k.waiting.filter (fun w => !f w.launch) }.settleLand
  else
    let out := (k.groups.filter (fun p => gone.contains p.2.blk)).map Prod.fst
    let left := k.blocks.filter (fun p => !gone.contains p.1)
    Core.settleLand { k with
      groups := k.groups.filter (fun p => !out.contains p.1)
      blocks := left
      waiting := k.waiting.filter (fun w => !f w.launch)
      ops := k.ops.map (fun o => if out.contains o.slot then o.orphan else o)
      mxq := k.mxq.filter (fun e => !gone.contains e.blk)
      elq := k.elq.filter (fun e => !gone.contains e.blk) }

/-- Nodes of the Tideway ports (Table 9-4); a port holds credits of its partner's slots only (R415). -/
def isPortNode (n : Nat) : Bool := decide (0x630 ≤ n) && decide (n < 0x648)

/-- R377: the owners drop the credits they hold for a core's slots. -/
def State.dropCredits (s : State) (c : Nat) : State :=
  { s with ns := { s.ns with
      credits := s.ns.credits.filter (fun r => r.core != c || isPortNode r.owner), flying := s.ns.flying.filter (fun r => r.core != c) } }

/-- The blocks of launches that a test names leave every core, once the matrix unit of a core has finished what it has
accepted (R143). -/
def State.evictAll (s : State) (f : Launch → Bool) : State :=
  s.cores.foldl (fun s p =>
    let s := if p.2.blocks.any (fun b => f b.2.launch) then s.finishMx p.1 else s
    let had := (s.core p.1).landCount
    let k := (s.core p.1).evict f
    let s := s.setCore p.1 k
    if had ≠ 0 && k.landCount = 0 then s.dropCredits p.1 else s) s

/-! ### Synchronization messages (Table 14-6) -/

/-- Trained ports: ACTIVE, and RECOVER, which returns to it (Table 14-4). -/
def Twp.trained (p : Twp) : Bool := p.st == 6 || p.st == 7

/-- Queue a sync message on every trained port but one. -/
def State.sendSync (s : State) (m : SyncMsg) (except : Option Nat) : State :=
  s.ns.ports.foldl (fun s p =>
    if p.2.trained && except != some p.1 then s.modPort p.1 (fun t => { t with waitSync := t.waitSync ++ [m] }) else s) s

def holdMsg (id hash boundary : Nat) : SyncMsg := { w0 := 2 * 2 ^ 60 + id * 2 ^ 32 + hash, w1 := boundary }
def abortMsg (id hash : Nat) : SyncMsg := { w0 := 3 * 2 ^ 60 + id * 2 ^ 32 + hash, w1 := 0 }
def checkMsg (id hash t0 : Nat) : SyncMsg := { w0 := 4 * 2 ^ 60 + id * 2 ^ 32 + hash, w1 := t0 }

/-! ### Tide domains -/

def Dom.window (d : Dom) : Nat := 2 ^ d.winLog
def Src.inDom (slot : Nat) : Src → Bool
  | .dom d _ => d == slot
  | _ => false

/-- What a domain has under way leaves the networks: its tables, entries, landings, reductions. -/
def State.clearDomWork (s : State) (slot : Nat) : State :=
  let n := s.ns
  let clear := fun (t : Option TorRed) => match t with
    | some r => if r.src.inDom slot then none else some r
    | none => none
  { s with ns := { n with
      flights := n.flights.filter (fun f => !f.src.inDom slot)
      landings := n.landings.filter (fun l => !l.src.inDom slot)
      streams := n.streams.filter (fun t => !t.src.inDom slot)
      reds := n.reds.filter (fun r => !r.src.inDom slot)
      torus := clear n.torus } }

/-- A table as TIDE_LOAD leaves it. -/
def Table.fresh (t : Table) : Table :=
  { src := t.src, kind := t.kind, target := t.target, cove := t.cove, va := t.va, count := t.count, msets := t.msets }

/-- A domain slot after its run: LOADED, its cores released (R367). -/
def Dom.loaded (d : Dom) : Dom :=
  { d with
    st := 1, cmd := none, holdAt := none, faultHold := false, checks := [], checked := false, late := false
    reserved := false, tables := d.tables.map Table.fresh }

/-- A command by its place, if the slot names one. -/
def State.cmdOf? (s : State) : Option (Nat × Nat × Nat) → Option Cmd
  | some (x, q, i) => s.cmdAt x q i
  | none => none

/-- The TIDE_HOLD commands that wait for a slot's hold (R385, R392: one hold serves them all). -/
def State.holdCmds (s : State) (slot : Nat) : List Cmd := s.hs.cmds.filter (fun k => k.opcode == 0x1A && k.live && k.byte 8 % 8 == slot)

/-- R390: the module's engines and cores stop, its TIDE_START completes, its reservations are released and the slot is
LOADED again (R367). The command that ends the domain itself carries `status` and `reason`. -/
def State.abortDom (s : State) (slot status reason detail : Nat) (except : Option Nat) : State :=
  let d := s.dom slot
  if d.st = 0 then s
  else if d.st = 1 then s.modDom slot (fun d => { d with reserved := false })
  else
    let s := (s.sendSync (abortMsg d.domainId d.hash) except).count clsTide (slot + 1) Ev.TIDE_ABORTS 1
    let s := s.clearDomWork slot
    let s := s.evictAll (fun l => l.tide == some slot)
    let s := s.modCtx d.ctx (fun x => { x with
      images := (x.images.map (fun i => { i with body := i.body.evict (fun l => l.tide == some slot) })), stopping := x.bySw })
    let s := d.cores.foldl (fun s c => s.dropCredits c) s
    let s := { s with ns := { s.ns with
      credits := s.ns.credits.filter (fun r => !(isPortNode r.owner && d.remote.contains (r.owner - 0x630, r.core))) } }
    let s := s.modDom slot Dom.loaded
    let s := match s.cmdOf? d.cmd with
      | some k => s.fail k status reason detail
      | none => s
    ((s.holdCmds slot).foldl (fun s k => s.fail k Sta.tideFault Rsn.domainAbort 0) s).coresFreed d.cove

/-- R385: the first window boundary at least HOLD_LEAD windows ahead, never below program tick 0. -/
def State.holdPoint (s : State) (d : Dom) : Int :=
  let w : Int := d.window
  max 0 (-((-(s.progTick d + d.holdLead * w)) / w) * w)

/-- R385: this module starts a hold, unless one is under way; the HOLD floods. -/
def State.startHold (s : State) (slot : Nat) : State :=
  let d := s.dom slot
  if d.st = 2 ∨ d.st = 3 then
    match d.holdAt with
    | some _ => s
    | none =>
      let b := s.holdPoint d
      (s.modDom slot (fun d => { d with holdAt := some b })).sendSync (holdMsg d.domainId d.hash b.toNat) none
  else s

/-! ### Instruction faults (Table 4-9) -/

def Flt.resumable (c : Nat) : Bool := c == 4 || c == 8 || c == 13 || c == 17

/-- The status a faulted command takes (Table 4-9). -/
def Flt.status (c : Nat) : Nat :=
  if c = 4 then Sta.mxDiverge else if c = 8 ∨ c = 9 ∨ c = 11 then Sta.permission
  else if c = 13 ∨ c = 15 then Sta.poison else if c = 16 then Sta.tideFault else Sta.aborted

/-- A walk that ends in TRANSLATE is counted on the channel of the last entry it read (Table 11-12). -/
def State.walkFault (s : State) (cove va : Nat) : State :=
  match s.walk cove va with
  | .fault (some a) => match s.paChan a with
    | some ch => s.count clsHbmc ch Ev.HBMC_PT_FAULT 1
    | none => s
  | _ => s

/-- R84, R87, R484: the fault is recorded on the core's page and in CTX_FAULT, the context is FAULTED and issues nothing
more, the vector is raised; a fault that is not resumable ends the command, or the domain (R389); a resumable one in a
domain starts a hold (R391). -/
def State.takeFaultAt (s : State) (c g pc code addr : Nat) : State :=
  let gr := s.group c g
  let l := s.launchOf c g
  let x := l.ctx
  let r := Flt.resumable code
  let s := s.record clsCore (s.corePage c) 4 R.FAULT_INFO_VALID
    [(R.FAULT_INFO_FAULT_CODE, code), (R.FAULT_INFO_RESUMABLE, boolNat r), (R.FAULT_INFO_SLOT, g), (R.FAULT_INFO_CTX, x),
     (R.FAULT_PC_PC, pc), (R.FAULT_MASK_MASK, (mget 0 gr.m 0).toNat), (R.FAULT_ADDR_ADDR, addr),
     (R.MX_DIV_INFO_REC_MASK, if code = Flt.mxDiverge then (gr.region.getD 0).toNat else 0)]
  let s := if code = Flt.mxDiverge then s.kcount c Ev.CORE_MX_DIVERGE_EVT 1 else s
  let s := if code = Flt.translate then s.walkFault l.cove addr else s
  let s := if s.xfld x R.CTX_FAULT_VALID = 1 then s
    else ((((s.setX x R.CTX_FAULT_VALID 1).setX x R.CTX_FAULT_RESUMABLE (boolNat r)).setX x R.CTX_FAULT_CODE code).setX x
      R.CTX_FAULT_LCORE c).modCtx x (fun u => { u with faultCore := c, faultSlot := g })
  let s := s.modCtx x (fun u => { u with st := 4 })
  let s := s.faultVector x
  match l.tide with
  | some d =>
    if r then (s.modDom d (fun d => { d with faultHold := true })).startHold d
    else s.abortDom d (Flt.status code) Rsn.fault code none
  | none =>
    match s.cmdOfSeq l.cmd with
    | none => s
    | some k =>
      if r then s.setCmd { k with st := .faulted, faultCode := code }
      else
        let s := s.evictAll (fun j => j.cmd == l.cmd && j.tide.isNone)
        let s := s.fail k (Flt.status code) Rsn.fault code
        (s.modCtx x (fun u => { u with st := 4 })).coresFreed l.cove

/-- A precise fault of the instruction a group is at. -/
def State.takeFault (s : State) (c g code addr : Nat) : State := s.takeFaultAt c g (s.group c g).pc code addr

end Sys2Proof.Machine
end

