-- ==== Sys2Proof/Machine/Operands.lean ====
section
/-! DEFINITION. An instruction word's fields, the operand kinds of Table 4-2, a group's registers, and the address
translation and instruction fetch of a core (R60, R61, R89 to R92, R98, R111, R115). -/

namespace Sys2Proof.Machine

/-! ### The word (Table 4-1) -/

/-- The fields of word 0 and the extension word. -/
structure Ins where
  c : Nat
  b : Nat
  a : Nat
  d : Nat
  q : Nat
  t : Nat
  gn : Bool
  gp : Nat
  ge : Bool
  op : Nat
  cl : Nat
  lg : Bool
  x : Nat
  deriving DecidableEq, Repr

def insOf (i : IWord) : Ins :=
  let w := i.w.toNat
  { c := bits w 63 56, b := bits w 55 48, a := bits w 47 40, d := bits w 39 32, q := bits w 31 24, t := bits w 23 20,
    gn := bit w 19, gp := bits w 18 16, ge := bit w 15, op := bits w 14 4, cl := bits w 3 1, lg := bit w 0,
    x := i.x.toNat }

/-- Bytes of the instruction (R89). -/
def Ins.size (i : Ins) : Nat := if i.lg then 16 else 8
/-- The type code (Table 4-3). -/
def Ins.ty (i : Ins) : Option Fmt := Fmt.ofCode i.t
/-- R90: without GE the other guard fields are zero. -/
def Ins.guardOk (i : Ins) (allowed : Bool) : Bool := if i.ge then allowed else !i.gn && i.gp == 0

/-- The opcodes that Tables 4-5 to 4-8 and R108 list (bit 10 of an ALU opcode is its scalar form). -/
def listedOp (cl op : Nat) : Bool :=
  match cl with
  | 0 => [0, 1, 2, 3, 0x10, 0x11, 0x12, 0x13, 0x14, 0x15, 0x16, 0x17, 0x18, 0x20, 0x21, 0x22, 0x23, 0x24, 0x25, 0x26,
      0x27, 0x28, 0x29, 0x30, 0x40, 0x50, 0x60, 0x61, 0x62, 0x63, 0x64, 0x65, 0x66, 0x67].contains (op % 1024)
  | 1 => [0, 1, 2, 3, 4, 5, 6, 0x10, 0x11, 0x12, 0x13, 0x14, 0x15, 0x16, 0x17, 0x18, 0x20, 0x21].contains op
  | 2 => [0, 1, 0x10, 0x20, 0x21, 0x22].contains op
  | 3 => op < 6
  | 4 => [0, 1, 2, 3, 4, 0x10, 0x20, 0x30, 0x31].contains op
  | _ => false

/-! ### Operand kinds (Table 4-2) -/

/-- Kinds of an operand field: vector registers `v k` (1, 2, 4 or 10 of them), scalars `s k`, predicate, mask (`m1` may not
name m0), accumulator, a system value, a field that must be zero, and one the opcode reads in its own way. -/
inductive Kind
  | v (k : Nat)
  | s (k : Nat)
  | p
  | m
  | m1
  | acc
  | sv
  | zero
  | raw
  deriving DecidableEq, Repr

/-- Alignment of a first register: pairs and tens even, quads multiples of 4. -/
def regAlign (k : Nat) : Nat := if k = 1 then 1 else if k = 4 then 4 else 2

def sysValues : List Nat := [0, 1, 2, 3, 4, 5, 6, 7, 8, 9, 10, 0x10, 0x11]

/-- Whether a field value is legal for a kind. -/
def Kind.ok : Kind → Nat → Bool
  | .v k, n => n % regAlign k == 0
  | .s k, n => n % (if k = 2 then 2 else 1) == 0 && decide (n + k ≤ 64)
  | .p, n => decide (n < 8)
  | .m, n => decide (n < 4)
  | .m1, n => decide (1 ≤ n) && decide (n < 4)
  | .acc, n => decide (n < 8)
  | .sv, n => sysValues.contains n
  | .zero, n => n == 0
  | .raw, _ => true

/-- An operand: its kind, its field value, whether it is written. -/
structure Opnd where
  kind : Kind
  n : Nat
  wr : Bool := false
  deriving DecidableEq, Repr

/-- R61: whether a vector operand lies in an allocation; v255 alone is always allowed. -/
def inAlloc (alloc n k : Nat) : Bool :=
  if k = 1 then n == 255 || decide (n < alloc) else decide (n + k ≤ min alloc 255)

def Opnd.inRange (alloc : Nat) (o : Opnd) : Bool :=
  match o.kind with | .v k => inAlloc alloc o.n k | _ => true

/-- The registers an operand names. -/
def Opnd.vregs (o : Opnd) : List Nat :=
  match o.kind with | .v k => (List.range k).map (fun i => o.n + i) | _ => []
def Opnd.sregs (o : Opnd) : List Nat :=
  match o.kind with | .s k => (List.range k).map (fun i => o.n + i) | _ => []

/-- What the driver needs to know of an instruction: whether its encoding is legal and its operands. -/
structure Form where
  legal : Bool
  ops : List Opnd

def Form.ok (f : Form) : Bool := f.legal && f.ops.all (fun o => o.kind.ok o.n)

/-! ### Registers of a group (R60, R61) -/

/-- One thread's view of a vector register; v255 reads zero. -/
def Group.rv (g : Group) (r t : Nat) : Nat := if r = 255 then 0 else (mget 0 g.v (64 * r + t)).toNat
/-- Write one thread's view; v255 discards. -/
def Group.wv (g : Group) (r t v : Nat) : Group :=
  if r = 255 then g else { g with v := mset 0 g.v (64 * r + t) (BitVec.ofNat 32 v) }
/-- `k` registers as one number, v(n) lowest. -/
def Group.rvk (g : Group) (r t : Nat) : Nat → Nat
  | 0 => 0
  | k + 1 => g.rv r t + 2 ^ 32 * Group.rvk g (r + 1) t k
def Group.wvk (g : Group) (r t v : Nat) : Nat → Group
  | 0 => g
  | k + 1 => Group.wvk (g.wv r t v) (r + 1) t (v / 2 ^ 32) k
def Group.rs (g : Group) (r : Nat) : Nat := (mget 0 g.s r).toNat
def Group.ws (g : Group) (r v : Nat) : Group := { g with s := mset 0 g.s r (BitVec.ofNat 32 v) }
def Group.rs2 (g : Group) (r : Nat) : Nat := g.rs r + 2 ^ 32 * g.rs (r + 1)
def Group.ws2 (g : Group) (r v : Nat) : Group := (g.ws r v).ws (r + 1) (v / 2 ^ 32)
def Group.rp (g : Group) (r : Nat) : W64 := mget 0 g.p r
def Group.wp (g : Group) (r : Nat) (v : W64) : Group := { g with p := mset 0 g.p r v }
def Group.rm (g : Group) (r : Nat) : W64 := mget 0 g.m r
def Group.wm (g : Group) (r : Nat) (v : W64) : Group := { g with m := mset 0 g.m r v }
def Group.m0 (g : Group) : W64 := g.rm 0

/-- R60, R90: the threads in both m0 and the guard. -/
def Group.active (g : Group) (i : Ins) : W64 :=
  if i.ge then g.m0 &&& (if i.gn then ~~~(g.rp i.gp) else g.rp i.gp) else g.m0

def low32 (v : Nat) : Nat := v % 2 ^ 32

/-- R115: writing registers clears their marks. -/
def Group.clearMarks (g : Group) (rs : List Nat) : Group :=
  if g.poison.isEmpty && g.ghost.isEmpty then g
  else { g with poison := g.poison.filter (fun r => !rs.contains r), ghost := g.ghost.filter (fun r => !rs.contains r) }

/-! ### The reconvergence stack before an issue (R75) -/

/-- One turn of R75; none when neither condition holds. -/
def Group.switch (g : Group) : Option (Group × Bool) :=
  match g.stack with
  | [] => none
  | e :: rest =>
    if g.pc = e.rpc || g.m0 &&& g.live = 0 then
      if e.pend &&& g.live ≠ 0 then
        some ({ (g.wm 0 (e.pend &&& g.live)) with pc := e.pendPc, stack := { e with pend := 0 } :: rest }, true)
      else some ({ (g.wm 0 (e.full &&& g.live)) with pc := e.rpc, stack := rest }, false)
    else none

/-- R75 to its end: each turn empties a pending slot or pops. Answers the number of path switches. -/
def Group.settle : Nat → Group → Group × Nat
  | 0, g => (g, 0)
  | k + 1, g => match g.switch with
    | none => (g, 0)
    | some (g', p) => let r := Group.settle k g'; (r.1, r.2 + boolNat p)

/-! ### Translation and fetch of a core (R111, R311 to R314) -/

def TlbEnt.hit (e : TlbEnt) (va : Nat) : Bool := va % 2 ^ 57 / 2 ^ e.shift == e.vpn

/-- A translation enters a quarter's micro-TLB of 16 entries; the oldest make room (R111; which entry is replaced is a
DESIGN CHOICE, log entry 14). -/
def Core.utlbPut (k : Core) (q va : Nat) (e : TlbEnt) : Core :=
  { k with utlb := k.utlb.filter (fun p => p.1 != q) ++
      keepLast 16 (k.utlb.filter (fun p => p.1 == q && !p.2.hit va) ++ [(q, e)]) }

/-- A translation enters the core TLB of 1,024 entries as well. -/
def Core.tlbPut (k : Core) (q va : Nat) (e : TlbEnt) : Core :=
  { (k.utlbPut q va e) with tlb := keepLast 1024 (k.tlb.filter (fun f => !f.hit va) ++ [e]) }

/-- The entry that a quarter's access finds: in its micro-TLB, else in the core TLB, from where it enters the micro-TLB. -/
def Core.tlbFind (k : Core) (q va : Nat) : Option (TlbEnt × Core) :=
  match k.utlb.find? (fun p => p.1 == q && p.2.hit va) with
  | some p => some (p.2, k)
  | none => (k.tlb.find? (fun e => e.hit va)).map (fun e => (e, k.utlbPut q va e))

/-- The non-leaf entries of levels 4 and 3 that a walk reads, by address. -/
def State.upperEntries (s : State) (cove va : Nat) (rd : Nat → Nat) : List (Nat × Nat) :=
  let a4 := s.fld clsCove cove R.COVE_PT_ROOT_ROOT * 2 ^ 21 + 8 * (va / 2 ^ 39 % 2 ^ 18)
  let e4 := rd a4
  if !entryOk 4 e4 then []
  else
    let a3 := bits e4 51 8 * 256 + 8 * (va / 2 ^ 30 % 2 ^ 9)
    let e3 := rd a3
    if entryOk 3 e3 && !bit e3 1 then [(a4, e4), (a3, e3)] else [(a4, e4)]

/-- A core's walk (R313): L4 and L3 entries that its walk cache holds are not read again. Where a held entry makes the walk differ
from the tables as they stand, which of the two is used is a free choice (R314, log entry 14). Each table read is a SnoopRd. -/
def State.walkCore (s : State) (core cove va : Nat) : Walk × State :=
  let held := (s.core core).walkCache
  let rd := fun a => match held.find? (fun p => p.1 == a) with | some p => p.2 | none => s.entryAt cove a
  let w := s.walk cove va
  let v := s.walkWith cove va rd
  let r := if v = w then (0, s) else s.draw 2
  let path := s.walkReads cove va rd
  let s := (path.filter (fun a => !held.any (fun p => p.1 == a))).foldl (fun s a =>
    if s.lineBusy (a / 128) then s.accepted (s.home cove (a / 128)) Ev.HOME_SNOOPRD else s.noteRead core cove a 8) r.2
  let up := if path.isEmpty then [] else s.upperEntries cove va rd
  let s := s.modCore core (fun k => { k with
    walkCache := (up ++ k.walkCache.filter (fun p => !up.any (fun q => q.1 == p.1))).take 32 })
  (if r.1 = 0 then v else w, s)

/-- A core's translation: a TLB entry or a walk. Where a held entry differs from the tables as they stand, which of
the two is used is a free choice (R314, log entry 14). The translation found is held afterwards. -/
def State.coreXlate (s : State) (core q cove va : Nat) : Walk × State :=
  match (s.core core).tlbFind q va with
  | some (e, k) =>
    let w := s.walk cove va
    if w = .page e then (w, s.setCore core k)
    else
      let (d, s) := s.draw 2
      if d = 0 then (.page e, s.setCore core k)
      else match w with
        | .page f => (w, s.modCore core (fun k => k.tlbPut q va f))
        | _ => (w, s.modCore core (fun k => { k with
            utlb := k.utlb.filter (fun p => p.1 != q || !p.2.hit va), tlb := k.tlb.filter (fun f => !f.hit va) }))
  | none => match s.walkCore core cove va with
    | (.page e, s) => (.page e, s.modCore core (fun k => k.tlbPut q va e))
    | r => r

/-- What a core finds for one access: the physical address, or the fault of Table 4-9. -/
inductive XAcc
  | ok (pa : Nat) (e : TlbEnt)
  | fault (code : Nat)
  deriving DecidableEq, Repr

/-- R428: what the translation cache of a cove's port says of a host page: `some 0` that the host grants nothing, `some 1`
that it grants the access, `none` that the port must ask. Without ATS requests go untranslated. -/
def State.hostPage (s : State) (cove a : Nat) : Option Nat :=
  if !(s.cove cove).ats || !s.hostUp cove then some 1
  else match s.hostPort cove with
    | some p => ((s.edge p).atc.find? (fun e => e.1 == atcKey cove a)).map Prod.snd
    | none => some 1

/-- An access waits for the host's translation. -/
def fltWait : Nat := 0

/-- R98, R311, R312, R428: an access of a core; `direct` is off for the element-engine gather path, which a page that maps
shelf scratch admits (R285). -/
def State.coreAddr (s : State) (core q cove va : Nat) (wr : Bool) (direct : Bool := true) : XAcc × State :=
  if !canonical va then (.fault Flt.translate, s)
  else match s.coreXlate core q cove va with
    | (.fault _, s) => (.fault Flt.translate, s)
    | (.page e, s) =>
      let pa := e.pa + va % 2 ^ e.shift
      if s.pageRefused cove e pa direct wr then (.fault Flt.protect, s)
      else match region pa with
        | .hostWin a => match s.hostPage cove a with
          | some 0 => (.fault Flt.translate, s)
          | some _ => (.ok pa e, s)
          | none => (.fault fltWait, s)
        | _ => (.ok pa e, s)

/-! ### The read-only caches (R81, R82, R195) -/

/-- The instruction, constant and descriptor caches. -/
inductive Ro | i | c | d
  deriving DecidableEq, Repr

/-- Sets, ways and line bytes (Table 3-8). A line's set is its number modulo the sets (DESIGN CHOICE, log entry 14). -/
def Ro.sets : Ro → Nat | .i => 128 | .c => 64 | .d => 64
def Ro.ways : Ro → Nat | .i => 8 | .c => 8 | .d => 4
def Ro.bytes : Ro → Nat | .i => 128 | .c => 128 | .d => 64

def Core.ro (k : Core) : Ro → RoCache
  | .i => k.icache | .c => k.ccache | .d => k.dcache
def Core.setRo (k : Core) (w : Ro) (l : RoCache) : Core :=
  match w with | .i => { k with icache := l } | .c => { k with ccache := l } | .d => { k with dcache := l }
def Ro.miss : Ro → Nat
  | .i => Ev.CORE_ICACHE_MISS | .c => Ev.CORE_CCACHE_MISS | .d => Ev.CORE_DCACHE_MISS

def RoCache.get (k : RoCache) (line : Nat) : Option RoLine := (k.lines.find? (fun p => p.1 == line)).map Prod.snd

/-- A line enters its set: in a free way, else in that of the victim (R603). -/
def RoCache.put (k : RoCache) (sets ways line : Nat) (x : RoLine) : RoCache :=
  let rest := k.lines.filter (fun p => p.1 != line)
  let mine := rest.filter (fun p => p.1 % sets == line % sets)
  match (List.range ways).find? (fun w => !mine.any (fun p => p.2.way == w)) with
  | some w => { k with lines := rest ++ [(line, { x with way := w })] }
  | none =>
    let all := mine.all (fun p => p.2.ref)
    let w := (nruPick ways (mget 0 k.rot (line % sets)) (mine.map (fun p => (p.2.way, p.2.ref)))).getD 0
    let kept := rest.filter (fun p => p.1 % sets != line % sets || p.2.way != w)
    { lines := kept.map (fun p => if all && p.1 % sets == line % sets then (p.1, { p.2 with ref := false }) else p)
        ++ [(line, { x with way := w })]
      rot := mset 0 k.rot (line % sets) ((w + 1) % ways) }

/-- An access sets the reference bit of a line. -/
def RoCache.touch (k : RoCache) (line : Nat) : RoCache :=
  { k with lines := k.lines.map (fun p => if p.1 == line then (p.1, { p.2 with ref := true }) else p) }

def State.roPut (s : State) (core line : Nat) (w : Ro) (bs : List Byte) (poison ref : Bool) : State :=
  s.modCore core (fun k => k.setRo w ((k.ro w).put w.sets w.ways line { ref := ref, poison := poison, data := bs }))

/-- Table 3-8: the sequential lines after a miss of the instruction cache are prefetched, those of its 64 KiB page that
the cache does not hold and that can be read (which page ends the prefetch is a DESIGN CHOICE, log entry 14). -/
def State.roPrefetch (s : State) (core cove line : Nat) : Nat → State
  | 0 => s
  | n + 1 =>
    let s := s.roPrefetch core cove line n
    let next := line + (n + 1)
    if next / 512 ≠ line / 512 ∨ ((s.core core).icache.get next).isSome then s
    else match s.paRead cove (next * 128) 128 with
      | .ok l p => (s.noteRead core cove (next * 128) 128).roPut core next .i l p false
      | _ => s

/-- A line as a read-only cache gives it, with its poison and ghost marks; or it must wait. -/
inductive RoRes
  | line (bs : List Byte) (poison ghost : Bool) (s : State)
  | wait

/-- Fill a line by a snoop read. -/
def State.roFill (s : State) (core cove line : Nat) (w : Ro) : RoRes :=
  match s.paRead cove (line * w.bytes) w.bytes with
  | .ok l p =>
    let s := ((s.noteRead core cove (line * w.bytes) w.bytes).roPut core line w l p true).kcount core w.miss 1
    .line l p false (if w = .i then s.roPrefetch core cove line 4 else s)
  | .ghost => .line (List.replicate w.bytes 0) false true (s.noteRead core cove (line * w.bytes) w.bytes)
  | _ => .wait

/-- Read a line. Where the copy held differs from memory as it stands, either value may be read (R82, log entry 14). -/
def State.roLine (s : State) (core cove pa : Nat) (w : Ro) : RoRes :=
  let line := pa / w.bytes
  match ((s.core core).ro w).get line with
  | none => s.roFill core cove line w
  | some e =>
    let held : State → RoRes := fun s =>
      .line e.data e.poison false (s.modCore core (fun k => k.setRo w ((k.ro w).touch line)))
    match s.paRead cove (line * w.bytes) w.bytes with
    | .ok l _ =>
      if l = e.data then held s
      else
        let (d, s) := s.draw 2
        if d = 0 then held s else s.roFill core cove line w
    | _ => held s

/-- The outcome of fetching 8 bytes. -/
inductive Fetch
  | word (w : Nat) (s : State)
  | fault (code : Nat) (s : State)
  | wait (s : State)

/-- Fetch one instruction word through the instruction cache. -/
def State.fetchWord (s : State) (core q cove pc : Nat) : Fetch :=
  match s.coreAddr core q cove pc false with
  | (.fault f, s) => .fault f s
  | (.ok pa _, s) => match s.roLine core cove pa .i with
    | .line l _ _ s => .word (leNat ((l.drop (pa % 128)).take 8)) s
    | .wait => .wait s

end Sys2Proof.Machine
end

