-- ==== Sys2Proof/Machine/Flags.lean ====
section
/-! DEFINITION. Conditions and modes an ALU word selects (R94 to R96), packed elements (R92), the issue of one
instruction with its faults in the order of R113, and the counts an instruction raises (R88). -/

namespace Sys2Proof.Machine

/-! ### Modes (R94) -/

def rmodeOk (q : Nat) : Bool := bits q 5 3 == 0 || decide (4 ≤ bits q 5 3)
def satmOk (q : Nat) : Bool := bits q 2 1 != 3

/-- RMODE: 0 takes the launch's default, 4 to 7 name a mode. -/
def rmodeOf (l : Launch) (q : Nat) : RMode := if bits q 5 3 = 0 then l.rm else RMode.ofCode (bits q 5 3 % 4)
/-- SATM: 0 takes the launch's default, 1 saturates, 2 does not. -/
def satmOf (l : Launch) (q : Nat) : SatMode :=
  if bits q 2 1 = 0 then l.sat else if bits q 2 1 = 1 then .sat else .nosat

/-- The mode of a conversion: an integer destination saturates unless the word says `.wrap` (R34, R40). -/
def satmFor (l : Launch) (q : Nat) (dst : Fmt) : SatMode :=
  if dst.isInt && bits q 2 1 == 0 then .sat else satmOf l q

/-! ### Registers by type (R92) -/

/-- 32-bit registers a value of the type takes. -/
def Fmt.nregs : Fmt → Nat
  | .i64 | .fp64 => 2
  | .wes => 10
  | _ => 1

def Fmt.packed (f : Fmt) : Bool := f == .fp16 || f == .bf16

/-- Bits of a register that an element of the type occupies in the ALU; the others are written as zero. -/
def Fmt.regBits (f : Fmt) : Nat := if f.packed then 32 else f.width

/-- Whether the type fits 32 bits ("any 32-bit" of Table 4-5). -/
def Fmt.is32 (f : Fmt) : Bool := decide (f.width ≤ 32)

/-- A function of one, two or three elements over a register: both halves of a packed pair (R92). -/
def Fmt.map1 (f : Fmt) (g : Nat → Nat) (a : Nat) : Nat :=
  if f.packed then g (a % 2 ^ 16) % 2 ^ 16 + 2 ^ 16 * g (a / 2 ^ 16 % 2 ^ 16) else g (a % 2 ^ f.width)
def Fmt.map2 (f : Fmt) (g : Nat → Nat → Nat) (a b : Nat) : Nat :=
  if f.packed then g (a % 2 ^ 16) (b % 2 ^ 16) % 2 ^ 16 + 2 ^ 16 * g (a / 2 ^ 16 % 2 ^ 16) (b / 2 ^ 16 % 2 ^ 16)
  else g (a % 2 ^ f.width) (b % 2 ^ f.width)
def Fmt.map3 (f : Fmt) (g : Nat → Nat → Nat → Nat) (a b c : Nat) : Nat :=
  if f.packed then
    g (a % 2 ^ 16) (b % 2 ^ 16) (c % 2 ^ 16) % 2 ^ 16 + 2 ^ 16 * g (a / 2 ^ 16 % 2 ^ 16) (b / 2 ^ 16 % 2 ^ 16) (c / 2 ^ 16 % 2 ^ 16)
  else g (a % 2 ^ f.width) (b % 2 ^ f.width) (c % 2 ^ f.width)

/-! ### Immediates (R95) -/

/-- The 8-bit immediate of a type; types R95 does not list read it zero-extended (log entry 13). -/
def imm8 (f : Fmt) (b : Nat) : Nat :=
  let enc : Fmt → Nat := fun f => (f.round .rn .sat (FVal.mk (sext 8 b) 0 false)).bits
  match f with
  | .int32 => ofInt 32 (sext 8 b)
  | .fp32 => enc .fp32
  | .fp64 => enc .fp64
  | .fp16 => enc .fp16 * (1 + 2 ^ 16)
  | .bf16 => enc .bf16 * (1 + 2 ^ 16)
  | _ => b

/-- The immediate B of an ALU instruction. -/
def Ins.immB (i : Ins) (f : Fmt) : Nat := if i.lg then (if f.nregs = 2 then i.x else low32 i.x) else imm8 f i.b

/-! ### Comparison conditions (R96) -/

/-- CC 0 to 7 over the order of two values; `nan` says that one is a NaN. -/
def ccHolds (cc : Nat) (nan : Bool) (o : Ordering) : Bool :=
  match cc with
  | 0 => !nan && o == .eq
  | 1 => nan || o != .eq
  | 2 => !nan && o == .lt
  | 3 => !nan && o != .gt
  | 4 => !nan && o == .gt
  | 5 => !nan && o != .lt
  | 6 => !nan
  | _ => nan

def isNan (v : FVal) : Bool := v == .nan

/-- `cmp` of two registers of a type: FP16 and BF16 compare element 0 (R597). -/
def compareRegs (f : Fmt) (cc a b : Nat) : Bool :=
  let x := f.decode (a % 2 ^ f.width)
  let y := f.decode (b % 2 ^ f.width)
  ccHolds cc (isNan x || isNan y) (FVal.cmp false x y)

/-! ### Issuing one instruction -/

/-- What an instruction sees when it issues: its core, slot, group, launch, fields, acting threads. -/
structure Iss where
  core : Nat
  slot : Nat
  g : Group
  l : Launch
  i : Ins
  act : W64

def Iss.threads (z : Iss) : List Nat := maskBits z.act
def Iss.first (z : Iss) : Nat := (z.threads.head?).getD 0

/-- Whether the launch of a group may issue now: its context runs, its domain has started, its core is awake. -/
def State.mayIssue (s : State) (c g : Nat) : Bool :=
  let gr := s.group c g
  let l := s.launchOf c g
  let x := s.ctx l.ctx
  gr.occupied && gr.hold != .barrier && x.st == 2 && !x.stopping && !x.saving && !x.restoring && !s.ra.lost &&
    (mget ({} : Sleep) s.pw.sleep c).st == 0 &&
    (match l.tide with | some d => (s.dom d).st == 3 | none => true)

/-- The group's instructions that have not completed. -/
def Core.busyWith (k : Core) (g : Nat) : Bool :=
  k.ops.any (fun o => o.slot == g) || k.mxq.any (fun e => e.slot == g) ||
    k.elq.any (fun e => e.slot == g)

/-- R70: an operand waits for its producer. -/
def Group.scoreboard (g : Group) (f : Form) : Bool :=
  f.ops.any (fun o => o.vregs.any (fun r => g.busyV.contains r) || o.sregs.any (fun r => g.busyS.contains r))

/-- R113: the fault with the lowest code; of several with that code, the one with the lowest address. -/
def lowestFault : List (Nat × Nat) → Option (Nat × Nat)
  | [] => none
  | p :: l => match lowestFault l with
    | none => some p
    | some q => if q.1 < p.1 ∨ q.1 = p.1 ∧ q.2 < p.2 then some q else some p

/-- Faults 0x01 and 0x02, and the marks of the operands an instruction reads (R91, R61, R115). -/
def formFaults (z : Iss) (f : Form) (op : Nat × Nat) : List (Nat × Nat) :=
  let fit := z.i.cl == op.1 && z.i.op == op.2
  (if fit && f.ok then [] else [(Flt.illegal, 0)])
  ++ (if f.ops.all (fun o => o.inRange z.l.alloc) then [] else [(Flt.regRange, 0)])
  ++ (if z.act = 0 then []
      else
        let rd := (f.ops.filter (fun o => !o.wr)).flatMap Opnd.vregs
        (if rd.any (fun r => z.g.poison.contains r) then [(Flt.poison, 0)] else [])
        ++ (if rd.any (fun r => z.g.ghost.contains r) then [(Flt.ebbReread, 0)] else []))

/-- The next address (R89). -/
def nextPc (pc size : Nat) : Nat := (pc + size) % 2 ^ 64

/-- The group holds its instruction and presents it again. -/
def State.holdGroup (s : State) (c g : Nat) (h : Hold) : State := s.modGroup c g (fun x => x.holding h)

/-- What an instruction gives the driver: its operands, the check of an array it reads, further faults by code and address, a
reason to hold, what a hold notes, and its effect on the state (the program counter has already moved on). -/
structure Meaning where
  form : Iss → Form
  check : State → Iss → List (Nat × Nat) × State := fun s _ => ([], s)
  faults : State → Iss → List (Nat × Nat) := fun _ _ => []
  hold : State → Iss → Hold := fun _ _ => .none
  held : State → Iss → State := fun s _ => s
  effect : State → Iss → State

/-- Whether an instruction reads the register file. -/
def Form.reads (f : Form) : Bool := f.ops.any (fun o => !o.wr && !(o.vregs ++ o.sregs).isEmpty)

/-- R576: an injected error that the register file's check finds: corrected, or UNCORR. A memory instruction reads an array of
the core as well, and which of the two checks meets the error is free (log entry 20). An instruction without an acting thread
reads no vector register and raises no UNCORR (R60, R113). -/
def State.regCheck (s : State) (c : Nat) (f : Form) (act : W64) (mem : Bool) : List (Nat × Nat) × State :=
  let p := s.corePage c
  if !f.reads || act == 0 || !(s.armed clsCore p 1 || s.armed clsCore p 0) then ([], s)
  else
    let r := if mem then s.draw 2 else (0, s)
    if r.1 = 1 then ([], r.2)
    else if s.armed clsCore p 1 then ([(Flt.uncorr, 0)], (r.2.disarm clsCore p).coreUncorr c 0 true)
    else ([], ((r.2.disarm clsCore p).errBit clsCore p 0).coreCorrected c true)

/-- The host address behind a virtual address of a core, if that is where it leads. -/
def State.hostAddr (s : State) (core q cove va : Nat) : Option Nat :=
  match (s.coreXlate core q cove (sx57 va)).1 with
  | .page e => (match region (e.pa + va % 2 ^ e.shift) with | .hostWin a => some a | _ => none)
  | _ => none

/-- R111, R428: the group holds while the primary port asks the host for a translation. The tag of the request names the
port whose cache will hold it, the cove and the page. -/
def State.hostWait (s : State) (c g va : Nat) : State :=
  let cove := (s.launchOf c g).cove
  let s := s.holdGroup c g .memory
  match s.hostAddr c (s.group c g).quarter cove va, s.hostPort cove with
  | some a, some p =>
    let tag := (p + 1) * 2 ^ 60 + atcKey cove a
    if s.hs.accs.any (fun r => r.tag == tag) then s
    else
      let q := s.primary.getD p
      let s := { s with hs := { s.hs with accs := s.hs.accs ++ [({ port := q, tag := tag, core := c, addr := a / 4096 * 4096 } : HostAcc)] } }
      (s.count clsEdge q Ev.EDGE_ATC_MISS 1).emit { kind := outAts, a := tag }
  | _, _ => s

/-- A fault of the instruction a group is at, or its wait for the host. A refused translation is asked for again the
next time (R116, R428). -/
def State.faultOrWait (s : State) (c g code addr : Nat) : State :=
  if code = fltWait then s.hostWait c g addr
  else
    let cove := (s.launchOf c g).cove
    let s := match (if code = Flt.translate then s.hostAddr c (s.group c g).quarter cove addr else none), s.hostPort cove with
      | some a, some p => s.modEdge p (fun e => { e with atc := e.atc.filter (fun t => t.1 != atcKey cove a) })
      | _, _ => s
    s.takeFault c g code addr

/-- Translations made while an instruction's addresses are checked are held (R111). -/
def State.issueAt (s : State) (w : IWord) (op : Nat × Nat) (m : Meaning) : State :=
  let g := s.group w.core w.slot
  let i := insOf w
  let z : Iss := { core := w.core, slot := w.slot, g := g, l := s.launchOf w.core w.slot, i := i, act := g.active i }
  let f := m.form z
  if i.cl = op.1 ∧ i.op ≠ op.2 ∧ listedOp i.cl i.op ∨ i.cl ≠ op.1 ∧ listedOp i.cl i.op then s
  else if g.scoreboard f then s.holdGroup w.core w.slot .scoreboard
  else
    let basic := formFaults z f op
    let hard := basic.any (fun p => p.1 ≤ 2)
    let rc := s.regCheck w.core f z.act (i.cl == 1)
    let ck := m.check rc.2 z
    match lowestFault (if hard then basic else basic ++ rc.1 ++ ck.1 ++ m.faults s z) with
    | some (code, addr) =>
      if (s.core w.core).busyWith w.slot then s.holdGroup w.core w.slot .memory
      else (if hard then s else ck.2).faultOrWait w.core w.slot code addr
    | none =>
      let s := ck.2
      match m.hold s z with
      | .none =>
        let wr := (f.ops.filter (fun o => o.wr)).flatMap Opnd.vregs
        let s := s.modGroup w.core w.slot (fun x =>
          { (if z.act = 0 then x else x.clearMarks wr) with
            pc := nextPc x.pc i.size, hold := .none, since := none, memSeq := x.memSeq + boolNat (i.cl == 1)
            hinted := if x.hinted = 2 then 0 else x.hinted })
        m.effect s z
      | h => m.held (s.holdGroup w.core w.slot h) z

/-- R75, the fetch and the issue of one instruction. A word that is not the one the group fetches is not issued. -/
def State.issue (s : State) (w : IWord) (op : Nat × Nat) (m : Meaning) : State :=
  if !s.mayIssue w.core w.slot then s
  else
    let r := Group.settle 66 (s.group w.core w.slot)
    let s := (s.modCore w.core (fun k => k.setGroup w.slot r.1)).kcount w.core Ev.CORE_PATH_SWITCH r.2
    let cove := (s.launchOf w.core w.slot).cove
    match s.fetchWord w.core r.1.quarter cove r.1.pc with
    | .wait s => s
    | .fault f s =>
      if (s.core w.core).busyWith w.slot then s.holdGroup w.core w.slot .memory
      else s.faultOrWait w.core w.slot f r.1.pc
    | .word v s =>
      if v ≠ w.w.toNat then s
      else if !(insOf w).lg then s.issueAt w op m
      else match s.fetchWord w.core r.1.quarter cove ((r.1.pc + 8) % 2 ^ 64) with
        | .wait s => s
        | .fault f s =>
          if (s.core w.core).busyWith w.slot then s.holdGroup w.core w.slot .memory
          else s.faultOrWait w.core w.slot f r.1.pc
        | .word v s => if v ≠ w.x.toNat then s else s.issueAt w op m

end Sys2Proof.Machine
end

