-- ==== Sys2Proof/Machine/Alu.lean ====
section
/-! DEFINITION. The ALU instructions of Table 4-5 (R94 to R97, R101 to R104, R596, R597). -/

namespace Sys2Proof.Machine

/-! ### Operands of an ALU word -/

/-- How an ALU opcode uses a field: a value of the operation's type, another kind, or not at all. -/
inductive AK | val | p | m | m1 | s1 | sv | raw | no
  deriving DecidableEq, Repr

/-- Qualifier layouts of Table 4-4a; `none` means that every bit is zero. -/
inductive Lay | arith | cmp | shfl | none
  deriving DecidableEq, Repr

/-- One row of Table 4-5. -/
structure AluRow where
  op : Nat
  types : Fmt → Bool
  scalar : Bool
  lay : Lay
  d : AK
  a : AK := .no
  b : AK := .no
  c : AK := .no
  typed : Bool := true

def Ins.scalar (i : Ins) : Bool := bit i.op 10
def Ins.bi (i : Ins) : Bool := bit i.q 7
def Ins.bs (i : Ins) : Bool := bit i.q 6
def Ins.cs (i : Ins) : Bool := bit i.q 0

/-- The opcode a word of this row carries, scalar form included. -/
def AluRow.code (r : AluRow) (w : IWord) : Nat × Nat := (0, if (insOf w).scalar then r.op + 1024 else r.op)

def scalarTypes (f : Fmt) : Bool := [Fmt.int32, .u32, .i64, .fp32].contains f

/-- The type of an operation; untyped opcodes have T = 0. -/
def AluRow.ty (r : AluRow) (i : Ins) : Fmt := if r.typed then (i.ty).getD .int32 else .int32

/-- CC of a `cmp` (Table 4-4a). -/
def Ins.cc (i : Ins) : Nat := bits i.q 5 3 * 2 + bits i.q 2 2

/-- R94: the opcodes that round and overflow: floating-point `add`, `sub`, `mul` and `fma`, and every `cvt`. -/
def AluRow.modal (r : AluRow) (f : Fmt) : Bool := r.op == 0x40 || (f.isFloat && [0x10, 0x11, 0x12, 0x14].contains r.op)

/-- R91, R94 to R97: the qualifier bits a row accepts. -/
def AluRow.qualOk (r : AluRow) (i : Ins) : Bool :=
  let f := r.ty i
  match r.lay with
  | .arith => rmodeOk i.q && satmOk i.q && (r.modal f || bits i.q 5 1 == 0)
  | .cmp => decide (i.cc < 8) && bits i.q 1 0 == 0 && (decide (i.cc < 6) || f.isFloat)
  | .shfl => bits i.q 5 2 == 0
  | .none => i.q == 0

/-- R91, R95, R101: the encoding of a row, less its operand fields. -/
def AluRow.legal (r : AluRow) (i : Ins) : Bool :=
  let f := r.ty i
  i.guardOk true &&
  (if r.typed then (match i.ty with | some f => r.types f | none => false) else i.t == 0) &&
  (!i.scalar || (r.scalar && scalarTypes f)) &&
  r.qualOk i && !(i.bi && i.bs) &&
  (r.b == .val || (!i.bi && !i.bs) || r.lay == .none) &&
  (r.lay != .arith || r.c == .val || !i.cs) &&
  (!i.lg || (r.b == .val && i.bi && i.b == 0 && (f.nregs == 2 || decide (i.x < 2 ^ 32))))

/-- An operand field as a kind; `sc` says that a value comes from scalar registers. -/
def AK.opnd (k : AK) (f : Fmt) (sc : Bool) (n : Nat) (wr : Bool) : Opnd :=
  match k with
  | .val => ⟨if sc then .s f.nregs else .v f.nregs, n, wr⟩
  | .p => ⟨.p, n, wr⟩
  | .m => ⟨.m, n, wr⟩
  | .m1 => ⟨.m1, n, wr⟩
  | .s1 => ⟨.s 1, n, wr⟩
  | .sv => ⟨.sv, n, wr⟩
  | .raw => ⟨.raw, n, wr⟩
  | .no => ⟨.zero, n, wr⟩

/-- The operands of an ALU word; `fa` is the type of A, which `cvt` gives on its own. -/
def AluRow.form (r : AluRow) (i : Ins) (fd fa : Fmt) (ok : Bool) : Form :=
  { legal := r.legal i && ok
    ops := [r.d.opnd fd i.scalar i.d true, r.a.opnd fa i.scalar i.a false,
      if r.b == .val && i.bi then ⟨.raw, i.b, false⟩ else r.b.opnd fd (i.scalar || i.bs) i.b false,
      r.c.opnd fd (i.scalar || (r.lay == .arith && i.cs)) i.c false] }

/-- Values of operands for one thread, as the group held them before the instruction. -/
def Iss.readV (z : Iss) (f : Fmt) (sc : Bool) (n t : Nat) : Nat :=
  if sc then (if f.nregs = 2 then z.g.rs2 n else z.g.rs n) else z.g.rvk n t f.nregs
def Iss.opA (z : Iss) (f : Fmt) (t : Nat) : Nat := z.readV f z.i.scalar z.i.a t
def Iss.opB (z : Iss) (f : Fmt) (t : Nat) : Nat :=
  if z.i.bi then z.i.immB f else z.readV f (z.i.scalar || z.i.bs) z.i.b t
def Iss.opC (z : Iss) (f : Fmt) (t : Nat) : Nat := z.readV f (z.i.scalar || z.i.cs) z.i.c t

/-- Write a result of type `f` per acting thread, or once in the scalar form (R60, R101, R597). -/
def State.writeD (s : State) (z : Iss) (f : Fmt) (val : Nat → Nat) : State :=
  s.modGroup z.core z.slot (fun g =>
    if z.i.scalar then
      if z.act = 0 then g
      else if f.nregs = 2 then g.ws2 z.i.d (val z.first) else g.ws z.i.d (val z.first)
    else z.threads.foldl (fun g t => g.wvk z.i.d t (val t) f.nregs) g)

/-- A row whose result is a function of three values and a free one (log entry 15 says where the free one shows). -/
def valueMeaning (r : AluRow) (fresh : Bool) (op : Launch → Ins → Fmt → Nat → Nat → Nat → Nat → Nat) : Meaning :=
  { form := fun z => r.form z.i (r.ty z.i) (r.ty z.i) true
    effect := fun s z =>
      let f := r.ty z.i
      let s' := s.writeD z f (fun t => op z.l z.i f (Config.freeNat (s.free + t)) (z.opA f t) (z.opB f t) (z.opC f t))
      if fresh then { s' with free := s.free + 64 } else s' }

/-- Run a row. -/
def State.alu (s : State) (w : IWord) (r : AluRow) (m : Meaning) : Host.Outcome State Fault Refusal :=
  .next (s.issue w (r.code w) m)

/-! ### Arithmetic of one register -/

/-- An exact integer result: the value where the type holds it; outside it the spec states none (log entry 15). -/
def intOrFree (f : Fmt) (free : Nat) (x : Int) : Nat :=
  if f.range.1 ≤ x ∧ x ≤ f.range.2 then ofInt f.width x else free % 2 ^ f.width

/-- A rounded float operation on one element (R596). -/
def floatOp (l : Launch) (i : Ins) (f : Fmt) (v : FVal) : Nat := (f.round (rmodeOf l i.q) (satmOf l i.q) v).bits

def addRegs (l : Launch) (i : Ins) (f : Fmt) (free a b _c : Nat) : Nat :=
  if f.isInt then intOrFree f free (f.intVal a + f.intVal b)
  else f.map2 (fun x y => floatOp l i f (FVal.add (rmodeOf l i.q) (f.decode x) (f.decode y))) a b
def subRegs (l : Launch) (i : Ins) (f : Fmt) (free a b _c : Nat) : Nat :=
  if f.isInt then intOrFree f free (f.intVal a - f.intVal b)
  else f.map2 (fun x y => floatOp l i f (FVal.add (rmodeOf l i.q) (f.decode x) (f.decode y).neg)) a b
/-- `mul` keeps the low half of an integer product (Table 4-5). -/
def mulRegs (l : Launch) (i : Ins) (f : Fmt) (_free a b _c : Nat) : Nat :=
  if f.isInt then ofInt f.width (f.intVal a * f.intVal b)
  else f.map2 (fun x y => floatOp l i f (FVal.mul (f.decode x) (f.decode y))) a b
def mulhiRegs (_l : Launch) (_i : Ins) (f : Fmt) (_free a b _c : Nat) : Nat :=
  ofInt f.width ((f.intVal a * f.intVal b).fdiv (2 ^ f.width))
/-- A × B + C rounded once; INT32 and U32 multiply-add in range, free outside (log entry 15). -/
def fmaRegs (l : Launch) (i : Ins) (f : Fmt) (free a b c : Nat) : Nat :=
  if f.isInt then intOrFree f free (f.intVal a * f.intVal b + f.intVal c)
  else f.map3 (fun x y z =>
    floatOp l i f (FVal.add (rmodeOf l i.q) (FVal.mul (f.decode x) (f.decode y)) (f.decode z))) a b c

/-- R596: `min` and `max` order −0 below +0; a NaN operand gives the canonical NaN. -/
def pick (f : Fmt) (mx : Bool) (x y : Nat) : Nat :=
  let a := f.decode x
  let b := f.decode y
  if isNan a || isNan b then f.nan
  else match FVal.cmp true a b with
    | .gt => if mx then x else y
    | _ => if mx then y else x
def minRegs (_l : Launch) (_i : Ins) (f : Fmt) (_free a b _c : Nat) : Nat := f.map2 (pick f false) a b
def maxRegs (_l : Launch) (_i : Ins) (f : Fmt) (_free a b _c : Nat) : Nat := f.map2 (pick f true) a b

/-- R596: `abs` and `neg` change only the sign bit of a value that is not a NaN. -/
def signOp (f : Fmt) (neg : Bool) (x : Nat) : Nat :=
  if isNan (f.decode x) then f.nan
  else
    let m := x % 2 ^ (f.width - 1)
    if neg then (if bit x (f.width - 1) then m else m + 2 ^ (f.width - 1)) else m
def absRegs (_l : Launch) (_i : Ins) (f : Fmt) (free a _b _c : Nat) : Nat :=
  if f.isInt then intOrFree f free (f.intVal a).natAbs else f.map1 (signOp f false) a
def negRegs (_l : Launch) (_i : Ins) (f : Fmt) (free a _b _c : Nat) : Nat :=
  if f.isInt then intOrFree f free (-(f.intVal a)) else f.map1 (signOp f true) a

/-- Table 4-5, R597: logic, and shifts by B modulo the width. -/
def andRegs (_l : Launch) (_i : Ins) (f : Fmt) (_free a b _c : Nat) : Nat := (a &&& b) % 2 ^ f.width
def orRegs (_l : Launch) (_i : Ins) (f : Fmt) (_free a b _c : Nat) : Nat := (a ||| b) % 2 ^ f.width
def xorRegs (_l : Launch) (_i : Ins) (f : Fmt) (_free a b _c : Nat) : Nat := (a ^^^ b) % 2 ^ f.width
def notRegs (_l : Launch) (_i : Ins) (f : Fmt) (_free a _b _c : Nat) : Nat := 2 ^ f.width - 1 - a % 2 ^ f.width
def shlRegs (_l : Launch) (_i : Ins) (f : Fmt) (_free a b _c : Nat) : Nat := a * 2 ^ (b % f.width) % 2 ^ f.width
def shrRegs (_l : Launch) (_i : Ins) (f : Fmt) (_free a b _c : Nat) : Nat := a % 2 ^ f.width / 2 ^ (b % f.width)
def sarRegs (_l : Launch) (_i : Ins) (f : Fmt) (_free a b _c : Nat) : Nat :=
  ofInt f.width ((sext f.width a).fdiv (2 ^ (b % f.width)))
def popcRegs (_l : Launch) (_i : Ins) (f : Fmt) (_free a _b _c : Nat) : Nat := popcount f.width a
/-- Leading zeros of the register; 32 for zero. -/
def clzRegs (_l : Launch) (_i : Ins) (f : Fmt) (_free a _b _c : Nat) : Nat :=
  let x := a % 2 ^ f.width
  if x = 0 then f.width else f.width - 1 - x.log2
def brevRegs (_l : Launch) (_i : Ins) (f : Fmt) (_free a _b _c : Nat) : Nat :=
  (List.range f.width).foldl (fun n k => if a.testBit k then n + 2 ^ (f.width - 1 - k) else n) 0

/-- R92: bits of a narrow element above its width are written as zero. -/
def movRegs (_l : Launch) (_i : Ins) (f : Fmt) (_free a _b _c : Nat) : Nat := a % 2 ^ f.regBits

def arithTypes (f : Fmt) : Bool := [Fmt.int32, .u32, .i64, .fp32, .fp16, .bf16, .fp64].contains f
def absTypes (f : Fmt) : Bool := [Fmt.int32, .i64, .fp32, .fp16, .bf16, .fp64].contains f
def fmaTypes (f : Fmt) : Bool := [Fmt.fp32, .fp16, .bf16, .fp64, .int32, .u32].contains f
def intTypes (f : Fmt) : Bool := [Fmt.int32, .u32, .i64].contains f
def int32Types (f : Fmt) : Bool := f == .int32 || f == .u32
def movTypes (f : Fmt) : Bool := f.is32 || f == .i64 || f == .fp64

/-- Rows of Table 4-5. -/
def row1 (op : Nat) (types : Fmt → Bool) : AluRow := { op := op, types := types, scalar := true, lay := .arith, d := .val, a := .val }
def row2 (op : Nat) (types : Fmt → Bool) : AluRow := { row1 op types with b := .val }
def row3 (op : Nat) (types : Fmt → Bool) : AluRow := { row2 op types with c := .val }
def rowMask (op : Nat) (d a b : AK) : AluRow :=
  { op := op, types := fun _ => true, scalar := false, lay := .none, d := d, a := a, b := b, typed := false }

/-! ### The instructions -/

/-- `nop` (R101): issues and does nothing. -/
def execNopInstruction (i : IWord) (s : State) : Host.Outcome State Fault Refusal :=
  let r := rowMask 0 .no .no .no
  s.alu i r { form := fun z => r.form z.i .int32 .int32 true, effect := fun s _ => s }

def execMov (i : IWord) (s : State) : Host.Outcome State Fault Refusal :=
  s.alu i (row1 0x001 movTypes) (valueMeaning (row1 0x001 movTypes) false movRegs)

/-- The system value of Table 3-4 for a thread; TIMER is a free value (it is not deterministic, log entry 16); TIDE is the
program tick (R361, R382). -/
def sysValue (s : State) (z : Iss) (code t : Nat) : Nat :=
  let b := s.blockOf z.core z.slot
  let l := z.l
  match code with
  | 0 => t
  | 1 => 64 * z.g.gid + t
  | 2 => z.g.gid
  | 3 => b.ngrp
  | 4 => b.index % l.gx
  | 5 => b.index / l.gx % l.gy
  | 6 => b.index / (l.gx * l.gy)
  | 7 => l.gx
  | 8 => l.gy
  | 9 => l.gz
  | 10 => l.cores.getD (b.index % l.cores.length) 0
  | 0x10 => Config.freeNat s.free % 2 ^ 64
  | _ => match l.tide with | some d => ofInt 64 (s.progTick (s.dom d)) | none => 0

/-- `mov.sv` (R104): TIMER and TIDE write a pair. -/
def execMovSv (i : IWord) (s : State) : Host.Outcome State Fault Refusal :=
  let r : AluRow := { op := 0x002, types := fun _ => true, scalar := true, lay := .none, d := .val, a := .sv, typed := false }
  let f : Ins → Fmt := fun i => if 0x10 ≤ i.a then .i64 else .int32
  s.alu i r { form := fun z => r.form z.i (f z.i) .int32 true
              effect := fun s z =>
                let s' := s.writeD z (f z.i) (fun t => sysValue s z z.i.a t)
                if z.i.a = 0x10 then { s' with free := s'.free + 1 } else s' }

/-- `sel` (R101): D = p(C) ? A : B; the scalar form takes the lowest acting thread's bit (log entry 17). -/
def execSel (i : IWord) (s : State) : Host.Outcome State Fault Refusal :=
  let r : AluRow := { row2 0x003 Fmt.is32 with c := .p }
  s.alu i r { form := fun z => r.form z.i (r.ty z.i) (r.ty z.i) true
              effect := fun s z =>
                let f := r.ty z.i
                s.writeD z f (fun t => (if (z.g.rp z.i.c).getLsbD t then z.opA f t else z.opB f t) % 2 ^ f.regBits) }

def execAdd (i : IWord) (s : State) : Host.Outcome State Fault Refusal :=
  s.alu i (row2 0x010 arithTypes) (valueMeaning (row2 0x010 arithTypes) true addRegs)
def execSub (i : IWord) (s : State) : Host.Outcome State Fault Refusal :=
  s.alu i (row2 0x011 arithTypes) (valueMeaning (row2 0x011 arithTypes) true subRegs)
def execMul (i : IWord) (s : State) : Host.Outcome State Fault Refusal :=
  s.alu i (row2 0x012 arithTypes) (valueMeaning (row2 0x012 arithTypes) false mulRegs)
def execMulhi (i : IWord) (s : State) : Host.Outcome State Fault Refusal :=
  s.alu i (row2 0x013 int32Types) (valueMeaning (row2 0x013 int32Types) false mulhiRegs)
def execFma (i : IWord) (s : State) : Host.Outcome State Fault Refusal :=
  s.alu i (row3 0x014 fmaTypes) (valueMeaning (row3 0x014 fmaTypes) true fmaRegs)
def execMin (i : IWord) (s : State) : Host.Outcome State Fault Refusal :=
  s.alu i (row2 0x015 arithTypes) (valueMeaning (row2 0x015 arithTypes) false minRegs)
def execMax (i : IWord) (s : State) : Host.Outcome State Fault Refusal :=
  s.alu i (row2 0x016 arithTypes) (valueMeaning (row2 0x016 arithTypes) false maxRegs)
def execAbs (i : IWord) (s : State) : Host.Outcome State Fault Refusal :=
  s.alu i (row1 0x017 absTypes) (valueMeaning (row1 0x017 absTypes) true absRegs)
def execNeg (i : IWord) (s : State) : Host.Outcome State Fault Refusal :=
  s.alu i (row1 0x018 absTypes) (valueMeaning (row1 0x018 absTypes) true negRegs)
def execAnd (i : IWord) (s : State) : Host.Outcome State Fault Refusal :=
  s.alu i (row2 0x020 intTypes) (valueMeaning (row2 0x020 intTypes) false andRegs)
def execOr (i : IWord) (s : State) : Host.Outcome State Fault Refusal :=
  s.alu i (row2 0x021 intTypes) (valueMeaning (row2 0x021 intTypes) false orRegs)
def execXor (i : IWord) (s : State) : Host.Outcome State Fault Refusal :=
  s.alu i (row2 0x022 intTypes) (valueMeaning (row2 0x022 intTypes) false xorRegs)
def execNot (i : IWord) (s : State) : Host.Outcome State Fault Refusal :=
  s.alu i (row1 0x023 intTypes) (valueMeaning (row1 0x023 intTypes) false notRegs)
def execShl (i : IWord) (s : State) : Host.Outcome State Fault Refusal :=
  s.alu i (row2 0x024 intTypes) (valueMeaning (row2 0x024 intTypes) false shlRegs)
def execShr (i : IWord) (s : State) : Host.Outcome State Fault Refusal :=
  s.alu i (row2 0x025 intTypes) (valueMeaning (row2 0x025 intTypes) false shrRegs)
def execSar (i : IWord) (s : State) : Host.Outcome State Fault Refusal :=
  s.alu i (row2 0x026 intTypes) (valueMeaning (row2 0x026 intTypes) false sarRegs)
def execPopc (i : IWord) (s : State) : Host.Outcome State Fault Refusal :=
  s.alu i (row1 0x027 int32Types) (valueMeaning (row1 0x027 int32Types) false popcRegs)
def execClz (i : IWord) (s : State) : Host.Outcome State Fault Refusal :=
  s.alu i (row1 0x028 int32Types) (valueMeaning (row1 0x028 int32Types) false clzRegs)
def execBrev (i : IWord) (s : State) : Host.Outcome State Fault Refusal :=
  s.alu i (row1 0x029 int32Types) (valueMeaning (row1 0x029 int32Types) false brevRegs)

/-- Replace a predicate's bits of the acting threads (R60). -/
def mergePred (old act new : W64) : W64 := (old &&& ~~~act) ||| (new &&& act)

/-- `cmp` (R96, R597); the scalar form writes one result to every acting thread (R101). -/
def execCmp (i : IWord) (s : State) : Host.Outcome State Fault Refusal :=
  let r : AluRow := { row2 0x030 arithTypes with lay := .cmp, d := .p }
  s.alu i r { form := fun z => r.form z.i (r.ty z.i) (r.ty z.i) true
              effect := fun s z =>
                let f := r.ty z.i
                let res := fun t => compareRegs f z.i.cc (z.opA f t) (z.opB f t)
                let v := if z.i.scalar then (if res z.first then z.act else 0) else maskOf res
                s.modGroup z.core z.slot (fun g => g.wp z.i.d (mergePred (g.rp z.i.d) z.act v)) }

/-- `cvt` (R102): T is the destination, C[3:0] the source. -/
def execCvt (i : IWord) (s : State) : Host.Outcome State Fault Refusal :=
  let r : AluRow := { row1 0x040 (fun f => f != .wes) with c := .raw }
  let src : Ins → Fmt := fun i => (Fmt.ofCode (i.c % 16)).getD .wes
  s.alu i r { form := fun z =>
                let f := r.ty z.i
                r.form z.i f (src z.i) (z.i.c < 16 && src z.i != .wes && z.i.c != 15 &&
                  !(bits z.i.q 2 1 == 2 && (f == .e3m2 || f == .e2m3 || f == .e2m1)))
              effect := fun s z =>
                let f := r.ty z.i
                let cv := fun t => convert (src z.i) f (rmodeOf z.l z.i.q) (satmFor z.l z.i.q f) (z.opA (src z.i) t)
                let who := if z.i.scalar then (if z.act = 0 then [] else [z.first]) else z.threads
                let s := s.writeD z f (fun t => (cv t).bits)
                s.noteWide z.core z.l (who.filter (fun t => (cv t).nanDrop)).length 0 }

/-- `shfl` (R103): the lane count B is read as a number. -/
def execShfl (i : IWord) (s : State) : Host.Outcome State Fault Refusal :=
  let r : AluRow := { row2 0x050 Fmt.is32 with lay := .shfl, scalar := false }
  s.alu i r { form := fun z => r.form z.i (r.ty z.i) (r.ty z.i) true
              effect := fun s z =>
                let f := r.ty z.i
                s.writeD z f (fun t =>
                  let b := if z.i.bi then (if z.i.lg then low32 z.i.x else z.i.b) else z.readV .int32 z.i.bs z.i.b t
                  let src : Int := match bits z.i.q 1 0 with
                    | 0 => (b % 64 : Nat)
                    | 1 => (t : Int) - b
                    | 2 => (t : Int) + b
                    | _ => (t ^^^ (b % 64) : Nat)
                  let ok := decide (0 ≤ src) && decide (src < 64) && z.g.live.getLsbD src.toNat
                  z.g.rv z.i.a (if ok then src.toNat else t) % 2 ^ f.regBits) }

/-- `vote` (R103): every bit of m(D) is written. -/
def execVote (i : IWord) (s : State) : Host.Outcome State Fault Refusal :=
  let r : AluRow := { rowMask 0x060 .m1 .p .no with c := .raw }
  s.alu i r { form := fun z => r.form z.i .int32 .int32 (decide (z.i.c < 3))
              effect := fun s z =>
                let set := z.g.rp z.i.a &&& z.act
                let v : W64 := match z.i.c with
                  | 0 => if set = 0 then 0 else -1
                  | 1 => if set = z.act then -1 else 0
                  | _ => set
                s.modGroup z.core z.slot (fun g => g.wm z.i.d v) }

/-- A mask operation (Table 4-5): the whole mask is written (log entry 18). -/
def maskMeaning (r : AluRow) (op : Iss → W64) : Meaning :=
  { form := fun z => r.form z.i .int32 .int32 true
    effect := fun s z => s.modGroup z.core z.slot (fun g => g.wm z.i.d (op z)) }

def execMand (i : IWord) (s : State) : Host.Outcome State Fault Refusal :=
  s.alu i (rowMask 0x061 .m1 .m .m) (maskMeaning (rowMask 0x061 .m1 .m .m) (fun z => z.g.rm z.i.a &&& z.g.rm z.i.b))
def execMor (i : IWord) (s : State) : Host.Outcome State Fault Refusal :=
  s.alu i (rowMask 0x062 .m1 .m .m) (maskMeaning (rowMask 0x062 .m1 .m .m) (fun z => z.g.rm z.i.a ||| z.g.rm z.i.b))
def execMxor (i : IWord) (s : State) : Host.Outcome State Fault Refusal :=
  s.alu i (rowMask 0x063 .m1 .m .m) (maskMeaning (rowMask 0x063 .m1 .m .m) (fun z => z.g.rm z.i.a ^^^ z.g.rm z.i.b))
def execMnot (i : IWord) (s : State) : Host.Outcome State Fault Refusal :=
  s.alu i (rowMask 0x064 .m1 .m .no) (maskMeaning (rowMask 0x064 .m1 .m .no) (fun z => ~~~(z.g.rm z.i.a)))
def execMovPm (i : IWord) (s : State) : Host.Outcome State Fault Refusal :=
  s.alu i (rowMask 0x065 .m1 .p .no) (maskMeaning (rowMask 0x065 .m1 .p .no) (fun z => z.g.rp z.i.a))

/-- `mov.mp`: the acting threads' bits of the predicate (R60). -/
def execMovMp (i : IWord) (s : State) : Host.Outcome State Fault Refusal :=
  let r := rowMask 0x066 .p .m .no
  s.alu i r { form := fun z => r.form z.i .int32 .int32 true
              effect := fun s z => s.modGroup z.core z.slot (fun g =>
                g.wp z.i.d (mergePred (g.rp z.i.d) z.act (z.g.rm z.i.a))) }

/-- DEDUCED: `popc.m` writes its scalar register whatever the guard and m0 are (log entry 18). -/
def execPopcM (i : IWord) (s : State) : Host.Outcome State Fault Refusal :=
  let r := rowMask 0x067 .s1 .m .no
  s.alu i r { form := fun z => r.form z.i .int32 .int32 true
              effect := fun s z => s.modGroup z.core z.slot (fun g => g.ws z.i.d (popcount 64 (z.g.rm z.i.a).toNat)) }

end Sys2Proof.Machine
end

