-- ==== Sys2Proof/Machine/L1.lean ====
section
/-! DEFINITION. The L1 of a core: lines, miss registers, replay, store queue, and what its own instructions do to them
(R184 to R197, R205 to R211, R226 to R237, Table 9-8). -/

namespace Sys2Proof.Machine

def homeNode (n : Nat) : Nat := 0x400 + n
def State.send (s : State) (m : Msg) : State := { s with net := s.net ++ [m] }

/-! ### Atomic operations (Table 7-3, R205, R206, R50) -/

/-- One update of a target: old value and operand to new value; integer adds wrap. `cas` carries the new value. -/
def atomApply (op : AOp) (f : Fmt) (old x new : Nat) : Nat :=
  let o := old % 2 ^ f.regBits
  let y := x % 2 ^ f.regBits
  match op with
  | .add => if f.isInt then ofInt f.width (f.intVal o + f.intVal y)
    else f.map2 (fun a b => (f.round .rn .nosat (FVal.add .rn (f.decode a) (f.decode b))).bits) o y
  | .min => f.map2 (fun a b => if f.isInt then (if f.intVal a ≤ f.intVal b then a else b) else
      if isNan (f.decode a) || isNan (f.decode b) then f.nan else
        match FVal.cmp true (f.decode a) (f.decode b) with | .gt => b | _ => a) o y
  | .max => f.map2 (fun a b => if f.isInt then (if f.intVal a ≤ f.intVal b then b else a) else
      if isNan (f.decode a) || isNan (f.decode b) then f.nan else
        match FVal.cmp true (f.decode a) (f.decode b) with | .gt => a | _ => b) o y
  | .and => o &&& y
  | .or => o ||| y
  | .xor => o ^^^ y
  | .xchg => y
  | .cas => if o = y then new % 2 ^ f.regBits else o
  | .wes =>
    let p := Wes.decode old
    if p.pinned then (p.addPinned (contribution f x)).encode else (Wes.canonNaN false).encode
  | .write => x

/-- Bytes of an atomic's target. -/
def atomBytes (op : AOp) (f : Fmt) : Nat := if op = .wes then 40 else if f.nregs = 2 then 8 else 4

/-- The distinct targets of an instruction in order of their lowest member, each with its members (R210). -/
def targets (acc : List Access) : List (Nat × List Nat) :=
  acc.foldl (fun l a =>
    if l.any (fun p => p.1 == a.pa) then l.map (fun p => if p.1 == a.pa then (p.1, p.2 ++ [a.thread]) else p)
    else l ++ [(a.pa, [a.thread])]) []

def valOf (l : List (Nat × Nat)) (t : Nat) : Nat := mget 0 l t

/-- Apply the members of one request in thread order: the value stored and the old values returned (R210). -/
def atomSeq (op : AOp) (f : Fmt) (old : Nat) (members : List (Nat × Nat × Nat)) : Nat × List (Nat × Nat) :=
  members.foldl (fun r m => (atomApply op f r.1 m.2.1 m.2.2, r.2 ++ [(m.1, r.1)])) (old, [])

/-! ### What an instruction touches -/

def Access.sectors (a : Access) : List Nat :=
  (List.range ((a.pa % 32 + a.bytes + 31) / 32)).map (fun i => a.pa / 32 + i)

def MemOp.sectors (o : MemOp) : List Nat := dedup (o.acc.flatMap Access.sectors)
def MemOp.lines (o : MemOp) : List Nat := dedup (o.sectors.map (fun x => x / 4))
def MemOp.secsOf (o : MemOp) (line : Nat) : List Nat := (o.sectors.filter (fun x => x / 4 == line)).map (fun x => x % 4)

/-- Whether an instruction accesses a write-through page on a line; a load of it is granted S only (R235). -/
def MemOp.wtOn (o : MemOp) (line : Nat) : Bool := o.acc.any (fun a => a.wt && a.sectors.any (fun x => x / 4 == line))

/-- Whether the group of an instruction has left its core (R117). -/
def MemOp.orphaned (o : MemOp) : Bool := decide (32 ≤ o.slot)

/-- The bytes a store writes to a line, by offset; the highest thread wins (R225). -/
def MemOp.storeBytes (o : MemOp) (line : Nat) : List (Nat × Byte) :=
  o.acc.foldl (fun l a =>
    (List.range a.bytes).foldl (fun l i =>
      let pa := a.pa + i
      if pa / 128 = line then mset (none : Option Byte) l (pa % 128) (some (BitVec.ofNat 8 (valOf o.vals a.thread / 256 ^ i))) else l) l)
    ([] : List (Nat × Option Byte)) |>.filterMap (fun p => p.2.map (fun b => (p.1, b)))

def bytesIn (bs : List (Nat × Byte)) (sec : Nat) : List (Nat × Byte) := bs.filter (fun p => p.1 / 32 == sec)
def fullSec (bs : List (Nat × Byte)) (sec : Nat) : Bool := (bytesIn bs sec).length == 32

/-- The bytes a store writes, by address. -/
def MemOp.stored (o : MemOp) : List (Nat × Byte) := o.lines.flatMap (fun l => (o.storeBytes l).map (fun p => (128 * l + p.1, p.2)))

/-- Whether an access holds a byte. -/
def MemOp.names (o : MemOp) (pa : Nat) : Bool := o.acc.any (fun a => a.pa ≤ pa && decide (pa < a.pa + a.bytes))

/-- The sectors of which an instruction needs a byte that it did not read from the store queue (R233). -/
def MemOp.needs (o : MemOp) : List Nat :=
  if o.fwd.isEmpty then o.sectors
  else o.sectors.filter (fun x => (List.range 32).any (fun i => o.names (32 * x + i) && !o.fwd.any (fun b => b.1 == 32 * x + i)))

def Mem.puts (m : Mem) (bs : List (Nat × Byte)) : Mem := bs.foldl (fun m p => m.write p.1 p.2) m


/-! ### Miss registers and requests of a core -/

def Core.missOf (k : Core) (sec : Nat) : Option MissReg := k.miss.find? (fun m => m.sector == sec)
def Core.setMiss (k : Core) (m : MissReg) : Core := { k with miss := k.miss.map (fun j => if j.sector == m.sector then m else j) }
def Core.dropMiss (k : Core) (sec : Nat) : Core := { k with miss := k.miss.filter (fun m => m.sector != sec) }
def Core.lineMisses (k : Core) (line : Nat) : List MissReg := k.miss.filter (fun m => m.sector / 4 == line)
/-- Whether a request for a line is outstanding. -/
def Core.asked (k : Core) (line : Nat) : Bool := k.reqs.any (fun r => r.line == line && r.ty != .snoopRd && r.ty != .atomFar)
def Core.opOf (k : Core) (id : Nat) : Option MemOp := k.ops.find? (fun o => o.id == id)
def Core.setOp (k : Core) (o : MemOp) : Core := { k with ops := k.ops.map (fun j => if j.id == o.id then o else j) }
/-- R233: what a load reads from the store queue: its bytes of the earlier stores of its group that have not started. -/
def Core.queued (k : Core) (o : MemOp) : List (Nat × Byte) :=
  (k.ops.filter (fun p => p.slot == o.slot && decide (p.id < o.id) && p.kind == .store && !p.started)).foldl (fun l p =>
    (p.stored.filter (fun b => o.names b.1)).foldl (fun l b => minsert b.1 b.2 (merase l b.1)) l) []

/-- The sectors of a line that an instruction waits on and has no miss register for yet. -/
def Core.toEnter (k : Core) (o : MemOp) (line : Nat) : List Nat :=
  ((o.left.filter (fun x => x / 4 == line)).filter (fun x => match k.missOf x with
    | some m => !m.waiters.contains o.id
    | none => true)).map (fun x => x % 4)

/-- MASK of the GetM or Upg of a line (Table 9-8). -/
def Core.exclMask (k : Core) (line : Nat) : Nat :=
  match k.reqs.find? (fun r => r.line == line && (r.ty == .getM || r.ty == .upg)) with | some r => r.mask | none => 0

/-- A miss register is freed: nothing that still arrives for its sector is wanted. -/
def Core.freeMiss (k : Core) (sec : Nat) : Core :=
  { k.dropMiss sec with
    reqs := k.reqs.map (fun r => if r.line = sec / 4 && r.ty != .snoopRd && r.ty != .atomFar then { r with mask := setBits r.mask (sec % 4) (sec % 4) 0 } else r) }

def Core.dropOp (k : Core) (id : Nat) : Core := { k with ops := k.ops.filter (fun o => o.id != id) }

/-- Miss registers in use at most (Table 8-3). -/
def State.missLimit (s : State) (c : Nat) : Nat :=
  let n := s.kfld c R.L1_CTL_MISS_LIMIT
  if n = 0 then 64 else n

/-- Miss registers that are free. -/
def State.missFree (s : State) (c : Nat) : Nat := s.missLimit c - (s.core c).miss.length

/-- A request of a core to a line's home: its tag, its entry, the message (R253 to R256, R259). -/
def State.request (s : State) (c cove line : Nat) (ty : MTy) (mask aux flags : Nat) (f : Msg → Msg) (op : Nat)
    (threads : List Nat) : State :=
  let k := s.core c
  let m : Msg := f {
    ty := ty, dst := homeNode (s.home cove line), src := c, req := c, txn := k.nextTxn, mask := mask, aux := aux,
    flags := flags, commons := s.isCommons (line * 128) || s.isMgmt (line * 128), cove := cove, line := line }
  let r : L1Req := { txn := k.nextTxn, line := line, ty := ty, mask := mask, op := op, threads := threads, msg := m }
  (s.setCore c { k with nextTxn := (k.nextTxn + 1) % 256, reqs := k.reqs ++ [r] }).send m

/-- A Put: it awaits a PutAck, so no entry is kept beyond the line's state (R260). -/
def State.put (s : State) (c cove line : Nat) (ty : MTy) (mask flags : Nat) (data : Mem) (poison : Nat) : State :=
  s.send { ty := ty, dst := homeNode (s.home cove line), src := c, req := c, mask := mask, flags := flags,
           commons := s.isCommons (line * 128), cove := cove, line := line, dirty := mask, poison := poison &&& mask,
           data := (secsOfMask mask).flatMap (fun i => data.readBytes (32 * i) 32) }

/-- The cove a core serves (CORE_MAP.COVE). -/
def State.coreCove (s : State) (c : Nat) : Nat := s.kfld c R.CORE_MAP_COVE

def stable (st : LSt) : Bool := [LSt.s, .e, .o, .m].contains st
def putPending (st : LSt) : Bool := [LSt.miP, .oiP, .eiP, .siP, .xiP, .iiP].contains st

/-- Evict a stable line: its Put leaves and the way waits for PutAck (Table 9-8, R234). -/
def State.evictLine (s : State) (c line : Nat) : State :=
  let l := (s.core c).line line
  let v := s.coreCove c
  let go : State → LSt → State := fun s st => s.modCore c (fun k => k.setLine line { l with st := st })
  match l.st with
  | .m => ((go s .miP).put c v line .putM l.dirty 0 l.data l.poison).kcount c Ev.CORE_EVICT_DIRTY 1
  | .o => ((go s .oiP).put c v line .putO l.dirty 0 l.data l.poison).kcount c Ev.CORE_EVICT_DIRTY 1
  | .e => ((go s .eiP).put c v line .putE 0 0 [] 0).kcount c Ev.CORE_EVICT_CLEAN 1
  | .s => ((go s .siP).put c v line .putS 0 0 [] 0).kcount c Ev.CORE_EVICT_CLEAN 1
  | _ => s

/-- Of some lines those that can be evicted now: stable, with nothing asked for. -/
def Core.evictable (k : Core) (ls : List Nat) : List Nat :=
  ls.filter (fun l => stable (k.line l).st && (k.lineMisses l).isEmpty && !k.asked l)

/-- Evict lines for a split change, a cove change or an L1_MAINT (R219, R220, R242), each counted as SPLIT_CHANGE_LINES. -/
def State.evictLines (s : State) (c : Nat) (ls : List Nat) : State :=
  let go := (s.core c).evictable ls
  (go.foldl (fun s l => s.evictLine c l) s).kcount c Ev.CORE_SPLIT_CHANGE_LINES go.length

/-- The lines of an L1 that are not in state I. -/
def Core.heldLines (k : Core) : List Nat := (k.l1.filter (fun p => p.2.st != .i)).map Prod.fst

/-- The lines that an accepted L1_MAINT has still to deal with (R242): dirty ones for a write-back, every line for an
eviction. -/
def Core.maintLines (k : Core) : List Nat :=
  if k.maint = 1 then (k.l1.filter (fun p => p.2.dirty != 0)).map Prod.fst else if k.maint = 2 then k.heldLines else []
def State.maintBusy (s : State) (c : Nat) : Bool := !(s.core c).maintLines.isEmpty

/-- The directory entry once its owner has written its sectors back and keeps a clean copy. -/
def Dir.cleaned (d : Dir) (n : Nat) : Dir :=
  match d.st with
  | .o => if d.owner = n then { st := .s, ptr := sadd n d.ptr, coarse := d.coarse } else d
  | _ => d

/-- A dirty line is written back and kept, M as E and O as S; while its home serves it or a message about it is on the way to
the core it is left for later. -/
def State.cleanLine (s : State) (k line : Nat) : State :=
  let l := (s.core k).line line
  let c := s.coreCove k
  let h := s.home c line
  if !(l.st == .m || l.st == .o) || (s.slice h).txns.any (fun t => t.line == line) || s.net.any (fun m => m.line == line && m.dst == k) then s
  else
    let s := (List.range 4).foldl (fun s i => if bit l.dirty i then s.sectorDown c line i l.data (bit l.poison i) else s) s
    let s := s.modCore k (fun x => x.setLine line { l with dirty := 0, st := if l.st = .m then .e else .s })
    let x := s.hline h line
    if x.present then s.setHline h line { x with dir := x.dir.cleaned k } else s

/-- A running L1_MAINT acts on one line: 1 writes it back, 2 evicts it under R234. -/
def State.maintLine (s : State) (c line : Nat) : State :=
  let k := s.core c
  if !k.maintLines.contains line || (k.evictable [line]).isEmpty then s
  else if k.maint = 1 then s.cleanLine c line
  else s.evictLines c [line]

/-- It acts on every line that it can act on; the others follow as they settle. -/
def State.maintAll (s : State) (c : Nat) : State := (s.core c).maintLines.foldl (fun s l => s.maintLine c l) s

/-- Ebb a line (R236, Table 9-8); a line in a transient state, or with a fill outstanding, is ebbed later. -/
def State.ebbLine (s : State) (c line : Nat) : State :=
  let k := s.core c
  let l := k.line line
  let v := s.coreCove c
  let f := 2 ^ Msg.fEBB
  let go : State → LSt → State := fun s st =>
    (s.modCore c (fun k => k.setLine line (if st = .i then {} else { st := st, way := l.way }))).kcount c Ev.CORE_EBB_LINES 1
  if !(k.lineMisses line).isEmpty || k.asked line then s.modCore c (fun k => k.setLine line { l with ebbBy := true })
  else match l.st with
    | .i => (go s .i).put c v line .putS 0 f [] 0
    | .s => (go s .siP).put c v line .putS 0 f [] 0
    | .e => (go s .xiP).put c v line .putE 0 f [] 0
    | .o => (go s .xiP).put c v line .putO 0 f [] 0
    | .m => (go s .xiP).put c v line .putM 0 f [] 0
    | _ => s.modCore c (fun k => k.setLine line { l with ebbBy := true })

/-! ### Completing an instruction -/

def OpKind.inL1 : OpKind → Bool
  | .load | .store | .near => true
  | _ => false

/-- Whether an instruction returns a value that a later write of its group waits for (R185, R233). -/
def MemOp.returns (o : MemOp) : Bool :=
  match o.kind with
  | .store | .bypStore | .hostSt => false
  | _ => true

def MemOp.isRead (o : MemOp) : Bool :=
  match o.kind with
  | .load | .bypLoad | .hostLd => true
  | _ => false


/-- A register value of a load, from the store queue and the sectors received. -/
def MemOp.loaded (o : MemOp) (a : Access) : Nat :=
  leNat ((List.range a.bytes).map (fun i =>
    let pa := a.pa + i
    match o.fwd.find? (fun p => p.1 == pa) with
    | some (_, b) => b
    | none => match o.got.find? (fun p => p.1 == pa / 32) with
      | some (_, bs) => bs.getD (pa % 32) 0
      | none => 0))

def regsOf (bytes : Nat) : Nat := (bytes + 3) / 4

/-- Marks on the registers a load wrote (R115). -/
def Group.mark (g : Group) (rs : List Nat) (poison ghost : Bool) : Group :=
  let rs := rs.filter (fun r => r != 255)
  { g with poison := if poison then rs.foldl (fun l r => sadd r l) g.poison else g.poison
           ghost := if ghost then rs.foldl (fun l r => sadd r l) g.ghost else g.ghost }

/-- Write the results of an instruction per thread and free its destination. -/
def Core.writeBack (k : Core) (o : MemOp) (vals : List (Nat × Nat)) (n : Nat) : Core :=
  let rs := (List.range n).map (fun i => o.dst + i)
  let last := !k.ops.any (fun p => p.id != o.id && p.slot == o.slot && p.returns && p.dst == o.dst)
  k.modGroup o.slot (fun g =>
    let g := vals.foldl (fun g p => g.wvk o.dst p.1 p.2 n) g
    { (g.mark rs o.poison o.ghost) with busyV := if last then g.busyV.filter (fun r => !rs.contains r) else g.busyV })

/-- R197: whether a release tag is narrower than the distance to an acquire. -/
def relNarrow (t : RelTag) (c : Nat) (o : MemOp) : Bool :=
  (t.scope == 0 && !(t.core == c && t.slot == o.slot)) || (t.scope == 1 && !(t.core == c && t.blk == o.blk))

/-- R197: an acquire that reads a line with a mismatched tag counts one event; the first since VALID was cleared is recorded. -/
def State.scopeCheck (s : State) (c : Nat) (o : MemOp) : State :=
  match (o.lines.filterMap (fun line => ((s.core c).line line).tag)).find? (fun t => relNarrow t c o) with
  | none => s
  | some t =>
    let s := s.kcount c Ev.CORE_SCOPE_MISMATCH 1
    if s.kfld c R.SCOPE_MM_INFO_VALID = 1 then s
    else s.setFlds clsCore (s.corePage c) [(R.SCOPE_MM_INFO_VALID, 1), (R.SCOPE_MM_INFO_TAG_SCOPE, t.scope),
      (R.SCOPE_MM_INFO_REL_LCORE, t.core), (R.SCOPE_MM_INFO_REL_BLOCK, t.blk), (R.SCOPE_MM_INFO_REL_SLOT, t.slot),
      (R.SCOPE_MM_INFO_ACQ_SLOT, o.slot), (R.SCOPE_MM_PC_PC, o.pc)]

/-- R209: the predictor entry of an address, and its move. -/
def predIdx (pa : Nat) : Nat := bits pa 14 7 ^^^ bits pa 22 15
def Core.movePred (k : Core) (pa : Nat) (up : Bool) : Core :=
  let i := predIdx pa
  let v := mget 1 k.pred i
  { k with pred := mset 1 k.pred i (if up then min 3 (v + 1) else v - 1) }

/-- The results of an instruction into its registers, unless it names none or its group has left. -/
def Core.finish (k : Core) (o : MemOp) (vals : List (Nat × Nat)) : Core :=
  (if o.orphaned then k else k.writeBack o vals (regsOf o.bytes)).dropOp o.id

/-- The lines that an `ld.ebb` ebbs (R236, R237): those of ordinary pages, not of the commons. -/
def State.ebbLines (s : State) (o : MemOp) : List Nat :=
  o.lines.filter (fun line => !o.wtOn line && !s.isCommons (line * 128))

/-- The end of an instruction that waits on nothing more. -/
def State.endOp (s : State) (c : Nat) (o : MemOp) : State :=
  let s := if o.acquire && o.kind.inL1 && !o.orphaned then s.scopeCheck c o else s
  match o.kind with
  | .load | .bypLoad | .hostLd =>
    let s := s.modCore c (fun k => k.finish o (o.acc.map (fun a => (a.thread, o.loaded a))))
    if o.ebb && o.kind = .load then (s.ebbLines o).foldl (fun s line => s.ebbLine c line) s else s
  | .store | .bypStore | .hostSt => s.modCore c (fun k => k.dropOp o.id)
  | .near | .far | .hostAt =>
    let s := if o.predicted && o.kind = .near then (targets o.acc).foldl (fun s p =>
        let up := o.cont.contains (p.1 / 128)
        (s.modCore c (fun k => k.movePred p.1 up)).kcount c Ev.CORE_PRED_WRONG (boolNat up)) s
      else s
    s.modCore c (fun k => if o.dst = 255 then k.dropOp o.id else k.finish o o.olds)

def State.checkOp (s : State) (c id : Nat) : State :=
  match (s.core c).opOf id with
  | none => s
  | some o => if o.left.isEmpty && o.started then s.endOp c o else s

/-- A sector delivered to a load. -/
def MemOp.deliver (o : MemOp) (sec : Nat) (bs : List Byte) (poison ghost : Bool) : MemOp :=
  if o.left.contains sec then
    { o with got := o.got ++ [(sec, bs)], left := sdel sec o.left, poison := o.poison || poison, ghost := o.ghost || ghost }
  else o

/-! ### Entering the L1 (Table 9-8) -/

/-- The set and ways of the L1 part (R217). -/
def State.l1Ways (s : State) (c : Nat) : Nat := 24 - 4 * (s.core c).split
def Core.inSet (k : Core) (line : Nat) : List (Nat × L1Line) := k.l1.filter (fun p => p.1 % 256 == line % 256 && p.2.st != .i)

/-- A free way for a line: the lowest one that no line of the set uses. -/
def State.freeWay (s : State) (c line : Nat) : Option Nat :=
  let used := ((s.core c).inSet line).map (fun p => p.2.way)
  (List.range (s.l1Ways c)).find? (fun w => !used.contains w)

/-- R234: the victim among the ways of a set whose line has no fill outstanding; when every such bit is set, all bits of
the set are cleared first. -/
def State.pickVictim (s : State) (c line : Nat) : Option (Nat × State) :=
  let k := s.core c
  let set := line % 256
  let cand := (k.inSet line).filter (fun p => stable p.2.st && (k.lineMisses p.1).isEmpty && !k.asked p.1)
  match nruPick 24 (mget 0 k.rot set) (cand.map (fun p => (p.2.way, p.2.ref))) with
  | none => none
  | some w => match cand.find? (fun p => p.2.way == w) with
    | none => none
    | some (v, _) =>
      some (v, s.setCore c { k with
        rot := mset 0 k.rot set ((w + 1) % 24)
        l1 := if cand.all (fun p => p.2.ref) then k.l1.map (fun p => if p.1 % 256 = set then (p.1, { p.2 with ref := false }) else p)
          else k.l1 })

/-- Join the waiters of a miss register (R230); none when it cannot. -/
def State.joinMiss (s : State) (c : Nat) (m : MissReg) (id : Nat) : Option State :=
  if m.waiters.contains id then some s
  else if s.kfld c R.L1_CTL_NO_MERGE = 1 || decide (16 ≤ m.waiters.length) then none
  else some ((s.modCore c (fun k => k.setMiss { m with waiters := m.waiters ++ [id] })).kcount c Ev.CORE_MISS_MERGE 1)

/-- Join each of several sectors that has a miss register with room; answers the others. -/
def State.joinEach (s : State) (c line id : Nat) : List Nat → List Nat × State
  | [] => ([], s)
  | i :: l => match (s.core c).missOf (4 * line + i) with
    | none => let r := s.joinEach c line id l; (i :: r.1, r.2)
    | some m => match s.joinMiss c m id with
      | none => let r := s.joinEach c line id l; (i :: r.1, r.2)
      | some s => s.joinEach c line id l

/-- Allocate miss registers for sectors of a line. -/
def State.allocMiss (s : State) (c line : Nat) (l ids : List Nat) (fetch : Nat → Bool) : State :=
  s.modCore c (fun k => { k with
    miss := k.miss ++ l.map (fun i => { sector := 4 * line + i, waiters := ids, fetch := fetch i }) })

/-- What became of a line's lookup: all of it entered, or some of it goes to the replay queue, for want of a miss register,
of a place in a waiter list, or of a line that may be used (R230, R231, Table 9-8). -/
inductive Look
  | done | noReg | noWaiter | later
  deriving DecidableEq, Repr

/-- The lookup of sectors of which some could not join. -/
def State.joinLook (s : State) (c : Nat) (left : List Nat) : Look :=
  if left.isEmpty then .done else if s.kfld c R.L1_CTL_NO_MERGE = 1 then .later else .noWaiter

/-- FULL_LINE_FETCH: the other invalid sectors of a line that a miss requests too, as far as miss registers are free. -/
def State.extraSecs (s : State) (c line : Nat) (asked : List Nat) (free : Nat) : List Nat :=
  if s.kfld c R.L1_CTL_FULL_LINE_FETCH = 1 then
    ((List.range 4).filter (fun i => !bit ((s.core c).line line).valid i && !asked.contains i &&
      ((s.core c).missOf (4 * line + i)).isNone)).take free
  else []

def State.touch (s : State) (c line : Nat) : State :=
  s.modCore c (fun k => k.setLine line { k.line line with ref := true })

/-- Give a line a way, in a first state; or start an eviction and answer none (the access goes to replay). -/
def State.allocLine (s : State) (c line : Nat) (st : LSt) : Option State × State :=
  match s.freeWay c line with
  | some w => (some (s.modCore c (fun k => k.setLine line { st := st, way := w, ref := true })), s)
  | none =>
    if ((s.core c).inSet line).any (fun p => putPending p.2.st) then (none, s)
    else match s.pickVictim c line with
      | none => (none, s)
      | some (v, s) => (none, s.evictLine c v)

/-- Deliver valid sectors of a line to a load. -/
def State.hitSecs (s : State) (c : Nat) (o : MemOp) (line : Nat) (hit : List Nat) : State :=
  let l := (s.core c).line line
  hit.foldl (fun s i => s.modCore c (fun k => match k.opOf o.id with
    | some o => k.setOp (o.deliver (4 * line + i) (l.data.readBytes (32 * i) 32) (bit l.poison i) false)
    | none => k)) (s.touch c line)

/-- A load of one line (Table 9-8). -/
def State.l1Load (s : State) (c : Nat) (o : MemOp) (line : Nat) : State × Look :=
  let k := s.core c
  let l := k.line line
  let secs := k.toEnter o line
  let free := s.missFree c
  let v := s.coreCove c
  match l.st with
  | .i =>
    let take := secs.take free
    if !(k.lineMisses line).isEmpty then (s, .later)
    else if take.isEmpty then (s, .noReg)
    else match s.allocLine c line .isD with
      | (none, s) => (s, .later)
      | (some s, _) =>
        let extra := s.extraSecs c line secs (free - take.length)
        let s := (s.allocMiss c line take [o.id] (fun _ => true)).allocMiss c line extra [] (fun _ => true)
        (s.request c v line .getS (maskOfSecs (take ++ extra)) 0 (if o.wtOn line then 2 ^ Msg.fSONLY else 0) id 0 [],
          if take.length = secs.length then .done else .noReg)
  | .s | .e | .o | .m =>
    let miss := secs.filter (fun i => !bit l.valid i)
    let new := miss.filter (fun i => (k.missOf (4 * line + i)).isNone)
    let take := new.take free
    let r := (s.hitSecs c o line (secs.filter (fun i => bit l.valid i))).joinEach c line o.id
      (miss.filter (fun i => (k.missOf (4 * line + i)).isSome))
    let look : Look := if take.length = new.length then r.2.joinLook c r.1 else .noReg
    if take.isEmpty then (r.2, look)
    else
      let extra := r.2.extraSecs c line secs (free - take.length)
      let s := (r.2.allocMiss c line take [o.id] (fun _ => true)).allocMiss c line extra [] (fun _ => true)
      (s.request c v line .getS (maskOfSecs (take ++ extra)) 0 (2 ^ Msg.fHELD) id 0 [], look)
  | .isD | .isDI | .imD =>
    let may := secs.filter (fun i => (l.st != .imD || bit (k.exclMask line) i) && (k.missOf (4 * line + i)).isSome)
    let r := s.joinEach c line o.id may
    (r.2, if may.length = secs.length then r.2.joinLook c r.1 else .later)
  | .smG | .omG =>
    let hit := secs.filter (fun i => bit l.valid i)
    (s.hitSecs c o line hit, if hit.length = secs.length then .done else .later)
  | _ => (s, .later)

/-- Enter store bytes into a line and the buffers of its miss registers (R233). -/
def Core.enterBytes (k : Core) (line : Nat) (bs : List (Nat × Byte)) : Core :=
  let k := k.setLine line { k.line line with data := (k.line line).data.puts bs }
  { k with miss := k.miss.map (fun m =>
      if m.sector / 4 = line then
        let b := bytesIn bs (m.sector % 4)
        { m with buf := b.foldl (fun x p => x.write (p.1 % 32) p.2) m.buf
                 bufMask := b.foldl (fun x p => x ||| 2 ^ (p.1 % 32)) m.bufMask }
      else m) }

/-- Release tag of a store (R197). -/
def MemOp.relTag (o : MemOp) (c : Nat) : Option RelTag :=
  if o.release then some { scope := o.scope, core := c, blk := o.blk, slot := o.slot % 32 } else none

/-- Perform a store in a line held in M: sectors valid where wholly written or already valid, all of them dirty. -/
def State.storeHit (s : State) (c : Nat) (o : MemOp) (line : Nat) (secs : List Nat) (bs : List (Nat × Byte)) : State :=
  s.modCore c (fun k =>
    let k := k.enterBytes line bs
    let l := k.line line
    let full := secs.filter (fun i => fullSec bs i)
    let k := k.setLine line { l with
      st := .m, valid := l.valid ||| maskOfSecs full, dirty := l.dirty ||| maskOfSecs secs,
      poison := l.poison &&& (15 - maskOfSecs full), tag := o.relTag c, ref := true }
    match k.opOf o.id with
    | some o => k.setOp { o with left := o.left.filter (fun x => !(x / 4 == line && secs.contains (x % 4))) }
    | none => k)

/-- Perform the near atomics of an instruction on one sector's worth of line data (R208, R210). -/
def State.nearExec (s : State) (c : Nat) (o : MemOp) (line sec : Nat) : State :=
  let acc := o.acc.filter (fun a => a.pa / 32 == 4 * line + sec)
  let tag := o.relTag c
  let n := atomBytes o.aop o.fmt
  let s := (targets acc).foldl (fun s p =>
    s.modCore c (fun k =>
      let l := k.line line
      let old := l.data.readLE (p.1 % 128) n
      let r := atomSeq o.aop o.fmt old (p.2.map (fun t => (t, valOf o.vals t, valOf o.vals2 t)))
      let k := k.setLine line { l with data := l.data.writeLE (p.1 % 128) n r.1, dirty := l.dirty ||| 2 ^ sec, tag := tag, ref := true }
      match k.opOf o.id with
      | some o => k.setOp { o with olds := r.2.foldl (fun m q => minsert q.1 q.2 (merase m q.1)) o.olds }
      | none => k)) s
  s.modCore c (fun k => match k.opOf o.id with
    | some o => k.setOp { o with left := sdel (4 * line + sec) o.left }
    | none => k)

/-- The counts of a store's misses (R233). -/
def State.countStore (s : State) (c : Nat) (near : Bool) (part : Nat → Bool) (l : List Nat) : State :=
  if near then s
  else (s.kcount c Ev.CORE_STORE_FETCH (l.filter part).length).kcount c Ev.CORE_STORE_FULL_SECTOR (l.filter (fun i => !part i)).length

/-- A store or near atomic to one line (Table 9-8). A near atomic writes nothing until it is performed. A sector that a store
writes wholly is not fetched, FULL_LINE_FETCH or not (R233). -/
def State.l1Store (s : State) (c : Nat) (o : MemOp) (line : Nat) : State × Look :=
  let k := s.core c
  let l := k.line line
  let near := decide (o.kind = .near)
  let secs := k.toEnter o line
  let free := s.missFree c
  let bs := if near then [] else o.storeBytes line
  let noFull := s.kfld c R.L1_CTL_NO_FULL_SECTOR_WRITE = 1
  let part : Nat → Bool := fun i => near || noFull || !fullSec bs i
  let v := s.coreCove c
  let enter : State → List Nat → State := fun s q =>
    s.modCore c (fun k => k.enterBytes line (bs.filter (fun p => q.contains (p.1 / 32))))
  match l.st with
  | .i =>
    let take := secs.take free
    if !(k.lineMisses line).isEmpty then (s, .later)
    else if take.isEmpty then (s, .noReg)
    else match s.allocLine c line .imD with
      | (none, s) => (s, .later)
      | (some s, _) =>
        let extra := s.extraSecs c line secs (free - take.length)
        let s := (s.allocMiss c line take [o.id] part).allocMiss c line extra [] (fun _ => true)
        ((((enter s take).countStore c near part take)).request c v line .getM (maskOfSecs (take.filter part ++ extra)) 0 0 id 0 [],
          if take.length = secs.length then .done else .noReg)
  | .s | .o =>
    let new := secs.filter (fun i => (k.missOf (4 * line + i)).isNone)
    let take := new.take free
    let r := s.joinEach c line o.id (secs.filter (fun i => (k.missOf (4 * line + i)).isSome))
    let look : Look := if take.length = new.length then r.2.joinLook c r.1 else .noReg
    let in_ := secs.filter (fun i => take.contains i || (!new.contains i && !r.1.contains i))
    if in_.isEmpty then (r.2, look)
    else
      let need := in_.filter (fun i => part i && !bit l.valid i)
      let extra := r.2.extraSecs c line secs (free - take.length)
      let s := (r.2.allocMiss c line take [o.id] (fun i => need.contains i)).allocMiss c line extra [] (fun _ => true)
      let s := (enter s in_).countStore c near part (in_.filter (fun i => !bit l.valid i))
      let s := s.modCore c (fun k => k.setLine line { k.line line with st := if l.st = .s then .smG else .omG, ref := true })
      ((s.request c v line .upg (maskOfSecs (in_.filter part ++ extra)) (maskOfSecs (need ++ extra)) 0 id 0 []).kcount c Ev.CORE_UPGRADE 1, look)
  | .e | .m =>
    let busy := secs.filter (fun i => (k.missOf (4 * line + i)).isSome)
    let new := secs.filter (fun i => !bit l.valid i && part i && (k.missOf (4 * line + i)).isNone)
    let take := new.take free
    let extra := if take.isEmpty then [] else s.extraSecs c line secs (free - take.length)
    let ask : State → State := fun s => if take.isEmpty then s else
      (s.allocMiss c line extra [] (fun _ => true)).request c v line .getS (maskOfSecs (take ++ extra)) 0 (2 ^ Msg.fHELD) id 0 []
    if near then
      let r := s.joinEach c line o.id busy
      let look : Look := if take.length = new.length then r.2.joinLook c r.1 else .noReg
      let hit := secs.filter (fun i => bit l.valid i && !busy.contains i)
      if hit.isEmpty && take.isEmpty && r.1.length = busy.length then (r.2, look)
      else
        let s := r.2.modCore c (fun k => k.setLine line { k.line line with st := .m, ref := true })
        let s := hit.foldl (fun s i => s.nearExec c o line i) s
        (ask (s.allocMiss c line take [o.id] (fun _ => true)), look)
    else
      let in_ := secs.filter (fun i => !new.contains i || take.contains i)
      if in_.isEmpty then (s, .noReg)
      else
        let s := (s.allocMiss c line take [] (fun _ => true)).countStore c near part (in_.filter (fun i => !bit l.valid i))
        (ask (s.storeHit c o line in_ (bs.filter (fun p => in_.contains (p.1 / 32)))),
          if take.length = new.length then .done else .noReg)
  | .imD | .smG | .omG =>
    let may := secs.filter (fun i => bit (k.exclMask line) i && (k.missOf (4 * line + i)).isSome)
    let r := s.joinEach c line o.id may
    (enter r.2 (may.filter (fun i => !r.1.contains i)), if may.length = secs.length then r.2.joinLook c r.1 else .later)
  | _ => (s, .later)

/-! ### Errors of the L1 (R240) -/

/-- The RAS event of an uncorrectable L1 error: refetched, or poisoned. -/
def State.l1Event (s : State) (c : Nat) (lost : Bool) : State :=
  s.rasEvent {
    cls := clsCore, inst := s.corePage c, sev := if lost then Sev.contained else Sev.recovered, kind := Knd.other, bcls := 2,
    binst := s.dieOf c, weight := s.bucketHeavy 2, info := [s.regWord clsCore (s.corePage c) 0x220] } true

/-- An injected correctable error of the L1. -/
def State.l1Corrected (s : State) (c : Nat) : State :=
  ((((s.disarm clsCore (s.corePage c)).errBit clsCore (s.corePage c) 0).kcount c Ev.CORE_L1_CORRECTED 1)).coreCorrected c true

/-- An injected uncorrectable error that the lookup of a sector meets, in the sector's data or in the tag (a free choice, log
entry 20): the line leaves with its Put and is fetched again; a dirty sector's data is lost. -/
def State.l1Uncorr (s : State) (c line sec : Nat) : State :=
  let r := (s.disarm clsCore (s.corePage c)).draw 2
  let l := (s.core c).line line
  let lost := r.1 = 0 ∧ bit l.dirty sec = true
  let s := (r.2.l1ErrRecord c (if r.1 = 1 then 2 else if lost then 1 else 0) (line * 128 + 32 * sec)).l1Event c (decide lost)
  let s := if lost then s.modCore c (fun k => k.setLine line { l with poison := l.poison ||| 2 ^ sec })
    else s.kcount c Ev.CORE_L1_REFETCH 1
  s.evictLine c line

/-! ### Lookups -/

/-- The lookup of one line of an instruction. A read of held sectors is checked (R240); a line with a fill outstanding is not
given up, and its check leaves an uncorrectable injection armed. -/
def State.enterLine (s : State) (c id line : Nat) : State × Look :=
  match (s.core c).opOf id with
  | none => (s, .done)
  | some o =>
    let k := s.core c
    let l := k.line line
    let hit := (k.toEnter o line).filter (fun i => bit l.valid i)
    let checked := o.kind != .store && stable l.st && !hit.isEmpty
    if checked && s.armed clsCore (s.corePage c) 1 && (k.lineMisses line).isEmpty && !k.asked line then
      (s.l1Uncorr c line (hit.headD 0), .later)
    else
      let s := if checked && s.armed clsCore (s.corePage c) 0 then s.l1Corrected c else s
      if (k.toEnter o line).isEmpty then (s, .done)
      else if o.kind = .load then s.l1Load c o line else s.l1Store c o line

/-- Whether an earlier access of an instruction's group to a line waits in the replay queue or has not been looked up. -/
def Core.blockedBy (k : Core) (o : MemOp) (line : Nat) : Bool :=
  k.replay.any (fun r => r.line == line && match k.opOf r.op with | some p => p.slot == o.slot && decide (p.id < o.id) | none => false) ||
    k.ops.any (fun p => p.slot == o.slot && decide (p.id < o.id) && p.todo.contains line)

/-- The counts of a line's first lookup: its sectors that hit and missed, and why it goes to the replay queue (log entry 73). -/
def State.countLook (s : State) (c hit miss : Nat) (look : Look) : State :=
  let s := (s.kcount c Ev.CORE_L1_HIT_SECTOR hit).kcount c Ev.CORE_L1_MISS_SECTOR miss
  match look with
  | .noReg => s.kcount c Ev.CORE_MR_FULL_REPLAY 1
  | .noWaiter => s.kcount c Ev.CORE_WAITER_FULL_REPLAY 1
  | _ => s

/-- Look up lines of an instruction in turn while the replay queue has room; what cannot enter goes there (R231). -/
def State.lookups (s : State) (c id : Nat) (lines : List Nat) : State :=
  lines.foldl (fun s line =>
    match (s.core c).opOf id with
    | none => s
    | some o =>
      if !o.todo.contains line || decide (32 ≤ (s.core c).replay.length) then s
      else
        let secs := (s.core c).toEnter o line
        let hit := (secs.filter (fun i => bit ((s.core c).line line).valid i)).length
        let s := s.modCore c (fun k => k.setOp { o with todo := sdel line o.todo })
        let r := if (s.core c).blockedBy o line then (s, Look.later) else s.enterLine c id line
        let s := r.1.countLook c hit (secs.length - hit) r.2
        if r.2 = .done then s else s.modCore c (fun k => { k with replay := k.replay ++ [{ op := id, line := line }] })) s

/-- Start an instruction in the L1: a load first reads the store queue of its group (R233). -/
def State.startL1 (s : State) (c : Nat) (o : MemOp) : State :=
  let o := { o with started := true, fwd := if o.kind = OpKind.load then (s.core c).queued o else [] }
  let todo := dedup (o.needs.map (fun x => x / 4))
  let s := s.modCore c (fun k => k.setOp { o with left := o.needs, todo := todo })
  (s.lookups c o.id todo).checkOp c o.id

/-! ### Past the L1 (R194, R201, R208, R235) -/

/-- The lines of a bypassing load go out as SnoopRd, one per line. -/
def State.startSnoop (s : State) (c : Nat) (o : MemOp) : State :=
  let s := s.modCore c (fun k => k.setOp { o with started := true, left := o.sectors })
  o.lines.foldl (fun s line =>
    s.request c (s.coreCove c) line .snoopRd (maskOfSecs (o.secsOf line)) 0 (if o.outer then 2 ^ Msg.fOUTER else 0) id o.id []) s

/-- The lines of a bypassing store go out as AtomFar WRITE: 32 data bytes and a 4-byte mask per sector (Table 9-5). -/
def State.startWrite (s : State) (c : Nat) (o : MemOp) : State :=
  let s := s.modCore c (fun k => k.setOp { o with started := true, left := o.lines })
  o.lines.foldl (fun s line =>
    let bs := o.storeBytes line
    let secs := o.secsOf line
    let body := secs.flatMap (fun i =>
      let b := bytesIn bs i
      let m : Mem := b.foldl (fun x p => x.write (p.1 % 32) p.2) []
      m.readBytes 0 32 ++ leBytes 4 (b.foldl (fun x p => x ||| 2 ^ (p.1 % 32)) 0))
    s.request c (s.coreCove c) line .atomFar (maskOfSecs secs) 0 0 (fun m => { m with op := .write, data := body }) o.id []) s

/-- R211: whether the combiner sends one operand for all members of a request. -/
def MemOp.combines (o : MemOp) : Bool :=
  o.aop == .xchg || (o.fmt.isInt && [AOp.add, .min, .max, .and, .or, .xor].contains o.aop)

/-- The operands of a request's members, in order. -/
def MemOp.operands (o : MemOp) (ts : List Nat) : List (Nat × Nat) := ts.map (fun t => (valOf o.vals t, valOf o.vals2 t))

/-- The operands that a request carries (R211): the members' results combined, the last one's value of an exchange, or all. -/
def MemOp.carried (o : MemOp) (ts : List Nat) : List (Nat × Nat) :=
  match o.operands ts with
  | [] => []
  | x :: l => if o.combines then [(l.foldl (fun v y => atomApply o.aop o.fmt v y.1 0) x.1, 0)] else x :: l

/-- The old values of a request's members from its response (R211): each is the returned old value combined with the operands
of the members before it. -/
def MemOp.spread (o : MemOp) (ts : List Nat) (resp : List (Nat × Nat)) : List (Nat × Nat) :=
  if o.combines then
    match resp with
    | [] => []
    | v :: _ => (atomSeq o.aop o.fmt v.1 (ts.map (fun t => (t, valOf o.vals t, 0)))).2
  else (ts.zip resp).map (fun p => (p.1, p.2.1))

/-- A far atomic: one AtomFar per distinct target, in order of lowest members (R210). -/
def State.startFar (s : State) (c : Nat) (o : MemOp) : State :=
  let ts := targets o.acc
  let s := s.modCore c (fun k => k.setOp { o with started := true, left := ts.map Prod.fst })
  ts.foldl (fun s p =>
    s.request c (s.coreCove c) (p.1 / 128) .atomFar 0 0 0 (fun m => { m with
      op := o.aop, fmt := o.fmt, offset := p.1 % 128, ret := o.dst != 255,
      ops := o.carried p.2 }) o.id p.2) s

/-- R458: reads outstanding at a port whose link is down return poisoned sectors; the bytes are free. -/
def State.hostDead (s : State) (c id : Nat) : State :=
  match (s.core c).opOf id with
  | none => s
  | some o =>
    let r := o.acc.foldl (fun (r : List (Nat × Nat) × State) a =>
      let (b, s) := r.2.drawBytes a.bytes
      (r.1 ++ [(a.thread, leNat b)], s)) (([] : List (Nat × Nat)), s)
    let got := (dedup (o.acc.map (fun a => a.pa / 32))).map (fun sec => (sec, List.replicate 32 (0 : Byte)))
    let got := o.acc.foldl (fun got a => got.map (fun p =>
      if p.1 = a.pa / 32 then (p.1, (List.range 32).map (fun i =>
        if a.pa % 32 ≤ i && i < a.pa % 32 + a.bytes then BitVec.ofNat 8 (valOf r.1 a.thread / 256 ^ (i - a.pa % 32)) else p.2.getD i 0)) else p)) got
    (r.2.modCore c (fun k => k.setOp { o with started := true, left := [], got := got, olds := r.1, poison := true })).checkOp c id

/-- R213: a host-facing port that has trained in CXL mode. -/
def State.cxlPort (s : State) : Option Nat :=
  (List.range 8).find? (fun e => s.fld clsEdge e R.EDGE_STATE_ROLE == 1 && (s.edge e).cxl)

/-- The port of a host-window access: the cove's HOST port; of an atomic, a CXL one when there is one (R213, R428). -/
def State.accPort (s : State) (cove : Nat) (atom : Bool) : Nat :=
  let p := (s.hostPort cove).getD 8
  if atom && !(s.edge p).cxl then s.cxlPort.getD p else p

/-- R213: a CXL port takes the line of an atomic's target before it executes it. -/
def State.ownLine (s : State) (p : Nat) (o : MemOp) (a : Nat) : State :=
  if o.kind = .hostAt && (s.edge p).cxl then s.modEdge p (fun e => { e with owned := sadd (a / 64) e.owned }) else s

/-- Host-window accesses leave through their HOST port (R235, R598): one request per access of a load or target of
an atomic; a store is performed when the port has accepted it, and is dropped and recorded when the port is down. -/
def State.startHost (s : State) (c : Nat) (o : MemOp) : State :=
  let p := s.accPort (s.coreCove c) (o.kind == .hostAt)
  match o.kind with
  | .hostSt =>
    let s := if (s.edge p).up then
        o.acc.foldl (fun s a => { s with host := s.host.writeLE (a.pa - 0xF80000000000) a.bytes (valOf o.vals a.thread) }) s
      else s.record clsEdge p 1 R.EDGE_ERR_VALID [(R.EDGE_ERR_KIND, 3), (R.EDGE_ERR_INFO, 0)]
    s.modCore c (fun k => k.dropOp o.id)
  | _ =>
    if !(s.edge p).up then s.hostDead c o.id
    else
    let ts := (targets o.acc).zipIdx
    let tag0 := ((s.hs.accs.filter (fun a => a.bytes != 0)).map HostAcc.tag).foldl max 0 + 1
    let s := s.modCore c (fun k => k.setOp { o with started := true, left := ts.map (fun t => tag0 + t.2) })
    ts.foldl (fun s t =>
      let a : HostAcc := { port := p, tag := tag0 + t.2, core := c, op := o.id, thread := (t.1.2.head?).getD 0,
                           addr := t.1.1 - 0xF80000000000, bytes := o.bytes }
      ({ s.ownLine p o a.addr with hs := { (s.ownLine p o a.addr).hs with accs := s.hs.accs ++ [a] } }).emit { kind := outHostReq, a := a.tag, b := a.addr }) s

/-! ### The order of a group (R185 to R190) -/

/-- Whether every line of an instruction has entered the L1, or every request of it has left. -/
def Core.sent (k : Core) (o : MemOp) : Bool := o.started && o.todo.isEmpty && !k.replay.any (fun r => r.op == o.id)

/-- Whether an earlier instruction is performed at a scope (R188): a load when it has returned; a store at the group
at once, at the block when its bytes are in the lines, beyond when it has ended. -/
def Core.performedAt (k : Core) (scope : Nat) (o : MemOp) : Bool :=
  match o.kind with
  | .store => scope == 0 || (scope == 1 && k.sent o)
  | .bypStore => scope == 0
  | _ => false

/-- R185: a gather of the element engine that its group issued before an instruction has not read yet. -/
def Core.gathering (k : Core) (o : MemOp) : Bool :=
  k.elq.any (fun e => e.slot == o.slot && !e.gather.isEmpty && decide (e.mark ≤ o.id))

/-- Whether an instruction may start (R185 to R188, R210, R233): accesses to one location keep their order, but that a load
reads the store queue; a write waits for every earlier value of its group; a release waits until every earlier instruction
is performed at its scope; the requests of one atomic leave in order. -/
def Core.canStart (k : Core) (o : MemOp) : Bool :=
  (k.ops.filter (fun p => p.slot == o.slot && decide (p.id < o.id))).all (fun p =>
    let ordered := !p.sectors.any (fun x => o.sectors.contains x) || (p.started && p.kind.inL1 && o.kind.inL1)
    if p.seq = o.seq then p.seg == o.seg || k.sent p
    else if o.isRead then ordered || (o.kind == .load && p.kind == .store)
    else !p.returns && ordered && (!o.release || k.performedAt o.scope p))
  && (o.isRead || !k.gathering o)

/-- Start what may start and go on with what waited for the replay queue, oldest first. -/
def State.serve (s : State) (c : Nat) : State :=
  (((s.core c).ops.filter (fun o => !o.started || !o.todo.isEmpty)).map MemOp.id).foldl (fun s id =>
    match (s.core c).opOf id with
    | none => s
    | some o =>
      if o.started then (s.lookups c id o.todo).checkOp c id
      else if !(s.core c).canStart o then s
      else match o.kind with
        | .load | .store | .near => s.startL1 c o
        | .bypLoad => s.startSnoop c o
        | .bypStore => s.startWrite c o
        | .far => s.startFar c o
        | .hostLd | .hostSt | .hostAt => s.startHost c o) s

end Sys2Proof.Machine
end

