-- ==== Sys2Proof/Machine/Memory.lean ====
section
/-! DEFINITION. The memory instructions of Table 4-6 (R82, R97 to R100, R105, R106, R189, R190, R208, R213, R221, R285). -/

namespace Sys2Proof.Machine

/-! ### Qualifiers and operands (R97 to R100) -/

def Ins.sc (i : Ins) : Nat := bits i.q 7 6
def Ins.order (i : Ins) : Nat := bits i.q 5 4
def Ins.loc (i : Ins) : Nat := bits i.q 3 2
def Ins.scale (i : Ins) : Nat := bits i.q 1 0
def Ins.acq (i : Ins) : Bool := bit i.order 0
def Ins.rel (i : Ins) : Bool := bit i.order 1

/-- What Table 4-6 accepts: orderings, scopes of an ordered access, LOC codes. -/
def Ins.ordOk (i : Ins) (ords scopes locs : List Nat) : Bool :=
  ords.contains i.order && (i.order != 0 || i.sc == 0) && (i.order == 0 || scopes.contains i.sc) && locs.contains i.loc

/-- Access width in bytes (R100). -/
def Ins.width (i : Ins) : Nat := 2 ^ i.t

/-- Registers of an access. -/
def widthRegs (i : Ins) : Nat := regsOf i.width

/-- The form of a load or store: the data registers, the vector offset, the base in `nb` scalars, C an offset. -/
def ldstForm (i : Ins) (load : Bool) (nb : Nat) (ok : Bool) : Form :=
  { legal := i.guardOk true && decide (i.t ≤ 4) && ok && (!i.lg || (i.c == 0 && decide (i.x < 2 ^ 32)))
    ops := [⟨.v (widthRegs i), i.d, load⟩, ⟨.v 1, i.a, false⟩, ⟨.s nb, i.b, false⟩, ⟨.raw, i.c, false⟩] }

/-- The offset of an address: C scaled by the access, or X as a byte offset (R98). -/
def Ins.offset (i : Ins) (unit : Nat) : Int := if i.lg then sext 32 i.x else sext 8 i.c * unit

/-- R98: the address of a thread from a 64-bit base. -/
def Iss.ea (z : Iss) (unit t : Nat) : Nat :=
  ofInt 64 ((z.g.rs2 z.i.b : Int) + (z.g.rv z.i.a t * 2 ^ z.i.scale : Nat) + z.i.offset unit)
/-- R99: the 32-bit scratchpad offset of a thread. -/
def Iss.spOff (z : Iss) (t : Nat) : Nat :=
  ofInt 32 ((z.g.rs z.i.b : Int) + (z.g.rv z.i.a t * 2 ^ z.i.scale : Nat) + z.i.offset z.i.width)

def minimumNat : List Nat → Option Nat
  | [] => none
  | a :: l => match minimumNat l with
    | none => some a
    | some b => some (min a b)

def faultAt (code : Nat) (l : List Nat) : List (Nat × Nat) :=
  match minimumNat l with | none => [] | some a => [(code, a % 2 ^ 57)]

/-! ### Device memory: addresses, faults, where an access goes -/

/-- Translations of a list of thread addresses, held in the TLB as they are found. -/
def State.coreAddrs (s : State) (core q cove : Nat) (wr : Bool) (l : List (Nat × Nat)) (direct : Bool := true) :
    List (Nat × Nat × XAcc) × State :=
  match l with
  | [] => ([], s)
  | (t, va) :: l =>
    let r := s.coreAddr core q cove va wr direct
    let rs := r.2.coreAddrs core q cove wr l direct
    ((t, va, r.1) :: rs.1, rs.2)

/-- The faults of an access (R113): misaligned, untranslated and refused addresses, each with the lowest. -/
def addrFaults (align : Nat → Bool) (l : List (Nat × Nat × XAcc)) : List (Nat × Nat) :=
  faultAt Flt.align ((l.filter (fun p => !align p.2.1)).map (fun p => p.2.1))
  ++ faultAt Flt.translate ((l.filter (fun p => p.2.2 == .fault Flt.translate)).map (fun p => p.2.1))
  ++ faultAt Flt.protect ((l.filter (fun p => p.2.2 == .fault Flt.protect)).map (fun p => p.2.1))
  ++ faultAt fltWait ((l.filter (fun p => p.2.2 == .fault fltWait)).map (fun p => p.2.1))

/-- Physical accesses of threads that translated. -/
def accesses (l : List (Nat × Nat × XAcc)) (bytes : Nat) : List Access :=
  l.filterMap (fun p => match p.2.2 with | .ok pa e => some { thread := p.1, pa := pa, bytes := bytes, wt := e.wt } | _ => none)

def inHost (pa : Nat) : Bool := match region pa with | .hostWin _ => true | _ => false

/-- R70: a group has at most 16 memory-class instructions outstanding: the next waits until the oldest of them has
completed (the sixteen are the last sixteen issued, DEDUCED, log entry 72). -/
def Core.windowFull (k : Core) (g : Nat) : Bool := k.ops.any (fun o => o.slot == g && decide (o.seq + 16 ≤ (k.group g).memSeq))

/-- Whether an acquire of the group has not returned (R189). -/
def Core.acquiring (k : Core) (g : Nat) : Bool := k.ops.any (fun o => o.slot == g && o.acquire)

/-- Why a memory instruction waits at issue: an acquire that has not returned (R189), 16 outstanding (R70), a full replay
queue (R231). -/
def memHold (s : State) (z : Iss) : Hold :=
  let k := s.core z.core
  if k.acquiring z.slot then .acquire
  else if k.windowFull z.slot || decide (32 ≤ k.replay.length) then .memory
  else .none

/-- Why a scratchpad access waits: as a memory instruction, which passes the L1 by; a store for the loads of its group
before it (R185); and for the matrix unit and the element engine (R141, R164). -/
def spHold (s : State) (z : Iss) (rd wr : List (Nat × Nat)) : Hold :=
  let k := s.core z.core
  if k.acquiring z.slot then .acquire
  else if k.windowFull z.slot || (!wr.isEmpty && k.ops.any (fun o => o.slot == z.slot && o.returns)) then .memory
  else k.spClash z.slot rd wr

/-- Add an outstanding instruction, its destination busy, and start what may start. -/
def State.addOp (s : State) (c : Nat) (o : MemOp) (dst : List Nat) : State :=
  let k := s.core c
  let o := { o with id := k.nextOp }
  let k := { k with nextOp := k.nextOp + 1, ops := k.ops ++ [o] }
  let k := k.modGroup o.slot (fun g => { g with busyV := g.busyV ++ dst.filter (fun r => r != 255) })
  (s.setCore c k).serve c

/-- The threads an instruction acts on with their addresses. -/
def Iss.addrs (z : Iss) (unit : Nat) : List (Nat × Nat) := z.threads.map (fun t => (t, z.ea unit t))

/-- The outstanding entry of an instruction, before its place and its accesses are known. -/
def Iss.memOp (z : Iss) : MemOp :=
  { id := 0, slot := z.slot, blk := z.g.blk, seq := z.g.memSeq, kind := .load, acquire := z.i.acq, release := z.i.rel,
    scope := z.i.sc, pc := z.g.pc }

/-- Add the parts of an instruction, one outstanding entry for each place its accesses go to; its destination is free once
the last of them has ended. -/
def State.addParts (s : State) (c : Nat) (o : MemOp) (dst : List Nat) : List (OpKind × Nat × List Access) → State
  | [] => s
  | [(k, n, acc)] => s.addOp c { o with kind := k, seg := n, acc := acc } dst
  | (k, n, acc) :: p :: l => (s.addOp c { o with kind := k, seg := n, acc := acc } []).addParts c o dst (p :: l)

/-- The registers that a result of so many takes. -/
def destRegs (d n : Nat) : List Nat := (List.range n).map (fun k => d + k)

/-- R228: the lookup cycles beyond one of an instruction: the most distinct sectors that it names in one of the 8 banks. -/
def bankConflicts (l : List Access) : Nat :=
  let secs := dedup (l.flatMap Access.sectors)
  ((List.range 8).map (fun b => (secs.filter (fun x => x % 8 == b)).length)).foldl max 0 - 1

/-- The counts of an instruction's accesses through the L1 and past it (R228, R235). -/
def State.countAcc (s : State) (c : Nat) (l1 past : List Access) : State :=
  (s.kcount c Ev.CORE_L1_BANK_CONFLICT (bankConflicts l1)).kcount c Ev.CORE_BYPASS_ACCESS past.length

/-- `ld` (R98, R100, R235 to R237): through the L1; past it for the host window and for an acquire at `.sys` of a
write-through page (R201). -/
def execLd (i : IWord) (s : State) : Host.Outcome State Fault Refusal :=
  let acc := fun (s : State) (z : Iss) => s.coreAddrs z.core z.g.quarter z.l.cove false (z.addrs z.i.width)
  .next (s.issue i (1, 0x000) {
    form := fun z => ldstForm z.i true 2 (z.i.ordOk [0, 1] [0, 1, 2, 3] [0, 1])
    faults := fun s z => addrFaults (fun a => a % z.i.width == 0) (acc s z).1
    hold := memHold
    effect := fun s z =>
      let r := acc s z
      let as := accesses r.1 z.i.width
      let host := as.filter (fun a => inHost a.pa)
      let outer := as.filter (fun a => !inHost a.pa && a.wt && z.i.acq && z.i.sc == 3)
      let l1 := as.filter (fun a => !inHost a.pa && !(a.wt && z.i.acq && z.i.sc == 3))
      let refused := z.i.loc == 1 && !as.isEmpty && !l1.any (fun a => !a.wt && !r.2.isCommons a.pa)
      let o : MemOp := { z.memOp with dst := z.i.d, bytes := z.i.width, ebb := z.i.loc == 1, outer := true }
      ((r.2.kcount z.core Ev.CORE_EBB_REFUSED (boolNat refused)).countAcc z.core l1 (outer ++ host)).addParts z.core o
        (destRegs z.i.d (widthRegs z.i))
        ([(OpKind.load, 0, l1), (.bypLoad, 0, outer), (.hostLd, 0, host)].filter (fun p => !p.2.2.isEmpty)) })

/-- `st` (R98, R100, R225, R233, R235): through the L1; past it for write-through pages and the host window. -/
def execSt (i : IWord) (s : State) : Host.Outcome State Fault Refusal :=
  let acc := fun (s : State) (z : Iss) => s.coreAddrs z.core z.g.quarter z.l.cove true (z.addrs z.i.width)
  .next (s.issue i (1, 0x001) {
    form := fun z => ldstForm z.i false 2 (z.i.ordOk [0, 2] [0, 1, 2, 3] [0])
    faults := fun s z => addrFaults (fun a => a % z.i.width == 0) (acc s z).1
    hold := memHold
    effect := fun s z =>
      let r := acc s z
      let as := accesses r.1 z.i.width
      let host := as.filter (fun a => inHost a.pa)
      let wt := as.filter (fun a => !inHost a.pa && a.wt)
      let l1 := as.filter (fun a => !inHost a.pa && !a.wt)
      let o : MemOp := { z.memOp with bytes := z.i.width, vals := z.threads.map (fun t => (t, z.g.rvk z.i.d t (widthRegs z.i))) }
      (r.2.countAcc z.core l1 (wt ++ host)).addParts z.core o []
        ([(OpKind.store, 0, l1), (.bypStore, 0, wt), (.hostSt, 0, host)].filter (fun p => !p.2.2.isEmpty)) })

/-! ### Scratchpad (R99, R221, R224, R225) -/

/-- Scratchpad faults: misaligned offsets, and offsets beyond the block's region. -/
def spFaults (s : State) (z : Iss) (l : List Nat) : List (Nat × Nat) :=
  let n := (s.blockOf z.core z.slot).spLen
  faultAt Flt.align (l.filter (fun a => a % z.i.width != 0))
  ++ faultAt Flt.spRange (l.filter (fun a => decide (n < a + z.i.width)))

/-- The ranges of a block that a scratchpad access touches. -/
def Iss.spRanges (z : Iss) : List (Nat × Nat) := z.threads.map (fun t => (z.spOff t, z.i.width))

/-- R224: the cycles beyond one of the four steps of 16 threads; a step takes as many as the most distinct words of one of
the 64 banks. -/
def spConflicts (base n : Nat) (l : List (Nat × Nat)) : Nat :=
  ((List.range 4).map (fun q =>
    let words := dedup ((l.filter (fun p => p.1 / 16 == q)).flatMap (fun p =>
      (List.range ((n + 3) / 4)).map (fun k => (base + p.2) / 4 + k)))
    ((List.range 64).map (fun b => (words.filter (fun w => w % 64 == b)).length)).foldl max 0 - 1)).foldl (· + ·) 0

/-- The count of a scratchpad access (R224). -/
def State.countSp (s : State) (z : Iss) : State :=
  s.kcount z.core Ev.CORE_SP_BANK_CONFLICT
    (spConflicts (s.blockOf z.core z.slot).spOff z.i.width (z.threads.map (fun t => (t, z.spOff t))))

/-- R240: an injected error that a read of the scratchpad meets: corrected, or UNCORR on the instruction. -/
def State.spCheck (s : State) (z : Iss) : List (Nat × Nat) × State :=
  let p := s.corePage z.core
  let offs := z.threads.map (fun t => z.spOff t)
  match minimumNat offs with
  | none => ([], s)
  | some a =>
    if s.armed clsCore p 1 then
      ([(Flt.uncorr, a)], ((s.disarm clsCore p).l1ErrRecord z.core 3 ((s.blockOf z.core z.slot).spOff + a)).coreUncorr z.core 0x220 true)
    else if s.armed clsCore p 0 then
      ([], (((s.disarm clsCore p).errBit clsCore p 0).kcount z.core Ev.CORE_SP_CORRECTED 1).coreCorrected z.core true)
    else ([], s)

def execLdSp (i : IWord) (s : State) : Host.Outcome State Fault Refusal :=
  .next (s.issue i (1, 0x002) {
    form := fun z => ldstForm z.i true 1 (z.i.ordOk [0] [] [0])
    check := State.spCheck
    faults := fun s z =>
      let base := (s.blockOf z.core z.slot).spOff
      let a := z.threads.map (fun t => z.spOff t)
      let f := spFaults s z a
      if f.isEmpty then s.spMarkFaults z.core (a.map (fun x => (base + x, z.i.width))) else f
    hold := fun s z => spHold s z z.spRanges []
    effect := fun s z =>
      let base := (s.blockOf z.core z.slot).spOff
      (s.countSp z).modCore z.core (fun k => k.modGroup z.slot (fun g =>
        z.threads.foldl (fun g t => g.wvk z.i.d t (k.sp.readLE (base + z.spOff t) z.i.width) (widthRegs z.i)) g)) })

def execStSp (i : IWord) (s : State) : Host.Outcome State Fault Refusal :=
  .next (s.issue i (1, 0x003) {
    form := fun z => ldstForm z.i false 1 (z.i.ordOk [0] [] [0])
    faults := fun s z => spFaults s z (z.threads.map (fun t => z.spOff t))
    hold := fun s z => spHold s z [] z.spRanges
    effect := fun s z =>
      let base := (s.blockOf z.core z.slot).spOff
      (s.countSp z).modCore z.core (fun k =>
        k.spStores (z.threads.map (fun t => (base + z.spOff t, z.g.rvk z.i.d t (widthRegs z.i)))) z.i.width) })

/-! ### Shelf scratch (R99, R285, R194) -/

def shelfFaults (s : State) (z : Iss) : List (Nat × Nat) :=
  let n := s.windowBytes z.l.cove
  let a := (z.addrs z.i.width).map Prod.snd
  faultAt Flt.align (a.filter (fun x => x % z.i.width != 0))
  ++ faultAt Flt.shelfRange (a.filter (fun x => decide (n < x + z.i.width)))

def shelfAcc (z : Iss) : List Access :=
  (z.addrs z.i.width).map (fun p => { thread := p.1, pa := shelfBase z.l.cove + p.2, bytes := z.i.width })

def execLdShelf (i : IWord) (s : State) : Host.Outcome State Fault Refusal :=
  .next (s.issue i (1, 0x004) {
    form := fun z => ldstForm z.i true 2 (z.i.ordOk [0, 1] [2, 3] [0])
    faults := shelfFaults
    hold := memHold
    effect := fun s z =>
      if z.act = 0 then s
      else s.addOp z.core { z.memOp with kind := .bypLoad, dst := z.i.d, bytes := z.i.width, acc := shelfAcc z }
        (destRegs z.i.d (widthRegs z.i)) })

def execStShelf (i : IWord) (s : State) : Host.Outcome State Fault Refusal :=
  .next (s.issue i (1, 0x005) {
    form := fun z => ldstForm z.i false 2 (z.i.ordOk [0, 2] [2, 3] [0])
    faults := shelfFaults
    hold := memHold
    effect := fun s z =>
      if z.act = 0 then s
      else s.addOp z.core { z.memOp with
        kind := .bypStore, bytes := z.i.width, acc := shelfAcc z, vals := z.threads.map (fun t => (t, z.g.rvk z.i.d t (widthRegs z.i))) } [] })

/-! ### The constant space (R99, R81, R83, Table 15-9) -/

/-- A value read through the constant cache, with its marks; none while its line is busy. -/
def State.constRead (s : State) (core q cove va n : Nat) : Option ((Nat × Bool × Bool) × State) :=
  match s.coreAddr core q cove va false with
  | (.fault _, s) => some ((0, false, false), s)
  | (.ok pa _, s) => match s.roLine core cove pa .c with
    | .line l p g s => some ((leNat ((l.drop (pa % 128)).take n), p, g), s)
    | .wait => none

/-- Values of several threads. -/
def State.constReads (s : State) (core q cove n : Nat) : List (Nat × Nat) → Option (List (Nat × Nat × Bool × Bool) × State)
  | [] => some ([], s)
  | (t, va) :: l => match s.constRead core q cove va n with
    | none => none
    | some (v, s) => match s.constReads core q cove n l with
      | none => none
      | some (vs, s) => some ((t, v) :: vs, s)

/-- `ld.const`: a cycle for each distinct 4-byte word that the acting threads name (R83). -/
def execLdConst (i : IWord) (s : State) : Host.Outcome State Fault Refusal :=
  let vas := fun (z : Iss) => (z.addrs z.i.width).map (fun p => (p.1, (z.l.const + p.2) % 2 ^ 64))
  .next (s.issue i (1, 0x006) {
    form := fun z => ldstForm z.i true 2 (z.i.ordOk [0] [] [0])
    faults := fun s z =>
      let a := (z.addrs z.i.width).map Prod.snd
      let f := faultAt Flt.align (a.filter (fun x => x % z.i.width != 0))
        ++ faultAt Flt.spRange (a.filter (fun x => decide (z.l.constBytes < x + z.i.width)))
      f ++ addrFaults (fun _ => true) (s.coreAddrs z.core z.g.quarter z.l.cove false (vas z)).1
    hold := fun s z => match memHold s z with
      | .none => if (s.constReads z.core z.g.quarter z.l.cove z.i.width (vas z)).isSome then .none else .memory
      | h => h
    effect := fun s z =>
      match s.constReads z.core z.g.quarter z.l.cove z.i.width (vas z) with
      | none => s
      | some (vs, s) =>
        let words := dedup ((vas z).flatMap (fun p => (List.range ((z.i.width + 3) / 4)).map (fun k => p.2 / 4 + k)))
        (s.kcount z.core Ev.CORE_CONST_SERIAL (words.length - 1)).modGroup z.core z.slot (fun g =>
          (vs.foldl (fun g p => g.wvk z.i.d p.1 p.2.1 (widthRegs z.i)) g).mark (destRegs z.i.d (widthRegs z.i))
            (vs.any (fun p => p.2.2.1)) (vs.any (fun p => p.2.2.2))) })

/-! ### Atomics (R105, R106, R205 to R213) -/

def atomAddTypes (f : Fmt) : Bool := [Fmt.int32, .u32, .i64, .fp32, .fp16, .bf16].contains f
def atomCasTypes (f : Fmt) : Bool := [Fmt.int32, .u32, .i64, .fp32].contains f
/-- R106: the thirteen formats, and I64. -/
def atomWesTypes (f : Fmt) : Bool := f != .u32

/-- Operand registers of an atomic: `atom.cas` names its compare value and, right after it, the new one, each a register
or pair of its own (R105). -/
def atomForm (i : Ins) (op : AOp) (types : Fmt → Bool) : Form :=
  let f := (i.ty).getD .int32
  let d := if op = .wes then 10 else f.nregs
  { legal := i.guardOk true && (match i.ty with | some f => types f | none => false) &&
      i.ordOk [0, 1, 2, 3] [0, 1, 2, 3] (if op = .wes then [2] else [0, 1, 2]) && (!i.lg || decide (i.x < 2 ^ 32))
    ops := [if i.d = 255 then ⟨.raw, 255, true⟩ else ⟨.v d, i.d, true⟩, ⟨.v 1, i.a, false⟩, ⟨.s 2, i.b, false⟩,
      ⟨.v f.nregs, i.c, false⟩] ++ (if op = .cas then [⟨.v f.nregs, i.c + f.nregs, false⟩] else []) }

/-- R98: an atomic's 64-bit form has no offset. -/
def Iss.atomEa (z : Iss) (t : Nat) : Nat :=
  ofInt 64 ((z.g.rs2 z.i.b : Int) + (z.g.rv z.i.a t * 2 ^ z.i.scale : Nat) + (if z.i.lg then sext 32 z.i.x else 0))

/-- R205, R24: alignment of a target. -/
def atomAligned (op : AOp) (f : Fmt) (a : Nat) : Bool :=
  if op = .wes then a % 8 == 0 && decide (a % 128 + 40 ≤ 128) else a % atomBytes op f == 0

/-- R213: which atomics PCIe AtomicOps express. -/
def pcieAtomic (op : AOp) (f : Fmt) : Bool :=
  (op == .add || op == .xchg || op == .cas) && (f == .int32 || f == .u32 || f == .i64)

/-- R208, R209: whether an atomic goes far: the word says, else ATOM_CTL, else the predictor's counter. -/
def State.goesFar (s : State) (c loc pa : Nat) : Bool :=
  match loc with
  | 1 => false
  | 2 => true
  | _ => match s.kfld c R.ATOM_CTL_PRED_MODE with
    | 1 => false
    | 2 => true
    | _ => decide (2 ≤ mget 1 (s.core c).pred (predIdx pa))

/-- Where an atomic on an address executes (R208, R213, R235): the host port, the home for a write-through page (DEDUCED, log
entry 74), or as its word, ATOM_CTL or the predictor says. -/
def State.atomPlace (s : State) (c loc : Nat) (a : Access) : OpKind :=
  if inHost a.pa then .hostAt else if a.wt || s.goesFar c loc a.pa then .far else .near

/-- Consecutive targets that go to one place, in the order in which their requests leave (R210). -/
def placeRuns (place : Nat → OpKind) : List Nat → List (OpKind × List Nat)
  | [] => []
  | pa :: l => match placeRuns place l with
    | [] => [(place pa, [pa])]
    | (k, pas) :: r => if place pa = k then (k, pa :: pas) :: r else (place pa, [pa]) :: (k, pas) :: r

/-- The counts of an atomic's requests (Table 7-8). -/
def State.countAtom (s : State) (c : Nat) (as : List Access) (place : Access → OpKind) : State :=
  let ts := targets as
  let of_ := fun (k : OpKind) => (targets (as.filter (fun a => place a == k))).length
  let s := (s.kcount c Ev.CORE_ATOM_COMBINED (ts.filter (fun p => decide (2 ≤ p.2.length))).length).kcount c
    Ev.CORE_ATOM_MEMBERS_MERGED (as.length - ts.length)
  let s := ((s.kcount c Ev.CORE_ATOM_NEAR (of_ .near)).kcount c Ev.CORE_ATOM_FAR (of_ .far + of_ .hostAt)).kcount c
    Ev.CORE_HOST_ATOMIC (of_ .hostAt)
  s.countAcc c (as.filter (fun a => place a == .near)) (as.filter (fun a => a.wt || inHost a.pa))

/-- One atomic instruction: near, far, through the predictor, or at the host port. -/
def State.atomic (s : State) (i : IWord) (code : Nat) (op : AOp) (types : Fmt → Bool) : State :=
  let ty := fun (z : Iss) => (z.i.ty).getD .int32
  let acc := fun (s : State) (z : Iss) => s.coreAddrs z.core z.g.quarter z.l.cove true (z.threads.map (fun t => (t, z.atomEa t)))
  s.issue i (1, code) {
    form := fun z => atomForm z.i op types
    faults := fun s z =>
      let r := (acc s z).1
      let bad := if s.cxlPort.isSome || pcieAtomic op (ty z) then [] else accesses r 4 |>.filter (fun a => inHost a.pa)
      addrFaults (atomAligned op (ty z)) r
        ++ faultAt Flt.protect ((r.filter (fun p => bad.any (fun a => a.thread == p.1))).map (fun p => p.2.1))
    hold := memHold
    effect := fun s z =>
      let r := acc s z
      let f := ty z
      let n := atomBytes op f
      let as := accesses r.1 n
      let mode := r.2.kfld z.core R.ATOM_CTL_PRED_MODE
      let o : MemOp := { z.memOp with
        dst := z.i.d, bytes := n, aop := op, fmt := f, predicted := z.i.loc == 0 && (mode == 0 || mode == 3)
        vals := z.threads.map (fun t => (t, z.g.rvk z.i.c t f.nregs))
        vals2 := if op = .cas then z.threads.map (fun t => (t, z.g.rvk (z.i.c + f.nregs) t f.nregs)) else [] }
      let place : Access → OpKind := r.2.atomPlace z.core z.i.loc
      let at_ : Nat → OpKind := fun pa => match as.find? (fun a => a.pa == pa) with | some a => place a | none => .near
      (r.2.countAtom z.core as place).addParts z.core o (if z.i.d = 255 then [] else destRegs z.i.d (regsOf n))
        ((placeRuns at_ ((targets as).map Prod.fst)).zipIdx.map (fun p => (p.1.1, p.2, as.filter (fun a => p.1.2.contains a.pa)))) }

def execAtomAdd (i : IWord) (s : State) : Host.Outcome State Fault Refusal := .next (s.atomic i 0x010 .add atomAddTypes)
def execAtomMin (i : IWord) (s : State) : Host.Outcome State Fault Refusal := .next (s.atomic i 0x011 .min atomAddTypes)
def execAtomMax (i : IWord) (s : State) : Host.Outcome State Fault Refusal := .next (s.atomic i 0x012 .max atomAddTypes)
def execAtomAnd (i : IWord) (s : State) : Host.Outcome State Fault Refusal := .next (s.atomic i 0x013 .and intTypes)
def execAtomOr (i : IWord) (s : State) : Host.Outcome State Fault Refusal := .next (s.atomic i 0x014 .or intTypes)
def execAtomXor (i : IWord) (s : State) : Host.Outcome State Fault Refusal := .next (s.atomic i 0x015 .xor intTypes)
def execAtomXchg (i : IWord) (s : State) : Host.Outcome State Fault Refusal := .next (s.atomic i 0x016 .xchg atomCasTypes)
def execAtomCas (i : IWord) (s : State) : Host.Outcome State Fault Refusal := .next (s.atomic i 0x017 .cas atomCasTypes)
def execAtomWes (i : IWord) (s : State) : Host.Outcome State Fault Refusal := .next (s.atomic i 0x018 .wes atomWesTypes)

/-! ### Fences and read-only caches -/

/-- Whether every memory instruction of a group is performed at a scope (R188, R190, R194). -/
def Core.allPerformed (k : Core) (slot scope : Nat) : Bool :=
  (k.ops.filter (fun o => o.slot == slot)).all (fun o =>
    match o.kind with
    | .bypStore => scope == 0
    | .store => k.performedAt scope o
    | _ => false)

/-- `fence` (R97, R165, R190): the group holds until its earlier instructions are performed at the scope. -/
def execFence (i : IWord) (s : State) : Host.Outcome State Fault Refusal :=
  .next (s.issue i (1, 0x020) {
    form := fun z => {
      legal := z.i.guardOk true && !z.i.lg && z.i.t == 0 && z.i.order == 3 && z.i.loc == 0 && z.i.scale == 0
      ops := [⟨.zero, z.i.d, false⟩, ⟨.zero, z.i.a, false⟩, ⟨.zero, z.i.b, false⟩, ⟨.zero, z.i.c, false⟩] }
    hold := fun s z =>
      if z.i.sc ≠ 0 && (s.core z.core).elq.any (fun e => e.slot == z.slot) then .engine
      else if (s.core z.core).windowFull z.slot then .memory
      else if (s.core z.core).allPerformed z.slot z.i.sc then .none else .fence
    effect := fun s _ => s })

/-- `inv.ro` (R82): the named caches of the core lose every line, and with the descriptor cache go the programs and
tables buffered from it (R175); it waits for an earlier acquire (R195). The spec gives it no guard's effect where no thread
acts: it drops the lines then too (DEDUCED, log entry 18). -/
def execInvRo (i : IWord) (s : State) : Host.Outcome State Fault Refusal :=
  .next (s.issue i (1, 0x021) {
    form := fun z => {
      legal := z.i.guardOk true && !z.i.lg && z.i.t == 0 && z.i.q == 0 && decide (z.i.c < 8)
      ops := [⟨.zero, z.i.d, false⟩, ⟨.zero, z.i.a, false⟩, ⟨.zero, z.i.b, false⟩, ⟨.raw, z.i.c, false⟩] }
    hold := fun s z =>
      if (s.core z.core).acquiring z.slot then .acquire else if (s.core z.core).windowFull z.slot then .memory else .none
    effect := fun s z => s.modCore z.core (fun k => { k with
      icache := if bit z.i.c 0 then {} else k.icache
      ccache := if bit z.i.c 1 then {} else k.ccache
      dcache := if bit z.i.c 2 then {} else k.dcache
      elBuf := if bit z.i.c 2 then [] else k.elBuf
      elTab := if bit z.i.c 2 then [] else k.elTab }) })

end Sys2Proof.Machine
end

