-- ==== Sys2Proof/Machine/L1Msg.lean ====
section
/-! DEFINITION. What an L1 does with fills and arriving messages (R232, R259, R262, R263, R268 to R272, Table 9-9). -/

namespace Sys2Proof.Machine

/-- Take a message off the mesh; none when it is not there. Messages may arrive in any order (R253). -/
def State.takeMsg (s : State) (m : Msg) : Option State :=
  if s.net.contains m then some { s with net := s.net.erase m } else none

/-- A message of a type, for a core. -/
def State.takeFor (s : State) (m : Msg) (ty : MTy) : Option State :=
  if m.ty = ty ∧ m.dst < 1024 then s.takeMsg m else none

/-- R278: a message in a cell marked ✗ is counted on the core's page. -/
def State.l1Error (s : State) (c : Nat) : State := s.raise clsCore (s.corePage c) 2 true

/-! ### Answers -/

/-- InvAck of a core to the home that sent `m`. -/
def State.invAck (s : State) (c : Nat) (m : Msg) (kept flags mask : Nat) (l : L1Line) : State :=
  s.send { ty := .invAck, dst := m.src, src := c, req := m.req, txn := m.txn, mask := mask, aux := kept, flags := flags,
           commons := m.commons, cove := m.cove, line := m.line, dirty := l.dirty &&& mask, poison := l.poison &&& mask,
           data := (secsOfMask mask).flatMap (fun i => l.data.readBytes (32 * i) 32) }

/-- Data of an owner to the requester of `m` (R262). -/
def State.ownerData (s : State) (c : Nat) (m : Msg) (mask : Nat) (l : L1Line) (dirty : Bool) : State :=
  s.send { ty := .data, dst := m.req, src := c, req := m.req, txn := m.txn, mask := mask, flags := 2 ^ Msg.fFROMOWNER,
           commons := m.commons, cove := m.cove, line := m.line, dirty := if dirty then l.dirty &&& mask else 0,
           poison := l.poison &&& mask, tag := l.tag,
           data := (secsOfMask mask).flatMap (fun i => l.data.readBytes (32 * i) 32) }

def keptOf : LSt → Nat
  | .s => 1 | .e | .eiP => 2 | .o | .oiP => 3 | .m | .miP => 4 | _ => 0

/-- R263: the answer of an L1 that holds nothing. -/
def State.answerI (s : State) (c : Nat) (m : Msg) : State :=
  let nh := 2 ^ Msg.fNOTHELD
  match m.ty with
  | .fwdGetS => if m.has Msg.fSNP then s.invAck c m 0 nh 0 {} else (s.ownerData c m 0 {} false).invAck c m 0 nh 0 {}
  | .fwdGetM => (s.ownerData c m 0 {} false).invAck c m 0 nh 0 {}
  | _ => s.invAck c m 0 (if m.has Msg.fOWNER then nh else 0) 0 {}

/-- A line that leaves the L1: an ebb that waits for a fill of it, or a deferred message, stays to be done (R267, R268). -/
def L1Line.gone (l : L1Line) : L1Line := { ebbBy := l.ebbBy, deferred := l.deferred }

/-- Act on a forward or an invalidation in a stable or Put state (Table 9-9). -/
def State.answer (s : State) (c : Nat) (m : Msg) : State :=
  let l := (s.core c).line m.line
  let set : State → L1Line → State := fun s l => s.modCore c (fun k => k.setLine m.line l)
  let put := 2 ^ Msg.fPUT
  let owner := m.has Msg.fOWNER
  match l.st, m.ty with
  | .e, .fwdGetS | .o, .fwdGetS | .m, .fwdGetS =>
    if m.has Msg.fSNP then s.invAck c m (keptOf l.st) 0 (l.valid &&& m.mask) l
    else
      let st' : LSt := if l.st = .e then .s else .o
      (set (s.ownerData c m (l.valid &&& m.mask) l false) { l with st := st' }).invAck c m (keptOf st') 0 0 l
  | .e, .fwdGetM | .o, .fwdGetM | .m, .fwdGetM => (set (s.ownerData c m l.valid l true) l.gone).invAck c m 0 0 0 l
  | .e, .inv => if owner then (set s l.gone).invAck c m 0 0 0 l else (s.l1Error c).answerI c m
  | .o, .inv | .m, .inv =>
    if owner then (set s l.gone).invAck c m 0 0 l.dirty l else (s.l1Error c).answerI c m
  | .miP, .fwdGetS | .oiP, .fwdGetS | .eiP, .fwdGetS =>
    if m.has Msg.fSNP then s.invAck c m (keptOf l.st) put (l.valid &&& m.mask) l
    else (set (s.ownerData c m (l.valid &&& m.mask) l false) { l with st := .iiP }).invAck c m 0 put 0 l
  | .miP, .fwdGetM | .oiP, .fwdGetM | .eiP, .fwdGetM =>
    (set (s.ownerData c m l.valid l true) { l with st := .iiP }).invAck c m 0 put 0 l
  | .miP, .inv | .oiP, .inv | .eiP, .inv =>
    if owner then (set s { l with st := .iiP }).invAck c m 0 put l.dirty l else (s.l1Error c).answerI c m
  | .xiP, .fwdGetS | .xiP, .fwdGetM =>
    let f := put + 2 ^ Msg.fEBB
    if m.has Msg.fSNP then s.invAck c m 0 f m.mask {} else (s.ownerData c m m.mask {} false).invAck c m 0 f 0 {}
  | .xiP, .inv => if owner then s.invAck c m 0 (put + 2 ^ Msg.fEBB) 0 {} else (s.l1Error c).answerI c m
  | .s, .inv =>
    -- OWNER meets a sharer in the broadcast of R277 alone: it is an invalidation there (DEDUCED, log entry 75)
    let s := s.modCore c (fun k => { k with
      reqs := k.reqs.map (fun r => if r.line = m.line then { r with stale := true } else r) })
    (set s l.gone).invAck c m 0 0 0 {}
  | .s, _ | .siP, .fwdGetS | .siP, .fwdGetM | .smG, .fwdGetS | .smG, .fwdGetM => (s.l1Error c).answerI c m
  | .siP, .inv | .isD, .inv | .isDI, .inv | .imD, .inv => s.invAck c m 0 0 0 {}
  | .omG, .inv => (s.l1Error c).answerI c m
  | _, _ => s.answerI c m

/-- Whether a message waits for the awaited data (R268). -/
def Core.defers (k : Core) (m : Msg) : Bool :=
  let l := k.line m.line
  let fwd := m.ty = .fwdGetS || m.ty = .fwdGetM || (m.ty = .inv && m.has Msg.fOWNER)
  fwd && ([LSt.isD, .isDI, .imD, .omG].contains l.st ||
    ([LSt.e, .o, .m].contains l.st && !(k.lineMisses m.line).isEmpty))

/-- R272: an upgrade that an Inv overtakes is served as a GetM: the sectors go, the store bytes stay, and what the upgrade
asked for comes with its grant; a fill under way for another sector is used once (R271). -/
def Core.loseShared (k : Core) (line : Nat) : Core :=
  let l := k.line line
  let regs := k.lineMisses line
  let excl := regs.filter (fun r => bit (k.exclMask line) (r.sector % 4) || r.bufMask != 0)
  let keep : Mem := regs.foldl (fun d r => (List.range 32).foldl (fun d i =>
    if bit r.bufMask i then d.write (32 * (r.sector % 4) + i) (r.buf.read i) else d) d) []
  { k.setLine line { l with st := .imD, valid := 0, dirty := 0, poison := 0, data := keep, tag := none } with
    miss := k.miss.map (fun r => if excl.any (fun x => x.sector == r.sector) then
      { r with got := none, gotOwner := false, fetch := r.bufMask != 2 ^ 32 - 1 } else r)
    reqs := k.reqs.map (fun r => if r.line = line && r.ty = .getS then
      { r with stale := true, mask := excl.foldl (fun m x => setBits m (x.sector % 4) (x.sector % 4) 0) r.mask } else r) }

/-- A forward or invalidation arrives. -/
def State.onForward (s : State) (c : Nat) (m : Msg) : State :=
  let k := s.core c
  let l := k.line m.line
  if k.defers m then s.modCore c (fun k => k.setLine m.line { l with deferred := some m })
  else if m.ty = .inv then
    match l.st with
    | .isD => (s.modCore c (fun k => k.setLine m.line { l with st := .isDI })).answer c m
    | .smG => (s.modCore c (fun k => k.loseShared m.line)).invAck c m 0 0 0 {}
    | _ => s.answer c m
  else s.answer c m

/-- Once a line's fills are served: the deferred message, then a waiting ebb (R268, Table 9-8), then a running L1_MAINT. -/
def State.settleLine (s : State) (c line : Nat) : State :=
  let k := s.core c
  let l := k.line line
  if !(k.lineMisses line).isEmpty || [LSt.isD, .isDI, .imD, .smG, .omG].contains l.st then s
  else
    let s := match l.deferred with
      | some m => (s.modCore c (fun k => k.setLine line { l with deferred := none })).answer c m
      | none => s
    let l := (s.core c).line line
    if l.ebbBy && (stable l.st || l.st = .i) && !(s.core c).asked line then
      (s.modCore c (fun k => k.setLine line { l with ebbBy := false })).ebbLine c line
    else s.maintLine c line

/-! ### Data -/

/-- Put arriving sectors into their miss registers; an owner's copy replaces the home's (R262). -/
def Core.gather (k : Core) (m : Msg) (want : Nat) : Core :=
  let owner := m.has Msg.fFROMOWNER
  let secs := ((secsOfMask m.mask).zipIdx).filter (fun p => bit want p.1)
  { k with miss := k.miss.map (fun r =>
      match secs.find? (fun p => 4 * m.line + p.1 == r.sector) with
      | none => r
      | some (i, n) =>
        if r.gotOwner && !owner then r
        else { r with got := some ((m.data.drop (32 * n)).take 32), gotOwner := owner, poison := bit m.poison i,
                      dirty := owner && bit m.dirty i }) }

/-- What a former owner hands over with a line that is to be M (R262): every sector it holds. Those that no miss register waits
for go into the line, dirty where the owner's were; older fills of any of them are not wanted any more. -/
def Core.takeSpare (k : Core) (m : Msg) : Core :=
  let l := k.line m.line
  let spare := ((secsOfMask m.mask).zipIdx).filter (fun p => !k.miss.any (fun r => r.sector == 4 * m.line + p.1))
  { k.setLine m.line (spare.foldl (fun l p => { l with
      data := l.data.writeBytes (32 * p.1) ((m.data.drop (32 * p.2)).take 32), valid := l.valid ||| 2 ^ p.1
      dirty := if bit m.dirty p.1 then l.dirty ||| 2 ^ p.1 else l.dirty
      poison := setBits l.poison p.1 p.1 (boolNat (bit m.poison p.1)) }) l) with
    reqs := k.reqs.map (fun r => if r.line = m.line && r.ty = .getS then { r with mask := r.mask &&& (15 - m.mask % 16) } else r) }

/-- Miss registers that wait for a line held in M. -/
def Core.wantsM (k : Core) (r : MissReg) : Bool :=
  r.waiters.any (fun id => match k.opOf id with | some o => o.kind != .load | none => false)

/-- Both parts are in: the line takes its state and its sectors are ready to be written (R232, R271). -/
def State.grantLine (s : State) (c : Nat) (r : L1Req) : State :=
  let k := s.core c
  let l := k.line r.line
  let excl := 3 ≤ r.grant
  let inMask : MissReg → Bool := fun m => m.sector / 4 == r.line && bit r.mask (m.sector % 4)
  if r.ty = .getS then
    let once := r.ghost || r.stale || l.st = .i || (l.st = .isDI && !excl)
    let st : LSt := match l.st with
      | .isD => if r.grant = 4 then .m else if r.grant = 3 then .e else if once then .i else .s
      | .isDI => if r.grant = 4 then .m else if r.grant = 3 then .e else .i
      | x => x
    s.modCore c (fun k =>
      let k := k.setLine r.line (if st = .i then l.gone else { l with st := st })
      { k with miss := k.miss.map (fun m =>
          if inMask m then
            if once && k.wantsM m then { m with got := none, gotOwner := false }
            else { m with ready := true, once := once, ghost := r.ghost }
          else m) })
  else
    s.modCore c (fun k =>
      let k := k.setLine r.line { l with st := .m }
      { k with
        miss := k.miss.map (fun m =>
          if m.sector / 4 = r.line && (m.got.isSome || !m.fetch || bit l.valid (m.sector % 4)) then { m with ready := true } else m)
        ops := k.ops.map (fun o => if o.kind = .near && (k.lineMisses r.line).any (fun m => m.waiters.contains o.id) then
          { o with cont := if r.cont then r.line :: o.cont else o.cont } else o) })

/-- Data or DataExcl arrives at a core. Without a request it is discarded from I and an error elsewhere (R278), as is an
owner's copy where the core is itself the owner. -/
def State.onData (s : State) (c : Nat) (m : Msg) : State :=
  let st := ((s.core c).line m.line).st
  match (s.core c).reqs.find? (fun r => r.txn == m.txn && r.line == m.line) with
  | none => if st = .i then s else s.l1Error c
  | some r =>
    if putPending st && r.ty != .snoopRd then
      (s.l1Error c).modCore c (fun k => { k with reqs := k.reqs.filter (fun q => q.txn != m.txn) })
    else if st = .omG && m.has Msg.fFROMOWNER && r.ty != .snoopRd then s.l1Error c
    else if r.ty = .snoopRd then
      let secs := (secsOfMask m.mask).zipIdx
      let s := s.modCore c (fun k => { k with reqs := k.reqs.filter (fun q => q.txn != m.txn) })
      let s := s.modCore c (fun k => match k.opOf r.op with
        | some o => k.setOp (secs.foldl (fun o p => o.deliver (4 * m.line + p.1) ((m.data.drop (32 * p.2)).take 32)
            (bit m.poison p.1) (m.has Msg.fGHOST)) o)
        | none => k)
      (s.checkOp c r.op).serve c
    else
      let owner := m.has Msg.fFROMOWNER
      let r := if owner then { r with ownerIn := true }
        else { r with homeIn := true, fwd := m.has Msg.fFWD, grant := m.aux, cont := r.cont || (m.ty = .dataExcl && m.has Msg.fCONT),
                      ghost := m.has Msg.fGHOST && m.ty = .data }
      let all := owner && r.ty != .getS
      let s := s.modCore c (fun k =>
        let k := (if all then k.takeSpare m else k).gather m (if all then 15 else r.mask)
        { k with reqs := k.reqs.map (fun q => if q.txn = r.txn then r else q) })
      let s := if owner && m.tag.isSome then
          s.modCore c (fun k => k.setLine m.line { k.line m.line with tag := m.tag })
        else s
      if r.homeIn && (!r.fwd || r.ownerIn) then
        let s := s.modCore c (fun k => { k with reqs := k.reqs.filter (fun q => q.txn != r.txn) })
        (s.grantLine c r).settleLine c m.line
      else s

/-! ### Fills (R232) -/

/-- One waiter served from a line's sector. -/
def State.serveWaiter (s : State) (c line sec id : Nat) : State :=
  match (s.core c).opOf id with
  | none => s
  | some o =>
    let l := (s.core c).line line
    match o.kind with
    | .load => s.modCore c (fun k => k.setOp (o.deliver (4 * line + sec) (l.data.readBytes (32 * sec) 32) (bit l.poison sec) false))
    | .near => s.nearExec c o line sec
    | _ =>
      let tag := o.relTag c
      s.modCore c (fun k =>
        (k.setLine line { l with dirty := l.dirty ||| 2 ^ sec, tag := tag }).setOp { o with left := sdel (4 * line + sec) o.left })

/-- R240: an injected error that the check of a miss register's store buffer meets; whether its bytes are lost. -/
def State.storeBufCheck (s : State) (c : Nat) (m : MissReg) : Bool × State :=
  if m.bufMask = 0 || m.once then (false, s)
  else if s.armed clsCore (s.corePage c) 1 then
    (true, ((s.disarm clsCore (s.corePage c)).l1ErrRecord c 4 (32 * m.sector)).l1Event c true)
  else if s.armed clsCore (s.corePage c) 0 then (false, s.l1Corrected c)
  else (false, s)

/-- A sector's data is written into the line and delivered. -/
def State.fillSector (s : State) (c sector : Nat) : State :=
  let k := s.core c
  match k.missOf sector with
  | none => s
  | some m =>
    if !m.ready then s
    else
      let line := sector / 4
      let i := sector % 4
      let ids := m.waiters
      let r := s.storeBufCheck c m
      let (lost, s) := r
      let s := if m.once then
          let bs := m.got.getD (List.replicate 32 0)
          ids.foldl (fun s id => s.modCore c (fun k => match k.opOf id with
            | some o => k.setOp (o.deliver sector bs m.poison m.ghost)
            | none => k)) (s.modCore c (fun k => k.freeMiss sector))
        else
          let l := k.line line
          let whole := m.bufMask == 2 ^ 32 - 1
          let data := match m.got with
            | some bs => (List.range 32).foldl (fun d j => if bit m.bufMask j then d else d.write (32 * i + j) (bs.getD j 0)) l.data
            | none => l.data
          let bitOf : Nat → Bool → Nat := fun v b => if b then v ||| 2 ^ i else v
          let valid := bitOf l.valid (m.got.isSome || whole)
          let poison := if lost then l.poison ||| 2 ^ i else if whole then setBits l.poison i i 0 else if m.got.isSome then setBits l.poison i i (boolNat m.poison) else l.poison
          let dirty := bitOf l.dirty (l.st = .m && (m.dirty || m.bufMask != 0))
          let s := s.modCore c (fun k => k.setLine line { l with data := data, valid := valid, poison := poison, dirty := dirty, ref := true })
          let later := if l.st = .m then [] else ids.filter (fun id => match k.opOf id with | some o => o.kind != .load | none => false)
          let now := ids.filter (fun id => !later.contains id)
          let s := s.modCore c (fun k => if later.isEmpty then k.freeMiss sector
            else k.setMiss { m with waiters := later, got := none, ready := false, fetch := false })
          now.foldl (fun s id => s.serveWaiter c line i id) s
      let s := ids.foldl (fun s id => s.checkOp c id) s
      (s.settleLine c line).serve c

/-- SECTOR_FILL: an arrived sector of a core is written and its waiters are served. -/
def execSectorFill (core sector : Nat) (s : State) : Host.Outcome State Fault Refusal := .next (s.fillSector core sector)

/-- REPLAY_QUEUE_SERVE (R231): the oldest access tries again. -/
def execReplayQueueServe (core : Nat) (s : State) : Host.Outcome State Fault Refusal :=
  match (s.core core).replay with
  | [] => .next s
  | r :: rest =>
    let s' := s.modCore core (fun k => { k with replay := rest })
    let q := s'.enterLine core r.op r.line
    if q.2 = .done then .next ((q.1.checkOp core r.op).serve core)
    else .next (q.1.modCore core (fun k => { k with replay := r :: rest }))

/-! ### Messages to a core -/

def execFwdGetS (m : Msg) (s : State) : Host.Outcome State Fault Refusal :=
  match s.takeFor m .fwdGetS with | none => .next s | some s => .next (s.onForward m.dst m)
def execFwdGetM (m : Msg) (s : State) : Host.Outcome State Fault Refusal :=
  match s.takeFor m .fwdGetM with | none => .next s | some s => .next (s.onForward m.dst m)
def execInv (m : Msg) (s : State) : Host.Outcome State Fault Refusal :=
  match s.takeFor m .inv with | none => .next s | some s => .next (s.onForward m.dst m)
def execData (m : Msg) (s : State) : Host.Outcome State Fault Refusal :=
  match s.takeFor m .data with | none => .next s | some s => .next (s.onData m.dst m)
def execDataExcl (m : Msg) (s : State) : Host.Outcome State Fault Refusal :=
  match s.takeFor m .dataExcl with | none => .next s | some s => .next (s.onData m.dst m)

/-- PutAck: the way of a line that waits for it is free, and an ebb that met the Put is made now (Table 9-8); otherwise it is
discarded. -/
def execPutAck (m : Msg) (s : State) : Host.Outcome State Fault Refusal :=
  match s.takeFor m .putAck with
  | none => .next s
  | some s =>
    let l := (s.core m.dst).line m.line
    if putPending l.st then
      let s := s.modCore m.dst (fun k => k.setLine m.line {})
      .next (if l.ebbBy then s.ebbLine m.dst m.line else s)
    else if l.st = .i then .next s
    else .next (s.l1Error m.dst)

/-- Nack (R259): the request will be sent again. -/
def execNack (m : Msg) (s : State) : Host.Outcome State Fault Refusal :=
  match s.takeFor m .nack with
  | none => .next s
  | some s =>
    if (s.core m.dst).reqs.any (fun r => r.txn == m.txn && r.line == m.line) then
      .next (s.modCore m.dst (fun k => { k with
        reqs := k.reqs.map (fun r => if r.txn = m.txn && r.line = m.line then { r with nacked := true, nacks := r.nacks + 1 } else r) }))
    else .next (s.l1Error m.dst)

/-- NACK_RESEND: the wait of a refused request has ended; from the eighth Nack on it carries PRIO. -/
def execNackResend (node txn : Nat) (s : State) : Host.Outcome State Fault Refusal :=
  match (s.core node).reqs.find? (fun r => r.txn == txn && r.nacked) with
  | none => .next s
  | some r =>
    let m := if 8 ≤ r.nacks then { r.msg with flags := r.msg.flags ||| 2 ^ Msg.fPRIO } else r.msg
    .next ((s.modCore node (fun k => { k with
      reqs := k.reqs.map (fun q => if q.txn = txn then { q with nacked := false } else q) })).send m)

/-- AtomResp: old values by member, or the end of a write; the predictor moves (R209). A core's write of a commons line is
always refused, and PROTECT is recorded against its group (R265). -/
def execAtomResp (m : Msg) (s : State) : Host.Outcome State Fault Refusal :=
  match s.takeFor m .atomResp with
  | none => .next s
  | some s =>
    let c := m.dst
    match (s.core c).reqs.find? (fun r => r.txn == m.txn && r.line == m.line) with
    | none => .next s
    | some r =>
      let s := s.modCore c (fun k => { k with reqs := k.reqs.filter (fun q => q.txn != r.txn) })
      match (s.core c).opOf r.op with
      | none => .next s
      | some o =>
        let pa := r.line * 128 + r.msg.offset
        let key := if o.kind = .bypStore then r.line else pa
        let olds := (o.spread r.threads m.ops).foldl (fun l p => minsert p.1 p.2 (merase l p.1)) o.olds
        let s := s.modCore c (fun k => k.setOp { o with left := sdel key o.left, olds := if m.ops.isEmpty then o.olds else olds })
        let up := m.has 0
        let s := if o.predicted && !o.acc.any Access.wt then
            (s.modCore c (fun k => k.movePred pa up)).kcount c Ev.CORE_PRED_WRONG (boolNat !up) else s
        let s := if m.commons && o.kind == .bypStore && !o.orphaned then s.takeFaultAt c o.slot o.pc Flt.protect 0 else s
        .next ((s.checkOp c o.id).serve c)

end Sys2Proof.Machine
end

