-- ==== Sys2Proof/Machine/Matrix.lean ====
section
/-! DEFINITION. The matrix instructions (R107, R118 to R146): regions, operands, and the queue. -/

namespace Sys2Proof.Machine

/-! ### Issue -/

/-- The qualifier of an instruction that takes rounding and overflow modes, and of one that takes none. -/
def modeQual (i : Ins) : Bool := rmodeOk i.q && satmOk i.q && bits i.q 7 6 == 0 && bits i.q 0 0 == 0

/-- R132, R133: an instruction inside a matrix region. -/
def regionFaults (z : Iss) : List (Nat × Nat) :=
  match z.g.region with
  | none => [(Flt.mxRegion, 0)]
  | some m => if m = z.g.m0 then [] else [(Flt.mxDiverge, 0)]

/-- R126: only the owner may name a tile. -/
def tileFaults (z : Iss) (t : Nat) : List (Nat × Nat) :=
  if z.l.tileClass t ≠ 0 ∧ z.l.tileOwner t = z.g.gid then [] else [(Flt.illegal, 0)]

/-- Queue entries in use (Table 5-9); the codes 9 to 15 of QDEPTH, which the table does not give, act as 8 (DESIGN CHOICE,
log entry 70). -/
def State.mxDepth (s : State) (c : Nat) : Nat :=
  let n := s.kfld c R.MX_CTL_QDEPTH
  if 1 ≤ n && n ≤ 8 then n else 8

/-- What an accepted matrix instruction would clash with, then room in the unit's queue (R140, R141, R164). -/
def mxHold (s : State) (z : Iss) (rd wr : List (Nat × Nat)) : Hold :=
  match (s.core z.core).mxClash z.slot rd wr with
  | .none => if s.mxDepth z.core ≤ (s.core z.core).mxq.length then .matrix else .none
  | h => h

/-- MX_QUEUE_FULL counts a presentation that only the full queue refuses. -/
def mxFull (s : State) (z : Iss) (rd wr : List (Nat × Nat)) : State :=
  if (s.core z.core).mxClash z.slot rd wr = .none then s.kcount z.core Ev.CORE_MX_QUEUE_FULL 1 else s

def State.mxAccept (s : State) (z : Iss) (k : MxKind) (rd wr : List (Nat × Nat)) : State :=
  s.modCore z.core (fun c => { c with
    mxq := c.mxq ++ [{ slot := z.slot, blk := z.g.blk, pc := z.g.pc, kind := k, rd := rd, wr := wr }] })

/-- A form that uses no guard, no extension word, and only the fields given. -/
def plainForm (i : Ins) (legal : Bool) (ops : List Opnd) : Form := { legal := i.guardOk false && !i.lg && legal, ops := ops }

def execMxBegin (i : IWord) (s : State) : Host.Outcome State Fault Refusal :=
  .next (s.issue i (2, 0x000) {
    form := fun z => plainForm z.i (z.i.t == 0 && z.i.q == 0)
      [⟨.zero, z.i.d, false⟩, ⟨.zero, z.i.a, false⟩, ⟨.zero, z.i.b, false⟩, ⟨.zero, z.i.c, false⟩]
    faults := fun _ z => if z.g.region.isSome then [(Flt.mxRegion, 0)] else []
    effect := fun s z => s.modGroup z.core z.slot (fun g => { g with region := some z.g.m0 }) })

/-- `mx.end` holds until the group's matrix instructions have finished (R142). -/
def execMxEnd (i : IWord) (s : State) : Host.Outcome State Fault Refusal :=
  .next (s.issue i (2, 0x001) {
    form := fun z => plainForm z.i (z.i.t == 0 && z.i.q == 0)
      [⟨.zero, z.i.d, false⟩, ⟨.zero, z.i.a, false⟩, ⟨.zero, z.i.b, false⟩, ⟨.zero, z.i.c, false⟩]
    faults := fun _ z => regionFaults z
    hold := fun s z => if (s.core z.core).mxq.any (fun e => e.slot == z.slot) then .matrix else .none
    effect := fun s z => s.modGroup z.core z.slot (fun g => { g with region := none }) })

def Ins.mma (i : Ins) : Option MmaW :=
  match i.ty, Fmt.ofCode (i.c % 16) with
  | some a, some b => (mxPair a b).map (fun g => { ta := a, tb := b, grp := g, la := bit i.c 4, lb := bit i.c 5, sc := bit i.c 6 })
  | _, _ => none

/-- Where an operand lies: a scratchpad offset or a slot number. -/
def operandLoc (land : Bool) (v : Nat) : Nat := if land then v % 256 else off128 v

/-- The operands of an `mma`: from a landing slot or not, location, bytes. -/
def MmaW.parts (w : MmaW) (z : Iss) : List (Bool × Nat × Nat) :=
  [(w.la, operandLoc w.la (z.g.rs z.i.a), w.aBytes), (w.lb, operandLoc w.lb (z.g.rs z.i.b), w.bBytes)]
  ++ (if w.sc then [(w.la, operandLoc w.la (z.g.rs (z.i.a + 1)), w.scBytes), (w.lb, operandLoc w.lb (z.g.rs (z.i.b + 1)), w.scBytes)]
      else [])

/-- The scratchpad ranges among some operands. -/
def partRanges (l : List (Bool × Nat × Nat)) : List (Nat × Nat) := l.filterMap (fun p => if p.1 then none else some p.2)

/-- Faults of operands that are read (Table 5-8). Where two operands leave the reserved slots, FAULT_ADDR takes the lower of
their first such slots (DESIGN CHOICE, log entry 70). -/
def partFaults (s : State) (z : Iss) (l : List (Bool × Nat × Nat)) : List (Nat × Nat) :=
  let k := s.core z.core
  let b := k.block z.g.blk
  let sp := l.filter (fun p => !p.1)
  let slots := partSlots l
  let range := sp.flatMap (fun p => rangeFault b.spLen p.2.1 p.2.2)
  let land := k.landFault slots
  (match minimumNat (range.map Prod.snd) with | some a => [(Flt.spRange, a)] | none => [])
  ++ (match minimumNat (land.map Prod.snd) with | some a => [(Flt.landRange, a)] | none => [])
  ++ (if range.isEmpty then (s.spMarkFaults z.core (sp.map (fun p => (b.spOff + p.2.1, p.2.2)))).filter (fun f => f.1 == Flt.poison) else [])
  ++ (if land.isEmpty && k.landed slots then k.landPoison slots else [])

def execMma (i : IWord) (s : State) : Host.Outcome State Fault Refusal :=
  .next (s.issue i (2, 0x010) {
    form := fun z =>
      let sc := bit z.i.c 6
      plainForm z.i (!bit z.i.c 7 && (match z.i.mma with
          | none => false
          | some w => (!w.sc || w.grp.scalable) && (if w.grp == .fp64 then modeQual z.i else z.i.q == 0)))
        [⟨.acc, z.i.d, true⟩, ⟨.s (if sc then 2 else 1), z.i.a, false⟩, ⟨.s (if sc then 2 else 1), z.i.b, false⟩, ⟨.raw, z.i.c, false⟩]
    faults := fun s z => match z.i.mma with
      | none => []
      | some w =>
        tileFaults z z.i.d ++ (if classAccepts (z.l.tileClass z.i.d) w.grp w.sc then [] else [(Flt.illegal, 0)])
          ++ regionFaults z ++ partFaults s z (w.parts z)
    hold := fun s z => match z.i.mma with
      | none => .none
      | some w =>
        let slots := partSlots (w.parts z)
        match slots.find? (fun n => (((s.core z.core).slot n).st != 2)) with
        | some n => .landing n
        | none => mxHold s z (partRanges (w.parts z)) []
    held := fun s z => match z.i.mma with
      | none => s
      | some w =>
        let slots := partSlots (w.parts z)
        if (s.core z.core).landed slots then mxFull s z (partRanges (w.parts z)) [] else s.beginWait z.core z.l.tide slots
    effect := fun s z => match z.i.mma with
      | none => s
      | some w => s.mxAccept z (.mma w.ta w.tb z.i.d (operandLoc w.la (z.g.rs z.i.a)) (operandLoc w.lb (z.g.rs z.i.b)) w.la w.lb
          (if w.sc then some (operandLoc w.la (z.g.rs (z.i.a + 1))) else none)
          (if w.sc then some (operandLoc w.lb (z.g.rs (z.i.b + 1))) else none) (rmodeOf z.l z.i.q) (satmOf z.l z.i.q))
          (partRanges (w.parts z)) [] })

/-- Drain destinations (Table 5-5). -/
def drainTypes (f : Fmt) : Bool := [Fmt.fp64, .fp32, .int32, .fp16, .bf16, .e5m2, .e4m3, .int8, .wes].contains f

/-- The bytes a drain writes. -/
def Iss.drainRange (z : Iss) : Nat × Nat :=
  let r := classRows (z.l.tileClass z.i.a)
  (off128 (z.g.rs z.i.d), r * r * ((z.i.ty).getD .int8).width / 8)

def execMxDrain (i : IWord) (s : State) : Host.Outcome State Fault Refusal :=
  .next (s.issue i (2, 0x020) {
    form := fun z => plainForm z.i (modeQual z.i && (match z.i.ty with
        | some f => drainTypes f && !(bits z.i.q 2 1 == 2 && f.isInt)
        | none => false))
      [⟨.s 1, z.i.d, false⟩, ⟨.acc, z.i.a, false⟩, ⟨.zero, z.i.b, false⟩, ⟨.zero, z.i.c, false⟩]
    faults := fun s z =>
      tileFaults z z.i.a ++ regionFaults z ++ rangeFault (s.blockOf z.core z.slot).spLen z.drainRange.1 z.drainRange.2
    hold := fun s z => mxHold s z [] [z.drainRange]
    held := fun s z => mxFull s z [] [z.drainRange]
    effect := fun s z =>
      let f := (z.i.ty).getD .int8
      s.mxAccept z (.drain z.i.a (off128 (z.g.rs z.i.d)) f (rmodeOf z.l z.i.q) (satmFor z.l z.i.q f)) [] [z.drainRange] })

def execMxZero (i : IWord) (s : State) : Host.Outcome State Fault Refusal :=
  .next (s.issue i (2, 0x021) {
    form := fun z => plainForm z.i (z.i.t == 0 && z.i.q == 0)
      [⟨.acc, z.i.d, true⟩, ⟨.zero, z.i.a, false⟩, ⟨.zero, z.i.b, false⟩, ⟨.zero, z.i.c, false⟩]
    faults := fun _ z => tileFaults z z.i.d ++ regionFaults z
    hold := fun s z => mxHold s z [] []
    held := fun s z => mxFull s z [] []
    effect := fun s z => s.mxAccept z (.zero z.i.d) [] [] })

/-- The bytes of a tile's image at the offset a save or a load names. -/
def Iss.imageRange (z : Iss) : Nat × Nat := (off128 (z.g.rs z.i.a), tileBytes (z.l.tileClass z.i.d))

/-- `mx.save` and `mx.load` share an opcode and differ in C (Table 4-7). -/
def saveMeaning (load : Bool) : Meaning := {
  form := fun z => plainForm z.i (z.i.t == 0 && z.i.q == 0 && z.i.c == boolNat load)
    [⟨.acc, z.i.d, load⟩, ⟨.s 1, z.i.a, false⟩, ⟨.zero, z.i.b, false⟩, ⟨.raw, z.i.c, false⟩]
  faults := fun s z =>
    let b := s.blockOf z.core z.slot
    let (o, n) := z.imageRange
    let range := rangeFault b.spLen o n
    tileFaults z z.i.d ++ regionFaults z ++ range
      ++ (if load && range.isEmpty then (s.spMarkFaults z.core [(b.spOff + o, n)]).filter (fun f => f.1 == Flt.poison) else [])
  hold := fun s z => mxHold s z (if load then [z.imageRange] else []) (if load then [] else [z.imageRange])
  held := fun s z => mxFull s z (if load then [z.imageRange] else []) (if load then [] else [z.imageRange])
  effect := fun s z =>
    if load then s.mxAccept z (.load z.i.d z.imageRange.1) [z.imageRange] []
    else s.mxAccept z (.save z.i.d z.imageRange.1) [] [z.imageRange] }

def execMxSave (i : IWord) (s : State) : Host.Outcome State Fault Refusal :=
  .next (if (insOf i).c = 1 then s else s.issue i (2, 0x022) (saveMeaning false))
def execMxLoad (i : IWord) (s : State) : Host.Outcome State Fault Refusal :=
  .next (if (insOf i).c = 1 then s.issue i (2, 0x022) (saveMeaning true) else s)

/-! ### The end of an execute stage -/

/-- The tile an instruction names. -/
def MxKind.tile : MxKind → Nat
  | .mma _ _ t .. => t
  | .drain t .. => t
  | .zero t => t
  | .save t _ => t
  | .load t _ => t

/-- The scratchpad bytes of a block that an instruction reads during F, as ranges of the array, and whether it reads any
operand bytes at all (an `mma` may take all of them from slots). -/
def MxEntry.fetches (e : MxEntry) : Bool :=
  match e.kind with
  | .mma .. => true
  | .load .. => true
  | _ => false

/-- MX_EXECUTE_END: the oldest accepted instruction ends its execute stage (R140). An injected uncorrectable error is found
by it (R146): UNCORR against the instruction, in the accumulator store, recorded in MX_ACC_ERR, or in the operand bytes met
during F, recorded in L1_ERR. Which of the two, and where, is free. -/
def execMxExecuteEnd (core : Nat) (s : State) : Host.Outcome State Fault Refusal :=
  match (s.core core).mxq with
  | [] => .next s
  | e :: rest =>
    let s := s.modCore core (fun k => { k with mxq := rest })
    let p := s.corePage core
    if s.armed clsCore p 1 then
      let (place, s) := (s.disarm clsCore p).draw 2
      if place = 1 && e.fetches then
        let (at_, s) := s.draw 655360
        .next (((s.l1ErrRecord core 3 at_).coreUncorr core 0x220 true).takeFaultAt core e.slot e.pc Flt.uncorr 0)
      else
        let (row, s) := s.draw 64
        let (col, s) := s.draw 64
        let s := (s.kcount core Ev.CORE_ACC_UNCORR 1).record clsCore p 1 R.MX_ACC_ERR_VALID
          [(R.MX_ACC_ERR_TILE, e.kind.tile), (R.MX_ACC_ERR_ROW, row), (R.MX_ACC_ERR_COL, col)]
        .next ((s.coreUncorr core 0x318 true).takeFaultAt core e.slot e.pc Flt.uncorr 0)
    else .next (s.runMx core e)

end Sys2Proof.Machine
end

