-- ==== Sys2Proof/Machine/Block.lean ====
section
/-! DEFINITION. Blocks: placement, the end of groups, blocks and launches, the change of the array split
(R62 to R66, R81, R125, R127, R218 to R223, R376, R377, R384, R599). -/

namespace Sys2Proof.Machine

/-! ### The end of a tide domain's run -/

/-- R384: the launches of a running domain have ended and every table has been issued and has landed. -/
def State.tideDone (s : State) (slot : Nat) : State :=
  let d := s.dom slot
  match d.cmd with
  | none => s
  | some (x, q, i) => match s.cmdAt x q i with
    | none => s
    | some k =>
      if d.st = 3 && k.blocksLeft = 0 && d.tables.all (fun t => decide (t.count ≤ t.delivered)) then
        let hs := s.holdCmds slot
        let s := (s.modDom slot Dom.loaded).modCtx d.ctx (fun x => { x with stopping := false, bySw := x.bySw && hs.isEmpty })
        (hs.foldl (fun s j => s.fail j Sta.state Rsn.domainState 0) s).finish k 0
      else s

/-! ### The end of groups, blocks and launches -/

/-- One block of a launch has ended. -/
def State.launchBlockDone (s : State) (l : Launch) : State :=
  match l.tide with
  | none => match s.cmdOfSeq l.cmd with
    | none => s
    | some k =>
      let k := { k with blocksLeft := k.blocksLeft - 1 }
      if k.blocksLeft = 0 then s.finish k 0 else s.setCmd k
  | some d => match (s.dom d).cmd with
    | none => s
    | some (x, q, i) => match s.cmdAt x q i with
      | none => s
      | some k => (s.setCmd { k with blocksLeft := k.blocksLeft - 1 }).tideDone d

/-- A block leaves its core; with the last one of the launches that share it the landing area is withdrawn (R218, R377). A core
that frees calls the scheduler (R476). -/
def State.endBlock (s : State) (c b : Nat) : State :=
  let k := s.core c
  let l := (k.block b).launch
  let k := { k with blocks := merase k.blocks b }
  let s := (if k.keepsLand then s.setCore c k else (s.setCore c k.settleLand).dropCredits c).launchBlockDone l
  if k.blocks.isEmpty then s.coresFreed l.cove else s

/-- The occupied groups of a block. -/
def Core.groupsOf (k : Core) (b : Nat) : List (Nat × Group) := k.groups.filter (fun p => p.2.occupied && p.2.blk == b)

/-- R80: the barrier completes when every group of the block that has live threads has arrived. -/
def Core.checkBarrier (k : Core) (b : Nat) : Core :=
  let x := k.block b
  if !x.arrived.isEmpty && (k.groupsOf b).all (fun p => x.arrived.contains p.1) then
    x.arrived.foldl (fun k g => k.modGroup g (fun r => { r with hold := .none })) (k.setBlock b { x with arrived := [] })
  else k

/-- R59, R75: a group's last thread has exited. -/
def State.endGroup (s : State) (c g : Nat) : State :=
  let b := (s.group c g).blk
  let s := s.modCore c (fun k => (k.setGroup g {}).checkBarrier b)
  let s := { s with pw := { s.pw with hint := s.pw.hint.filter (fun h => !(h.1 == c && h.2.1 == g)) } }
  if ((s.core c).groupsOf b).isEmpty then s.endBlock c b else s

/-! ### Placement -/

/-- The word of a slot that a slot table does not set (R376): QUOTA 1, OWNER 0xFFF. -/
def slotDefault : Nat := 0xFFF01

/-- The slot table of a launch on a core: a tide program's own, else the launch's. -/
def State.slotWords (s : State) (l : Launch) (c : Nat) : List (Nat × Nat) :=
  match l.tide with
  | none => l.slots
  | some d => match (s.dom d).slotTabs.find? (fun p => p.1 == c) with
    | some p => p.2
    | none => l.slots

/-- A slot as it is set up (R376): FREE. -/
def slotOf (w : Nat) : LandSlot := { quota := bits w 7 0, owner := bits w 19 8 }

/-- R218, R376: the landing slots of the first launch on a core are set up and send their credits. -/
def State.setupSlots (s : State) (c : Nat) (l : Launch) : State :=
  let ws := s.slotWords l c
  let s := s.modCore c (fun k => { k with
    landCount := l.land, landTab := l.slotTab
    land := (List.range l.land).foldl (fun m n => mset {} m n (slotOf (mget slotDefault ws n))) [] })
  (List.range l.land).foldl (fun s n => s.sendCredit c n) s

/-- Groups of a block. -/
def Launch.groups (l : Launch) : Nat := (l.threads + 63) / 64
def Launch.blocks (l : Launch) : Nat := l.gx * l.gy * l.gz

/-- Free slots and free registers per thread of a quarter. -/
def Core.quarterFree (k : Core) (q : Nat) : Nat × Nat :=
  let g := k.groups.filter (fun p => p.2.occupied && p.1 / 8 == q)
  (8 - g.length, 256 - (g.map (fun p => (k.block p.2.blk).launch.alloc)).sum)

/-- R65: the quarter with the most free slots that can hold the allocation, the lowest on a tie. -/
def pickQuarter (free : List (Nat × Nat)) (alloc : Nat) : Option Nat :=
  (List.range 4).foldl (fun r q =>
    let f := free.getD q (0, 0)
    if f.1 = 0 || f.2 < alloc then r
    else match r with
      | none => some q
      | some p => if (free.getD p (0, 0)).1 < f.1 then some q else r) none

/-- The quarters of a block's groups in ascending group index; none when some group does not fit. -/
def pickQuarters (alloc : Nat) : Nat → List (Nat × Nat) → Option (List Nat)
  | 0, _ => some []
  | n + 1, free => match pickQuarter free alloc with
    | none => none
    | some q =>
      let f := free.getD q (0, 0)
      (pickQuarters alloc n (free.set q (f.1 - 1, f.2 - alloc))).map (fun l => q :: l)

/-- R221: the lowest free offset of the scratchpad part for a region. -/
def Core.findRegion (k : Core) (top len : Nat) : Option Nat :=
  let rs := (k.blocks.map (fun p => (p.2.spOff, p.2.spLen))).filter (fun r => r.2 != 0)
  let ok := fun o => decide (o + len ≤ top) && rs.all (fun r => decide (o + len ≤ r.1) || decide (r.1 + r.2 ≤ o))
  minimumNat ((0 :: rs.map (fun r => r.1 + r.2)).filter ok)

/-- The bits of the threads below a count. -/
def firstThreads (n : Nat) : W64 := maskOf (fun i => decide (i < n))

/-- The lowest group slot of a quarter that holds no group. -/
def Core.freeSlot (k : Core) (q : Nat) : Nat :=
  ((List.range 8).find? (fun i => !(k.group (8 * q + i)).occupied)).getD 0 + 8 * q

/-- Place the groups of a block (R59, R62, R65). -/
def Core.placeGroups (k : Core) (l : Launch) (b : Nat) : Nat → List Nat → Core
  | _, [] => k
  | gid, q :: qs =>
    let live := firstThreads (l.threads - 64 * gid)
    let g : Group := { occupied := true, blk := b, gid := gid, quarter := q, age := k.placed, pc := l.code, live := live, m := mset 0 [] 0 live }
    Core.placeGroups { (k.setGroup (k.freeSlot q) g) with placed := k.placed + 1 } l b (gid + 1) qs

/-- A region as placement leaves it: zeros, no marks (R223). -/
def Core.clearRegion (k : Core) (a n : Nat) : Core :=
  let keep := fun x => !(decide (a ≤ 32 * x) && decide (32 * x < a + n))
  { k with sp := k.sp.clear a n, spPoison := k.spPoison.filter keep, spGhost := k.spGhost.filter keep }

/-- R81, R175: what a core invalidates when a command that places blocks on it starts there. -/
def Core.dropReadOnly (k : Core) : Core := { k with icache := {}, ccache := {}, dcache := {}, elBuf := [], elTab := [] }

/-- Whether a domain other than a launch's own reserves a core (R367). -/
def State.reservedFor (s : State) (c : Nat) (own : Option Nat) : Bool :=
  s.ns.doms.any (fun p => p.2.reserved && p.2.cores.contains c && own != some p.1)

/-- Whether a launch may start blocks now. -/
def State.mayPlace (s : State) (l : Launch) : Bool :=
  let x := s.ctx l.ctx
  x.st == 2 && !x.stopping && !x.saving && !x.restoring && !s.ra.lost &&
    (match l.tide with | some d => (s.dom d).st == 2 || (s.dom d).st == 3 | none => true)

/-- Where a block of a launch fits on a core: its groups' quarters and its region (R63, R65, R66, R127, R218, R221). -/
def Core.fits (k : Core) (l : Launch) : Option (List Nat × Nat) :=
  let alone := k.blocks.isEmpty
  let top := spPart l.split - up4k (l.land * 2048)
  let used := (k.blocks.map (fun p => p.2.launch.tileTotal)).sum
  if k.split ≠ l.split then none
  else if !alone && !(k.landCount == l.land && k.landTab == l.slotTab && k.blocks.all (fun p => p.2.launch.cove == l.cove)) then none
  else if 262144 < used + l.tileTotal then none
  else match pickQuarters l.alloc l.groups ((List.range 4).map k.quarterFree), k.findRegion top (up4k l.spBytes) with
    | some qs, some o => some (qs, o)
    | _, _ => none

/-- The lowest block number that no resident block has. -/
def Core.freeBlock (k : Core) : Nat :=
  ((List.range 33).find? (fun b => k.blocks.all (fun p => p.1 != b))).getD 33

/-- The command that counts a launch's blocks. -/
def State.cmdOfLaunch (s : State) (l : Launch) : Option Cmd :=
  match l.tide with
  | none => s.cmdOfSeq l.cmd
  | some d => match (s.dom d).cmd with
    | some (x, q, i) => s.cmdAt x q i
    | none => none

/-- Place one block of the launch at the head of a core's order. -/
def State.placeBlock (s : State) (c : Nat) (w : Pend) (rest : List Pend) (qs : List Nat) (o : Nat) : State :=
  let l := w.launch
  let k := s.core c
  let first := decide (w.next < w.stride)
  let alone := k.blocks.isEmpty
  let k := if first then k.dropReadOnly else k
  let b := k.freeBlock
  let len := up4k l.spBytes
  let k := k.setBlock b { launch := l, index := w.next, ngrp := l.groups, spOff := o, spLen := len, order := k.placed }
  let k := (k.clearRegion o len).placeGroups l b 0 qs
  let left := if w.left ≤ 1 then rest else { w with next := w.next + w.stride, left := w.left - 1 } :: rest
  let s := s.setCore c { k with waiting := left, maint := 0 }
  let s := if alone && k.landCount = 0 then s.setupSlots c l else s
  let s := (s.kcount c Ev.CORE_BLOCK_START 1).kcount c Ev.CORE_SP_CLEAR_CYCLES (len / 512)
  let s := s.kcount c Ev.CORE_GROUP_CLEAR_CYCLES (l.groups * (l.alloc / 8 * 2))
  match s.cmdOfLaunch l with
  | none => s
  | some j => if j.nodes.contains c then s else s.setCmd { j with nodes := j.nodes ++ [c] }

/-- BLOCK_START (R599): the head of a core's order is placed when it fits; it waits for a running L1_MAINT (R242). -/
def execBlockStart (core : Nat) (s : State) : Host.Outcome State Fault Refusal :=
  match (s.core core).waiting with
  | [] => .next s
  | w :: rest =>
    if s.maintBusy core then .next (s.maintAll core)
    else if !s.mayPlace w.launch || s.reservedFor core w.launch.tide || (mget ({} : Sleep) s.pw.sleep core).st ≠ 0 then .next s
    else match (s.core core).fits w.launch with
      | none => .next s
      | some (qs, o) => .next (s.placeBlock core w rest qs o)

/-- R219: the lines whose ways pass to scratchpad at a larger code. -/
def Core.passing (k : Core) (code : Nat) : List Nat :=
  ((k.l1.filter (fun p => p.2.st != .i && decide (24 - 4 * code ≤ p.2.way))).map Prod.fst)

/-- SPLIT_CHANGE (R219): a core without a resident block takes the split of the launch it is to place. A larger code
evicts the lines that stand in its way first; the change ends when their ways are free. -/
def execSplitChange (core : Nat) (s : State) : Host.Outcome State Fault Refusal :=
  let k := s.core core
  match k.waiting with
  | [] => .next s
  | w :: _ =>
    let n := w.launch.split
    if !k.blocks.isEmpty || k.split = n || s.maintBusy core || s.reservedFor core w.launch.tide then .next s
    else
      let s := s.evictLines core (k.passing n)
      if ((s.core core).passing n).isEmpty then
        .next (s.modCore core (fun k => { k with split := n, sp := [], spPoison := [], spGhost := [] }))
      else .next s

/-- A launch's blocks join the order of its cores (R64, R599): block b on entry b mod N of the list. -/
def State.enqueueLaunch (s : State) (l : Launch) : State :=
  let n := l.cores.length
  let t := l.blocks
  (List.range n).foldl (fun s j =>
    let cnt := (t + n - 1 - j) / n
    if cnt = 0 then s
    else s.modCore (l.cores.getD j 0) (fun k => { k with waiting := k.waiting ++ [{ launch := l, next := j, left := cnt, stride := n }] })) s

end Sys2Proof.Machine
end

