-- ==== Sys2Proof/Machine/Transcend.lean ====
section
/-! DEFINITION. The transcendental micro-ops of the element engine (R162, Table 6-7): square root and the exact cases,
the true value of every other case to far beyond FP32, and the bound about it within which a result is free. -/

namespace Sys2Proof.Machine

/-! ### Square root and the exact cases -/

/-- Square root of a finite positive value, rounded once to a format under RNE. -/
def sqrtVal (f : Fmt) (m e : Int) : Nat :=
  -- an even exponent with enough low bits, then a sticky bit
  let k : Nat := 260 + (if (e - 260) % 2 = 0 then 0 else 1)
  let n := m.natAbs * 2 ^ k
  let r := Nat.sqrt n
  let v : Int := 2 * (r : Int) + (if r * r = n then 0 else 1)
  (f.round .rn .nosat (.fin v ((e - k) / 2 - 1))).bits

/-- The FP32 result of a transcendental micro-op where Table 6-7 fixes it; none where a bound alone is given. -/
def transFixed (op : Nat) (v : FVal) : Option FVal :=
  match v with
  | .nan => some .nan
  | _ =>
    let int? : Option Int := match v with
      | .zero _ => some 0
      | .fin m e => if 0 ≤ e then some (m * 2 ^ e.toNat) else if m % 2 ^ (-e).toNat = 0 then some (m / 2 ^ (-e).toNat) else none
      | _ => none
    let half? : Bool := match v with   -- n + 1/2
      | .fin m e => e < 0 && (2 * m) % 2 ^ (-e).toNat == 0 && m % 2 ^ (-e).toNat != 0
      | _ => false
    match op with
    | 0x28 => match v with | .zero n => some (.inf n) | .inf n => some (.zero n) | _ => none
    | 0x29 => match v with
      | .zero n => some (.inf n)
      | .fin m _ => if m < 0 then some .nan else none
      | .inf n => some (if n then .nan else .zero false)
      | _ => none
    | 0x2B => match v, int? with
      | .inf n, _ => some (if n then .zero false else .inf false)
      | _, some k => some (.fin 1 (max (-2000) (min 2000 k)))
      | _, none => none
    | 0x2D => match v with | .inf n => some (if n then .zero false else .inf false) | _ => none
    | 0x2C => match v with
      | .zero _ => some (.inf true)
      | .inf true => some .nan
      | .fin m e => if m < 0 then some .nan else if m.natAbs = 2 ^ ilog2 m then some (FVal.mk ((ilog2 m : Int) + e) 0 false) else none
      | _ => none
    | 0x2E => match v, int? with
      | .inf _, _ => some .nan
      | _, some _ => some (.zero v.isNeg)
      | _, none => if half? then (match v with
          | .fin m e => let fl := m.fdiv (2 ^ (-e).toNat); some (.fin (if fl % 2 = 0 then 1 else -1) 0)
          | _ => none) else none
    | 0x2F => match v, int? with
      | .inf _, _ => some .nan
      | _, some k => some (.fin (if k % 2 = 0 then 1 else -1) 0)
      | _, none => if half? then some (.zero false) else none
    | 0x30 => match v with | .inf n => some (.fin (if n then -1 else 1) 0) | _ => none
    | _ => none

/-! ### True values

Fixed-point integers count units of `2 ^ -320`. -/

def fixBits : Nat := 320
def fixOne : Int := 2 ^ 320
/-- ln 2, log2 e and pi / 2. -/
def fixLn2 : Int := 0xb17217f7d1cf79abc9e3b39803f2f6af40f343267298b62d8a0d175b8baafa2be7b876206debac98
def fixLog2e : Int := 0x171547652b82fe1777d0ffda0d23a7d11d6aef551bad2b4b1164a2cd9a342648fbc3887eeaa2ed9ac
def fixHalfPi : Int := 0x1921fb54442d18469898cc51701b839a252049c1114cf98e804177d4c76273644a29410f31c6809bc

def fixMul (a b : Int) : Int := (a * b).fdiv fixOne
def fixDiv (a b : Int) : Int := (a * fixOne).fdiv b

/-- `m * 2 ^ e` in fixed point. -/
def fixOf (m e : Int) : Int :=
  if 0 ≤ e + fixBits then m * 2 ^ (e + fixBits).toNat else m.fdiv (2 ^ (-(e + fixBits)).toNat)

/-- The exponential of a number from 0 to 1, by its power series. -/
def fixExp (t : Int) : Int := (List.range 72).foldl (fun r i => fixOne + (fixMul t r).fdiv ((72 - i : Nat) : Int)) fixOne

/-- 2 to a power, as a fraction and an exponent; powers beyond every format are cut to 2000. -/
def fixExp2 (y : Int) : Int × Int :=
  (fixExp (fixMul (y.fmod fixOne) fixLn2), max (-2000) (min 2000 (y.fdiv fixOne)) - fixBits)

/-- sin (t * pi / 2) for t from 0 to 1, by its power series. -/
def fixSin (t : Int) : Int :=
  let u := fixMul t fixHalfPi
  let sq := fixMul u u
  fixMul u ((List.range 42).foldl (fun r i =>
    let k : Int := ((42 - i : Nat) : Int)
    fixOne - (fixMul sq r).fdiv (2 * k * (2 * k + 1))) fixOne)

/-- sin (pi * x), with x in half turns of fixed point. -/
def fixSinPi (x : Int) : Int :=
  let q := (2 * x).fdiv fixOne % 4
  let t := (2 * x).fmod fixOne
  if q = 0 then fixSin t else if q = 1 then fixSin (fixOne - t) else if q = 2 then -fixSin t else -fixSin (fixOne - t)

/-- log2 of a number from 1 to 2, by the series of the inverse hyperbolic tangent. -/
def fixLog2 (z : Int) : Int :=
  let w := fixDiv (z - fixOne) (z + fixOne)
  let sq := fixMul w w
  let s := (List.range 104).foldl (fun r i => fixOne.fdiv ((2 * (103 - i) + 1 : Nat) : Int) + fixMul sq r) 0
  fixMul (2 * fixMul w s) fixLog2e

/-- The true value of a transcendental micro-op at `m * 2 ^ e`, as a dyadic with a relative error below `2 ^ -140`. -/
def transTrue (op : Nat) (m e : Int) : Int × Int :=
  match op with
  | 0x28 => ((2 ^ 400 : Int).tdiv m, -400 - e)
  | 0x29 =>
    let n : Nat := if e % 2 = 0 then 2 ^ 600 / m.natAbs else 2 ^ 600 / (2 * m.natAbs)
    ((Nat.sqrt n : Int), -300 - e / 2)
  | 0x2B => fixExp2 (fixOf m e)
  | 0x2C =>
    let l : Int := (ilog2 m : Int) + e
    (l * fixOne + fixLog2 (fixOf m (e - l)), -fixBits)
  | 0x2D => fixExp2 (fixMul (fixOf m e) fixLog2e)
  | 0x2E => (fixSinPi (fixOf m e), -fixBits)
  | 0x2F => (fixSinPi (fixOf m e + fixOne / 2), -fixBits)
  | _ =>
    let a := fixOf m.natAbs e
    let r :=
      if 100 * fixOne < a then fixOne - 1
      else
        let p := fixExp2 (-(2 * fixMul a fixLog2e))
        let x := fixOf p.1 p.2
        fixDiv (fixOne - x) (fixOne + x)
    (if m < 0 then -r else r, -fixBits)

/-! ### The bound (Table 6-7) -/

/-- Units in the last place that an FP32 result may be off. -/
def transUlps (op : Nat) : Int := if op = 0x28 ∨ op = 0x29 then 1 else 2

/-- `log2` within [0.5, 2], where the bound is absolute. -/
def logInside (op : Nat) (m e : Int) : Bool := op == 0x2C && dyCmp m e 1 (-1) != .lt && dyCmp m e 2 0 != .gt

/-- Whether an FP32 encoding lies within the bound about the true value `x` at the operand `m * 2 ^ e`; a result keeps the
sign of the true value but where the bound is absolute. -/
def transWithin (op : Nat) (m e : Int) (x : Int × Int) (c : Nat) : Bool :=
  let k : Int × Int :=
    if logInside op m e then (1, -22) else (transUlps op, max Fmt.fp32.kmin ((ilog2 x.1 : Int) + x.2 - 23))
  let near : Int → Int → Bool := fun cm ce =>
    let d := dyAdd cm ce (-x.1) x.2
    dyCmp d.1.natAbs d.2 k.1 k.2 != .gt
  let v := Fmt.fp32.decode (c % 2 ^ 32)
  (logInside op m e || v.isNeg == decide (x.1 < 0)) &&
  (match v with
    | .fin cm ce => near cm ce
    | .zero _ => near 0 0
    | _ => false)

/-- The FP32 result where Table 6-7 gives a bound: the fixed function of stepping B0 is free within it (log entry 7); a
value too large for FP32 is an infinity. -/
def transFree (op : Nat) (x32 : Nat) (m e : Int) : Nat :=
  let x := transTrue op m e
  let near := (Fmt.fp32.round .rn .nosat (.fin x.1 x.2)).bits
  let c := Config.transcendental op x32 % 2 ^ 32
  match Fmt.fp32.decode near with
  | .inf _ => near
  | _ => if transWithin op m e x c then c else near

/-- A transcendental micro-op: input bits of a type to result bits (R162). -/
def transcend (op : Nat) (f : Fmt) (x : Nat) : Nat :=
  let v := f.decode (x % 2 ^ f.width)
  if op = 0x2A then
    match v with
    | .fin m e => if m < 0 then f.nan else sqrtVal f m e
    | .inf true => f.nan
    | v => (f.round .rn .nosat v).bits
  else match transFixed op v with
    | some r => (f.round .rn .nosat r).bits
    | none =>
      let free : Int → Int → Nat := fun m e =>
        let r := transFree op (Fmt.fp32.round .rn .nosat v).bits m e
        if f = .fp32 then r else (f.round .rn .nosat (Fmt.fp32.decode r)).bits
      match v with
      | .fin m e => free m e
      | .zero _ => if op = 0x2D then free 0 0 else (f.round .rn .nosat v).bits
      | v => (f.round .rn .nosat v).bits

end Sys2Proof.Machine
end

