-- ==== Sys2Proof/Machine/Chisel.lean ====
section
/-! DEFINITION. Chisel programs: header, stream controls, micro-ops and tables, what makes them legal and what a
micro-op computes (R155 to R162, R174, Tables 6-3 to 6-7). -/

namespace Sys2Proof.Machine

/-! ### Stream controls (Table 6-4) -/

structure Strm where
  w : Nat
  deriving DecidableEq, Repr

def Strm.rsv (x : Strm) : Nat := bits x.w 31 14
def Strm.bitsOut (x : Strm) : Bool := bit x.w 13
def Strm.workCode (x : Strm) : Nat := bits x.w 12 9
def Strm.scaled (x : Strm) : Bool := bit x.w 8
def Strm.mode (x : Strm) : Nat := bits x.w 7 6
def Strm.src (x : Strm) : Nat := bits x.w 5 4
def Strm.fmtCode (x : Strm) : Nat := bits x.w 3 0
def Strm.used (x : Strm) : Bool := x.src != 0
def Strm.fmt (x : Strm) : Fmt := (Fmt.ofCode x.fmtCode).getD .int32
def Strm.work (x : Strm) : Fmt := (Fmt.ofCode x.workCode).getD .int32

/-- Types of 32 bits or fewer. -/
def fmt32 (c : Nat) : Bool := match Fmt.ofCode c with | some f => f.is32 | none => false
def workOk (c : Nat) : Bool := [0, 1, 4, 5, 6].contains c
/-- Formats that may carry block scales (Table 5-1, R31). -/
def scalable (f : Fmt) : Bool := [Fmt.e5m2, .e4m3, .e3m2, .e2m3, .e2m1, .int8, .int4].contains f

/-- Exact conversions into a working type (Table 2-5). -/
def exactTo (f w : Fmt) : Bool :=
  f == w || (match w with
    | .fp32 => [Fmt.bf16, .fp16, .e5m2, .e4m3, .e3m2, .e2m3, .e2m1, .int4, .int8].contains f
    | .fp16 | .bf16 => [Fmt.e5m2, .e4m3, .e3m2, .e2m3, .e2m1, .int4, .int8].contains f
    | .int32 => [Fmt.int4, .int8].contains f
    | _ => false)

/-- A destination and SATM that R34 rejects. -/
def nosatBad (f : Fmt) (satm : Nat) : Bool := satm == 2 && [Fmt.e3m2, .e2m3, .e2m1].contains f

/-! ### The header (Table 6-3) -/

/-- A program's bytes: header and micro-ops. -/
structure Prog where
  b : List Byte
  deriving DecidableEq, Repr

def Prog.num (p : Prog) (i n : Nat) : Nat := leNat ((p.b.drop i).take n)
def Prog.len (p : Prog) : Nat := bits (p.num 0 2) 12 8 + 1
def Prog.row (p : Prog) : Nat := p.num 2 2
def Prog.ormode (p : Prog) : Nat := bits (p.num 4 2) 2 0
def Prog.osatm (p : Prog) : Nat := bits (p.num 4 2) 4 3
def Prog.osrc (p : Prog) (k : Nat) : Nat := if k = 0 then p.num 6 1 % 16 else p.num 6 1 / 16
def Prog.qsrc (p : Prog) : Bool := bit (p.num 7 1) 0
def Prog.sc (p : Prog) (k : Nat) : Strm := ⟨p.num (8 + 4 * k) 4⟩
def Prog.ins (p : Prog) : List (Nat × Strm) := (List.range 4).map (fun k => (k, p.sc k))
def Prog.uop (p : Prog) (j : Nat) : Nat := p.num (64 + 8 * j) 8
def Prog.uops (p : Prog) : List Nat := (List.range p.len).map p.uop

/-- Descriptors a program takes. -/
def progDescs (l : Nat) : Nat := 1 + (l + 7) / 8

/-- R155: the header. -/
def Prog.headerOk (p : Prog) : Bool :=
  p.num 0 1 == 0xC5 && bits (p.num 0 2) 15 13 == 0 && bits (p.num 4 2) 15 5 == 0 && p.num 7 1 / 2 == 0 && p.num 32 32 == 0
  && (p.ormode == 0 || decide (4 ≤ p.ormode)) && p.osatm != 3

/-- The scale stream of a scaled input (R157). -/
def scaleStrmOk (x : Strm) : Bool :=
  x.rsv == 0 && x.fmtCode == 12 && x.workCode == 1 && x.mode == 0 && !x.scaled && !x.bitsOut && (x.src == 1 || x.src == 2)

/-- Whether input `k` is the scale stream of the one before it. -/
def Prog.isScale (p : Prog) (k : Nat) : Bool := k % 2 == 1 && (p.sc (k - 1)).scaled && (p.sc (k - 1)).used

/-- R157, R166: an input's control. -/
def Prog.inOk (p : Prog) (k : Nat) : Bool :=
  let x := p.sc k
  if p.isScale k then scaleStrmOk x
  else if !x.used then x.rsv == 0
  else
    x.rsv == 0 && !x.bitsOut && fmt32 x.fmtCode && workOk x.workCode &&
    (if x.scaled then k % 2 == 0 && x.work == .fp32 && x.mode == 0 && scalable x.fmt && x.src != 3 else exactTo x.fmt x.work) &&
    (x.src != 3 || (decide (8 ≤ x.fmt.width) && x.mode == 0 && !x.scaled))

/-- R156, R158: an output's control. -/
def Prog.outOk (p : Prog) (k : Nat) : Bool :=
  let x := p.sc (4 + k)
  let scales := k = 1 && (p.sc 4).scaled && (p.sc 4).used
  if scales then x.rsv == 0 && x.src == 1 && x.mode == 0 && x.fmtCode == 0 && !x.scaled && !x.bitsOut && p.osrc 1 == 0
  else if !x.used then x.rsv == 0
  else
    x.rsv == 0 && x.src == 1 && x.mode == 0 && fmt32 x.fmtCode && workOk x.workCode &&
    (!x.bitsOut || (x.fmtCode == 1 && !x.scaled)) && (!x.scaled || (k = 0 && scalable x.fmt)) &&
    (x.bitsOut || !nosatBad x.fmt p.osatm)

/-! ### Micro-ops (Tables 6-5 and 6-6) -/

structure UOp where
  imm : Nat
  c : Nat
  b : Nat
  a : Nat
  d : Nat
  ty : Nat
  rmode : Nat
  satm : Nat
  ib : Bool
  op : Nat
  deriving DecidableEq, Repr

def uopOf (w : Nat) : UOp :=
  { imm := bits w 63 32, c := bits w 31 28, b := bits w 27 24, a := bits w 23 20, d := bits w 19 16, ty := bits w 15 12,
    rmode := bits w 11 9, satm := bits w 8 7, ib := bit w 6, op := bits w 5 0 }

def intTy (c : Nat) : Bool := c == 0 || c == 1
def fltTy (c : Nat) : Bool := c == 4 || c == 5 || c == 6

/-- Which fields a micro-op uses: B, C, IMM as an operand. -/
inductive UShape | a | ab | abc | cmp | cvt | ldexp | lut
  deriving DecidableEq, Repr

/-- Table 6-6: the shape, the types and whether it rounds. -/
def uopRow (op : Nat) : Option (UShape × (Nat → Bool) × Bool) :=
  if op = 0x01 then some (.a, fmt32, false)
  else if op = 0x0C then some (.a, intTy, false)
  else if 0x02 ≤ op ∧ op ≤ 0x0F then some (.ab, intTy, false)
  else if op = 0x10 ∨ op = 0x11 then some (.ab, fun c => intTy c || fltTy c, false)
  else if op = 0x12 ∨ op = 0x13 then some (.a, fun c => c == 0 || fltTy c, false)
  else if op = 0x14 then some (.cmp, fun c => intTy c || fltTy c, false)
  else if op = 0x15 then some (.abc, fmt32, false)
  else if 0x18 ≤ op ∧ op ≤ 0x1A then some (.ab, fltTy, true)
  else if op = 0x1B then some (.abc, fltTy, true)
  else if op = 0x1C then some (.cvt, fmt32, true)
  else if op = 0x1D then some (.ldexp, fltTy, true)
  else if op = 0x20 then some (.lut, fun c => c == 0, false)
  else if 0x28 ≤ op ∧ op ≤ 0x30 then some (.a, fltTy, false)
  else none

/-- Cycles of a micro-op (Table 6-6). -/
def UOp.cost (u : UOp) : Nat := if 0x28 ≤ u.op then 2 else 1

/-- R161: a legal micro-op. A micro-op that uses IMM reads the low bits it needs; one that does not needs it zero. -/
def UOp.ok (u : UOp) : Bool :=
  match uopRow u.op with
  | none => false
  | some (sh, ty, rounds) =>
    let bOk := if u.ib then u.b == 0 else u.imm == 0
    ty u.ty && (if rounds then u.rmode == 0 || decide (4 ≤ u.rmode) else u.rmode == 0) &&
    (if sh == .cvt then u.satm != 3 && !nosatBad ((Fmt.ofCode u.ty).getD .int32) u.satm else u.satm == 0) &&
    (match sh with
     | .a => u.b == 0 && u.c == 0 && !u.ib && u.imm == 0
     | .ab => u.c == 0 && bOk
     | .abc => bOk
     | .cmp => bOk && decide (u.c < (if fltTy u.ty then 8 else 6))
     | .cvt => u.b == 0 && u.c == 0 && !u.ib && fmt32 (u.imm % 16)
     | .ldexp => u.c == 0 && bOk
     | .lut => u.b == 0 && u.c == 0 && !u.ib)

/-- Tables that a program's `lut` micro-ops name. -/
def Prog.tables (p : Prog) : List Nat := dedup ((p.uops.map uopOf).filterMap (fun u => if u.op = 0x20 then some (u.imm % 256) else none))

/-- R155 to R161, less what depends on N and on the scalars. -/
def Prog.ok (p : Prog) : Bool :=
  p.headerOk && (List.range 4).all p.inOk && (List.range 2).all p.outOk && (p.uops.map uopOf).all UOp.ok

/-! ### Lookup tables (R174) -/

structure Tab where
  b : List Byte
  deriving DecidableEq, Repr

def Tab.num (p : Tab) (i n : Nat) : Nat := leNat ((p.b.drop i).take n)
def Tab.len (p : Tab) : Nat := p.num 1 1 + 1
def Tab.idx4 (p : Tab) : Bool := bit (p.num 2 1) 0
def Tab.ok (p : Tab) : Bool := p.num 0 1 == 0xC6 && p.num 2 62 / 2 == 0
def tabDescs (l : Nat) : Nat := 1 + (l + 15) / 16
def Tab.entry (p : Tab) (i : Nat) : Nat := p.num (64 + 4 * min i (p.len - 1)) 4

/-! ### Saturation (EL_SATURATE of Table 6-14) -/

/-- Whether a conversion that saturates gave the format's largest value because its value lay beyond it. -/
def saturates (f : Fmt) (rm : RMode) (sm : SatMode) (v : FVal) : Bool :=
  match f.float? with
  | some p =>
    let always := !p.hasInf && !p.hasNaN
    (sm == .sat || always) && (match v with
      | .inf _ => true
      | .fin m e =>
        let k := max p.kmin ((ilog2 m : Int) + e - p.mbits)
        decide (p.maxEnc < (k - p.kmin).toNat * 2 ^ p.mbits + (roundAt rm m e k).natAbs)
      | _ => false)
  | none =>
    sm == .sat && (match v with
      | .inf _ => true
      | .fin m e => let x := roundAt rm m e 0; decide (x < f.range.1) || decide (f.range.2 < x)
      | _ => false)

/-! ### Running a micro-op (R161) -/

/-- Element registers e0 to e15, and what a conversion reported: NaN drops and saturations. -/
structure EReg where
  r : Array Nat
  nan : Nat := 0
  sat : Nat := 0

def sat32 (ty : Nat) (x : Int) : Nat :=
  if ty = 1 then ofInt 32 (max 0 (min (2 ^ 32 - 1) x)) else ofInt 32 (max (-(2 ^ 31)) (min (2 ^ 31 - 1) x))

/-- The value of a micro-op from its operands; `l` gives the launch's default modes. -/
def UOp.eval (u : UOp) (l : Launch) (tab : Nat → Tab) (a b c : Nat) : Nat × Nat × Nat :=
  let f := (Fmt.ofCode u.ty).getD .int32
  let w := f.width
  let rm : RMode := if u.rmode = 0 then l.rm else RMode.ofCode (u.rmode % 4)
  let sx : Nat → Int := fun v => if u.ty = 1 then (v : Int) else sext 32 v
  let a' := a % 2 ^ w
  let b' := b % 2 ^ w
  let c' := c % 2 ^ w
  let va := f.decode a'
  let vb := f.decode b'
  let keep : Nat → Nat := fun v => if u.ty = 5 || u.ty = 6 then v % 2 ^ 16 else v
  let flt : FVal → Nat := fun v => (f.round rm .nosat v).bits
  let one : Nat → Nat × Nat × Nat := fun v => (v, 0, 0)
  match u.op with
  | 0x01 => one (keep a)
  | 0x02 => one ((a + b) % 2 ^ 32)
  | 0x03 => one (ofInt 32 ((a : Int) - b))
  | 0x04 => one (a * b % 2 ^ 32)
  | 0x05 => one (sat32 u.ty (sx a + sx b))
  | 0x06 => one (sat32 u.ty (sx a - sx b))
  | 0x07 => one (sat32 u.ty (sx a * sx b))
  | 0x08 => one (ofInt 32 ((sx a * sx b).fdiv (2 ^ 32)))
  | 0x09 => one (a &&& b)
  | 0x0A => one (a ||| b)
  | 0x0B => one (a ^^^ b)
  | 0x0C => one (2 ^ 32 - 1 - a)
  | 0x0D => one (a * 2 ^ (b % 32) % 2 ^ 32)
  | 0x0E => one (a / 2 ^ (b % 32))
  | 0x0F => one (ofInt 32 ((sext 32 a).fdiv (2 ^ (b % 32))))
  | 0x10 =>
    if f.isInt then one (if sx a ≤ sx b then a else b)
    else if isNan va || isNan vb then one f.nan else one (match FVal.cmp true va vb with | .gt => b' | _ => a')
  | 0x11 =>
    if f.isInt then one (if sx a ≤ sx b then b else a)
    else if isNan va || isNan vb then one f.nan else one (match FVal.cmp true va vb with | .lt => b' | _ => a')
  | 0x12 =>
    if f.isInt then one (ofInt 32 (sext 32 a).natAbs) else one (if isNan va then f.nan else a' % 2 ^ (w - 1))
  | 0x13 =>
    if f.isInt then one (ofInt 32 (-(sext 32 a))) else one (if isNan va then f.nan else a' ^^^ 2 ^ (w - 1))
  | 0x14 =>
    let nan := isNan va || isNan vb
    let o := if f.isInt then compare (sx a) (sx b) else FVal.cmp false va vb
    one (if ccHolds u.c (nan && !f.isInt) o then 2 ^ 32 - 1 else 0)
  | 0x15 => one (keep (if c' ≠ 0 then a else b))
  | 0x18 => one (flt (FVal.add rm va vb))
  | 0x19 => one (flt (FVal.add rm va vb.neg))
  | 0x1A => one (flt (FVal.mul va vb))
  | 0x1B => one (flt (FVal.add rm (FVal.mul va vb) (f.decode c')))
  | 0x1C =>
    let g := (Fmt.ofCode (u.imm % 16)).getD .int32
    let sm : SatMode := if f.isInt && u.satm == 0 then .sat else if u.satm = 0 then l.sat else if u.satm = 1 then .sat else .nosat
    let v := g.decode (a % 2 ^ g.width)
    let r := f.round rm sm v
    (r.bits, boolNat r.nanDrop, boolNat (saturates f rm sm v))
  | 0x1D => one (flt (va.scale (sext 9 (if u.ib then u.imm else b))))
  | 0x20 => one ((tab (u.imm % 256)).entry a)
  | op => one (transcend op f a)

/-- One micro-op on an element's registers. -/
def EReg.step (l : Launch) (tab : Nat → Tab) (e : EReg) (u : UOp) : EReg :=
  let get := fun i => e.r.getD i 0
  let r := u.eval l tab (get u.a) (if u.ib then u.imm else get u.b) (get u.c)
  { r := e.r.setIfInBounds u.d r.1, nan := e.nan + r.2.1, sat := e.sat + r.2.2 }

end Sys2Proof.Machine
end

