-- ==== Sys2Proof/Machine/Element.lean ====
section
/-! DEFINITION. The element engine: its six instructions and what a queued one does when it finishes
(R108, R150 to R178). -/

namespace Sys2Proof.Machine

/-! ### Descriptors through the descriptor cache (R153) -/

/-- What a read of descriptors ends in. -/
inductive DescRes
  | ok (bs : List Byte) (s : State)
  | fault (code addr : Nat)
  | wait

/-- The bytes of one line of the descriptor cache from an address on. -/
def State.descPart (s : State) (core q : Nat) (l : Launch) (va : Nat) : DescRes :=
  match s.coreAddr core q l.cove va false with
  | (.fault c, _) => .fault c va
  | (.ok pa _, s) => match s.roLine core l.cove pa .d with
    | .wait => .wait
    | .line bs poison ghost s =>
      if poison then .fault Flt.poison 0 else if ghost then .fault Flt.ebbReread 0 else .ok (bs.drop (pa % 64)) s

/-- One 64-byte descriptor of the launch's table; a table that is not aligned spreads it over two lines. -/
def State.descRead (s : State) (core q : Nat) (l : Launch) (idx : Nat) : DescRes :=
  let va := (l.dtab + 64 * idx) % 2 ^ 64
  match s.descPart core q l va with
  | .ok b s =>
    if va % 64 = 0 then .ok b s
    else match s.descPart core q l ((va + 64 - va % 64) % 2 ^ 64) with
      | .ok b' s => .ok ((b ++ b').take 64) s
      | x => x
  | x => x

/-- Descriptors from `idx` on. -/
def State.descsRead (s : State) (core q : Nat) (l : Launch) : Nat → Nat → DescRes
  | _, 0 => .ok [] s
  | idx, n + 1 => match s.descRead core q l idx with
    | .ok b s => match s.descsRead core q l (idx + 1) n with
      | .ok b' s => .ok (b ++ b') s
      | x => x
    | x => x

/-- Buffered bytes, most recently used first (R603). -/
def lruGet (l : List (Nat × List Byte)) (k : Nat) : Option (List Byte) := (l.find? (fun p => p.1 == k)).map Prod.snd
def lruPut (l : List (Nat × List Byte)) (n k : Nat) (b : List Byte) : List (Nat × List Byte) :=
  ((k, b) :: l.filter (fun p => p.1 != k)).take n

/-- A program: from its buffer, or loaded; ILLEGAL when its header is not one or it runs past descriptor 255. -/
def State.loadProg (s : State) (core q : Nat) (l : Launch) (idx : Nat) : DescRes :=
  let key := l.dtab + 64 * idx
  match (if s.kfld core R.EL_CTL_NO_PROG_BUF = 1 then none else lruGet (s.core core).elBuf key) with
  | some b => .ok b (s.modCore core (fun k => { k with elBuf := lruPut k.elBuf 8 key b }))
  | none => match s.descRead core q l idx with
    | .ok h s =>
      let p : Prog := ⟨h⟩
      if p.num 0 1 ≠ 0xC5 || 256 < idx + progDescs p.len then .fault Flt.illegal 0
      else match s.descsRead core q l (idx + 1) (progDescs p.len - 1) with
        | .ok b s => .ok (h ++ b) ((s.modCore core (fun k => { k with elBuf := lruPut k.elBuf 8 key (h ++ b) })).kcount core
            Ev.CORE_EL_PROG_MISS 1)
        | x => x
    | x => x

/-- A lookup table, likewise. -/
def State.loadTab (s : State) (core q : Nat) (l : Launch) (idx : Nat) : DescRes :=
  let key := l.dtab + 64 * idx
  match lruGet (s.core core).elTab key with
  | some b => .ok b (s.modCore core (fun k => { k with elTab := lruPut k.elTab 4 key b }))
  | none => match s.descRead core q l idx with
    | .ok h s =>
      let t : Tab := ⟨h⟩
      if !t.ok || 256 < idx + tabDescs t.len then .fault Flt.illegal 0
      else match s.descsRead core q l (idx + 1) (tabDescs t.len - 1) with
        | .ok b s => .ok (h ++ b) ((s.modCore core (fun k => { k with elTab := lruPut k.elTab 4 key (h ++ b) })).kcount core
            Ev.CORE_EL_TABLE_MISS 1)
        | x => x
    | x => x

/-- What loading several tables answers: the tables, keyed by `1 +` index, the faults, and whether a line is busy. -/
structure Tabs where
  tabs : List (Nat × List Byte) := []
  faults : List (Nat × Nat) := []
  wait : Bool := false
  s : State

def State.loadTabs (s : State) (core q : Nat) (l : Launch) : List Nat → Tabs
  | [] => { s := s }
  | i :: is => match s.loadTab core q l i with
    | .ok b s => let r := s.loadTabs core q l is; { r with tabs := (1 + i, b) :: r.tabs }
    | .fault c a => let r := s.loadTabs core q l is; { r with faults := (c, a) :: r.faults }
    | .wait => { (s.loadTabs core q l is) with wait := true }

/-! ### Ranges -/

/-- Bytes of `n` packed elements (R23). -/
def packedBytes (f : Fmt) (n : Nat) : Nat := if f.width = 6 then (n + 3) / 4 * 3 else (n * f.width + 7) / 8

def Prog.rowOf (p : Prog) (n : Nat) : Nat := if p.row = 0 then n else p.row

/-- Elements a stream supplies (R156), and its bytes. -/
def Prog.inCount (p : Prog) (k n : Nat) : Nat :=
  if p.isScale k then (n + 31) / 32
  else match (p.sc k).mode with
    | 0 => n
    | 1 => p.rowOf n
    | 2 => (n + p.rowOf n - 1) / p.rowOf n
    | _ => 1

def Prog.inBytes (p : Prog) (k n : Nat) : Nat :=
  if (p.sc k).src = 3 then 4 * n
  else if p.isScale k then (n + 31) / 32 else packedBytes (p.sc k).fmt (p.inCount k n)

def Prog.outBytes (p : Prog) (k n : Nat) : Nat :=
  if k = 1 && (p.sc 4).scaled && (p.sc 4).used then (n + 31) / 32
  else if (p.sc (4 + k)).bitsOut then (n + 7) / 8 else packedBytes (p.sc (4 + k)).fmt n

/-- A stream word as an offset: bits [4:0] are ignored (R159). -/
def off32 (v : Nat) : Nat := v / 32 * 32

def overlaps (a n b m : Nat) : Bool := decide (0 < n) && decide (0 < m) && decide (a < b + m) && decide (b < a + n)

/-- R159: broadcast limits. -/
def Prog.broadcastOk (p : Prog) (n : Nat) : Bool :=
  (List.range 4).all (fun k =>
    let x := p.sc k
    !x.used || p.isScale k || !(x.mode == 1 || x.mode == 2) ||
      (decide (p.inCount k n ≤ 256) && decide (p.inBytes k n ≤ 1024)))

/-- R160: output ranges against input ranges. `ws` are the stream words. -/
def Prog.overlapOk (p : Prog) (n : Nat) (ws : List Nat) : Bool :=
  let gather := p.ins.any (fun q => q.2.src == 3)
  (List.range 2).all (fun o =>
    let y := p.sc (4 + o)
    !y.used ||
    (let a := off32 (ws.getD (4 + o) 0)
     let m := p.outBytes o n
     (List.range 4).all (fun k =>
      let x := p.sc k
      !(x.src == 1 || x.src == 3) ||
      (let b := off32 (ws.getD k 0)
       !overlaps a m b (p.inBytes k n) ||
        (!gather && x.src == 1 && x.mode == 0 && !p.isScale k && b == a && p.inBytes k n == m && x.fmtCode == y.fmtCode &&
          !y.bitsOut)))))

/-- Entries of the engine's queue in use. -/
def State.elDepth (s : State) (c : Nat) : Nat :=
  let n := s.kfld c R.EL_CTL_QDEPTH
  if 1 ≤ n && n ≤ 8 then n else 8

/-- R164, R151: the bytes an earlier drain or save writes, then room in the engine's queue. -/
def elHold (s : State) (z : Iss) (rd wr : List (Nat × Nat)) : Hold :=
  if (s.core z.core).elMxClash z.slot rd wr then .matrix
  else if s.elDepth z.core ≤ (s.core z.core).elq.length then .engine
  else .none

/-- EL_QUEUE_FULL counts a presentation that only the full queue refuses. -/
def elFull (s : State) (z : Iss) (rd wr : List (Nat × Nat)) : State :=
  if (s.core z.core).elMxClash z.slot rd wr then s else s.kcount z.core Ev.CORE_EL_QUEUE_FULL 1

/-- An instruction enters the queue with its ranges; a scalar that it writes is busy until it finishes. -/
def State.elAccept (s : State) (z : Iss) (k : ElKind) (desc : List (Nat × List Byte)) (gather : List Access)
    (rd wr : List (Nat × Nat)) (busy : List Nat) : State :=
  s.modCore z.core (fun c =>
    let e : ElEntry := { slot := z.slot, blk := z.g.blk, pc := z.g.pc, kind := k, desc := desc, gather := gather, rd := rd, wr := wr, mark := c.nextOp }
    ({ c with elq := c.elq ++ [e] } : Core).modGroup z.slot (fun g => { g with busyS := g.busyS ++ busy }))

/-- Faults of scratchpad ranges that are read or written: SP_RANGE, and POISON of those read (Table 6-10). -/
def elRangeFaults (s : State) (z : Iss) (rd wr : List (Nat × Nat)) : List (Nat × Nat) :=
  let b := s.blockOf z.core z.slot
  let f := (rd ++ wr).flatMap (fun p => rangeFault b.spLen p.1 p.2)
  match minimumNat (f.map Prod.snd) with
  | some a => [(Flt.spRange, a)]
  | none => (s.spMarkFaults z.core (rd.map (fun p => (b.spOff + p.1, p.2)))).filter (fun f => f.1 == Flt.poison)

/-! ### `el.run` -/

/-- The stream words of an `el.run`. -/
def Iss.streams (z : Iss) : List Nat := (List.range 6).map (fun k => z.g.rs (z.i.a + k))

/-- Landing-slot streams as parts (R159); an instruction without elements reads none (R152). -/
def Prog.slotParts (p : Prog) (n : Nat) (ws : List Nat) : List (Bool × Nat × Nat) :=
  if n = 0 then []
  else p.ins.filterMap (fun q => if q.2.src = 2 then some (true, ws.getD q.1 0 % 256, p.inBytes q.1 n) else none)

/-- The scratchpad ranges that an instruction with elements reads and writes. -/
def Prog.rdRanges (p : Prog) (n : Nat) (ws : List Nat) : List (Nat × Nat) :=
  if n = 0 then []
  else p.ins.filterMap (fun q => if q.2.src = 1 ∨ q.2.src = 3 then some (off32 (ws.getD q.1 0), p.inBytes q.1 n) else none)
def Prog.wrRanges (p : Prog) (n : Nat) (ws : List Nat) : List (Nat × Nat) :=
  if n = 0 then []
  else (List.range 2).filterMap (fun o => if (p.sc (4 + o)).used then some (off32 (ws.getD (4 + o) 0), p.outBytes o n) else none)

/-- The gather inputs of a program, and the ranges of their index arrays. -/
def Prog.gathers (p : Prog) : List Nat := p.ins.filterMap (fun q => if q.2.src = 3 then some q.1 else none)
def Prog.idxRanges (p : Prog) (n : Nat) (ws : List Nat) : List (Nat × Nat) :=
  p.gathers.map (fun k => (off32 (ws.getD k 0), 4 * n))

/-- Addresses of a gather stream (R166), for the indices that lie in the block's scratchpad. -/
def State.gatherVas (s : State) (z : Iss) (p : Prog) (n k : Nat) : List (Nat × Nat) :=
  let b := s.blockOf z.core z.slot
  let base := z.g.rs2 z.i.b
  let idx := off32 (z.streams.getD k 0)
  let w := (p.sc k).fmt.width / 8
  ((List.range n).filter (fun j => decide (idx + 4 * j + 4 ≤ b.spLen))).map (fun j =>
    (n * k + j, (base + (s.core z.core).sp.readLE (b.spOff + idx + 4 * j) 4 * w) % 2 ^ 64))

/-- Loading and checking an `el.run`. -/
inductive RunChk
  | ok (p : Prog) (tabs : List (Nat × List Byte)) (s : State)
  | fault (l : List (Nat × Nat))
  | wait

/-- What a gather waits for before its indices can be read: the base pair (R154), an acquire that has not returned (R167,
R189), and accepted instructions that write the index arrays (R164, R165). -/
def State.gatherWaits (s : State) (z : Iss) (p : Prog) (n : Nat) : Bool :=
  let k := s.core z.core
  let idx := p.idxRanges n z.streams
  !p.gathers.isEmpty &&
    (z.g.busyS.contains z.i.b || z.g.busyS.contains (z.i.b + 1) || k.ops.any (fun o => o.slot == z.slot && o.acquire) ||
      k.elMxClash z.slot idx [] || near128 idx (k.elWr z.slot))

/-- The checks of an `el.run` in the order of R113: the program and the forms it may take, then its tables, its ranges, its
slots and its translation pass (R153, R166, R176). -/
def State.checkRun (s : State) (z : Iss) : RunChk :=
  let n := z.g.rs z.i.d
  let q := z.g.quarter
  match s.loadProg z.core q z.l z.i.c with
  | .fault c a => .fault [(c, a)]
  | .wait => .wait
  | .ok b s =>
    let p : Prog := ⟨b⟩
    let ws := z.streams
    let bOk := if p.gathers.isEmpty then z.i.b == 0 else z.i.b % 2 == 0 && decide (z.i.b < 64)
    if !p.ok || !bOk || (n ≠ 0 && (!p.broadcastOk n || !p.overlapOk n ws)) then .fault [(Flt.illegal, 0)]
    else
      let t := s.loadTabs z.core q z.l p.tables
      if t.wait || s.gatherWaits z p n then .wait
      else
        let s := t.s
        let k := s.core z.core
        let slots := partSlots (p.slotParts n ws)
        let land := k.landFault slots
        let f := t.faults ++ elRangeFaults s z (p.rdRanges n ws) (p.wrRanges n ws) ++ land
          ++ (if land.isEmpty && k.landed slots then k.landPoison slots else [])
          ++ p.gathers.flatMap (fun g =>
            let w := (p.sc g).fmt.width / 8
            addrFaults (fun a => a % w == 0) (s.coreAddrs z.core q z.l.cove false (s.gatherVas z p n g) false).1)
        if f.isEmpty then .ok p t.tabs s else .fault f

/-- `el.run` (R153 to R160). -/
def execElRun (i : IWord) (s : State) : Host.Outcome State Fault Refusal :=
  .next (s.issue i (3, 0x000) {
    form := fun z => plainForm z.i (z.i.t == 0 && z.i.q == 0)
      [⟨.s 1, z.i.d, false⟩, ⟨.s 6, z.i.a, false⟩, ⟨.raw, z.i.b, false⟩, ⟨.raw, z.i.c, false⟩]
    faults := fun s z => match s.checkRun z with | .fault l => l | _ => []
    hold := fun s z => match s.checkRun z with
      | .ok p _ s =>
        let n := z.g.rs z.i.d
        let slots := partSlots (p.slotParts n z.streams)
        match slots.find? (fun n => (((s.core z.core).slot n).st != 2)) with
        | some n => .landing n
        | none => elHold s z (p.rdRanges n z.streams) (p.wrRanges n z.streams)
      | _ => .engine
    held := fun s z => match s.checkRun z with
      | .ok p _ _ =>
        let n := z.g.rs z.i.d
        let slots := partSlots (p.slotParts n z.streams)
        if (s.core z.core).landed slots then elFull s z (p.rdRanges n z.streams) (p.wrRanges n z.streams)
        else s.beginWait z.core z.l.tide slots
      | _ => s
    effect := fun s z => match s.checkRun z with
      | .ok p tabs s =>
        let n := z.g.rs z.i.d
        if n = 0 then s.kcount z.core Ev.CORE_EL_RUN 1
        else
          let g := p.gathers.flatMap (fun k =>
            accesses (s.coreAddrs z.core z.g.quarter z.l.cove false (s.gatherVas z p n k) false).1 ((p.sc k).fmt.width / 8))
          s.elAccept z (.run n z.streams (if p.gathers.isEmpty then 0 else z.g.rs2 z.i.b) z.i.c) ((0, p.b) :: tabs) g
            (p.rdRanges n z.streams) (p.wrRanges n z.streams) []
      | _ => s })

/-! ### The other four -/

/-- Element types of 8 bits or wider that fit a stream (R169, R170). -/
def compactType (c : Nat) : Bool := match Fmt.ofCode c with | some f => decide (8 ≤ f.width) | none => false

/-- Offsets of three consecutive scalars. -/
def Iss.three (z : Iss) (k : Nat) : Nat := z.g.rs (z.i.a + k)

def wholeBytes (f : Fmt) (n : Nat) : Nat := n * (f.width / 8)

/-- The ranges of a compress or an expand: source and mask, destination, each for all N elements (R171). Their offsets are
used as they stand. -/
def Iss.compactRd (z : Iss) : List (Nat × Nat) :=
  let n := z.g.rs z.i.b
  if n = 0 then [] else [(z.three 0, wholeBytes ((z.i.ty).getD .int8) n), (z.three 1, (n + 7) / 8)]
def Iss.compactWr (z : Iss) : List (Nat × Nat) :=
  let n := z.g.rs z.i.b
  if n = 0 then [] else [(z.three 2, wholeBytes ((z.i.ty).getD .int8) n)]

/-- `el.compress` (R169, R171). -/
def execElCompress (i : IWord) (s : State) : Host.Outcome State Fault Refusal :=
  .next (s.issue i (3, 0x001) {
    form := fun z => plainForm z.i (z.i.q == 0 && compactType z.i.t)
      [⟨.s 1, z.i.d, true⟩, ⟨.s 3, z.i.a, false⟩, ⟨.s 1, z.i.b, false⟩, ⟨.zero, z.i.c, false⟩]
    faults := fun s z =>
      let n := z.g.rs z.i.b
      let m := wholeBytes ((z.i.ty).getD .int8) n
      (if overlaps (z.three 2) m (z.three 1) ((n + 7) / 8) || (overlaps (z.three 2) m (z.three 0) m && z.three 0 != z.three 2) then
        [(Flt.illegal, 0)] else [])
        ++ elRangeFaults s z z.compactRd z.compactWr
    hold := fun s z => elHold s z z.compactRd z.compactWr
    held := fun s z => elFull s z z.compactRd z.compactWr
    effect := fun s z =>
      let n := z.g.rs z.i.b
      if n = 0 then (s.modGroup z.core z.slot (fun g => g.ws z.i.d 0)).kcount z.core Ev.CORE_EL_COMPACT 1
      else s.elAccept z (.compress ((z.i.ty).getD .int8) n (z.three 0) (z.three 1) (z.three 2) z.i.d) [] []
        z.compactRd z.compactWr [z.i.d] })

/-- `el.expand` (R170, R171). -/
def execElExpand (i : IWord) (s : State) : Host.Outcome State Fault Refusal :=
  .next (s.issue i (3, 0x002) {
    form := fun z => plainForm z.i (z.i.q == 0 && compactType z.i.t && decide (z.i.c < 2))
      [⟨.s 1, z.i.d, true⟩, ⟨.s 3, z.i.a, false⟩, ⟨.s 1, z.i.b, false⟩, ⟨.raw, z.i.c, false⟩]
    faults := fun s z =>
      let n := z.g.rs z.i.b
      let m := wholeBytes ((z.i.ty).getD .int8) n
      (if overlaps (z.three 2) m (z.three 1) ((n + 7) / 8) || overlaps (z.three 2) m (z.three 0) m then [(Flt.illegal, 0)] else [])
        ++ elRangeFaults s z z.compactRd z.compactWr
    hold := fun s z => elHold s z z.compactRd z.compactWr
    held := fun s z => elFull s z z.compactRd z.compactWr
    effect := fun s z =>
      let n := z.g.rs z.i.b
      if n = 0 then (s.modGroup z.core z.slot (fun g => g.ws z.i.d 0)).kcount z.core Ev.CORE_EL_COMPACT 1
      else s.elAccept z (.expand ((z.i.ty).getD .int8) n (z.three 0) (z.three 1) (z.three 2) z.i.d (bit z.i.c 0)) [] []
        z.compactRd z.compactWr [z.i.d] })

/-- The thirteen formats of Table 2-1. -/
def thirteen (c : Nat) : Bool := match Fmt.ofCode c with | some f => f != .u32 && f != .i64 | none => false

def rowLen (n row : Nat) : Nat := if row = 0 then n else row

/-- The ranges of a reduction: source and scales, and a result for each row. -/
def Iss.reduceRd (z : Iss) : List (Nat × Nat) :=
  let n := z.three 2
  if n = 0 then []
  else [(z.three 0, packedBytes ((z.i.ty).getD .int8) n)] ++ (if bit z.i.c 4 then [(z.three 1, (n + 31) / 32)] else [])
def Iss.reduceWr (z : Iss) : List (Nat × Nat) :=
  let n := z.three 2
  let row := rowLen n (z.g.rs z.i.b)
  if n = 0 then [] else [(z.g.rs z.i.d, packedBytes ((Fmt.ofCode (z.i.c % 16)).getD .int8) ((n + row - 1) / row))]

/-- `el.reduce` (R172, R173). -/
def execElReduce (i : IWord) (s : State) : Host.Outcome State Fault Refusal :=
  .next (s.issue i (3, 0x003) {
    form := fun z =>
      let f := (z.i.ty).getD .int8
      let sc := bit z.i.c 4
      plainForm z.i (z.i.q == 0 && thirteen z.i.t && thirteen (z.i.c % 16) && decide (z.i.c < 64) &&
          !(bit z.i.c 5 && f == .wes) && (!sc || scalable f))
        [⟨.s 1, z.i.d, false⟩, ⟨.s 3, z.i.a, false⟩, ⟨.s 1, z.i.b, false⟩, ⟨.raw, z.i.c, false⟩]
    faults := fun s z =>
      (if z.three 2 ≠ 0 && ((bit z.i.c 4 && rowLen (z.three 2) (z.g.rs z.i.b) % 32 != 0) ||
          z.reduceRd.any (fun p => z.reduceWr.any (fun q => overlaps q.1 q.2 p.1 p.2))) then [(Flt.illegal, 0)] else [])
        ++ elRangeFaults s z z.reduceRd z.reduceWr
    hold := fun s z => elHold s z z.reduceRd z.reduceWr
    held := fun s z => elFull s z z.reduceRd z.reduceWr
    effect := fun s z =>
      let n := z.three 2
      if n = 0 then s.kcount z.core Ev.CORE_EL_REDUCE 1
      else s.elAccept z (.reduce ((z.i.ty).getD .int8) ((Fmt.ofCode (z.i.c % 16)).getD .int8) n (rowLen n (z.g.rs z.i.b))
        (z.three 0) (z.three 1) (z.g.rs z.i.d) (bit z.i.c 4) (bit z.i.c 5)) [] [] z.reduceRd z.reduceWr [] })

/-- The ranges of a lookup: indices of 4 or 8 bits, and its results. -/
def Iss.lutRd (z : Iss) (t : Tab) : List (Nat × Nat) :=
  let n := z.g.rs z.i.b
  if n = 0 then [] else [(z.g.rs z.i.a, if t.idx4 then (n + 1) / 2 else n)]
def Iss.lutWr (z : Iss) : List (Nat × Nat) :=
  let n := z.g.rs z.i.b
  if n = 0 then [] else [(z.g.rs z.i.d, packedBytes ((z.i.ty).getD .int8) n)]

/-- `el.lut` (R153, R171, R174). -/
def execElLut (i : IWord) (s : State) : Host.Outcome State Fault Refusal :=
  .next (s.issue i (3, 0x004) {
    form := fun z => plainForm z.i (z.i.q == 0 && fmt32 z.i.t)
      [⟨.s 1, z.i.d, false⟩, ⟨.s 1, z.i.a, false⟩, ⟨.s 1, z.i.b, false⟩, ⟨.raw, z.i.c, false⟩]
    faults := fun s z => match s.loadTab z.core z.g.quarter z.l z.i.c with
      | .fault c a => [(c, a)] ++ (if c = Flt.illegal then [] else elRangeFaults s z [] z.lutWr)
      | .wait => []
      | .ok b s =>
        let t : Tab := ⟨b⟩
        let same := z.g.rs z.i.a == z.g.rs z.i.d && ((z.i.ty).getD .int8).width == (if t.idx4 then 4 else 8)
        (if (z.lutRd t).any (fun p => z.lutWr.any (fun q => overlaps q.1 q.2 p.1 p.2)) && !same then [(Flt.illegal, 0)] else [])
          ++ elRangeFaults s z (z.lutRd t) z.lutWr
    hold := fun s z => match s.loadTab z.core z.g.quarter z.l z.i.c with
      | .ok b _ => elHold s z (z.lutRd ⟨b⟩) z.lutWr
      | _ => .engine
    held := fun s z => match s.loadTab z.core z.g.quarter z.l z.i.c with
      | .ok b _ => elFull s z (z.lutRd ⟨b⟩) z.lutWr
      | _ => s
    effect := fun s z => match s.loadTab z.core z.g.quarter z.l z.i.c with
      | .ok b s =>
        let n := z.g.rs z.i.b
        if n = 0 then s.kcount z.core Ev.CORE_EL_LUT 1
        else s.elAccept z (.lut ((z.i.ty).getD .int8) n (z.g.rs z.i.a) (z.g.rs z.i.d) z.i.c) [(1 + z.i.c, b)] []
          (z.lutRd ⟨b⟩) z.lutWr []
      | _ => s })

/-- `el.wait` (R154). -/
def execElWait (i : IWord) (s : State) : Host.Outcome State Fault Refusal :=
  .next (s.issue i (3, 0x005) {
    form := fun z => plainForm z.i (z.i.t == 0 && z.i.q == 0)
      [⟨.zero, z.i.d, false⟩, ⟨.zero, z.i.a, false⟩, ⟨.zero, z.i.b, false⟩, ⟨.zero, z.i.c, false⟩]
    hold := fun s z => if (s.core z.core).elq.any (fun e => e.slot == z.slot) then .engine else .none
    effect := fun s _ => s })

/-! ### Execution -/

/-- Bytes of packed values (R23); the padding of a last group is zero. -/
def packVals (w : Nat) (l : List Nat) : List Byte :=
  if w ≥ 8 then l.flatMap (fun v => leBytes (w / 8) v)
  else
    let per := if w = 6 then 4 else 2
    let a := l.toArray
    (List.range ((l.length + per - 1) / per)).flatMap (fun g =>
      leBytes (if w = 6 then 3 else 1) ((List.range per).foldl (fun acc j => acc + a.getD (per * g + j) 0 % 2 ^ w * 2 ^ (w * j)) 0))

/-- The gathered elements of a stream, with poison and ghost marks by element; none while a line is busy. -/
def State.gatherVals (s : State) (cove : Nat) : List Access → Option (List (Nat × Nat × Bool × Bool))
  | [] => some []
  | a :: l =>
    match s.paRead cove a.pa a.bytes with
    | .wait => none
    | r =>
      let v : Nat × Bool × Bool := match r with
        | .ok b p => (leNat b, p, false)
        | .ghost => (0, false, true)
        | _ => (0, true, false)
      (s.gatherVals cove l).map (fun q => (a.thread, v.1, v.2.1, v.2.2) :: q)

/-- The SnoopRds of a gather: one for each distinct sector (R166, R264). -/
def State.noteGather (s : State) (core cove : Nat) (l : List Access) : State :=
  (dedup (l.flatMap Access.sectors)).foldl (fun s x => s.noteRead core cove (32 * x) 32) s

/-- What a stream supplies by position. -/
def State.streamArr (s : State) (c : Nat) (e : ElEntry) (p : Prog) (n : Nat) (ws : List Nat) (gv : Array Nat) (k : Nat) : Array Nat :=
  let x := p.sc k
  let kc := s.core c
  let blk := kc.block e.blk
  let w := if p.isScale k then 8 else x.fmt.width
  let cnt := p.inCount k n
  if x.src = 0 then #[]
  else if x.src = 3 then ((List.range n).map (fun j => gv.getD (n * k + j) 0)).toArray
  else
    let bs := (if x.src = 2 then kc.slotBytes (ws.getD k 0 % 256) (p.inBytes k n)
      else kc.sp.readBytes (blk.spOff + off32 (ws.getD k 0)) (p.inBytes k n)).toArray
    ((List.range cnt).map (fun j => elemAt bs w j)).toArray

/-- The register an input gives element `i` (R156, R157). -/
def Prog.inVal (p : Prog) (rm : RMode) (sm : SatMode) (n : Nat) (arr : Nat → Array Nat) (k i : Nat) : Nat :=
  let x := p.sc k
  if !x.used then 0
  else if p.isScale k then (arr k).getD (i / 32) 0
  else
    let idx := match x.mode with | 0 => i | 1 => i % p.rowOf n | 2 => i / p.rowOf n | _ => 0
    let v := (arr k).getD idx 0
    if x.scaled then (Fmt.fp32.round rm sm (scaleBy ((arr (k + 1)).getD (i / 32) 0) (x.fmt.decode v))).bits
    else if x.fmt == x.work then v
    else (convert x.fmt x.work rm sm v).bits

/-- The modes of an output: the launch's where the code is 0; integers saturate by default (R39). -/
def Prog.outRm (p : Prog) (l : Launch) : RMode := if p.ormode = 0 then l.rm else RMode.ofCode (p.ormode % 4)
def Prog.outSm (p : Prog) (l : Launch) (f : Fmt) : SatMode :=
  if p.osatm = 0 then (if f.isInt then .sat else l.sat) else if p.osatm = 1 then .sat else .nosat

/-- An output's bytes, NaN drops and saturations, from the final registers of every element (R156, R158, R168). -/
def Prog.output (p : Prog) (l : Launch) (n : Nat) (er : Array (Array Nat)) (k : Nat) : List Byte × Nat × Nat :=
  let y := p.sc (4 + k)
  let reg := fun i => (er.getD i #[]).getD (p.osrc k) 0
  let rm := p.outRm l
  if y.bitsOut then
    ((List.range ((n + 7) / 8)).flatMap (fun b => leBytes 1 ((List.range 8).foldl (fun a j =>
      if 8 * b + j < n && reg (8 * b + j) != 0 then a + 2 ^ j else a) 0)), 0, 0)
  else
    let sm := p.outSm l y.fmt
    let rs : List (Rounded × Bool) := (List.range n).map (fun i =>
      let v := y.work.decode (reg i % 2 ^ y.work.width)
      if y.fmt == y.work then ({ bits := if isNan v then y.fmt.nan else reg i % 2 ^ y.fmt.width }, false)
      else (y.fmt.round rm sm v, saturates y.fmt rm sm v))
    (packVals y.fmt.width (rs.map (fun r => r.1.bits)), (rs.filter (fun r => r.1.nanDrop)).length, (rs.filter (fun r => r.2)).length)

/-- A scaled O0 and its scale bytes (R31, R158). -/
def Prog.scaledOut (p : Prog) (l : Launch) (n : Nat) (er : Array (Array Nat)) : List Byte × List Byte × Nat × Nat :=
  let y := p.sc 4
  let rm := p.outRm l
  let val := fun i => y.work.decode ((er.getD i #[]).getD (p.osrc 0) 0 % 2 ^ y.work.width)
  let blocks := (List.range ((n + 31) / 32)).map (fun b =>
    let vs := ((List.range 32).filter (fun j => 32 * b + j < n)).map (fun j => val (32 * b + j))
    let x := if p.qsrc then (er.getD (32 * b) #[]).getD 15 0 % 256 else deriveScale y.fmt vs
    (x, vs.map (fun v => let w := v.scale (127 - (x : Int)); (y.fmt.round rm .sat w, saturates y.fmt rm .sat w))))
  let rs := blocks.flatMap Prod.snd
  (packVals y.fmt.width (rs.map (fun r => r.1.bits)), blocks.map (fun b => BitVec.ofNat 8 b.1),
   (rs.filter (fun r => r.1.nanDrop)).length, (rs.filter (fun r => r.2)).length)

/-- Sectors of an output that hold a bit of an element of a list. -/
def outSectors (base w : Nat) (l : List Nat) : List Nat :=
  dedup (l.flatMap (fun i => [(base + i * w / 8) / 32, (base + (i * w + w - 1) / 8) / 32]))

/-! ### Beats (R163, R173, R180) -/

/-- Elements of the beats of `n` elements: 64 in each but the last. -/
def beatSizes (n : Nat) : List Nat := (List.range ((n + 63) / 64)).map (fun b => min 64 (n - 64 * b))

/-- Cycles that the bytes of a beat take at the scratchpad ports. -/
def portCycles (rd wr : Nat) : Nat := max ((rd + 255) / 256) ((wr + 255) / 256)

/-- Count beats, each given by the cycles its bytes and its gathers take, against the cost `c` of the micro-ops. Where bytes and
gathers take as long, the bytes set the length (DESIGN CHOICE, log entry 71). -/
def State.countBeats (s : State) (k c : Nat) (l : List (Nat × Nat)) : State :=
  ((s.kcount k Ev.CORE_EL_BEATS l.length).kcount k Ev.CORE_EL_PORT_BOUND
    (l.filter (fun p => decide (c < p.1) && decide (p.2 ≤ p.1))).length).kcount k Ev.CORE_EL_GATHER_BOUND
    (l.filter (fun p => decide (c < p.2) && decide (p.1 < p.2))).length

/-- Bytes that a beat of `m` elements reads from linear scratchpad and slot streams. -/
def Prog.beatRd (p : Prog) (m : Nat) : Nat :=
  (p.ins.map (fun q => if (q.2.src = 1 ∨ q.2.src = 2) ∧ (p.isScale q.1 ∨ q.2.mode = 0) then p.inBytes q.1 m else 0)).foldl (· + ·) 0
/-- Bytes that it writes. -/
def Prog.beatWr (p : Prog) (m : Nat) : Nat :=
  ((List.range 2).map (fun o => if (p.sc (4 + o)).used then p.outBytes o m else 0)).foldl (· + ·) 0

/-- The distinct sectors that the gathers of each beat read (R167). -/
def gatherSectors (n : Nat) (l : List Access) : List Nat :=
  (List.range ((n + 63) / 64)).map (fun b => (dedup ((l.filter (fun a => a.thread % n / 64 == b)).map (fun a => a.pa / 32))).length)

/-- An `el.run` runs (R156 to R160, R167). -/
def State.runRun (s : State) (c : Nat) (e : ElEntry) (n : Nat) (ws : List Nat) (gl : List (Nat × Nat × Bool × Bool)) : State :=
  let p : Prog := ⟨(lruGet e.desc 0).getD []⟩
  let blk := (s.core c).block e.blk
  let l := blk.launch
  let gv := gl.foldl (fun a q => a.setIfInBounds q.1 q.2.1) (Array.replicate (4 * n) 0)
  let a0 := s.streamArr c e p n ws gv 0
  let a1 := s.streamArr c e p n ws gv 1
  let a2 := s.streamArr c e p n ws gv 2
  let a3 := s.streamArr c e p n ws gv 3
  let arr := fun k => match k with | 0 => a0 | 1 => a1 | 2 => a2 | _ => a3
  let rm := p.outRm l
  let tab := fun i => (⟨(lruGet e.desc (1 + i)).getD []⟩ : Tab)
  let us := p.uops.map uopOf
  let es := (List.range n).map (fun i =>
    us.foldl (EReg.step l tab) { r := ((List.range 16).map (fun k => if k < 4 then p.inVal rm (p.outSm l .fp32) n arr k i else 0)).toArray })
  let er := (es.map (fun x => x.r)).toArray
  let scaled := (p.sc 4).used && (p.sc 4).scaled
  let o0 := if scaled then let r := p.scaledOut l n er; (r.1, r.2.2.1, r.2.2.2) else if (p.sc 4).used then p.output l n er 0 else ([], 0, 0)
  let o1 := if scaled then ((p.scaledOut l n er).2.1, 0, 0) else if (p.sc 5).used then p.output l n er 1 else ([], 0, 0)
  let at0 := blk.spOff + off32 (ws.getD 4 0)
  let at1 := blk.spOff + off32 (ws.getD 5 0)
  let s := s.modCore c (fun k => (k.spWrite at0 o0.1 false).spWrite at1 o1.1 false)
  let mark : (Nat × Nat × Bool × Bool → Bool) → List Nat := fun f =>
    let is := (gl.filter f).map (fun q => q.1 % n)
    (if (p.sc 4).used then outSectors at0 (if (p.sc 4).bitsOut then 1 else (p.sc 4).fmt.width) is else [])
      ++ (if scaled then outSectors at1 8 (is.map (fun i => i / 32))
        else if (p.sc 5).used then outSectors at1 (if (p.sc 5).bitsOut then 1 else (p.sc 5).fmt.width) is else [])
  let s := s.modCore c (fun k => { k with
    spPoison := (mark (fun q => q.2.2.1)).foldl (fun l x => sadd x l) k.spPoison
    spGhost := (mark (fun q => q.2.2.2)).foldl (fun l x => sadd x l) k.spGhost })
  let nan := o0.2.1 + o1.2.1 + (es.map (fun x => x.nan)).foldl (· + ·) 0
  let sat := o0.2.2 + o1.2.2 + (es.map (fun x => x.sat)).foldl (· + ·) 0
  let secs := gatherSectors n e.gather
  let s := ((s.noteWide c l nan 0).kcount c Ev.CORE_EL_SATURATE sat).kcount c Ev.CORE_EL_GATHER_SECTORS (secs.foldl (· + ·) 0)
  let s := s.countBeats c ((us.map UOp.cost).foldl (· + ·) 0)
    (((beatSizes n).zip secs).map (fun q => (portCycles (p.beatRd q.1) (p.beatWr q.1), (q.2 + 3) / 4)))
  (s.slotsRead c (partSlots (p.slotParts n ws))).kcount c Ev.CORE_EL_RUN 1

/-- Mask bit of an element (R168). -/
def maskBit (m : Array Byte) (i : Nat) : Bool := bit (m.getD (i / 8) 0).toNat (i % 8)

/-- The scalar result of an engine instruction is ready (R154). -/
def State.elScalar (s : State) (c : Nat) (e : ElEntry) (r v : Nat) : State :=
  s.modGroup c e.slot (fun g => { g.ws r v with busyS := g.busyS.filter (fun x => x != r) })

/-- One row of `el.reduce`: 64 lanes in ascending i, then the tree of R173. -/
def laneTree : Nat → List Wes → Wes
  | 0, l => (l.head?).getD Wes.zero
  | k + 1, l =>
    let a := l.toArray
    laneTree k ((List.range (l.length / 2)).map (fun j => (a.getD (2 * j) Wes.zero).addFloat (a.getD (2 * j + 1) Wes.zero)))

def reduceRow (vs : List Wes) : Wes :=
  let lanes := (vs.zipIdx).foldl (fun (a : Array Wes) p => a.setIfInBounds (p.2 % 64) ((a.getD (p.2 % 64) Wes.zero).addFloat p.1))
    (Array.replicate 64 Wes.zero)
  laneTree 6 lanes.toList

/-- A queued engine instruction runs. -/
def State.runEl (s : State) (c : Nat) (e : ElEntry) (gl : List (Nat × Nat × Bool × Bool)) : State :=
  let k := s.core c
  let blk := k.block e.blk
  let rd := fun (o n : Nat) => k.sp.readBytes (blk.spOff + o) n
  match e.kind with
  | .run n ws _ _ => s.runRun c e n ws gl
  | .compress f n src mask dst r =>
    let m := (rd mask ((n + 7) / 8)).toArray
    let w := f.width / 8
    let kept := (List.range n).filter (fun i => maskBit m i)
    let bs := (rd src (n * w)).toArray
    let out := kept.flatMap (fun i => (List.range w).map (fun j => bs.getD (i * w + j) 0))
    let beats := (beatSizes n).zipIdx.map (fun q =>
      (portCycles (q.1 * w + (q.1 + 7) / 8) ((kept.filter (fun i => i / 64 == q.2)).length * w), 0))
    (((s.modCore c (fun k => k.spWrite (blk.spOff + dst) out false)).elScalar c e r kept.length).kcount c
      Ev.CORE_EL_COMPACT 1).countBeats c 1 beats
  | .expand f n src mask dst r fill =>
    let m := (rd mask ((n + 7) / 8)).toArray
    let w := f.width / 8
    let set := (List.range n).filter (fun i => maskBit m i)
    let bs := rd src (set.length * w)
    let s := if fill then s.modCore c (fun k => k.spWrite (blk.spOff + dst) (List.replicate (n * w) 0) false) else s
    let s := s.modCore c (fun k => k.spStores (set.zipIdx.map (fun p => (blk.spOff + dst + p.1 * w, leNat ((bs.drop (p.2 * w)).take w)))) w)
    let beats := (beatSizes n).zipIdx.map (fun q =>
      let m := (set.filter (fun i => i / 64 == q.2)).length * w
      (portCycles (m + (q.1 + 7) / 8) (if fill then q.1 * w else m), 0))
    ((s.elScalar c e r set.length).kcount c Ev.CORE_EL_COMPACT 1).countBeats c 1 beats
  | .reduce f df n row src scale dst scaled square =>
    let bs := (rd src (packedBytes f n)).toArray
    let sc := (rd scale (if scaled then (n + 31) / 32 else 0)).toArray
    let l := blk.launch
    let contrib := fun i =>
      let x := if f.width = 320 then leNat ((List.range 40).map (fun j => bs.getD (40 * i + j) 0)) else elemAt bs f.width i
      if f = .wes then Wes.decode x
      else
        let v := if scaled then scaleBy ((sc.getD (i / 32) 0).toNat) (f.decode x) else f.decode x
        Wes.ofVal (if square then FVal.mul v v else v)
    let rows := (List.range ((n + row - 1) / row)).map (fun r =>
      reduceRow (((List.range row).filter (fun j => row * r + j < n)).map (fun j => contrib (row * r + j))))
    let rs : List Rounded := rows.map (fun a =>
      if df = .wes then { bits := ({ a with pinned := false }).encode } else a.round df l.rm (if df.isInt then .sat else l.sat))
    let s := s.modCore c (fun k => k.spWrite (blk.spOff + dst)
      (if df = .wes then rs.flatMap (fun r => leBytes 40 r.bits) else packVals df.width (rs.map Rounded.bits)) false)
    let beats := (List.range ((n + row - 1) / row)).flatMap (fun r =>
      (beatSizes (min row (n - row * r))).map (fun m => (portCycles (packedBytes f m + (if scaled then (m + 31) / 32 else 0)) 0, 0)))
    ((s.noteWide c l (rs.filter Rounded.nanDrop).length (rs.filter Rounded.wide).length).kcount c
      Ev.CORE_EL_REDUCE 1).countBeats c 1 beats
  | .lut f n src dst t =>
    let tab : Tab := ⟨(lruGet e.desc (1 + t)).getD []⟩
    let w := if tab.idx4 then 4 else 8
    let bs := (rd src ((n * w + 7) / 8)).toArray
    let out := packVals f.width ((List.range n).map (fun i => tab.entry (elemAt bs w i) % 2 ^ f.width))
    ((s.modCore c (fun k => k.spWrite (blk.spOff + dst) out false)).kcount c Ev.CORE_EL_LUT 1).countBeats c 1
      ((beatSizes n).map (fun m => (portCycles ((m * w + 7) / 8) (packedBytes f m), 0)))

/-- R175: the engine completes the compress, expand or reduction it is running; a run or a lookup stops at a beat boundary,
which is that before its first beat (DESIGN CHOICE, log entry 71), and stays in the queue. -/
def State.finishEl (s : State) (c : Nat) : State :=
  match (s.core c).elq with
  | [] => s
  | e :: rest => match e.kind with
    | .run .. => s
    | .lut .. => s
    | _ => (s.modCore c (fun k => { k with elq := rest })).runEl c e []

/-- R167: a gather reads after the group's earlier stores and atomics to its sectors. -/
def Core.gatherReady (k : Core) (e : ElEntry) : Bool :=
  let secs := e.gather.map (fun a => a.pa / 32)
  !k.ops.any (fun o => o.slot == e.slot && decide (o.id < e.mark) && !o.isRead && o.sectors.any (fun x => secs.contains x))

/-- EL_FINISH: the oldest accepted instruction finishes (R151, R163). It waits while a gathered line is busy or an earlier
store of its group to it has not ended. An injected uncorrectable error is found by it (R177): UNCORR, recorded in EL_ERR;
where in the engine it lay is open. -/
def execElFinish (core : Nat) (s : State) : Host.Outcome State Fault Refusal :=
  match (s.core core).elq with
  | [] => .next s
  | e :: rest =>
    let p := s.corePage core
    let cove := ((s.core core).block e.blk).launch.cove
    if s.armed clsCore p 1 then
      let s := (s.modCore core (fun k => { k with elq := rest })).disarm clsCore p
      let (src, s) := s.draw 6
      let (off, s) := s.draw 655360
      let s := (s.kcount core Ev.CORE_EL_UNCORR 1).record clsCore p 1 R.EL_ERR_VALID
        [(R.EL_ERR_SOURCE, src), (R.EL_ERR_SLOT, e.slot), (R.EL_ERR_OFFSET, if src = 0 then off else if src = 1 then off % 256 else 0)]
      .next ((s.coreUncorr core 0x410 true).takeFaultAt core e.slot e.pc Flt.uncorr 0)
    else if !(s.core core).gatherReady e then .next s
    else match s.gatherVals cove e.gather with
      | none => .next s
      | some gl => .next (((s.noteGather core cove e.gather).modCore core (fun k => { k with elq := rest })).runEl core e gl)

end Sys2Proof.Machine
end

