-- ==== Sys2Proof/Machine/Branch.lean ====
section
/-! DEFINITION. The branch and synchronization instructions of Table 4-8 (R73 to R80, R109, R110, R378, R503 to R505). -/

namespace Sys2Proof.Machine

/-! ### Divergence (R74) -/

/-- What R74 does with a branch: uniform, not taken or taken; or the group after a divergent one; or no entry is left. -/
inductive Turn
  | straight
  | jump
  | split (g : Group)
  | full

/-- R74 for the threads that take the branch: target `t`, reconvergence point `p`, `n` the address of the others. -/
def Group.turn (g : Group) (taken : W64) (t p n : Nat) : Turn :=
  let rest := g.m0 &&& ~~~taken
  let push : Turn :=
    if g.stack.length = 32 then .full
    else .split { (g.wm 0 rest) with pc := n, stack := { rpc := p, full := g.m0, pend := taken, pendPc := t } :: g.stack }
  if taken = 0 then .straight
  else if taken = g.m0 then .jump
  else match g.stack with
    | [] => push
    | e :: es =>
      if t = e.rpc then .split { (g.wm 0 rest) with pc := n }
      else if p = e.rpc ∧ e.pend = 0 then
        .split { (g.wm 0 rest) with pc := n, stack := { e with pend := taken, pendPc := t } :: es }
      else push

/-- A group that diverged: counted, and the depth it reached kept (R88, Table 3-13). -/
def State.diverge (s : State) (c g : Nat) (x : Group) : State :=
  let s := (s.setCore c ((s.core c).setGroup g x)).kcount c Ev.CORE_BRANCH_DIVERGENT 1
  if s.kfld c R.RECONV_HWM_DEPTH_HWM < x.stack.length then s.setK c R.RECONV_HWM_DEPTH_HWM x.stack.length else s

def State.jump (s : State) (z : Iss) (t : Nat) : State := s.modGroup z.core z.slot (fun g => { g with pc := t })

/-- An address at an offset from the instruction's own first word (R109). -/
def Iss.rel (z : Iss) (o : Int) : Nat := ofInt 64 ((z.g.pc : Int) + o)

/-- A word-0 offset of two fields, in units of 8 bytes. -/
def off16 (hi lo : Nat) : Int := sext 16 (256 * hi + lo) * 8

/-- Offsets of the 128-bit form. -/
def Ins.xLow (i : Ins) : Int := sext 32 i.x
def Ins.xHigh (i : Ins) : Int := sext 32 (i.x / 2 ^ 32)
def Ins.xLowOk (i : Ins) : Bool := i.x % 8 == 0
def Ins.xHighOk (i : Ins) : Bool := i.x / 2 ^ 32 % 8 == 0

/-- Target and reconvergence offset of `bra`. -/
def Ins.braTarget (i : Ins) : Int := if i.lg then i.xLow else off16 i.a i.d
def Ins.braRecon (i : Ins) : Int := if i.lg then i.xHigh else off16 i.c i.b

/-- Operands that the opcode does not read as registers. -/
def noOps (i : Ins) (d a b c : Bool) : List Opnd :=
  [⟨if d then .raw else .zero, i.d, false⟩, ⟨if a then .raw else .zero, i.a, false⟩, ⟨if b then .raw else .zero, i.b, false⟩,
   ⟨if c then .raw else .zero, i.c, false⟩]

def execBra (i : IWord) (s : State) : Host.Outcome State Fault Refusal :=
  let go := fun (z : Iss) => z.g.turn z.act (z.rel z.i.braTarget) (z.rel z.i.braRecon) (nextPc z.g.pc z.i.size)
  .next (s.issue i (4, 0x000) {
    form := fun z => {
      legal := z.i.guardOk true && z.i.t == 0 && z.i.q == 0 && (if z.i.lg then z.i.xLowOk && z.i.xHighOk else true) &&
        (z.i.ge || (if z.i.lg then z.i.x / 2 ^ 32 == 0 else z.i.b == 0 && z.i.c == 0))
      ops := noOps z.i (!z.i.lg) (!z.i.lg) (!z.i.lg) (!z.i.lg) }
    faults := fun _ z => match go z with | .full => [(Flt.reconv, 0)] | _ => []
    effect := fun s z => match go z with
      | .jump => s.jump z (z.rel z.i.braTarget)
      | .split x => s.diverge z.core z.slot { x with hold := .none }
      | _ => s })

/-- Target of a thread of `brx`. -/
def Iss.brxTarget (z : Iss) (t : Nat) : Nat := z.rel (sext 32 (z.g.rv z.i.a t))

/-- The first misaligned of some targets, as ALIGN reports it (R110). -/
def alignFault (l : List Nat) : List (Nat × Nat) :=
  match l.find? (fun t => t % 8 != 0) with | some t => [(Flt.align, t % 2 ^ 57)] | none => []

/-- `brx` (R76): the threads that name the first thread's target go there; the others come back to the `brx`. -/
def execBrx (i : IWord) (s : State) : Host.Outcome State Fault Refusal :=
  let rest := fun (z : Iss) => maskOf (fun t => z.g.m0.getLsbD t && z.brxTarget t != z.brxTarget z.first)
  let recon := fun (z : Iss) => z.rel (if z.i.lg then z.i.xHigh else off16 z.i.c z.i.b)
  let go := fun (z : Iss) => z.g.turn (rest z) z.g.pc (recon z) (z.brxTarget z.first)
  .next (s.issue i (4, 0x001) {
    form := fun z => {
      legal := z.i.guardOk false && z.i.t == 0 && z.i.q == 0 && (!z.i.lg || (z.i.x % 2 ^ 32 == 0 && z.i.xHighOk))
      ops := [⟨.zero, z.i.d, false⟩, ⟨.v 1, z.i.a, false⟩, ⟨if z.i.lg then .zero else .raw, z.i.b, false⟩,
        ⟨if z.i.lg then .zero else .raw, z.i.c, false⟩] }
    faults := fun _ z =>
      (match go z with | .full => [(Flt.reconv, 0)] | _ => []) ++ alignFault (z.threads.map z.brxTarget)
    effect := fun s z => match go z with
      | .split x => s.diverge z.core z.slot { x with hold := .none }
      | _ => s.jump z (z.brxTarget z.first) })

/-- `call` writes the address of the next instruction and jumps (R110). -/
def execCall (i : IWord) (s : State) : Host.Outcome State Fault Refusal :=
  .next (s.issue i (4, 0x002) {
    form := fun z => {
      legal := z.i.guardOk false && z.i.t == 0 && z.i.q == 0 && (!z.i.lg || (z.i.x / 2 ^ 32 == 0 && z.i.xLowOk))
      ops := [⟨.s 2, z.i.d, true⟩, ⟨.zero, z.i.a, false⟩, ⟨if z.i.lg then .zero else .raw, z.i.b, false⟩,
        ⟨if z.i.lg then .zero else .raw, z.i.c, false⟩] }
    effect := fun s z =>
      (s.modGroup z.core z.slot (fun g => g.ws2 z.i.d (nextPc z.g.pc z.i.size))).jump z
        (z.rel (if z.i.lg then z.i.xLow else off16 z.i.c z.i.b)) })

/-- `ret` jumps to the address its scalar pair holds (R110). -/
def execRet (i : IWord) (s : State) : Host.Outcome State Fault Refusal :=
  .next (s.issue i (4, 0x003) {
    form := fun z => {
      legal := z.i.guardOk false && !z.i.lg && z.i.t == 0 && z.i.q == 0
      ops := [⟨.zero, z.i.d, false⟩, ⟨.s 2, z.i.a, false⟩, ⟨.zero, z.i.b, false⟩, ⟨.zero, z.i.c, false⟩] }
    faults := fun _ z => alignFault [z.g.rs2 z.i.a]
    effect := fun s z => s.jump z (z.g.rs2 z.i.a) })

/-- A group without some threads, brought to its next path (R75, R77). -/
def Group.without (g : Group) (out : W64) : Group × Nat :=
  Group.settle 66 { (g.wm 0 (g.m0 &&& ~~~out)) with live := g.live &&& ~~~out }

/-- Whether a settled group has no thread left (R75). -/
def Group.done (g : Group) : Bool := g.stack.isEmpty && g.m0 &&& g.live == 0

/-- `exit` (R77, R59). A group's last `exit` issues when its outstanding instructions have completed (log entry 21). -/
def execExit (i : IWord) (s : State) : Host.Outcome State Fault Refusal :=
  .next (s.issue i (4, 0x004) {
    form := fun z => {
      legal := z.i.guardOk true && !z.i.lg && z.i.t == 0 && z.i.q == 0
      ops := noOps z.i false false false false }
    faults := fun _ z => if z.g.region.isSome then [(Flt.mxRegion, 0)] else []
    hold := fun s z => if (z.g.without z.act).1.done && (s.core z.core).busyWith z.slot then .memory else .none
    effect := fun s z =>
      let r := (s.group z.core z.slot).without z.act
      let s := (s.modGroup z.core z.slot (fun _ => r.1)).kcount z.core Ev.CORE_PATH_SWITCH r.2
      if r.1.done then s.endGroup z.core z.slot else s })

/-- `bar.blk` (R80): an acquire and release at block scope, then the wait for the block's other groups. -/
def execBarBlk (i : IWord) (s : State) : Host.Outcome State Fault Refusal :=
  .next (s.issue i (4, 0x010) {
    form := fun z => {
      legal := z.i.guardOk false && !z.i.lg && z.i.t == 0 && z.i.q == 0
      ops := noOps z.i false false false false }
    faults := fun _ z =>
      (if z.g.region.isSome then [(Flt.mxRegion, 0)] else []) ++ (if z.g.m0 = z.g.live then [] else [(Flt.barDiverge, 0)])
    hold := fun s z =>
      if (s.core z.core).elq.any (fun e => e.slot == z.slot) then .engine
      else if (s.core z.core).allPerformed z.slot 1 then .none else .fence
    effect := fun s z => s.modCore z.core (fun k =>
      let b := k.block z.g.blk
      ((k.modGroup z.slot (fun g => g.holding .barrier)).setBlock z.g.blk { b with arrived := sadd z.slot b.arrived }).checkBarrier
        z.g.blk) })

/-- The slot number of `wait.land`. -/
def Iss.waitSlot (z : Iss) : Nat := if z.i.q = 0x80 then z.i.c else z.g.rs z.i.a

/-- `wait.land` (R378, R379): held until its slot is FULL. -/
def execWaitLand (i : IWord) (s : State) : Host.Outcome State Fault Refusal :=
  .next (s.issue i (4, 0x020) {
    form := fun z => {
      legal := z.i.guardOk false && !z.i.lg && z.i.t == 0 && (z.i.q == 0 || z.i.q == 0x80)
      ops := [⟨.zero, z.i.d, false⟩, ⟨if z.i.q = 0x80 then .zero else .s 1, z.i.a, false⟩, ⟨.zero, z.i.b, false⟩,
        ⟨if z.i.q = 0x80 then .raw else .zero, z.i.c, false⟩] }
    faults := fun s z => (s.core z.core).landFault [z.waitSlot]
    hold := fun s z => if (s.core z.core).landed [z.waitSlot] then .none else .waitLand z.waitSlot
    held := fun s z =>
      let s := s.beginWait z.core z.l.tide [z.waitSlot]
      match z.l.tide, z.g.since with
      | some d, none => s.modGroup z.core z.slot (fun g => { g with since := some (s.progTick (s.dom d)) })
      | _, _ => s
    effect := fun s _ => s })

/-- `sleep.hint` (R110, R504): the power controller notes the time of the group's next event, the cycles that it gives counted
from the hint at the core clock. -/
def execSleepHint (i : IWord) (s : State) : Host.Outcome State Fault Refusal :=
  .next (s.issue i (4, 0x030) {
    form := fun z => {
      legal := z.i.guardOk false && !z.i.lg && z.i.t == 0 && (z.i.q == 0 || z.i.q == 0x80)
      ops := [⟨.zero, z.i.d, false⟩, ⟨if z.i.q = 0x80 then .zero else .s 1, z.i.a, false⟩,
        ⟨if z.i.q = 0x80 then .raw else .zero, z.i.b, false⟩, ⟨if z.i.q = 0x80 then .raw else .zero, z.i.c, false⟩] }
    effect := fun s z =>
      let n := if z.i.q = 0x80 then 256 * z.i.c + z.i.b else z.g.rs z.i.a
      (s.setPw (fun w => { w with
        hint := w.hint.filter (fun h => !(h.1 == z.core && h.2.1 == z.slot)) ++ [(z.core, z.slot, s.now + n * 4000 / w.clock4)] })).modGroup
          z.core z.slot (fun g => { g with hinted := 1 }) })

/-- `brk` (R110): BREAKPOINT when a thread executes it. -/
def execBrk (i : IWord) (s : State) : Host.Outcome State Fault Refusal :=
  .next (s.issue i (4, 0x031) {
    form := fun z => {
      legal := z.i.guardOk true && !z.i.lg && z.i.t == 0 && z.i.q == 0
      ops := noOps z.i false false false false }
    faults := fun _ z => if z.act = 0 then [] else [(Flt.breakpoint, 0)]
    effect := fun s _ => s })

end Sys2Proof.Machine
end

