-- ==== Sys2Proof/Machine/Spindle.lean ====
section
/-! DEFINITION. Tile entries from issue to landing: tables and streams, seals, the poisoned-tile table, slots as their
senders see them, credits and slips (R340 to R347, R373 to R381, R398, R522, R523). -/

namespace Sys2Proof.Machine

/-! ### Seals (R343) -/

/-- One byte of a reflected CRC. -/
def crcBits (poly : Nat) : Nat → Nat → Nat
  | 0, c => c
  | n + 1, c => crcBits poly n (if c % 2 = 1 then c / 2 ^^^ poly else c / 2)
def crcBytes (poly : Nat) (c : Nat) (bs : List Byte) : Nat := bs.foldl (fun c b => crcBits poly 8 (c ^^^ b.toNat)) c

/-- CRC-32C: polynomial 0x1EDC_6F41 reflected. -/
def crc32c (bs : List Byte) : Nat := crcBytes 0x82F63B78 0xFFFFFFFF bs ^^^ 0xFFFFFFFF

/-! ### Records in memory -/

/-- The bits some fields occupy. -/
def fieldBits (l : List (Nat × Nat)) : Nat := l.foldl (fun m f => m ||| (2 ^ (f.1 + 1) - 2 ^ f.2)) 0

/-- The byte of the lowest set bit that no field names. -/
def rsvByte (n v allowed : Nat) : Option Nat :=
  (List.range n).find? (fun i => (bits v (8 * i + 7) (8 * i) &&& (255 - bits allowed (8 * i + 7) (8 * i))) != 0)

/-! ### Slips (R379 to R381) -/

/-- The histogram bin of a slip in ticks. -/
def slipBin (ticks : Nat) : Nat := if ticks = 0 then 0 else min 15 (ticks.log2 + 1)

/-- A wait slip of a domain, in reference cycles. -/
def State.waitSlip (s : State) (d c slot cycles : Nat) : State :=
  let b := slipBin (cycles / 256)
  let i := d + 1
  let s := s.setFldN clsTide i R.TD_SLIP_HIST_n_COUNT (8 * b) (s.fldN clsTide i R.TD_SLIP_HIST_n_COUNT (8 * b) + 1)
  let s := (s.setFld clsTide i R.TD_SLIP_TOTAL_CYCLES (s.fld clsTide i R.TD_SLIP_TOTAL_CYCLES + cycles)).count clsTide i Ev.TIDE_WAIT_SLIPS 1
  let s := s.tmk (fun t => { t with slip := bump t.slip b 1, slipMax := max t.slipMax cycles })
  if s.fld clsTide i R.TD_SLIP_MAX_CYCLES < cycles then
    s.setFlds clsTide i [(R.TD_SLIP_MAX_CYCLES, min cycles (2 ^ 32 - 1)), (R.TD_SLIP_MAX_LCORE, c), (R.TD_SLIP_MAX_SLOT, slot)]
  else s

def State.sendSlip (s : State) (d cycles : Nat) : State :=
  let b := slipBin (cycles / 256)
  let i := d + 1
  let s := s.setFldN clsTide i R.TD_SEND_HIST_n_COUNT (8 * b) (s.fldN clsTide i R.TD_SEND_HIST_n_COUNT (8 * b) + 1)
  (s.setFld clsTide i R.TD_SEND_TOTAL_CYCLES (s.fld clsTide i R.TD_SEND_TOTAL_CYCLES + cycles)).count clsTide i Ev.TIDE_SEND_SLIPS 1

/-! ### Slots as a sender meets them (R373, R374) -/

/-- The node that owns a slot of a core (R376). -/
def slotOwner (c o : Nat) : Nat := if o = 0xFFF then 0x600 + shelfDie c else o

/-- The domain a core is reserved to. -/
def State.coreDom (s : State) (c : Nat) : Option Nat :=
  (s.ns.doms.find? (fun p => p.2.reserved && p.2.cores.contains c)).map Prod.fst

/-- A slot's flag is set; the first wait on the fill may have slipped. Time is counted in whole ticks (log entry 25). -/
def State.slotFull (s : State) (c n : Nat) : State :=
  let x := (s.core c).slot n
  let s := s.modCore c (fun k => k.setSlot n { x with st := 2, waitFrom := none, waited := true })
  match s.coreDom c, x.waitFrom with
  | some d, some ts =>
    let slip := s.progTick (s.dom d) - max ts (x.plan : Int)
    if 0 < slip then s.waitSlip d c n (256 * slip.toNat) else s
  | _, _ => s

/-- A landing that R373 refuses, recorded as R398 gives. -/
def State.landError (s : State) (dom : Option Nat) : State :=
  let i := match dom with | some d => d + 1 | none => 0
  (s.raise clsTide i 2 true).count clsTide i Ev.TIDE_LAND_PROTOCOL 1

/-- The slots that `n` bytes from offset `off` (in units of 32 bytes) of slot `slot` touch. -/
def landSlots (slot off n : Nat) : List Nat :=
  let a := slot + 32 * off / 2048
  (List.range (slot + (32 * off + n + 2047) / 2048 - a)).map (fun i => a + i)

/-- A landing message reaches its core: bytes and state of its slots, or a protocol error. -/
def State.landAt (s : State) (m : LandMsg) : State × Bool :=
  let k := s.core m.core
  let sl := if m.mark then [m.slot] else landSlots m.slot m.off m.data.length
  if sl.any (fun n => decide (k.landCount ≤ n)) then (s, false)
  else if sl.any (fun n => (k.slot n).st == 2 || slotOwner m.core (k.slot n).owner != m.node) then (s.landError m.dom, false)
  else
    let k := { k with sp := k.sp.writeBytes (k.landBase + 2048 * m.slot + 32 * m.off) m.data }
    let k := sl.foldl (fun k n =>
      let x := k.slot n
      let x := if x.st = 0 then { x with plan := m.plan } else x
      k.setSlot n { x with
        st := 1, poison := x.poison || m.poison, mark := m.mark
        fills := if x.fills.contains (m.src, m.num) then x.fills else x.fills ++ [(m.src, m.num)] }) k
    (s.setCore m.core k, true)

/-! ### Tables -/

def State.table? (s : State) : Src → Option Table
  | .cmd x q i => s.ns.streams.find? (fun t => t.src == .cmd x q i)
  | .dom d n => ((s.dom d).tables)[n]?

def State.setTable (s : State) (t : Table) : State :=
  match t.src with
  | .cmd _ _ _ => { s with ns := { s.ns with streams := s.ns.streams.map (fun u => if u.src == t.src then t else u) } }
  | .dom d n => s.modDom d (fun x => { x with tables := x.tables.set n t })

/-- What a stream or table has under way. -/
def State.inFlight (s : State) (src : Src) : Bool :=
  s.ns.flights.any (fun f => f.src == src) || s.ns.landings.any (fun l => l.src == src)

/-- A stream or a table that has nothing left to do completes (R341, R384, R447). -/
def State.tableCheck (s : State) (src : Src) : State :=
  match s.table? src with
  | none => s
  | some t => match src with
    | .cmd x q i =>
      if (t.ended = 0 && t.next < t.count) || s.inFlight src then s
      else match s.cmdAt x q i with
        | none => s
        | some k =>
          let s := { s with ns := { s.ns with streams := s.ns.streams.filter (fun u => u.src != src) } }
          let k := { k with result := t.delivered, poisoned := t.poisoned }
          if t.ended ≠ 0 then s.complete k t.ended t.reason t.detail false
          else if t.poisoned then s.complete k Sta.poison Rsn.seal 0 false
          else s.complete k 0 0 0 false
    | .dom d _ => if t.ended ≠ 0 then s.abortDom d t.ended t.reason t.detail none else s.tideDone d

/-- A stream ends with a status; entries behind the failing one are not delivered, and their credits return. -/
def State.endTable (s : State) (t : Table) (num status reason detail : Nat) : State :=
  let later := s.ns.flights.filter (fun f => f.src == t.src && decide (num ≤ f.num))
  let s := { s with ns := { s.ns with flights := s.ns.flights.filter (fun f => !(f.src == t.src && decide (num ≤ f.num))) } }
  let back := later.flatMap (fun f => match t.issued.find? (fun e => e.num == f.num) with
    | some e => e.cores.flatMap (fun c => e.slots.map (fun n => ({ owner := 0x600 + t.target, core := c, slot := n } : Credit)))
    | none => [])
  let s := { s with ns := { s.ns with credits := s.ns.credits ++ back } }
  let t := { t with ended := status, reason := reason, detail := detail, issued := t.issued.filter (fun e => decide (e.num < num)) }
  (s.setTable t).tableCheck t.src

/-- Whether a stream or table may issue entries now. -/
def State.mayStream (s : State) (t : Table) : Bool :=
  t.ended == 0 && decide (t.next < t.count) && (match t.src with
    | .cmd x q i => (s.cmdAt x q i).isSome && (s.ctx x).st == 2 && !(s.ctx x).stopping
    | .dom d _ => (s.dom d).st == 3)

/-! ### Issue (R340 to R342, R345, R346, R380) -/

/-- Fields of a tile entry as one number of 32 bytes. -/
def tileBits : Nat := fieldBits [(56, 5), (64 + 57, 64 + 57), (64 + 55, 64 + 40), (64 + 38, 64), (128 + 31, 128), (192 + 15, 192)]

/-- What is wrong with a tile entry in itself: reason and offset (R341, R600). -/
def tileBad (t : Table) (v : Nat) : Option (Nat × Nat) :=
  match rsvByte 32 v tileBits with
  | some o => some (Rsn.rsvBit, o)
  | none =>
    if t.msets.length ≤ bits v 111 104 then some (Rsn.mset, 13)
    else if 4096 < v % 4096 / 32 * 32 + 32 * (bits v 102 96 + 1) then some (Rsn.entryCross, 12)
    else none

/-- Entries of an engine in flight (R346). -/
def State.engineLoad (s : State) (die : Nat) : Nat :=
  ((s.ns.streams ++ s.ns.doms.flatMap (fun d => d.2.tables)).filter (fun t => t.kind == 0 && t.target == die)).foldl
    (fun n t => n + (t.next - t.delivered)) 0
def State.engineLimit (s : State) (die : Nat) : Nat :=
  let n := s.fld clsSpindle die R.SPN_CTL_MAX_INFLIGHT
  if n = 0 then 512 else n

/-- The credits of an entry's slots, none of which is spent unless all are present (R345). -/
def State.takeCredits (s : State) (l : List Credit) : Option State :=
  if l.all (fun c => s.ns.credits.contains c) then
    some { s with ns := { s.ns with credits := l.foldl (fun a c => a.erase c) s.ns.credits } }
  else none

/-- An entry waits at issue: the first time is kept, for its slip and for the send-stall rule. -/
def State.holdTable (s : State) (t : Table) (p : Int) : State :=
  if t.waitFrom.isSome then s else s.setTable { t with waitFrom := some p }

/-- ENTRY_ISSUE: the next tile entry of a stream or spindle table. -/
def execEntryIssue (src : Src) (s : State) : Host.Outcome State Fault Refusal :=
  match s.table? src with
  | none => .next s
  | some t =>
    if t.kind ≠ 0 || !s.mayStream t then .next s
    else match s.bufRead t.cove t.space (t.va + 32 * t.next) 32 with
      | .wait => .next s
      | .ghost => .next (s.endTable t t.next Sta.aborted Rsn.ebbReread 0)
      | .refused => .next (s.endTable t t.next Sta.permission Rsn.bufAccess 0)
      | .down => .next (s.endTable t t.next Sta.aborted Rsn.linkDown 0)
      | .ok bs p =>
        let v := leNat bs
        if p then .next (s.endTable t t.next Sta.poison Rsn.descPoison 0)
        else match tileBad t v with
          | some (r, o) => .next (s.endTable t t.next Sta.format r o)
          | none =>
            let va := bits v 56 5 * 32
            let n := 32 * (bits v 102 96 + 1)
            let pa? := match s.locate t.cove 0 va false with
              | .dev pa => if coherent (region pa) then some pa else none
              | _ => none
            match pa? with
            | none => .next (s.endTable t t.next Sta.permission Rsn.bufAccess 0)
            | some pa =>
              let tick := bits v 159 128
              let prog : Int := match src with | .dom d _ => s.progTick (s.dom d) | _ => (tick : Int)
              if prog < tick then .next s
              else
                let cores := t.msets.getD (bits v 111 104) []
                let slots := landSlots (bits v 119 112) (bits v 207 192) n
                let pairs := cores.flatMap (fun c => slots.map (fun k => (c, k)))
                let need := (pairs.filter (fun p => !t.spent.contains p)).map (fun p => ({ owner := 0x600 + t.target, core := p.1, slot := p.2 } : Credit))
                if s.engineLimit t.target ≤ s.engineLoad t.target then .next (s.holdTable t prog)
                else match s.takeCredits need with
                  | none => .next (s.holdTable t prog)
                  | some s =>
                    let setf := bit v 121
                    let s := match src, t.waitFrom with
                      | .dom d _, some _ => s.sendSlip d (256 * (prog - tick).toNat)
                      | _, _ => s
                    let f : Flight := { src := src, num := t.next, words := [v % 2 ^ 64, bits v 127 64, bits v 191 128, bits v 255 192], pa := pa, cores := cores }
                    let t := { t with
                      next := t.next + 1, waitFrom := none, spent := if setf then [] else t.spent ++ pairs.filter (fun p => !t.spent.contains p)
                      issued := t.issued ++ [{ num := t.next, setf := setf, cores := cores, slots := slots }] }
                    let s := s.setTable t
                    .next { s with ns := { s.ns with flights := s.ns.flights ++ [f] } }

/-! ### The seal (R344) -/

/-- The poisoned-tile table takes an address, in its lowest free entry; answers whether it had room. -/
def State.listTile (s : State) (pa : Nat) : State × Bool :=
  match (List.range 64).find? (fun n => s.ns.badTiles.all (fun p => p.1 != n)) with
  | none => (s, false)
  | some n => ({ s with ns := { s.ns with badTiles := minsert n (pa / 32) s.ns.badTiles } }, true)

def State.tileListed (s : State) (pa : Nat) : Bool := s.ns.badTiles.any (fun p => p.2 / 128 == pa / 4096)

/-- A recorded failure of an entry (SPN_SEAL_ERR, R526). -/
def State.sealRecord (s : State) (die pa outcome : Nat) (ue : Bool) (cove : Nat) : State :=
  let s := s.record clsSpindle die 1 R.SPN_SEAL_ERR_VALID
    [(R.SPN_SEAL_ERR_OUTCOME, outcome), (R.SPN_SEAL_ERR_UE, boolNat ue), (R.SPN_SEAL_ERR_ADDR, pa / 32)]
  s.rasEvent {
    cls := clsSpindle, inst := die, sev := if outcome = 0 then Sev.recovered else Sev.contained, kind := outcome, addr := pa
    cove := some cove, info := [s.regWord clsSpindle die 0x110] } false

/-- The bytes of an entry leave the tap for every core of its set. -/
def State.sendEntry (s : State) (t : Table) (f : Flight) (bs : List Byte) (poison : Bool) : State :=
  let v1 := f.words.getD 1 0
  let dom := match t.src with | .dom d _ => some d | _ => none
  let plan := match dom with
    | some d => (f.words.getD 2 0 % 2 ^ 32 + (s.dom d).spnPlat) % 2 ^ 32
    | none => 0
  let msgs := f.cores.map (fun c => ({
    node := 0x600 + t.target, core := c, slot := bits v1 55 48, off := f.words.getD 3 0 % 65536, data := bs, poison := poison
    setf := bit v1 57, mark := false, plan := plan, src := t.src, num := f.num, dom := dom } : LandMsg))
  let s := { s with ns := { s.ns with
    flights := s.ns.flights.filter (fun g => !(g.src == f.src && g.num == f.num)), landings := s.ns.landings ++ msgs } }
  let s := (s.count clsSpindle t.target Ev.SPINDLE_MCAST_TARGETS f.cores.length).count clsSpindle t.target Ev.SPINDLE_ENTRIES_POISONED (boolNat poison)
  if poison then s.setTable { t with poisoned := true } else s

/-- Read an entry's mirror directly from memory: bytes that pass their seal. -/
def State.mirrorRead (s : State) (pa n sealWord : Nat) : Option (List Byte) :=
  match s.mirrorOf pa with
  | none => none
  | some q =>
    let bs := s.mem.readBytes q n
    if (List.range (n / 32)).any (fun i => s.poisoned (q + 32 * i)) || crc32c bs ≠ sealWord then none else some bs

/-- An entry that fails its primary read: the mirror, or poison (R344, R523). -/
def State.sealFail (s : State) (t : Table) (f : Flight) (bs : List Byte) (ue : Bool) (sealWord : Nat) : State :=
  let s := s.count clsSpindle t.target Ev.SPINDLE_SEAL_FAIL 1
  match s.mirrorRead f.pa bs.length sealWord with
  | some ms =>
    let s := (s.count clsSpindle t.target Ev.SPINDLE_MIRROR_USED 1).count clsSpindle t.target Ev.SPINDLE_SECTORS_READ (bs.length / 32)
    let s := s.sealRecord t.target f.pa 0 ue t.cove
    let s := { s with ra := { s.ra with rewriting := sadd (f.pa / 4096) s.ra.rewriting } }
    s.sendEntry t f ms false
  | none =>
    let r := s.listTile f.pa
    (r.1.sealRecord t.target f.pa 1 ue t.cove).sendEntry t f bs true

/-- SEAL_CHECK: the tap has the whole entry. -/
def execSealCheck (src : Src) (num : Nat) (s : State) : Host.Outcome State Fault Refusal :=
  match s.table? src, s.ns.flights.find? (fun f => f.src == src && f.num == num) with
  | some t, some f =>
    let v1 := f.words.getD 1 0
    let n := 32 * (bits v1 38 32 + 1)
    let sealWord := v1 % 2 ^ 32
    if s.tileListed f.pa then
      let (bs, s) := s.drawBytes n
      .next ((s.count clsSpindle t.target Ev.SPINDLE_POISON_TABLE_HIT 1).sendEntry t f bs true)
    else if s.ra.badPrim.contains (f.pa / 4096) then
      match s.mirrorRead f.pa n sealWord with
      | some ms => .next (((s.count clsSpindle t.target Ev.SPINDLE_MIRROR_USED 1).count clsSpindle t.target Ev.SPINDLE_SECTORS_READ (n / 32)).sendEntry t f ms false)
      | none =>
        let (bs, s) := s.drawBytes n
        let r := s.listTile f.pa
        .next (((r.1.count clsSpindle t.target Ev.SPINDLE_SEAL_FAIL 1).sealRecord t.target f.pa 1 false t.cove).sendEntry t f bs true)
    else
      let parts := (cut f.pa n).map (fun p => s.paRead t.cove p.1 p.2)
      if parts.any (fun r => r == .wait) then .next s
      else if parts.any (fun r => r == .ghost) then
        .next (((cut f.pa n).foldl (fun s p => s.noteRead (0x600 + t.target) t.cove p.1 p.2 false) s).endTable t num Sta.aborted Rsn.ebbReread 0)
      else
        let bs := parts.flatMap (fun r => match r with | .ok b _ => b | _ => [])
        let ue := parts.any (fun r => match r with | .ok _ p => p | _ => false)
        let s := ((cut f.pa n).foldl (fun s p => s.noteRead (0x600 + t.target) t.cove p.1 p.2 false) s).count clsSpindle t.target
          Ev.SPINDLE_SECTORS_READ (n / 32)
        if ue || crc32c bs ≠ sealWord then .next (s.sealFail t f bs ue sealWord)
        else .next (s.sendEntry t f bs false)
  | _, _ => .next s

/-! ### Landing (R374) -/

/-- The fill that a SETF entry closes: the entries issued since the SETF entry before it. -/
def Table.group (t : Table) (e : Fill) : List Fill :=
  let prev := (t.issued.filter (fun f => f.setf && decide (f.num < e.num))).foldl (fun m f => max m (f.num + 1)) 0
  t.issued.filter (fun f => decide (prev ≤ f.num) && decide (f.num ≤ e.num))

def Table.at (t : Table) (f : Fill) (c : Nat) : Bool := t.landed.contains (f.num, c)
def Table.whole (t : Table) (f : Fill) : Bool := f.cores.all (fun c => t.at f c)

/-- The slots of a fill at a core become FULL together. -/
def State.flagCore (s : State) (t : Table) (e : Fill) (c : Nat) : State :=
  let g := (t.group e).filter (fun f => f.cores.contains c)
  if g.all (fun f => t.at f c) && (e.cores.contains c || t.whole e) then
    (g.flatMap (fun f => f.slots.map (fun n => (f.num, n)))).foldl (fun s p =>
      let x := (s.core c).slot p.2
      if x.st = 1 && x.fills.contains (t.src, p.1) then s.slotFull c p.2 else s) s
  else s

/-- Entry `num` has landed at core `c`: flags, delivery, and the end of its table. -/
def State.noteLanded (s : State) (src : Src) (num c : Nat) : State :=
  match s.table? src with
  | none => s
  | some t =>
    let t := { t with landed := (num, c) :: t.landed }
    let s := (t.issued.filter (fun e => e.setf && decide (num ≤ e.num))).foldl (fun s e =>
      (dedup ((t.group e).flatMap (fun f => f.cores))).foldl (fun s k => s.flagCore t e k) s) s
    let full := t.issued.any (fun e => e.num == num && t.whole e)
    let s := if full && t.kind = 0 then s.count clsSpindle t.target Ev.SPINDLE_ENTRIES_DELIVERED 1 else s
    let gone := (t.issued.filter (fun e => e.setf && (t.group e).all (fun f => t.whole f))).flatMap (fun e => (t.group e).map Fill.num)
    let t := { t with
      delivered := t.delivered + boolNat full
      issued := t.issued.filter (fun e => !gone.contains e.num)
      landed := t.landed.filter (fun p => !gone.contains p.1) }
    (s.setTable t).tableCheck src

/-- LANDING: a landing message reaches a slot. Messages for one slot may land in any order (R345). -/
def execLanding (core slot : Nat) (s : State) : Host.Outcome State Fault Refusal :=
  let ms := s.ns.landings.filter (fun m => m.core == core && m.slot == slot)
  if ms.isEmpty then .next s
  else
    let (i, s) := s.draw ms.length
    match ms[i]? with
    | none => .next s
    | some m =>
      let s := { s with ns := { s.ns with landings := s.ns.landings.erase m } }
      let r := s.landAt m
      let s := if m.mark && r.2 then r.1.slotFull core slot else r.1
      .next (s.noteLanded m.src m.num core)

/-! ### Credits (R376, R415) -/

/-- CREDIT: a slot credit reaches its owner; a Tideway port keeps it for its partner. -/
def execCredit (owner core slot : Nat) (s : State) : Host.Outcome State Fault Refusal :=
  let r : Credit := { owner := owner, core := core, slot := slot }
  if !s.ns.flying.contains r then .next s
  else
    let s := { s with ns := { s.ns with flying := s.ns.flying.erase r } }
    let s := match s.coreDom core with
      | some d => s.count clsTide (d + 1) Ev.TIDE_CREDITS_RETURNED 1
      | none => s
    if isPortNode owner then
      .next (s.modPort (owner - 0x630) (fun p => { p with creditsOut := p.creditsOut ++ [2 ^ 63 + core % 1024 * 2 ^ 48 + slot % 256 * 2 ^ 40] }))
    else .next { s with ns := { s.ns with credits := s.ns.credits ++ [r] } }

end Sys2Proof.Machine
end

