-- ==== Sys2Proof/Machine/Reduce.lean ====
section
/-! DEFINITION. The mesh: occupancy figures, resent synchronization messages, network reductions
(R332 to R339, R348 to R354). -/

namespace Sys2Proof.Machine

/-! ### Port routers (R338, R339, R580) -/

/-- The router of entry `i` of the occupancy section: edge ports 0 to 7, then Tideway ports 0 to 23. -/
def portRouter (i : Nat) : Nat :=
  if i < 4 then 16 * i + 1
  else if i < 8 then 16 * (12 + (i - 4)) + 13
  else
    let p := i - 8
    if p < 12 then 16 * (4 * (p / 3)) + 4 * (p % 3) else 16 * (4 * ((p - 12) / 3) + 3) + 4 * ((p - 12) % 3) + 3

/-- The fields of NOC_LINK_OCC from its 56 bits. -/
def occFields (v : Nat) : List (Fld × Nat) :=
  [(R.NOC_LINK_OCC_N, bits v 7 0), (R.NOC_LINK_OCC_E, bits v 15 8), (R.NOC_LINK_OCC_S, bits v 23 16), (R.NOC_LINK_OCC_W, bits v 31 24),
   (R.NOC_LINK_OCC_CORE, bits v 39 32), (R.NOC_LINK_OCC_SLICE, bits v 47 40), (R.NOC_LINK_OCC_IO, bits v 55 48)]

/-- OCC_UPDATES: the routers' figures of a 1 ms interval; those of the 32 port routers are copied to the distance table. -/
def execOccUpdates (occ : List (Nat × Nat)) (s : State) : Host.Outcome State Fault Refusal :=
  if !s.ready then .next s
  else
    let at_ := fun r => match occ.find? (fun p => p.1 == r) with | some p => p.2 % 2 ^ 56 | none => 0
    let s := (List.range 256).foldl (fun s r => s.setFlds clsNoc r (occFields (at_ r))) s
    let s := { s with
      occ := (List.range 32).foldl (fun m i => mset 0 m i (at_ (portRouter i))) [], occGen := s.occGen + 1 }
    .next (s.count clsDist 0 Ev.DIST_OCC_UPDATES 1)

/-- SYNC_RESEND: a synchronization message is resent in the next cycle; counted at the port router's hub. -/
def execSyncResend (router : Nat) (s : State) : Host.Outcome State Fault Refusal :=
  if (List.range 32).any (fun i => portRouter i == router) then .next (s.count clsNoc router Ev.NOC_SYNC_RESEND 1) else .next s

/-! ### The tree of a reduction (R332, R351) -/

def routerX (r : Nat) : Nat := r / 16 % 4 * 4 + r % 4
def routerY (r : Nat) : Nat := r / 64 * 4 + r % 16 / 4
def routerAt (x y : Nat) : Nat := 16 * (y / 4 * 4 + x / 4) + y % 4 * 4 + x % 4

/-- The next router on the way to the root: X first, then Y. -/
def nextHop (root r : Nat) : Nat :=
  let x := routerX r
  let y := routerY r
  let tx := routerX root
  let ty := routerY root
  if x < tx then routerAt (x + 1) y else if tx < x then routerAt (x - 1) y
  else if y < ty then routerAt x (y + 1) else if ty < y then routerAt x (y - 1) else r

/-- The routers from `r` to the root, both included. -/
def routeOf (root : Nat) : Nat → Nat → List Nat
  | 0, r => [r]
  | n + 1, r => if r = root then [r] else r :: routeOf root n (nextHop root r)

/-- The router of a logical core (R333). -/
def coreRouter (c : Nat) : Nat := 16 * (c / 64) + c % 16

def NetRed.e (r : NetRed) : Nat := bits r.words 63 32
def NetRed.window (r : NetRed) : Nat := bits r.words 10 8 + 1
def NetRed.dkind (r : NetRed) : Nat := bits r.words 89 88
def NetRed.dst (r : NetRed) : Fmt := (Fmt.ofCode (bits r.words 19 16)).getD .fp32
def NetRed.daddr (r : NetRed) : Nat := bits r.words 184 128
def NetRed.dcore (r : NetRed) : Nat := bits r.words 105 96
def NetRed.dslot (r : NetRed) : Nat := bits r.words 113 106
def NetRed.nchunks (r : NetRed) : Nat := (r.e + 15) / 16
/-- Elements of a chunk. -/
def NetRed.count (r : NetRed) (j : Nat) : Nat := min 16 (r.e - 16 * j)

/-- The routers of the tree. -/
def NetRed.tree (r : NetRed) : List Nat := dedup (r.srcs.flatMap (fun c => routeOf r.root 31 c.2.2))

/-- The contributors that a router's operand contains, by index: those whose way to the root leads through it. -/
def NetRed.under (r : NetRed) (q : Nat) : List Nat :=
  (List.range r.srcs.length).filter (fun i => match r.srcs[i]? with
    | some c => (routeOf r.root 31 c.2.2).contains q
    | none => false)
def NetRed.low (r : NetRed) (q : Nat) : Nat := ((r.under q).head?).getD 0
/-- The contributors injected at a router, and the routers that send to it. -/
def NetRed.locals (r : NetRed) (q : Nat) : List Nat :=
  (List.range r.srcs.length).filter (fun i => (r.srcs[i]?).any (fun c => c.2.2 == q))
def NetRed.inputs (r : NetRed) (q : Nat) : List Nat := r.tree.filter (fun p => p != r.root && nextHop r.root p == q)
/-- Chunk slots that a router reserves (R350). -/
def NetRed.need (r : NetRed) (q : Nat) : Nat := r.window * ((r.locals q).length + (r.inputs q).length)

/-! ### The end of a reduction -/

/-- The command that a stream, table or reduction works for. -/
def State.srcCmd (s : State) : Src → Option Cmd
  | .cmd x q i => s.cmdAt x q i
  | .dom d _ => match (s.dom d).cmd with
    | some (x, q, i) => s.cmdAt x q i
    | none => none

/-- Mark a command's record: INEXACT_WIDE, POISONED. -/
def State.markCmd (s : State) (src : Src) (wide poison : Bool) : State :=
  match s.srcCmd src with
  | some k => if wide || poison then s.setCmd { k with inexact := k.inexact || wide, poisoned := k.poisoned || poison } else s
  | none => s

/-- Add to a router's reserved slots and its reductions. -/
def State.redSlots (s : State) (q : Nat) (add : Bool) (n : Nat) : State :=
  let u := s.fld clsNoc q R.NOC_RED_STATE_SLOTS_USED
  let a := s.fld clsNoc q R.NOC_RED_STATE_ACTIVE
  s.setFlds clsNoc q [(R.NOC_RED_STATE_SLOTS_USED, if add then u + n else u - n), (R.NOC_RED_STATE_ACTIVE, if add then a + 1 else a - 1)]

def State.red? (s : State) (src : Src) (num : Nat) : Option NetRed := s.ns.reds.find? (fun r => r.src == src && r.num == num)
def State.setRed (s : State) (r : NetRed) : State :=
  { s with ns := { s.ns with reds := s.ns.reds.map (fun u => if u.src == r.src && u.num == r.num then r else u) } }
def State.dropRed (s : State) (r : NetRed) : State :=
  { s with ns := { s.ns with reds := s.ns.reds.filter (fun u => !(u.src == r.src && u.num == r.num)) } }

/-- Whether every chunk has left a router. -/
def NetRed.through (r : NetRed) (q : Nat) : Bool := (List.range r.nchunks).all (fun j => r.gone.contains (q, j))

/-- An entry of a table has been performed. -/
def State.entryDone (s : State) (src : Src) : State :=
  match s.table? src with
  | some t => (s.setTable { t with delivered := t.delivered + 1 }).tableCheck src
  | none => s

/-- A reduction ends with all its results written. -/
def State.redDone (s : State) (r : NetRed) : State :=
  let s := s.dropRed r
  match r.src with
  | .cmd x q i => match s.cmdAt x q i with
    | some k => s.finish k 0
    | none => s
  | .dom _ _ => s.entryDone r.src

/-- A reduction ends with a status: its slots are released. -/
def State.redFail (s : State) (r : NetRed) (status reason detail : Nat) : State :=
  let s := if r.alloc then r.tree.foldl (fun s q => if r.through q then s else s.redSlots q false (r.need q)) s else s
  let s := s.dropRed r
  match r.src with
  | .cmd x q i => match s.cmdAt x q i with
    | some k => s.fail k status reason detail
    | none => s
  | .dom d _ => s.abortDom d status reason detail none

/-- The status and reason of a read that a reduction could not make. -/
def readStatus : Rd → Nat × Nat
  | .ghost => (Sta.aborted, Rsn.ebbReread)
  | .down => (Sta.aborted, Rsn.linkDown)
  | _ => (Sta.permission, Rsn.bufAccess)

/-! ### The descriptor (R348, Table 12-6) -/

def redBits : Nat :=
  fieldBits [(7, 0), (10, 8), (19, 16), (22, 20), (24, 23), (63, 32), (74, 64), (87, 80), (89, 88), (105, 96), (113, 106), (184, 128), (248, 192)]

/-- RMODE and SATM of a descriptor: the mode R94 names, or the default. -/
def modeCode (d : RMode) (n : Nat) : RMode := if n = 0 then d else RMode.ofCode (n % 4)
def satCode (d : SatMode) (n : Nat) : SatMode := if n = 0 then d else if n = 1 then .sat else .nosat
def modeOk (n : Nat) : Bool := n == 0 || decide (4 ≤ n)

/-- What R348 finds wrong with a descriptor: status, reason, offset. -/
def State.redBad (s : State) (cove v : Nat) : Option (Nat × Nat × Nat) :=
  let bad := fun o => some (Sta.format, Rsn.fieldRange, o)
  if bits v 7 0 ≠ 0xD1 then bad 0
  else match rsvByte 64 v redBits with
    | some o => some (Sta.format, Rsn.rsvBit, o)
    | none =>
      let dk := bits v 89 88
      if (Fmt.ofCode (bits v 19 16)).isNone || !modeOk (bits v 22 20) || bits v 24 23 = 3 then bad 2
      else if bits v 74 64 = 0 || 1024 < bits v 74 64 then bad 8
      else if dk = 2 && bits v 87 80 ≠ 0 then bad 10
      else if dk = 3 then bad 11
      else if dk = 2 && !(s.coveCores cove).contains (bits v 105 96) then some (Sta.permission, Rsn.coreSet, 12)
      else if dk ≠ 2 && bits v 130 128 ≠ 0 then bad 16
      else none

/-- A reduction that its allocator has yet to serve. -/
def State.addRed (s : State) (src : Src) (num cove ctx v : Nat) (rm : RMode) (sm : SatMode) (plan : Nat) : State :=
  let r : NetRed := {
    src := src, num := num, cove := cove, ctx := ctx, words := v, srcs := [], plan := plan
    root := if bits v 89 88 = 2 then coreRouter (bits v 105 96) else bits v 87 80
    rm := modeCode rm (bits v 22 20), sm := satCode sm (bits v 24 23) }
  { s with ns := { s.ns with reds := s.ns.reds ++ [r] } }

/-! ### Allocation (R349, R350) -/

/-- A reduction whose context or domain may run. -/
def State.redMay (s : State) (r : NetRed) : Bool :=
  match r.src with
  | .cmd x _ _ => (s.ctx x).st == 2 && !(s.ctx x).stopping
  | .dom d _ => (s.dom d).st == 3

/-- The contributors of a list, or the byte offset of a reserved bit or of a misaligned address. -/
def parseSrcs (bs : List Byte) : Nat → Nat → (Option (Nat × Nat) × List (Nat × Bool × Nat))
  | 0, _ => (none, [])
  | n + 1, o =>
    let v := leNat ((bs.drop o).take 16)
    if bits v 63 58 ≠ 0 || bits v 127 72 ≠ 0 then (some (Rsn.rsvBit, o), [])
    else if v % 8 ≠ 0 then (some (Rsn.fieldRange, o), [])
    else
      let r := parseSrcs bs n (o + 16)
      (r.1, (bits v 56 0, bit v 57, bits v 71 64) :: r.2)

/-- RED_ALLOCATION: the allocator reserves every slot of a tree or none, in the order of arrival. -/
def execRedAllocation (src : Src) (num : Nat) (s : State) : Host.Outcome State Fault Refusal :=
  match s.ns.reds.find? (fun r => !r.alloc && s.redMay r) with
  | none => .next s
  | some r =>
    if r.src ≠ src || r.num ≠ num then .next s
    else
      let n := bits r.words 74 64
      match s.bufRead r.cove 0 (bits r.words 248 192) (16 * n) with
      | .wait => .next s
      | .ok bs p =>
        if p then .next (s.redFail r Sta.poison Rsn.descPoison 0)
        else match parseSrcs bs n 0 with
          | (some (why, o), _) => .next (s.redFail r Sta.format why o)
          | (none, l) =>
            let r := { r with srcs := l }
            if r.tree.any (fun q => decide (256 < r.need q)) then .next (s.redFail r Sta.format Rsn.fieldRange 8)
            else if r.tree.any (fun q => decide (256 < s.fld clsNoc q R.NOC_RED_STATE_SLOTS_USED + r.need q)) then .next s
            else .next (r.tree.foldl (fun s q => s.redSlots q true (r.need q)) (s.setRed { r with alloc := true }))
      | x => .next (s.redFail r (readStatus x).1 (readStatus x).2 0)

/-! ### Combining (R351 to R354) -/

/-- An operand of a chunk: its LOW, values, poison. -/
abbrev Oper := Nat × List Nat × Bool

/-- The contributions injected at a router, read by its copy tap; a contribution's PINNED bit is ignored. -/
def State.readOpers (s : State) (r : NetRed) (j : Nat) : List Nat → Except Rd (List Oper)
  | [] => .ok []
  | i :: is =>
    let c := r.srcs.getD i (0, false, 0)
    let n := r.count j
    match s.bufRead r.cove (boolNat c.2.1) (c.1 + 640 * j) (40 * n) with
    | .ok bs p =>
      let vs := (List.range n).map (fun k => Wes.encode { Wes.decode (leNat ((bs.drop (40 * k)).take 40)) with pinned := false })
      match s.readOpers r j is with
      | .ok l => .ok ((i, vs, p) :: l)
      | e => e
    | x => .error x

/-- Operands in ascending LOW. -/
def sortOpers (l : List Oper) : List Oper := l.mergeSort (fun a b => decide (a.1 ≤ b.1))

/-- Two operands, element by element. -/
def addVals (a b : List Nat) : List Nat := List.zipWith (fun x y => Wes.encode ((Wes.decode x).addFloat (Wes.decode y))) a b

/-- The sum of a chunk's operands, left to right in ascending LOW. -/
def sumOpers (l : List Oper) : List Nat × Bool :=
  match sortOpers l with
  | [] => ([], false)
  | o :: os => os.foldl (fun a b => (addVals a.1 b.2.1, a.2 || b.2.2)) (o.2.1, o.2.2)

/-- One rounded element of a result; a WES-320 destination takes the value unrounded. -/
def roundWes (f : Fmt) (rm : RMode) (sm : SatMode) (x : Nat) : Rounded :=
  if f = .wes then { bits := x } else (Wes.decode x).round f rm sm

/-- R576: an injected error of a router's buffers meets the next chunk that the router combines. -/
def State.bufCheck (s : State) (q node cove : Nat) : State × Bool :=
  match s.takeInjection clsNoc q 1 with
  | some s =>
    let s := s.record clsNoc q 1 R.NOC_ERR_VALID [(R.NOC_ERR_SOURCE, 0), (R.NOC_ERR_NODE, node)]
    (s.rasEvent { cls := clsNoc, inst := q, sev := Sev.contained, kind := Knd.other, cove := some cove,
                  info := [s.regWord clsNoc q 0x118] } true, true)
  | none => match s.takeInjection clsNoc q 0 with
    | some s =>
      (((s.count clsNoc q Ev.NOC_BUF_CORRECTED 1).errBit clsNoc q 0).rasEvent
        { cls := clsNoc, inst := q, sev := Sev.corrected, kind := Knd.other, cove := some cove } true, false)
    | none => (s, false)

/-- A landing slot takes the whole result under credit, and its flags. None while a credit is missing. -/
def State.redLand (s : State) (r : NetRed) (bs : List Byte) : Option State :=
  let node := 0x610 + r.dcore / 64
  let slots := landSlots r.dslot 0 bs.length
  match s.takeCredits (slots.map (fun n => { owner := node, core := r.dcore, slot := n })) with
  | none => none
  | some s =>
    let dom := match r.src with | .dom d _ => some d | _ => none
    let x := s.landAt {
      node := node, core := r.dcore, slot := r.dslot, off := 0, data := bs, poison := r.poisoned, setf := true, mark := false
      plan := r.plan, src := r.src, num := r.num, dom := dom }
    some (if x.2 then slots.foldl (fun s n => s.slotFull r.dcore n) x.1 else x.1)

/-- The root rounds a chunk and writes it. None while the write must wait; or a status. -/
def State.redWrite (s : State) (r : NetRed) (j : Nat) (vals : List Nat) (poison : Bool) : Except Rd (State × NetRed) :=
  let rs := vals.map (roundWes r.dst r.rm r.sm)
  let wide := (rs.filter (fun x => x.wide)).length
  let nan := (rs.filter (fun x => x.nanDrop)).length
  let note := fun (s : State) =>
    ((s.count clsNoc r.root Ev.NOC_INEXACT_WIDE wide).count clsNoc r.root Ev.NOC_NAN_DROP nan).markCmd r.src (wide != 0) poison
  let r := { r with poisoned := r.poisoned || poison, gone := (r.root, j) :: r.gone }
  let vs := rs.map Rounded.bits
  if r.dkind = 2 then
    let r := { r with out := minsert j vs r.out }
    if r.through r.root then
      match s.redLand r (packVals r.dst.width (r.out.flatMap Prod.snd)) with
      | some s => .ok (note s, r)
      | none => .error .wait
    else .ok (note s, r)
  else match s.bufWrite r.cove r.dkind (r.daddr + j * packedBytes r.dst 16) (packVals r.dst.width vs) poison with
    | .ok s => .ok (note s, r)
    | .wait => .error .wait
    | .refused => .error .refused
    | .down => .error .down

/-- A router releases its slots when the last chunk has left it. -/
def State.redLeave (s : State) (r : NetRed) (q : Nat) : State := if r.through q then s.redSlots q false (r.need q) else s

/-- CHUNK_COMBINE: a router combines a chunk once every operand has arrived; the sum goes to the next router, when a
reserved slot is free there, or the root writes it. -/
def execChunkCombine (src : Src) (num router chunk : Nat) (s : State) : Host.Outcome State Fault Refusal :=
  match s.red? src num with
  | none => .next s
  | some r =>
    let low := r.low router
    let got := r.inputs router |>.filterMap (fun p => r.parts.find? (fun x => x.router == router && x.chunk == chunk && x.low == r.low p))
    let next := nextHop r.root router
    if !r.alloc || !r.tree.contains router || r.nchunks ≤ chunk || r.gone.contains (router, chunk) || got.length ≠ (r.inputs router).length
        || router ≠ r.root && r.window ≤ (r.parts.filter (fun x => x.router == next && x.low == low)).length then .next s
    else match s.readOpers r chunk (r.locals router) with
      | .error .wait => .next s
      | .error x => .next (s.redFail r (readStatus x).1 (readStatus x).2 0)
      | .ok l =>
        let l := l ++ got.map (fun x => (x.low, x.vals, x.poison))
        let s0 := (r.locals router).foldl (fun s i =>
          let c := r.srcs.getD i (0, false, 0)
          s.noteBuf (0x610 + router / 16) r.cove (boolNat c.2.1) (c.1 + 640 * chunk) (40 * r.count chunk)) s
        let b := s0.bufCheck router (0x610 + router / 16) r.cove
        let s1 := b.1.count clsNoc router Ev.NOC_RED_ADDS ((l.length - 1) * r.count chunk)
        let v := sumOpers l
        let p := v.2 || b.2
        let r := { r with parts := r.parts.filter (fun x => !(x.router == router && x.chunk == chunk)) }
        if router ≠ r.root then
          let r := { r with
            parts := r.parts ++ [{ router := next, chunk := chunk, low := low, vals := v.1, poison := p }]
            gone := (router, chunk) :: r.gone }
          .next ((s1.setRed r).redLeave r router)
        else match s1.redWrite r chunk v.1 p with
          | .error .wait => .next s
          | .error x => .next (s.redFail r (readStatus x).1 (readStatus x).2 0)
          | .ok (s2, r) =>
            let s := (s2.setRed r).redLeave r router
            if r.through r.root then .next (s.redDone r) else .next s

end Sys2Proof.Machine
end

