-- ==== Sys2Proof/Machine/Tideway.lean ====
section
/-! DEFINITION. Tideway ports: training, frames, replay, recovery, lane sparing, messages and credits
(R399 to R415, R422, R423, R516). -/

namespace Sys2Proof.Machine

/-! ### Ports and neighbours (R399 to R401) -/

def portDim (p : Nat) : Nat := p % 3
def portNeg (p : Nat) : Bool := decide (p < 12)
/-- The neighbour a port faces: dimension, and 3 more for the positive direction. -/
def portSide (p : Nat) : Nat := p % 3 + 3 * (p / 12)
def partnerPort (p : Nat) : Nat := if p < 12 then p + 12 else p - 12

def State.torus (s : State) (f : Fld) : Nat := s.fld clsTwp 24 f
/-- TORUS_CFG: this module's coordinate in a dimension, and the torus size there. -/
def State.coordReg (s : State) (d : Nat) : Nat :=
  s.torus (match d with | 0 => R.TORUS_CFG_X | 1 => R.TORUS_CFG_Y | _ => R.TORUS_CFG_Z)
def State.sizeReg (s : State) (d : Nat) : Nat :=
  s.torus (match d with | 0 => R.TORUS_CFG_DXM1 | 1 => R.TORUS_CFG_DYM1 | _ => R.TORUS_CFG_DZM1) + 1

/-- The coordinate and the size with which the ports of a dimension last trained: a change of TORUS_CFG takes effect at the
next training (R400). -/
def State.coordOf (s : State) (d : Nat) : Nat := mget 0 s.ns.geo d / 32
def State.sizeOf (s : State) (d : Nat) : Nat := mget 0 s.ns.geo d % 32 + 1
def State.takeGeo (s : State) (d : Nat) : State :=
  { s with ns := { s.ns with geo := mset 0 s.ns.geo d (32 * s.coordReg d + (s.sizeReg d - 1)) } }

/-- A coordinate as 15 bits: X, Y, Z from the top. -/
def coord15 (x y z : Nat) : Nat := x % 32 * 1024 + y % 32 * 32 + z % 32
def State.myCoord (s : State) : Nat := coord15 (s.coordOf 0) (s.coordOf 1) (s.coordOf 2)
def coordDim (v d : Nat) : Nat := match d with | 0 => bits v 14 10 | 1 => bits v 9 5 | _ => bits v 4 0

/-- The coordinate of the neighbour that a port must reach (R401). -/
def State.neighbour (s : State) (p : Nat) : Nat :=
  let c := fun d =>
    let n := s.sizeReg d
    let x := s.coordReg d
    if d = portDim p then (if portNeg p then (x + n - 1) % n else (x + 1) % n) else x
  coord15 (c 0) (c 1) (c 2)

/-- A port that takes part in the torus: enabled, in a dimension of more than one module. -/
def State.portOn (s : State) (p : Nat) : Bool := s.fld clsTwp p R.TWP_CFG_ENABLE == 1 && decide (1 < s.sizeReg (portDim p))

/-- A port of a dimension of more than one module, enabled: it has a neighbouring module. -/
def State.portServes (s : State) (p : Nat) : Bool := s.fld clsTwp p R.TWP_CFG_ENABLE == 1 && decide (1 < s.sizeOf (portDim p))

/-! ### Errors of a port (Table 14-13, R513, R516) -/

/-- Kinds of TWP_ERR. -/
def twRecover : Nat := 0
def twSpared : Nat := 1
def twHalf : Nat := 2
def twDown : Nat := 3
def twMiswired : Nat := 4

/-- An event of a port, recorded in TWP_ERR. DOWN sets UE, MISWIRED PROTOCOL, the others CE (DEDUCED, log entry 26). -/
def State.portErr (s : State) (p kind lane fseq : Nat) : State :=
  let b := if kind = twDown then 1 else if kind = twMiswired then 2 else 0
  s.record clsTwp p b R.TWP_ERR_VALID [(R.TWP_ERR_KIND, kind), (R.TWP_ERR_LANE, lane), (R.TWP_ERR_FSEQ, fseq)]

def State.portEvent (s : State) (p sev kind weight : Nat) (injected : Bool) : State :=
  s.rasEvent {
    cls := clsTwp, inst := p, sev := sev, kind := kind, bcls := 4, binst := p, weight := weight
    info := [s.regWord clsTwp p 0x128] } injected

/-- R415: the credits a port holds for its partner's slots are discarded. -/
def State.dropPortCredits (s : State) (p : Nat) : State :=
  { s with ns := { s.ns with credits := s.ns.credits.filter (fun r => r.owner != 0x630 + p), readies := s.ns.readies.filter (fun r => r.1 != p) } }

/-- What a port forgets when it leaves its link; credits for its partner wait for the next one. -/
def Twp.quiet (t : Twp) : Twp :=
  { t with
    width := 0, lat := 0, serial := 0, coord := 0, pport := 0, lanes := 0, fseq := 0, ackseq := 4095, acked := 4095, nak := false
    nakWait := false, kept := [], waitSegs := [], waitSync := [], vc := [], freed := [], asm := [], forced := false, keep := false }

/-- A port goes DOWN (Table 14-10). -/
def State.portDown (s : State) (p reason : Nat) : State :=
  let s := (s.modPort p (fun t => { t.quiet with st := 8, down := reason })).dropPortCredits p
  let s := s.portErr p (if reason = 6 then twMiswired else twDown) 0 0
  let s := s.portEvent p Sev.contained (if reason = 6 then twMiswired else twDown) 0 false
  s.tmk (fun t => { t with portDown := t.portDown + 1 })

/-- Training starts from DETECT with TORUS_CFG as it is; a port that takes no part in the torus stays DISABLED. -/
def State.startTraining (s : State) (p : Nat) : State :=
  let s := ((s.modPort p Twp.quiet).dropPortCredits p).takeGeo (portDim p)
  if s.portOn p then s.modPort p (fun t => { t with st := 1, down := 0, spared := 15 }) else s.modPort p (fun t => { t with st := 0 })

/-! ### Frames (R403, Table 14-2) -/

/-- CRC-64 of ECMA-182, reflected. -/
def crc64 (bs : List Byte) : Nat := crcBytes 0xC96C5795D7870F42 (2 ^ 64 - 1) bs ^^^ (2 ^ 64 - 1)

def padTo (n : Nat) (bs : List Byte) : List Byte := bs ++ List.replicate (n - bs.length) 0

/-- The 1,088 bytes of a frame. -/
def frameBytes (k : Kept) (ack : Nat) (nak replay : Bool) : List Byte :=
  let w0 := k.fseq * 2 ^ 52 + ack * 2 ^ 40 + boolNat nak * 2 ^ 39 + boolNat replay * 2 ^ 38 + (if k.segs.isEmpty then 2 ^ 36 else 0)
    + k.cr.getD 0 0 * 2 ^ 28 + k.cr.getD 1 0 * 2 ^ 20 + k.cr.getD 2 0 * 2 ^ 12
  let w1 := (List.range k.segs.length).foldl (fun v i => v + (k.segs.getD i (0, [])).1 * 2 ^ (3 * i)) 0
  let sync := match k.sync with | some m => [m.w0, m.w1] | none => [0, 0]
  let body := padTo 1024 (k.segs.flatMap (fun g => padTo 64 g.2))
    ++ ([w0, w1] ++ sync ++ (List.range 3).map (fun i => k.credits.getD i 0)).flatMap (leBytes 8)
  body ++ leBytes 8 (crc64 body)

/-- Send a frame: it carries the present ACKSEQ and, once, a NAK that is due. -/
def State.transmit (s : State) (p : Nat) (k : Kept) (replay : Bool) : State :=
  let t := s.port p
  let s := (s.count clsTwp p Ev.TWP_FRAMES_TX 1).count clsTwp p Ev.TWP_NAK_SENT (boolNat t.nak)
  (s.emit { kind := outFrame, a := p, data := frameBytes k t.ackseq t.nak replay }).modPort p (fun t => { t with nak := false })

/-- The segments that go into the next frame, in order, each channel only as far as its credits reach. -/
def pickSegs : Nat → List (Nat × Nat) → List (Nat × List Byte) → List (Nat × List Byte) × List (Nat × List Byte) × List (Nat × Nat)
  | _, vc, [] => ([], [], vc)
  | n, vc, g :: l =>
    if n ≠ 0 ∧ mget 0 vc g.1 ≠ 0 then
      let r := pickSegs (n - 1) (mset 0 vc g.1 (mget 0 vc g.1 - 1)) l
      (g :: r.1, r.2.1, r.2.2)
    else
      let r := pickSegs n (mset 0 vc g.1 0) l
      (r.1, g :: r.2.1, mset 0 r.2.2 g.1 (mget 0 vc g.1))

/-- The order in which sync messages take the sync slot (R412): SYNC, ABORT, HOLD, START_CHECK. -/
def syncRank (m : SyncMsg) : Nat := match bits m.w0 63 60 with | 1 => 0 | 3 => 1 | 2 => 2 | _ => 3

def pickSync (l : List SyncMsg) : Option SyncMsg :=
  l.foldl (fun r m => match r with | none => some m | some x => if syncRank m < syncRank x then some m else some x) none

/-- One frame of what a port has to send; none when it has nothing, or may send nothing. At most 128 frames are kept. -/
def State.pumpOne (s : State) (p : Nat) (force : Bool) : Option State :=
  let t := s.port p
  if t.st ≠ 6 || 128 ≤ t.kept.length then none
  else
    let g := pickSegs 16 t.vc t.waitSegs
    let sync := pickSync t.waitSync
    let cr := (t.creditsOut.take 3)
    let fr := [1, 2, 3].map (fun v => min 255 (mget 0 t.freed v))
    if !force && g.1.isEmpty && sync.isNone && cr.isEmpty && fr.all (fun n => n == 0) && !t.nak then none
    else
      let k : Kept := { fseq := t.fseq, segs := g.1, sync := sync, credits := cr, cr := fr }
      let s := s.modPort p (fun t => { t with
        fseq := (t.fseq + 1) % 4096, kept := t.kept ++ [k], waitSegs := g.2.1, vc := g.2.2
        waitSync := match sync with | some m => t.waitSync.erase m | none => t.waitSync
        creditsOut := t.creditsOut.drop 3
        freed := [1, 2, 3].foldl (fun m v => mset 0 m v (mget 0 m v - min 255 (mget 0 m v))) t.freed })
      let n := fun v => (g.1.filter (fun x => x.1 == v)).length
      let s := (((s.count clsTwp p Ev.TWP_DATA_SEGMENTS (n 1)).count clsTwp p Ev.TWP_RED_SEGMENTS (n 2)).count clsTwp p
        Ev.TWP_MEM_SEGMENTS (n 3)).count clsTwp p Ev.TWP_SLOT_CREDITS cr.length
      some (s.transmit p k false)

/-- Send frames until a port has nothing more that it may send. -/
def State.pump (s : State) (p : Nat) : Nat → State
  | 0 => s
  | n + 1 => match s.pumpOne p false with
    | some s => s.pump p n
    | none => s

def State.pumpAll (s : State) : State := s.ns.ports.foldl (fun s p => s.pump p.1 128) s

/-! ### Messages (Table 14-3) -/

def mtype (m : TwMsg) : Nat := bits m.w0 63 60
/-- The channel of a message type. -/
def vcOf (ty : Nat) : Nat := match ty with | 1 => 1 | 2 => 1 | 3 => 2 | 4 => 2 | _ => 3

/-- Bytes of the body that a header announces. -/
def bodyBytes (w0 : Nat) : Nat :=
  match bits w0 63 60 with
  | 1 => 32 * (bits w0 22 16 + 1)
  | 4 => (bits w0 20 16 + 1) * (if bit w0 29 then 40 else 2)
  | 5 => 32 * (bits w0 22 16 + 1)
  | _ => 0

def msgSegs (w0 : Nat) : Nat := (16 + bodyBytes w0 + 63) / 64

/-- Bits that the header words of a message type may hold. -/
def msgBits : Nat → Nat × Nat
  | 1 => (fieldBits [(63, 60), (57, 48), (47, 40), (39, 24), (22, 16), (1, 0)], 2 ^ 32 - 1)
  | 2 => (fieldBits [(63, 60), (57, 48), (47, 40)], 2 ^ 32 - 1)
  | 3 => (fieldBits [(63, 60), (47, 32), (31, 29)], 2 ^ 32 - 1)
  | 4 => (fieldBits [(63, 60), (47, 32), (31, 27), (20, 16), (14, 0)], 2 ^ 32 - 1)
  | 5 => (fieldBits [(63, 60), (57, 52), (46, 32), (31, 24), (22, 16), (14, 0)], 2 ^ 57 - 1)
  | 6 => (fieldBits [(63, 60), (55, 48), (46, 32), (31, 24)], 0)
  | _ => (0, 0)

/-- A message of a known type on its own channel, with no reserved bit set (R405). -/
def msgOk (vc : Nat) (m : TwMsg) : Bool :=
  let b := msgBits (mtype m)
  decide (1 ≤ mtype m) && decide (mtype m ≤ 6) && vcOf (mtype m) == vc && m.w0 &&& b.1 == m.w0 && m.w1 &&& b.2 == m.w1

/-- The segments of a message. -/
def segments (m : TwMsg) : List (Nat × List Byte) :=
  let bs := leBytes 8 m.w0 ++ leBytes 8 m.w1 ++ m.body
  (List.range (msgSegs m.w0)).map (fun i => (vcOf (mtype m), padTo 64 ((bs.drop (64 * i)).take 64)))

/-- Queue a message on a port, and send what may go. -/
def State.sendMsg (s : State) (p : Nat) (m : TwMsg) : State :=
  (s.modPort p (fun t => { t with waitSegs := t.waitSegs ++ segments m })).pump p 128

/-- Buffer segments of a channel are free again. -/
def State.freeSegs (s : State) (p vc n : Nat) : State :=
  s.modPort p (fun t => { t with freed := mset 0 t.freed vc (mget 0 t.freed vc + n) })

/-- A delivered segment joins its channel; a whole message is ready for its row, or dropped and counted (R405). -/
def State.takeSeg (s : State) (p vc : Nat) (bs : List Byte) : State :=
  let t := s.port p
  let got := ((t.asm.find? (fun a => a.1 == vc)).map Prod.snd).getD [] ++ bs
  let rest := t.asm.filter (fun a => a.1 != vc)
  let w0 := leNat (got.take 8)
  let n := msgSegs w0
  if got.length < 64 * n then s.modPort p (fun t => { t with asm := rest ++ [(vc, got)] })
  else
    let m : TwMsg := { w0 := w0, w1 := leNat ((got.drop 8).take 8), body := (got.drop 16).take (bodyBytes w0) }
    let s := s.modPort p (fun t => { t with asm := rest })
    let inj := s.takeInjection clsTwp p 2
    if msgOk vc m && inj.isNone then s.modPort p (fun t => { t with rx := t.rx ++ [m] })
    else (((inj.getD s).raise clsTwp p 2 true).count clsTwp p Ev.TWP_MSG_PROTOCOL 1).freeSegs p vc n

/-- The first message of a type's channel that waits at a port, when it is of that type: it leaves the receive buffer. -/
def State.popMsg (s : State) (p ty : Nat) : Option (TwMsg × State) :=
  match (s.port p).rx.find? (fun m => vcOf (mtype m) == vcOf ty) with
  | some m =>
    if mtype m = ty then
      some (m, ((s.modPort p (fun t => { t with rx := t.rx.erase m })).freeSegs p (vcOf ty) (msgSegs m.w0)).pump p 128)
    else none
  | none => none

/-- The first sync message of a type that waits at a port. -/
def State.popSync (s : State) (p ty : Nat) : Option (SyncMsg × State) :=
  match (s.port p).rxSync with
  | m :: l => if bits m.w0 63 60 = ty then some (m, s.modPort p (fun t => { t with rxSync := l })) else none
  | [] => none

/-! ### Replay and recovery (R408 to R411) -/

def State.replayBudget (s : State) (p : Nat) : Nat :=
  let n := s.fld clsTwp p R.TWP_CFG_REPLAY_BUDGET
  if n = 0 then 256 else n

/-- A port enters RECOVER; the third time within 1 s it goes DOWN. -/
def State.enterRecover (s : State) (p : Nat) : State :=
  let t := s.port p
  let recent := (t.recovers.filter (fun u => decide (s.now < u + 10 ^ 9))) ++ [s.now]
  let fseq := ((t.kept.head?).map Kept.fseq).getD 0
  let s := (s.modPort p (fun t => { t with st := 7, forced := false, recovers := recent })).count clsTwp p Ev.TWP_RECOVERS 1
  let s := (s.portErr p twRecover 0 fseq).portEvent p Sev.recovered twRecover (s.bucketHeavy 4) false
  if 3 ≤ recent.length then s.portDown p 8 else s

/-- Every kept frame is sent again, in order. -/
def State.resendAll (s : State) (p : Nat) : State :=
  let ks := (s.port p).kept
  let s := (s.count clsTwp p Ev.TWP_REPLAYS 1).count clsTwp p Ev.TWP_REPLAY_FRAMES ks.length
  let s := s.tmk (fun t => { t with twNow := bump t.twNow p 1 })
  let s := ks.foldl (fun s k => s.transmit p k true) s
  s.modPort p (fun t => { t with kept := t.kept.map (fun k => { k with replays := k.replays + 1 }) })

/-- A replay from the oldest kept frame, or RECOVER when its budget is spent. -/
def State.replay (s : State) (p : Nat) : State :=
  match (s.port p).kept with
  | [] => s
  | k :: _ => if s.replayBudget p ≤ k.replays then s.enterRecover p else s.resendAll p

/-- The kept frames that an ACKSEQ leaves. -/
def ackKept (l : List Kept) (a : Nat) : List Kept :=
  match l.findIdx? (fun k => k.fseq == a) with
  | some i => l.drop (i + 1)
  | none => l

/-- What a frame that is accepted brings (R404): acknowledgement, credits, sync message, segments, a request to replay. -/
def State.acceptFrame (s : State) (p : Nat) (bs : List Byte) : State :=
  let w := fun i => leNat ((bs.drop (1024 + 8 * i)).take 8)
  let w0 := w 0
  let replayed := bit w0 38
  let s := s.modPort p (fun t => { t with
    ackseq := bits w0 63 52, nakWait := false, acked := bits w0 51 40, kept := ackKept t.kept (bits w0 51 40)
    vc := [(1, bits w0 35 28), (2, bits w0 27 20), (3, bits w0 19 12)].foldl (fun m c => mset 0 m c.1 (mget 0 m c.1 + c.2)) t.vc
    rxSync := if bits (w 2) 63 60 = 0 then t.rxSync else t.rxSync ++ [{ w0 := w 2, w1 := w 3, replay := replayed }] })
  let cs := ([w 4, w 5, w 6].filter (fun c => bit c 63)).map (fun c => ({ owner := 0x630 + p, core := bits c 57 48, slot := bits c 47 40 } : Credit))
  let s := { s with ns := { s.ns with credits := s.ns.credits ++ cs } }
  let s := (List.range 16).foldl (fun s i =>
    let v := bits (w 1) (3 * i + 2) (3 * i)
    if v = 0 ∨ 3 < v then s else s.takeSeg p v ((bs.drop (64 * i)).take 64)) s
  let s := if bit w0 39 then s.replay p else s
  match s.pumpOne p true with
  | some s => s.pump p 128
  | none => s

/-- A frame that is not accepted (R408): the first time, a NAK goes out. -/
def State.rejectFrame (s : State) (p : Nat) : State :=
  if (s.port p).nakWait then s
  else
    let s := s.modPort p (fun t => { t with nak := true, nakWait := true })
    match s.pumpOne p true with
    | some s => s
    | none => s

/-- FRAME: the bytes of one frame arrive. Nothing of a frame is delivered until its CRC has passed and its turn has come. -/
def execFrame (port : Nat) (bytes : List Byte) (s : State) : Host.Outcome State Fault Refusal :=
  let t := s.port port
  if t.st ≠ 6 || bytes.length ≠ 1088 then .next s
  else
    let w0 := leNat ((bytes.drop 1024).take 8)
    let good := crc64 (bytes.take 1080) == leNat (bytes.drop 1080)
    match if good then s.takeInjection clsTwp port 0 else none with
    | some s =>
      .next ((((s.errBit clsTwp port 0).count clsTwp port Ev.TWP_CRC_ERR 1).portEvent port Sev.corrected Knd.other 1 true).rejectFrame port)
    | none =>
      if !good then
        .next ((((s.raise clsTwp port 0 true).count clsTwp port Ev.TWP_CRC_ERR 1).portEvent port Sev.corrected Knd.other 1 false).rejectFrame port)
      else if bits w0 37 36 = 2 || bits w0 37 36 = 3 then .next s
      else if bits w0 63 52 ≠ (t.ackseq + 1) % 4096 then .next (s.rejectFrame port)
      else if t.nakWait && !bit w0 38 then .next s
      else .next (s.acceptFrame port bytes)

/-- REPLAY_TIMEOUT: no acknowledgement while frames are kept. -/
def execReplayTimeout (port : Nat) (s : State) : Host.Outcome State Fault Refusal :=
  if (s.port port).st = 6 then .next (s.replay port) else .next s

/-! ### Lanes (R406, R410, R411, R516, R527) -/

/-- Lanes that the retirement list names for a port. -/
def State.retiredLanes (s : State) (p : Nat) : List Nat := (List.range 9).filter (fun l => s.ra.retire.contains (retireEntry 4 p l))

/-- A lane spared by RECOVER or a forced test is permanent. -/
def State.retireLane (s : State) (p lane : Nat) : State :=
  let s := s.count clsRas 0 Ev.RAS_DECLARATIONS 1
  let r := s.retireAdd (retireEntry 4 p lane)
  r.1.rasRecord {
    cls := clsTwp, inst := p, sev := Sev.retire, kind := if r.2 then Knd.retireListFull else twSpared, bcls := 4, binst := p
    info := [r.1.regWord clsTwp p 0x128] } (r.1.bucket 4 p).level

/-- The lanes that have failed decide the width: one is spared, a second leaves four, or the port goes DOWN. -/
def State.setLanes (s : State) (p : Nat) (bad : List Nat) : Option State :=
  match bad with
  | [] => some (s.modPort p (fun t => { t with badLanes := [], spared := 8, width := 2 }))
  | [l] => some ((s.modPort p (fun t => { t with badLanes := [l], spared := l, width := 2 })).portErr p twSpared l 0)
  | l :: _ =>
    if s.fld clsTwp p R.TWP_CFG_DEGRADE_OK = 1 && bad.length ≤ 5 then
      some ((s.modPort p (fun t => { t with badLanes := bad, spared := l, width := 1 })).portErr p twHalf l 0)
    else none

/-- A port becomes ACTIVE: counts and credits of a new link, or those it kept; peer messages that waited for it go
(R405, R410, R415, R421). -/
def State.goActive (s : State) (p : Nat) (kept : Bool) : State :=
  let s := s.modPort p (fun t =>
    if kept then { t with st := 6, forced := false, keep := false }
    else { t with st := 6, forced := false, keep := false, fseq := 0, ackseq := 4095, acked := 4095, vc := [(1, 512), (2, 384), (3, 128)] })
  let s := if kept && !(s.port p).kept.isEmpty then s.resendAll p else s
  let s := (s.ns.peerWait.filter (fun w => w.1 == p)).foldl (fun s w =>
    s.modPort p (fun t => { t with waitSegs := t.waitSegs ++ segments w.2 })) s
  let s := { s with ns := { s.ns with peerWait := s.ns.peerWait.filter (fun w => w.1 != p) } }
  match s.pumpOne p true with
  | some s => s.pump p 128
  | none => s

/-- The lane with the most errors, the lowest on a tie. -/
def worstLane (errs : List Nat) : Nat × Nat :=
  (List.range errs.length).foldl (fun r l => if r.2 < errs.getD l 0 then (l, errs.getD l 0) else r) (0, 0)

/-- RECOVER: the lane test of R410 ends, or the forced lane test of R516. Lanes out of use are not tested. -/
def execRecover (port : Nat) (errs : List Nat) (s : State) : Host.Outcome State Fault Refusal :=
  let t := s.port port
  if t.st ≠ 7 then .next s
  else
    let errs := (List.range 9).map (fun l => if t.badLanes.contains l then 0 else errs.getD l 0)
    let failed := (List.range 9).filter (fun l => decide (100 < errs.getD l 0))
    let worst := worstLane errs
    let fail := if failed.isEmpty && t.forced && worst.2 ≠ 0 then [worst.1] else failed
    if fail.isEmpty then
      if t.forced then
        let s := s.setBucket 4 port { s.bucket 4 port with level := s.bucketLimit 4 / 2 }
        let s := s.rasRecord { cls := clsTwp, inst := port, sev := Sev.recovered, kind := Knd.portSuspect, bcls := 4, binst := port } (s.bucketLimit 4 / 2)
        .next (s.goActive port true)
      else .next (s.modPort port (fun t => { t with st := 2, keep := true }))
    else
      let bad := (List.range 9).filter (fun l => t.badLanes.contains l || fail.contains l)
      match s.setLanes port bad with
      | none => .next (s.portDown port 9)
      | some s => .next ((fail.foldl (fun s l => s.retireLane port l) s).goActive port true)

/-! ### Training (Table 14-4, R406, R407, R422) -/

/-- DETECT: a cable is inserted or present, and its identity is read. -/
def execDetect (port : Nat) (cable : Cable) (s : State) : Host.Outcome State Fault Refusal :=
  let t := s.port port
  if !(t.st == 1 || t.st == 8 && t.down == 1) || !s.portOn port then .next s
  else if !cable.answers || 16 < cable.watts then .next ((s.modPort port (fun t => { t with hasCable := true, cable := 0 })).portDown port 2)
  else .next (s.modPort port (fun t => { t with
    st := 2, down := 0, hasCable := true, cable := cable.value / 2 ^ 16 * 2 ^ 16 + cable.watts % 256 * 2 ^ 8 + 1 }))

/-- NO_CABLE: the cable is removed. -/
def execNoCable (port : Nat) (s : State) : Host.Outcome State Fault Refusal :=
  if (s.port port).st = 0 then .next s
  else .next ((s.modPort port (fun t => { t with hasCable := false, cable := 0 })).portDown port 1)

/-- EQUALIZE: the training of every lane has ended. -/
def execEqualize (port : Nat) (s : State) : Host.Outcome State Fault Refusal :=
  if (s.port port).st = 2 then .next (s.modPort port (fun t => { t with st := 3 })) else .next s

/-- ALIGN: the PRBS31 test has ended; a lane qualifies with at most one error, and a retired lane stays spared. -/
def execAlign (port : Nat) (errs : List Nat) (s : State) : Host.Outcome State Fault Refusal :=
  let t := s.port port
  if t.st ≠ 3 then .next s
  else
    let gone := s.retiredLanes port
    let bad := (List.range 9).filter (fun l => decide (1 < errs.getD l 0) || gone.contains l)
    match s.setLanes port bad with
    | none => .next (s.portDown port 9)
    | some s => .next (s.modPort port (fun t => { t with st := if t.keep then 5 else 4 }))

/-- IDENTIFY: the partner's identity is compared with the cabling rule of R401. -/
def execIdentify (port : Nat) (id : Ident) (s : State) : Host.Outcome State Fault Refusal :=
  if (s.port port).st ≠ 4 then .next s
  else
    let sizes := coord15 (s.sizeReg 0 - 1) (s.sizeReg 1 - 1) (s.sizeReg 2 - 1)
    if id.port = partnerPort port ∧ id.coord = s.neighbour port ∧ id.sizes = sizes then
      .next (s.modPort port (fun t => { t with st := 5, serial := id.serial % 2 ^ 32, coord := id.coord, pport := id.port }))
    else .next (s.portDown port 6)

/-- LATENCY: the probes have ended; the pinned latency is stored and the port becomes ACTIVE. -/
def execLatency (port : Nat) (ps : Int) (margins : Nat) (s : State) : Host.Outcome State Fault Refusal :=
  let t := s.port port
  if t.st ≠ 5 then .next s
  else
    let trim := sext 8 (s.fld clsTwp port R.TWP_CFG_ASYM_TRIM)
    let s := s.modPort port (fun t => { t with lat := ps + trim, lanes := margins % 2 ^ 63 })
    .next (s.goActive port t.keep)

/-- TRAINING_LIMIT: a state's limit is exceeded; the port goes DOWN with that state's reason, and a failed retrain with BUDGET. -/
def execTrainingLimit (port : Nat) (s : State) : Host.Outcome State Fault Refusal :=
  let t := s.port port
  if t.st = 7 || t.keep && 1 ≤ t.st && t.st ≤ 5 then .next (s.portDown port 8)
  else match t.st with
    | 1 => .next (s.portDown port 3)
    | 2 => .next (s.portDown port 4)
    | 3 => .next (s.portDown port 5)
    | 4 => .next (s.portDown port 6)
    | 5 => .next (s.portDown port 7)
    | _ => .next s

/-- DOWN_RETRY: every 10 s a port that is DOWN tries again. -/
def execDownRetry (port : Nat) (s : State) : Host.Outcome State Fault Refusal :=
  if (s.port port).st = 8 then .next (s.startTraining port) else .next s

/-- PARTNER_LOST: the partner module resets or goes silent; the link trains again when it returns. -/
def execPartnerLost (port : Nat) (s : State) : Host.Outcome State Fault Refusal :=
  let t := s.port port
  if t.st = 6 || t.st = 7 then .next (s.portDown port 10) else .next s

/-! ### Landings from a neighbour (R414) -/

/-- The name under which slots remember entries of a neighbouring module: no domain slot has number 8. -/
def remoteSrc (p : Nat) : Src := .dom 8 p

/-- The landing message of a LAND or MARK. -/
def State.remoteLand (s : State) (p : Nat) (m : TwMsg) (mark : Bool) : LandMsg :=
  let c := bits m.w0 57 48
  { node := 0x630 + p, core := c, slot := bits m.w0 47 40, off := bits m.w0 39 24, data := m.body, poison := !mark && bit m.w0 1
    setf := !mark && bit m.w0 0, mark := mark, plan := bits m.w1 31 0, src := remoteSrc p, num := 0, dom := s.coreDom c }

/-- LAND: the neighbour's bytes land as the port's; SETF sets the flags of the fill (R374). -/
def execLand (port : Nat) (s : State) : Host.Outcome State Fault Refusal :=
  match s.popMsg port 1 with
  | none => .next s
  | some (m, s) =>
    let l := s.remoteLand port m false
    let r := s.landAt l
    if !r.2 then .next r.1
    else
      let here := (landSlots l.slot l.off l.data.length).map (fun n => (l.core, n))
      if !l.setf then .next (r.1.modPort port (fun t => { t with fill := t.fill ++ here.filter (fun p => !t.fill.contains p) }))
      else
        let mine := ((r.1.port port).fill).filter (fun p => r.1.coreDom p.1 == r.1.coreDom l.core)
        let s := r.1.modPort port (fun t => { t with fill := t.fill.filter (fun p => !mine.contains p) })
        .next ((here ++ mine.filter (fun p => !here.contains p)).foldl (fun s p =>
          if ((s.core p.1).slot p.2).st = 1 then s.slotFull p.1 p.2 else s) s)

/-- MARK: the neighbour's table has performed every entry before this one. -/
def execMark (port : Nat) (s : State) : Host.Outcome State Fault Refusal :=
  match s.popMsg port 2 with
  | none => .next s
  | some (m, s) =>
    let l := s.remoteLand port m true
    let r := s.landAt l
    .next (if r.2 then r.1.slotFull l.core l.slot else r.1)

end Sys2Proof.Machine
end

