-- ==== Sys2Proof/Machine/Tide.lean ====
section
/-! DEFINITION. The tide counter and its alignment, domains as time passes, link tables
(R359 to R371, R378 to R392, R412 to R414). -/

namespace Sys2Proof.Machine

/-! ### Alignment (R362, R363, Table 13-2) -/

/-- TIDE_ALIGN.STATE. -/
def alFree : Nat := 0
def alAcquire : Nat := 1
def alAligned : Nat := 2
def alHoldover : Nat := 3
def alUnaligned : Nat := 4

def State.setNs (s : State) (f : NetSt → NetSt) : State := { s with ns := f s.ns }

def State.isMaster (s : State) : Bool := s.fld clsTide 0 R.TIDE_SYNC_CFG_MASTER == 1

/-- What a trained port last heard: port, hops, master. -/
def State.heardNow (s : State) : List (Nat × Nat × Nat) := s.ns.heard.filter (fun h => (s.port h.1).trained)

/-- The lowest master heard that this module follows; a master follows only a lower one (R362). -/
def State.followed (s : State) : Option Nat :=
  let ms := (s.heardNow.map (fun h => h.2.2)).filter (fun m => !s.isMaster || decide (m < s.myCoord))
  ms.foldl (fun r m => match r with | none => some m | some x => some (min x m)) none

/-- The upstream port: the lowest hop count to the followed master, the lowest port on a tie. -/
def State.upstreamOf (s : State) : Option (Nat × Nat × Nat) :=
  match s.followed with
  | none => none
  | some m => (s.heardNow.filter (fun h => h.2.2 == m)).foldl (fun r h => match r with
    | none => some h
    | some x => if h.2.1 < x.2.1 ∨ h.2.1 = x.2.1 ∧ h.1 < x.1 then some h else some x) none

/-- Whether a domain is ARMED, RUNNING, HOLDING or RESUMING. -/
def State.tideBusy (s : State) : Bool := s.ns.doms.any (fun d => [2, 3, 4, 6].contains d.2.st)

/-- A step of the counter by an offset in ps, rounded to reference cycles of 500 ps. -/
def State.stepCounter (s : State) (ps : Int) : State :=
  let c : Int := (s.ns.tick * 256 + s.ns.phase : Nat) - (ps + 250) / 500
  let n := c.toNat
  s.setNs (fun n' => { n' with tick := n / 256 % 2 ^ 64, phase := n % 256 })

/-- SYNC_SEND: at a counter value that is a multiple of 64, a module that is not UNALIGNED, and that has a master to
name, sends SYNC on every trained port. A sync period ends. -/
def execSyncSend (s : State) : Host.Outcome State Fault Refusal :=
  let n := s.ns
  if n.tick % 64 ≠ 0 || n.lastSync == some n.tick || !s.ready then .next s
  else
    let s := s.setNs (fun n => { n with lastSync := some n.tick, missed := n.missed + 1 })
    let s := if n.align = alHoldover then s.count clsTide 0 Ev.TIDE_HOLDOVER_PERIODS 1 else s
    let own := s.isMaster && s.followed.isNone
    if n.align = alUnaligned || (n.align = alFree && !own) then .next s
    else
      let hops := if own then 0 else n.hops
      let master := if own then s.myCoord else n.master
      let (dep, s) := s.draw 656
      let m : SyncMsg := { w0 := 2 ^ 60 + hops % 64 * 2 ^ 54 + master % 2 ^ 15 * 2 ^ 39 + dep * 2 ^ 23, w1 := n.tick }
      let k := (n.ports.filter (fun p => p.2.trained)).length
      .next (((s.count clsTide 0 Ev.TIDE_SYNC_SENT k).sendSync m none).pumpAll)

/-- HOLDOVER: no SYNC of the upstream for 2 periods. -/
def execHoldover (s : State) : Host.Outcome State Fault Refusal :=
  if s.ns.align = alAligned && 2 ≤ s.ns.missed then .next (s.setNs (fun n => { n with align := alHoldover, missed := 0, good := 0 })) else .next s

/-- UNALIGNED: HOLDOVER_LIMIT sync periods have passed. -/
def execUnaligned (s : State) : Host.Outcome State Fault Refusal :=
  let l := s.fld clsTide 0 R.TIDE_SYNC_CFG_HOLDOVER_LIMIT
  let l := if l = 0 then 65536 else l
  if s.ns.align = alHoldover && l ≤ s.ns.missed then .next (s.setNs (fun n => { n with align := alUnaligned, missed := 0 })) else .next s

/-- The state that a measured offset leads to (Table 13-2). -/
def State.alignStep (s : State) (off : Int) : State :=
  let s := s.setNs (fun n => { n with offset := off })
  if s.ns.align = alAcquire then
    let good := if off.natAbs ≤ 250 then s.ns.good + 1 else 0
    let s := if s.tideBusy then s else s.stepCounter off
    if 4 ≤ good then s.setNs (fun n => { n with align := alAligned, good := 0 }) else s.setNs (fun n => { n with good := good })
  else if s.ns.align = alAligned && 1000 < off.natAbs then s.setNs (fun n => { n with align := alAcquire, good := 0 })
  else s

/-- SYNC: a SYNC leaves the sync slot of a trailer; `arrive` is its arrival time of R412, in 1/64 reference cycle of this
module's counter. A replayed one gives no offset (R413). -/
def execSync (port : Nat) (arrive : Int) (s : State) : Host.Outcome State Fault Refusal :=
  match s.popSync port 1 with
  | none => .next s
  | some (m, s) =>
    let h := (port, bits m.w0 59 54, bits m.w0 53 39)
    let was := s.followed
    let s := s.setNs (fun n => { n with heard := n.heard.filter (fun x => x.1 != port) ++ [h] })
    let s := if s.isMaster && was.isNone && s.followed.isSome then s.count clsTide 0 Ev.TIDE_MASTER_CONFLICT 1 else s
    match s.upstreamOf with
    | none => .next s
    | some u =>
      if u.1 ≠ port then .next s
      else
        let fresh := s.ns.align = alFree || s.ns.align = alHoldover || s.ns.align = alUnaligned
        let s := (s.setNs (fun n => { n with
          upstream := port, hops := u.2.1 + 1, master := u.2.2, missed := 0, align := if fresh then alAcquire else n.align
          good := if fresh then 0 else n.good })).count clsTide 0 Ev.TIDE_SYNC_RECV 1
        if m.replay then .next (s.count clsTwp port Ev.TWP_SYNC_STALE 1)
        else .next (s.alignStep (arrive * 500 / 64 - (m.w1 * 128000 : Nat) - (s.port port).lat))

/-! ### Start, epoch, hold, resume (R382 to R387) -/

/-- The first trained port of each named neighbour. -/
def State.checkPorts (s : State) (d : Dom) : List Nat :=
  (dedup (d.neigh.map portSide)).filterMap (fun side => d.neigh.find? (fun p => portSide p == side && (s.port p).trained))

/-- START_CHECK_SEND: one window before T0. -/
def execStartCheckSend (slot : Nat) (s : State) : Host.Outcome State Fault Refusal :=
  let d := s.dom slot
  if d.st ≠ 2 || d.checked || d.nmod < 2 || s.progTick d < -(d.window : Int) || 0 ≤ s.progTick d then .next s
  else
    let s := s.modDom slot (fun d => { d with checked := true })
    .next ((s.checkPorts d).foldl (fun s p =>
      (s.modPort p (fun t => { t with waitSync := t.waitSync ++ [checkMsg d.domainId d.hash d.epoch.toNat] })).pump p 128) s)

/-- A domain ends because its members do not agree (R383). -/
def State.checkFail (s : State) (slot : Nat) : State :=
  ((s.count clsTide (slot + 1) Ev.TIDE_START_CHECK_FAIL 1).abortDom slot Sta.tideFault Rsn.startCheck 0 none).pumpAll

/-- EPOCH_REACHED: at T0 an ARMED domain runs; one of several modules only when every neighbour's check has come. A domain
to be held at T0 does not begin. -/
def execEpochReached (slot : Nat) (s : State) : Host.Outcome State Fault Refusal :=
  let d := s.dom slot
  if d.st ≠ 2 || s.progTick d < 0 || d.holdAt == some 0 then .next s
  else
    let sides := dedup (d.neigh.map portSide)
    if 2 ≤ d.nmod && sides.any (fun x => !(d.checks.any (fun c => portSide c.1 == x && c.2))) then .next (s.checkFail slot)
    else .next (((s.modDom slot (fun d => { d with st := 3 })).tmk (fun t => { t with domain := true })).tideDone slot)

/-- START_CHECK: a neighbour's domain, hash and T0 are compared with this module's. -/
def execStartCheck (port : Nat) (s : State) : Host.Outcome State Fault Refusal :=
  match s.popSync port 4 with
  | none => .next s
  | some (m, s) =>
    match s.ns.doms.find? (fun d => d.2.st == 2 && d.2.domainId == bits m.w0 47 32) with
    | none => .next s
    | some (slot, d) =>
      if d.hash = bits m.w0 31 0 ∧ d.epoch = (m.w1 : Int) then .next (s.modDom slot (fun d => { d with checks := d.checks ++ [(port, true)] }))
      else .next (s.checkFail slot)

/-- HOLD_BOUNDARY: the domain's engines stop issuing and its cores stop at their next instruction (R386). -/
def execHoldBoundary (slot : Nat) (s : State) : Host.Outcome State Fault Refusal :=
  let d := s.dom slot
  match d.holdAt with
  | none => .next s
  | some b =>
    if !(d.st == 2 || d.st == 3) || s.progTick d < b then .next s
    else
      let s := (s.modDom slot (fun d => { d with st := 4, boundary := some b.toNat })).count clsTide (slot + 1) Ev.TIDE_HOLDS 1
      .next (s.modCtx d.ctx (fun x => { x with stopping := true }))

/-- The window boundary after the present tick. -/
def State.nextBoundary (s : State) (d : Dom) : Int :=
  let w : Int := d.window
  max 0 ((s.progTick d / w + 1) * w)

/-- HOLD: a module takes the earliest boundary it receives in time, or its next one; new ones flood (R385, R386). -/
def execHold (port : Nat) (s : State) : Host.Outcome State Fault Refusal :=
  match s.popSync port 2 with
  | none => .next s
  | some (m, s) =>
    match s.ns.doms.find? (fun d => (d.2.st == 2 || d.2.st == 3) && d.2.domainId == bits m.w0 47 32 && d.2.hash == bits m.w0 31 0) with
    | none => .next s
    | some (slot, d) =>
      let named : Int := bits m.w1 31 0
      let late := named < s.progTick d
      let b := if late then s.nextBoundary d else named
      match d.holdAt with
      | some h =>
        if b < h then
          .next (((s.modDom slot (fun d => { d with holdAt := some b })).sendSync (holdMsg d.domainId d.hash b.toNat) (if late then none else some port)).pumpAll)
        else .next s
      | none =>
        .next (((s.modDom slot (fun d => { d with holdAt := some b })).sendSync (holdMsg d.domainId d.hash b.toNat) (if late then none else some port)).pumpAll)

/-- ABORT: the message ends the domain here and floods on (R390). -/
def execAbort (port : Nat) (s : State) : Host.Outcome State Fault Refusal :=
  match s.popSync port 3 with
  | none => .next s
  | some (m, s) =>
    match s.ns.doms.find? (fun d => d.2.st != 0 && d.2.domainId == bits m.w0 47 32 && d.2.hash == bits m.w0 31 0) with
    | none => .next s
    | some (slot, _) => .next ((s.abortDom slot Sta.tideFault Rsn.domainAbort 0 (some port)).pumpAll)

/-- RESUME_TICK: at Tr a restored domain runs again; one that is still restoring starts when it has finished. -/
def execResumeTick (slot : Nat) (s : State) : Host.Outcome State Fault Refusal :=
  let d := s.dom slot
  if d.st ≠ 6 || (s.ns.tick : Int) < d.resumeAt then .next s
  else if (s.ctx d.ctx).restoring then .next (s.modDom slot (fun d => { d with late := true }))
  else
    let s := if d.late then s.count clsTide (slot + 1) Ev.TIDE_RESUME_LATE 1 else s
    .next (((s.modDom slot (fun d => { d with st := 3, late := false, holdAt := none, faultHold := false })).tmk (fun t => { t with domain := true })).tideDone slot)

/-! ### Waits that last too long (R388) -/

/-- WAIT_LIMIT in ticks. -/
def Dom.limit (d : Dom) : Int := (d.waitLimit * d.window : Nat)

/-- TIDE_STALL: a `wait.land` has waited WAIT_LIMIT windows of unheld time. -/
def execTideStall (core slot : Nat) (s : State) : Host.Outcome State Fault Refusal :=
  let g := s.group core slot
  match (s.launchOf core slot).tide, g.since, g.hold with
  | some d, some t, .waitLand n =>
    if g.occupied && (s.dom d).st = 3 && t + (s.dom d).limit ≤ s.progTick (s.dom d) then
      .next ((s.takeFault core slot Flt.tideStall n).pumpAll)
    else .next s
  | _, _, _ => .next s

/-- CREDIT_STALL: an engine entry has waited as long for credits. -/
def execCreditStall (slot table : Nat) (s : State) : Host.Outcome State Fault Refusal :=
  let d := s.dom slot
  match d.tables[table]? with
  | some t => match t.waitFrom with
    | some w =>
      if d.st = 3 && w + d.limit ≤ s.progTick d then .next ((s.abortDom slot Sta.tideFault Rsn.creditStall 0 none).pumpAll) else .next s
    | none => .next s
  | none => .next s

/-! ### Link entries (R370, Table 13-6) -/

def linkBits : Nat :=
  fieldBits [(57, 0), (64 + 58, 64 + 40), (64 + 38, 64), (128 + 31, 128), (192 + 56, 192)]

def linkKind (v : Nat) : Nat := bits v 111 109
def linkTick (v : Nat) : Nat := bits v 95 64
def linkLen (v : Nat) : Nat := 32 * (bits v 102 96 + 1)

/-- What is wrong with a link entry of a table: reason and offset (R370, R416). -/
def linkBad (target v : Nat) : Option (Nat × Nat) :=
  let k := linkKind v
  let twp := decide (target < 24)
  let port := bits v 108 104
  let bad := fun o => some (Rsn.fieldRange, o)
  match rsvByte 32 v linkBits with
  | some o => some (Rsn.rsvBit, o)
  | none =>
    if 3 < k then bad 13
    else if (k = 0 || k = 1) && bits v 4 0 ≠ 0 then bad 0
    else if k = 1 && !twp then bad 13
    else if (k = 0 || k = 1) && port ≠ (if twp then target else 0) then bad 13
    else if k = 1 && (bit v 122 || bits v 121 112 ≠ 0 || bits v 102 96 ≠ 0 || bits v 159 128 ≠ 0) then bad 12
    else if (k = 0 || k = 3) && bits v 159 152 = 0 then bad 19
    else if (k = 0 || k = 3) && bits v 248 192 ≠ 0 then bad 24
    else none

/-- The next entry of a link table, once its TICK has come; or the end of the domain. -/
inductive LinkHead
  | wait
  | ended (s : State)
  | entry (t : Table) (v : Nat) (prog : Int)

def State.linkHead (s : State) (slot table : Nat) : LinkHead :=
  match s.table? (.dom slot table) with
  | none => .wait
  | some t =>
    if t.kind ≠ 1 || !s.mayStream t then .wait
    else match s.bufRead t.cove 0 (t.va + 32 * t.next) 32 with
      | .wait => .wait
      | .ok bs p =>
        let v := leNat bs
        if p then .ended (s.endTable t t.next Sta.poison Rsn.descPoison 0)
        else match linkBad t.target v with
          | some (r, o) => .ended (s.endTable t t.next Sta.format r o)
          | none =>
            let prog := s.progTick (s.dom slot)
            if prog < linkTick v then .wait else .entry t v prog
      | x => .ended (s.endTable t t.next (readStatus x).1 (readStatus x).2 0)

/-- The node that lands a table's entries. -/
def Table.node (t : Table) : Nat := if t.target < 24 then 0x630 + t.target else 0x610 + t.target % 16

/-- A send slip of an entry that has waited (R380). -/
def State.linkSlip (s : State) (slot : Nat) (t : Table) (v : Nat) (prog : Int) : State :=
  if t.waitFrom.isSome then s.sendSlip slot (256 * (prog - linkTick v).toNat) else s

/-- PLAN of a link entry. -/
def linkPlan (v : Nat) : Nat := (linkTick v + bits v 159 152) % 2 ^ 32

/-- LINK_COPY: the bytes of a COPY entry go to a slot of a neighbour's core, or of a core of this module, once every slot's
credit is present. -/
def execLinkCopy (slot table : Nat) (s : State) : Host.Outcome State Fault Refusal :=
  match s.linkHead slot table with
  | .wait => .next s
  | .ended s => .next s.pumpAll
  | .entry t v prog =>
    if linkKind v ≠ 0 then .next s
    else
      let core := bits v 121 112
      let n := linkLen v
      let slots := landSlots (bits v 135 128) (bits v 151 136) n
      let pairs := slots.map (fun k => (core, k))
      let need := (pairs.filter (fun p => !t.spent.contains p)).map (fun p => ({ owner := t.node, core := p.1, slot := p.2 } : Credit))
      match s.takeCredits need with
      | none => .next (s.holdTable t prog)
      | some s1 => match s1.bufRead t.cove (boolNat (bit v 57)) (bits v 56 0) n with
        | .wait => .next s
        | .ok bs p =>
          let setf := bit v 122
          let s := (s1.noteBuf t.node t.cove (boolNat (bit v 57)) (bits v 56 0) n).linkSlip slot t v prog
          let t1 := { t with
            next := t.next + 1, waitFrom := none, poisoned := t.poisoned || p
            spent := if setf then [] else t.spent ++ pairs.filter (fun p => !t.spent.contains p) }
          if t.target < 24 then
            let m : TwMsg := {
              w0 := 2 ^ 60 + core * 2 ^ 48 + bits v 135 128 * 2 ^ 40 + bits v 151 136 * 2 ^ 24 + bits v 102 96 * 2 ^ 16 + 2 * boolNat p + boolNat setf
              w1 := linkPlan v, body := bs }
            .next (((s.setTable t1).sendMsg t.target m).entryDone t.src)
          else
            let t1 := { t1 with issued := t1.issued ++ [{ num := t.next, setf := setf, cores := [core], slots := slots }] }
            let m : LandMsg := {
              node := t.node, core := core, slot := bits v 135 128, off := bits v 151 136, data := bs, poison := p, setf := setf
              mark := false, plan := linkPlan v, src := t.src, num := t.next, dom := some slot }
            .next ((s.setTable t1).setNs (fun n => { n with landings := n.landings ++ [m] }))
        | x => .next (s.endTable t t.next (readStatus x).1 (readStatus x).2 0).pumpAll

/-- LINK_MARK: the flag of a slot, once every earlier entry of the table has been performed. -/
def execLinkMark (slot table : Nat) (s : State) : Host.Outcome State Fault Refusal :=
  match s.linkHead slot table with
  | .wait => .next s
  | .ended s => .next s.pumpAll
  | .entry t v prog =>
    if linkKind v ≠ 3 || t.delivered ≠ t.next then .next s
    else
      let core := bits v 121 112
      let k := bits v 135 128
      match s.takeCredits [{ owner := t.node, core := core, slot := k }] with
      | none => .next (s.holdTable t prog)
      | some s =>
        let s := s.linkSlip slot t v prog
        let t1 := { t with next := t.next + 1, waitFrom := none }
        if t.target < 24 then
          .next (((s.setTable t1).sendMsg t.target { w0 := 2 * 2 ^ 60 + core * 2 ^ 48 + k * 2 ^ 40, w1 := linkPlan v }).entryDone t.src)
        else
          let t1 := { t1 with issued := t1.issued ++ [{ num := t.next, setf := false, cores := [core], slots := [k] }] }
          let m : LandMsg := {
            node := t.node, core := core, slot := k, off := 0, data := [], poison := false, setf := false, mark := true, plan := linkPlan v
            src := t.src, num := t.next, dom := some slot }
          .next ((s.setTable t1).setNs (fun n => { n with landings := n.landings ++ [m] }))

/-- NETRED: the network reduction of the descriptor at AUX starts (R348). -/
def execNetred (slot table : Nat) (s : State) : Host.Outcome State Fault Refusal :=
  match s.linkHead slot table with
  | .wait => .next s
  | .ended s => .next s.pumpAll
  | .entry t v _ =>
    if linkKind v ≠ 2 then .next s
    else match s.bufRead t.cove 0 (bits v 248 192) 64 with
      | .wait => .next s
      | .ok bs p =>
        let d := leNat bs
        if p then .next (s.endTable t t.next Sta.poison Rsn.descPoison 0).pumpAll
        else if bits d 63 32 = 2 ^ 32 - 1 then .next (s.endTable t t.next Sta.lenReserved Rsn.lenAllOnes 4).pumpAll
        else
          let s1 := s.setTable { t with next := t.next + 1, waitFrom := none }
          if bits d 63 32 = 0 then .next (s1.entryDone t.src)
          else match s.redBad t.cove d with
            | some (st, r, o) => .next (s.endTable t t.next st r o).pumpAll
            | none => .next (s1.addRed t.src t.next t.cove (s.dom slot).ctx d (s.dom slot).rm (s.dom slot).sm (linkPlan v))
      | x => .next (s.endTable t t.next (readStatus x).1 (readStatus x).2 0).pumpAll

end Sys2Proof.Machine
end

