-- ==== Sys2Proof/Machine/Torus.lean ====
section
/-! DEFINITION. Torus reductions (R416 to R420, R425, R448). -/

namespace Sys2Proof.Machine

/-! ### The descriptor (Table 14-7, R416) -/

def torBits : Nat := fieldBits [(25, 0), (26, 26), (63, 32), (95, 64), (184, 128), (248, 192)]

/-- The thirteen formats: every type code but U32 and I64. -/
def format13 (c : Nat) : Bool := (Fmt.ofCode c).isSome && c != 1 && c != 2

def dimsOf (v : Nat) : List Nat := [0, 1, 2].filter (fun d => bit v (8 + d))

/-- What R416 finds wrong with a descriptor: reason and offset. -/
def State.torBad (s : State) (v : Nat) : Option (Nat × Nat) :=
  let bad := fun o => some (Rsn.fieldRange, o)
  let ds := dimsOf v
  if bits v 7 0 ≠ 0xD2 then bad 0
  else match rsvByte 64 v torBits with
    | some o => some (Rsn.rsvBit, o)
    | none =>
      if ds.isEmpty || ds.any (fun d => s.sizeOf d == 1) || !format13 (bits v 15 12) then bad 1
      else if !format13 (bits v 19 16) || !modeOk (bits v 22 20) || bits v 24 23 = 3 then bad 2
      else if (2 ≤ ds.length && bits v 248 192 = 0) || (ds.length = 1 && bits v 248 192 ≠ 0) then bad 24
      else none

def TorRed.e (r : TorRed) : Nat := bits r.words 63 32
def TorRed.rid (r : TorRed) : Nat := bits r.words 79 64
def TorRed.dims (r : TorRed) : List Nat := dimsOf r.words
def TorRed.fixed (r : TorRed) : Bool := bit r.words 11
def TorRed.sfmt (r : TorRed) : Fmt := (Fmt.ofCode (bits r.words 15 12)).getD .fp32
def TorRed.dfmt (r : TorRed) : Fmt := (Fmt.ofCode (bits r.words 19 16)).getD .fp32
def TorRed.hash (r : TorRed) : Nat := crc32c (leBytes 16 (r.words % 2 ^ 128))

/-! ### Halves, chunks and segments (R419) -/

def TorRed.half (r : TorRed) (dir : Nat) : Nat := if dir = 0 then (r.e + 1) / 2 else r.e / 2
def TorRed.chunks (r : TorRed) (dir : Nat) : Nat := (r.half dir + 15) / 16
/-- The first element of a chunk, and how many it has. -/
def TorRed.first (r : TorRed) (dir j : Nat) : Nat := (if dir = 0 then 0 else r.half 0) + 16 * j
def TorRed.count (r : TorRed) (dir j : Nat) : Nat := min 16 (r.half dir - 16 * j)
/-- The segment of a chunk among `d`. -/
def segOf (c d j : Nat) : Nat := ((List.range d).find? (fun k => decide (j < (k + 1) * c / d))).getD 0

/-- The ring position, counted in the direction of travel. -/
def State.ringPos (s : State) (dim dir : Nat) : Nat :=
  let d := s.sizeOf dim
  if dir = 0 then s.coordOf dim else (d - s.coordOf dim) % d

/-- The port on which a chunk leaves. -/
def outPort (dim dir j : Nat) : Nat := (if dir = 0 then 12 else 0) + 3 * (j % 4) + dim

/-! ### Values (R418) -/

/-- The 16-bit exponent of a contribution. -/
def expOf (f : Fmt) (x : Nat) : Int :=
  let w := contribution f x
  if w.empty || w.special ≠ .finite then -32768 else w.w

/-- A contribution as a pinned value with window W. -/
def pinTo (f : Fmt) (w : Int) (x : Nat) : Wes :=
  ({ f := 0, w := w, empty := true, pinned := true } : Wes).addPinned { contribution f x with pinned := false }

/-- Two pinned values of one window: their parts add modulo 2^288, their flags join (R48, R49). -/
def pinSum (a b : Wes) : Wes :=
  { a with
    f := sext 288 (ofInt 288 (a.f + b.f)), empty := a.empty && b.empty, sticky := a.sticky || b.sticky, wide := a.wide || b.wide
    overflow := a.overflow || b.overflow, special := a.special.join b.special }

/-! ### The end -/

def State.setTorus (s : State) (t : Option TorRed) : State := s.setNs (fun n => { n with torus := t })

/-- A torus reduction ends with a status. -/
def State.torFail (s : State) (r : TorRed) (status reason : Nat) : State :=
  let s := s.setTorus none
  match r.src with
  | .cmd x q i => match s.cmdAt x q i with
    | some k => s.fail k status reason 0
    | none => s
  | .dom d _ => (s.abortDom d Sta.tideFault reason 0 none).pumpAll

/-- Bytes of each sector-sized part of a result with the poison mark of the chunks it holds. -/
def TorRed.chunkOf (r : TorRed) (i : Nat) : Nat := if i < r.half 0 then 2 * (i / 16) else 2 * ((i - r.half 0) / 16) + 1

/-- Write an array chunk by chunk: each chunk's elements with its poison mark. None while a write must wait. -/
def State.torWrite (s : State) (r : TorRed) (shelf : Bool) (addr w : Nat) (vs : Array Nat) : List (Nat × Nat) → Except Rd State
  | [] => .ok s
  | (dir, j) :: l =>
    let a := r.first dir j
    let bs := if w = 320 then ((List.range (r.count dir j)).flatMap (fun i => leBytes 40 (vs.getD (a + i) 0)))
      else packVals w ((List.range (r.count dir j)).map (fun i => vs.getD (a + i) 0))
    match s.bufWrite r.cove (boolNat shelf) (addr + a * w / 8) bs (r.poison.contains (dir + 2 * j)) with
    | .ok s => s.torWrite r shelf addr w vs l
    | .wait => .error .wait
    | .refused => .error .refused
    | .down => .error .down

def TorRed.allChunks (r : TorRed) : List (Nat × Nat) :=
  (List.range (r.chunks 0)).map (fun j => (0, j)) ++ (List.range (r.chunks 1)).map (fun j => (1, j))

/-- A result whose elements are narrower than a byte is written whole, so that a byte that two chunks share is written once. -/
def State.torResult (s : State) (r : TorRed) (vs : List Nat) : Except Rd State :=
  let w := r.dfmt.width
  let shelf := bit r.words 25
  let addr := bits r.words 184 128
  if w < 8 then
    match s.bufWrite r.cove (boolNat shelf) addr (packVals w vs) (!r.poison.isEmpty) with
    | .ok s => .ok s
    | .wait => .error .wait
    | .refused => .error .refused
    | .down => .error .down
  else s.torWrite r shelf addr w vs.toArray r.allChunks

/-- R420: every member rounds and writes. -/
def State.torFinish (s : State) (r : TorRed) : Except Rd State :=
  let rs := r.vals.map (roundWes r.dfmt r.rm r.sm)
  let wide := (rs.filter (fun x => x.wide)).length
  let nan := (rs.filter (fun x => x.nanDrop)).length
  match s.torResult r (rs.map Rounded.bits) with
  | .error e => .error e
  | .ok s =>
    let s := ((s.count clsTwp r.port Ev.TWP_INEXACT_WIDE wide).count clsTwp r.port Ev.TWP_NAN_DROP nan).markCmd r.src (wide != 0) (!r.poison.isEmpty)
    let s := s.setTorus none
    match r.src with
    | .cmd x q i => match s.cmdAt x q i with
      | some k => .ok (s.finish k 0)
      | none => .ok s
    | .dom _ _ => .ok (s.entryDone r.src)

/-! ### Phases (R417 to R419) -/

/-- The key of a RED_READY: RID, dimension, pass. -/
def TorRed.key (r : TorRed) : Nat := r.rid * 2 ^ 32 + r.dim * 2 ^ 30 + r.pass * 2 ^ 29

/-- Whether a port's neighbour is ready for the present phase. -/
def State.torReady (s : State) (r : TorRed) (p : Nat) : Bool :=
  (s.port p).trained && s.ns.readies.any (fun x => x.1 == p && x.2.1 == r.key)

/-- A neighbour that is ready for the present phase with another descriptor. -/
def State.torMismatch (s : State) (r : TorRed) : Bool := s.ns.readies.any (fun x => x.2.1 == r.key && x.2.2 != r.hash)

/-- The chunk message of values as they stand. -/
def TorRed.chunkMsg (r : TorRed) (dir j stage low : Nat) : TwMsg :=
  let a := r.first dir j
  let n := r.count dir j
  { w0 := 4 * 2 ^ 60 + r.key + dir * 2 ^ 28 + stage * 2 ^ 27 + (n - 1) * 2 ^ 16 + low % 2 ^ 15, w1 := j
    body := if r.pass = 0 then ((r.exps.drop a).take n).flatMap (fun x => leBytes 2 (ofInt 16 x)) else ((r.vals.drop a).take n).flatMap (leBytes 40) }

/-- Send a chunk, or keep it until the neighbour is ready. -/
def State.torSend (s : State) (r : TorRed) (dir j stage low : Nat) : State × TorRed :=
  let p := outPort r.dim dir j
  let m := r.chunkMsg dir j stage low
  if s.torReady r p then (s.sendMsg p m, r) else (s, { r with held := r.held ++ [(p, m)] })

/-- What neighbours that have become ready may have: kept chunks, then those that begin here. -/
def State.torPump (s : State) (r : TorRed) : State × TorRed :=
  let go := r.held.filter (fun h => s.torReady r h.1)
  let r := { r with held := r.held.filter (fun h => !s.torReady r h.1) }
  let s := go.foldl (fun s h => s.sendMsg h.1 h.2) s
  let d := s.sizeOf r.dim
  r.allChunks.foldl (fun a c =>
    let s := a.1
    let r := a.2
    if segOf (r.chunks c.1) d c.2 = s.ringPos r.dim c.1 && !r.begun.contains (c.1 + 2 * c.2) && s.torReady r (outPort r.dim c.1 c.2) then
      s.torSend { r with begun := (c.1 + 2 * c.2) :: r.begun } c.1 c.2 0 r.rank
    else (s, r)) (s, r)

/-- A phase begins: RED_READY on the ports of its dimension. -/
def State.torBegin (s : State) (r : TorRed) : State :=
  let r := { r with begun := [], held := [], left := r.chunks 0 + r.chunks 1, since := s.ns.tick }
  let m : TwMsg := { w0 := 3 * 2 ^ 60 + r.key, w1 := r.hash }
  let s := ((List.range 24).filter (fun p => portDim p == r.dim && (s.port p).trained)).foldl (fun s p => s.sendMsg p m) s
  if s.torMismatch r then (s.setTorus (some r)).torFail r Sta.format Rsn.redMismatch
  else
    let x := s.torPump r
    x.1.setTorus (some x.2)

/-- The phase after one that is complete: exponent passes, then value passes, in ascending dimensions; none at the end. -/
def TorRed.nextPhase (r : TorRed) : Option (Nat × Nat) :=
  match r.dims.find? (fun d => decide (r.dim < d)) with
  | some d => some (r.pass, d)
  | none => if r.pass = 0 then some (1, r.dims.headD 0) else none

/-- The pinned values of this module's contributions. -/
def TorRed.pinned (r : TorRed) : List Nat :=
  let wp := sext 16 (bits r.words 95 80)
  if r.fixed then r.raw.map (fun x => (pinTo r.sfmt wp x).encode)
  else List.zipWith (fun w x => (pinTo r.sfmt w x).encode) r.exps r.raw

/-- A phase is complete: values go to the staging array between dimensions, the last ones to the result. None while a
write must wait. -/
def State.torPhase (s : State) (r : TorRed) : Except Rd State :=
  -- the RED_READY messages of the phase that ends have served
  let s := s.setNs (fun n => { n with readies := n.readies.filter (fun x => x.2.1 != r.key) })
  match r.nextPhase with
  | none => s.torFinish r
  | some (p, d) =>
    if r.pass = 1 then
      match s.torWrite r (bit r.words 26) (bits r.words 248 192) 320 r.vals.toArray r.allChunks with
      | .error e => .error e
      | .ok s => .ok (s.torBegin { r with dim := d })
    else if p = 0 then .ok (s.torBegin { r with dim := d })
    else .ok (s.torBegin { r with dim := d, pass := 1, vals := r.pinned })

/-- The contributions of this module: raw elements and the chunks with a poisoned byte. -/
def State.torRead (s : State) (r : TorRed) : Except Rd TorRed :=
  let w := r.sfmt.width
  let n := packedBytes r.sfmt r.e
  match s.bufRead r.cove r.space r.addr n with
  | .ok bs p =>
    let a := bs.toArray
    let raw := (List.range r.e).map (fun i =>
      if w = 320 then leNat ((List.range 40).map (fun j => a.getD (40 * i + j) 0)) else elemAt a w i)
    let marks := if p then (s.bufPoison r.cove r.space r.addr n).toArray else #[]
    let bad := if p then dedup (((List.range r.e).filter (fun i =>
      marks.getD (i * w / 8) false || marks.getD (((i + 1) * w - 1) / 8) false)).map r.chunkOf) else []
    .ok { r with raw := raw, poison := bad }
  | x => .error x

/-- A reduction starts: its contributions are read. None while that must wait. -/
def State.torStart (s : State) (r : TorRed) : Except Rd State :=
  match s.torRead r with
  | .error e => .error e
  | .ok r =>
    let d := r.dims.headD 0
    let s := (s.noteBuf (0x630 + r.port) r.cove r.space r.addr (packedBytes r.sfmt r.e)).setFld clsTwp 24 R.TORUS_STATE_RID r.rid
    if r.fixed then .ok (s.torBegin { r with pass := 1, dim := d, vals := { r with pass := 1 }.pinned })
    else .ok (s.torBegin { r with pass := 0, dim := d, exps := r.raw.map (expOf r.sfmt) })

/-- Go on when every chunk of a phase is complete and none is kept back. None while a write must wait. -/
def State.torAdvance (s : State) (r : TorRed) : Option State :=
  if r.left = 0 && r.held.isEmpty then
    match s.torPhase r with
    | .ok s => some s
    | .error .wait => none
    | .error e => some (s.torFail r (readStatus e).1 (readStatus e).2)
  else some (s.setTorus (some r))

/-! ### Starting (R417) -/

/-- A reduction of a descriptor. -/
def torOf (src : Src) (num cove v addr space : Nat) (rm : RMode) (sm : SatMode) (port rank : Nat) : TorRed :=
  { src := src, num := num, cove := cove, words := v, addr := addr, space := space, rm := modeCode rm (bits v 22 20)
    sm := satCode sm (bits v 24 23), port := port, rank := rank }

/-- The TICK and port of the first RED entry that a table has yet to start. -/
def State.redAhead (s : State) (t : Table) : Option (Nat × Nat) :=
  let go := (List.range (t.count - t.next)).findSome? (fun i =>
    match s.bufRead t.cove 0 (t.va + 32 * (t.next + i)) 32 with
    | .ok bs _ => if linkKind (leNat bs) = 1 then some (linkTick (leNat bs)) else none
    | _ => none)
  go.map (fun k => (k, t.target))

/-- Whether an entry is the first of the module's RED entries in ascending TICK, then port. -/
def State.redFirst (s : State) (tick port : Nat) : Bool :=
  (s.ns.doms.flatMap (fun d => if d.2.st = 3 then d.2.tables else [])).all (fun t =>
    if t.kind ≠ 1 || t.target = port then true
    else match s.redAhead t with
      | some (k, p) => decide (tick < k) || (k == tick && decide (port < p))
      | none => true)

/-- LINK_RED: a RED entry starts its torus reduction. A module runs one at a time, in ascending TICK. -/
def execLinkRed (slot table : Nat) (s : State) : Host.Outcome State Fault Refusal :=
  match s.linkHead slot table with
  | .wait => .next s
  | .ended s => .next s.pumpAll
  | .entry t v _ =>
    if linkKind v ≠ 1 || s.ns.torus.isSome || !s.redFirst (linkTick v) t.target then .next s
    else match s.bufRead t.cove 0 (bits v 248 192) 64 with
      | .wait => .next s
      | .ok bs p =>
        let d := leNat bs
        if p then .next (s.endTable t t.next Sta.poison Rsn.descPoison 0).pumpAll
        else if bits d 63 32 = 2 ^ 32 - 1 then .next (s.endTable t t.next Sta.lenReserved Rsn.lenAllOnes 4).pumpAll
        else
          let s1 := s.setTable { t with next := t.next + 1, waitFrom := none }
          if bits d 63 32 = 0 then .next (s1.entryDone t.src)
          else match s.torBad d with
            | some (r, o) => .next (s.endTable t t.next Sta.format r o).pumpAll
            | none =>
              let x := s.dom slot
              match s1.torStart (torOf t.src t.next t.cove d (bits v 56 0) (boolNat (bit v 57)) x.rm x.sm t.target x.rank) with
              | .error .wait => .next s
              | .error e => .next (s.endTable t t.next (readStatus e).1 (readStatus e).2 0).pumpAll
              | .ok s => .next s
      | x => .next (s.endTable t t.next (readStatus x).1 (readStatus x).2 0).pumpAll

/-- RED_STALL: a member has waited WAIT_LIMIT windows, or 1 s outside a tide program, for a RED_READY or a chunk. -/
def execRedStall (src : Src) (s : State) : Host.Outcome State Fault Refusal :=
  match s.ns.torus with
  | none => .next s
  | some r =>
    if r.src ≠ src then .next s
    else match src with
      | .dom d _ => if (s.dom d).st = 3 && (s.dom d).limit ≤ (s.ns.tick : Int) - r.since then .next (s.torFail r Sta.tideFault Rsn.redStall) else .next s
      | .cmd _ _ _ => if r.since + 7812500 ≤ s.ns.tick then .next (s.torFail r Sta.deadline Rsn.redStall) else .next s

/-! ### Messages -/

/-- RED_READY: a neighbour is ready for a pass over a dimension; its DHASH is compared. -/
def execRedReady (port : Nat) (s : State) : Host.Outcome State Fault Refusal :=
  match s.popMsg port 3 with
  | none => .next s
  | some (m, s1) =>
    let s0 := s
    let s := s1
    let key := bits m.w0 47 32 * 2 ^ 32 + bits m.w0 31 30 * 2 ^ 30 + bits m.w0 29 29 * 2 ^ 29
    let s := s.setNs (fun n => { n with readies := n.readies.filter (fun x => !(x.1 == port && x.2.1 == key)) ++ [(port, key, m.w1 % 2 ^ 32)] })
    match s.ns.torus with
    | none => .next s
    | some r =>
      if r.key ≠ key then .next s
      else if s.torMismatch r then .next (s.torFail r Sta.format Rsn.redMismatch)
      else
        let x := s.torPump { r with since := s.ns.tick }
        .next ((x.1.torAdvance x.2).getD s0)

/-- Replace the values of a chunk. -/
def TorRed.setVals (r : TorRed) (a : Nat) (es : List Int) (vs : List Nat) : TorRed :=
  if r.pass = 0 then { r with exps := r.exps.take a ++ es ++ r.exps.drop (a + es.length) }
  else { r with vals := r.vals.take a ++ vs ++ r.vals.drop (a + vs.length) }

/-- A chunk as its message brings it, joined to this module's own values in a reduce-scatter step; the lower LOW comes
first. -/
def TorRed.join (r : TorRed) (a low : Nat) (own : Bool) (body : List Byte) : TorRed :=
  if r.pass = 0 then
    let es := (List.range (body.length / 2)).map (fun i => sext 16 (leNat ((body.drop (2 * i)).take 2)))
    r.setVals a (if own then List.zipWith max es (r.exps.drop a) else es) []
  else
    let vs := (List.range (body.length / 40)).map (fun i => leNat ((body.drop (40 * i)).take 40))
    let sum := fun x y => (pinSum (Wes.decode x) (Wes.decode y)).encode
    r.setVals a [] (if own then List.zipWith (fun x y => if low < r.rank then sum x y else sum y x) vs (r.vals.drop a) else vs)

/-- RED_CHUNK: a chunk arrives; it is added, completed or passed on (R419). The message has no field for the poison of
R420: whether a chunk arrives poisoned is open (log entry 27). -/
def execRedChunk (port : Nat) (s : State) : Host.Outcome State Fault Refusal :=
  match s.popMsg port 4, s.ns.torus with
  | some (m, s1), some r =>
    let dir := bits m.w0 28 28
    let stage := bits m.w0 27 27
    let low := bits m.w0 14 0
    let j := bits m.w1 31 0
    let d := s.sizeOf r.dim
    let seg := segOf (r.chunks dir) d j
    let pos := s.ringPos r.dim dir
    let key := bits m.w0 47 32 * 2 ^ 32 + bits m.w0 31 30 * 2 ^ 30 + bits m.w0 29 29 * 2 ^ 29
    if key ≠ r.key || r.chunks dir ≤ j || bits m.w0 20 16 + 1 ≠ r.count dir j || partnerPort port ≠ outPort r.dim dir j then
      .next ((s1.raise clsTwp port 2 true).count clsTwp port Ev.TWP_MSG_PROTOCOL 1)
    else
      let (q, s1) := s1.draw 2
      let r := { r with since := s.ns.tick, poison := if q = 1 && !r.poison.contains (dir + 2 * j) then (dir + 2 * j) :: r.poison else r.poison }
      let r := r.join (r.first dir j) low (stage == 0) m.body
      let s1 := if stage = 0 && r.pass = 1 then s1.count clsTwp r.port Ev.TWP_RED_ADDS (r.count dir j) else s1
      let last := stage = 1 || (pos + 1) % d = seg
      let r := if last then { r with left := r.left - 1 } else r
      let x :=
        if stage = 0 then s1.torSend r dir j (boolNat (decide ((pos + 1) % d = seg))) (min low r.rank)
        else if (pos + 2) % d = seg then (s1, r) else s1.torSend r dir j 1 low
      .next ((x.1.torAdvance x.2).getD s)
  | some (_, s1), none => .next ((s1.raise clsTwp port 2 true).count clsTwp port Ev.TWP_MSG_PROTOCOL 1)
  | none, _ => .next s

end Sys2Proof.Machine
end

