-- ==== Sys2Proof/Machine/Peer.lean ====
section
/-! DEFINITION. Peer writes between modules (R421, R446). -/

namespace Sys2Proof.Machine

/-! ### The route (R421) -/

/-- The dimension and direction of the next hop: X, then Y, then Z, the shorter way, ties positive; none at home. -/
def State.peerHop (s : State) (dst : Nat) : Option (Nat × Bool) :=
  ([0, 1, 2].find? (fun d => coordDim dst d != s.coordOf d)).map (fun d =>
    let n := s.sizeOf d
    let f := (coordDim dst d + n - s.coordOf d) % n
    (d, decide (2 * f ≤ n)))

/-- The port of a hop on a stripe. -/
def hopPort (h : Nat × Bool) (stripe : Nat) : Nat := (if h.2 then 12 else 0) + 3 * stripe + h.1
def stripeOf (p : Nat) : Nat := p % 12 / 3

/-- A message for a port that is ACTIVE goes; for another one it waits. -/
def State.sendPeer (s : State) (p : Nat) (m : TwMsg) : State :=
  if (s.port p).st = 6 then s.sendMsg p m else s.setNs (fun n => { n with peerWait := n.peerWait ++ [(p, m)] })

/-- The stripe on which a message leaves the module it comes from: the lowest whose port is ACTIVE, stripe 0 where none is
(DESIGN CHOICE, log entry 28). -/
def State.originStripe (s : State) (h : Nat × Bool) : Nat := ((List.range 4).find? (fun k => (s.port (hopPort h k)).st == 6)).getD 0

/-! ### Messages of a PEER_COPY -/

def peerWriteMsg (cove dst txn n origin va : Nat) (bs : List Byte) : TwMsg :=
  { w0 := 5 * 2 ^ 60 + cove % 64 * 2 ^ 52 + dst % 2 ^ 15 * 2 ^ 32 + txn % 256 * 2 ^ 24 + (n / 32 - 1) % 128 * 2 ^ 16 + origin % 2 ^ 15
    w1 := va % 2 ^ 57, body := bs }
def peerAckMsg (status dst txn : Nat) : TwMsg := { w0 := 6 * 2 ^ 60 + status % 256 * 2 ^ 48 + dst % 2 ^ 15 * 2 ^ 32 + txn % 256 * 2 ^ 24, w1 := 0 }

/-- Bytes that a PEER_COPY moves. -/
def Cmd.peerTotal (k : Cmd) : Nat := packedBytes k.a.fmt (k.num 24 4)

/-- A peer write is performed here: its status, or none while the lines are busy. A cove that refuses peer writes, or
cannot translate the address, answers PERMISSION. -/
def State.peerPerform (s : State) (m : TwMsg) : Option (Nat × State) :=
  let c := bits m.w0 57 52
  if (s.cove c).st ≠ 2 || s.fld clsCove c R.COVE_CFG_PEER_ACCEPT = 0 then some (Sta.permission, s)
  else match s.bufWrite c 0 (bits m.w1 56 0) m.body false with
    | .ok s => some (0, s)
    | .wait => none
    | _ => some (Sta.permission, s)

/-- An answer reaches the copying module: OK counts, PERMISSION and ABORTED end the command. The last answer completes it. -/
def State.peerAnswer (s : State) (txn status : Nat) : State :=
  match s.ns.peers.find? (fun p => p.txn == txn) with
  | none => s
  | some p =>
    let s := s.setNs (fun n => { n with peers := n.peers.filter (fun q => q.txn != txn) })
    let (x, q, i) := p.cmd
    match s.cmdAt x q i with
    | none => s
    | some k =>
      if status = 0 then
        let k := { k with acks := k.acks + 1, result := k.result + 1 }
        if k.peerTotal ≤ k.pos && s.ns.peers.all (fun q => q.cmd != p.cmd) then
          (if k.poisoned then s.complete k Sta.poison Rsn.none 0 false else s.finish k k.result)
        else s.setCmd k
      else if status = Sta.permission then s.fail k Sta.permission Rsn.peerRefused 0
      else s.fail k Sta.aborted Rsn.linkDown 0

/-- Send an answer towards its origin. -/
def State.sendAck (s : State) (status dst txn stripe : Nat) : State :=
  match s.peerHop dst with
  | none => s.peerAnswer txn status
  | some h => s.sendPeer (hopPort h stripe) (peerAckMsg status dst txn)

/-- PEER_WRITE: forwarded on the stripe it came on, or performed and answered. -/
def execPeerWrite (port : Nat) (s : State) : Host.Outcome State Fault Refusal :=
  match s.popMsg port 5 with
  | none => .next s
  | some (m, s1) =>
    match s1.peerHop (bits m.w0 46 32) with
    | some h => .next ((s1.sendPeer (hopPort h (stripeOf port)) m).count clsTwp port Ev.TWP_PEER_FORWARD 1)
    | none => match s1.peerPerform m with
      | none => .next s
      | some (st, s2) => .next (s2.sendAck st (bits m.w0 14 0) (bits m.w0 31 24) (stripeOf port))

/-- PEER_ACK: forwarded, or it reaches the copying module. -/
def execPeerAck (port : Nat) (s : State) : Host.Outcome State Fault Refusal :=
  match s.popMsg port 6 with
  | none => .next s
  | some (m, s) => .next (s.sendAck (bits m.w0 55 48) (bits m.w0 46 32) (bits m.w0 31 24) (stripeOf port))

/-- PEER_WRITE_WAIT: peer writes have waited 10 ms for a port that is not ACTIVE; their commands end with ABORTED and
LINK_DOWN. A module on the way answers for them with that status (DEDUCED, log entry 28). -/
def execPeerWriteWait (port : Nat) (s : State) : Host.Outcome State Fault Refusal :=
  if (s.port port).st = 6 then .next s
  else
    let late := s.ns.peerWait.filter (fun w => w.1 == port && mtype w.2 == 5)
    let s := s.setNs (fun n => { n with peerWait := n.peerWait.filter (fun w => !(w.1 == port && mtype w.2 == 5)) })
    .next (late.foldl (fun s w => s.sendAck Sta.aborted (bits w.2.w0 14 0) (bits w.2.w0 31 24) (stripeOf port)) s)

end Sys2Proof.Machine
end

