-- ==== Sys2Proof/Machine/Queue.lean ====
section
/-! DEFINITION. Queues: doorbells, the fetch of descriptors, turns, validation, NOP (R432 to R444, R453, R600, R601). -/

namespace Sys2Proof.Machine

/-! ### Doorbells (R433, Table 15-3) -/

/-- The context of a doorbell page of a function (R430, Table 15-2); none where a VF's page lies outside its cove. -/
def State.doorbellCtx (s : State) (vf : Option Nat) (page : Nat) : Option Nat :=
  match vf with
  | none => if page < 4096 then some page else none
  | some c => if page < s.fld clsCove c R.COVE_CTX_COUNT then some (s.fld clsCove c R.COVE_CTX_BASE + page) else none

def State.primaryPort (s : State) : Nat := s.primary.getD 1

def State.doorbellDrop (s : State) : State := s.count clsEdge s.primaryPort Ev.EDGE_DOORBELL_DROP 1

/-- A doorbell value at or beyond the ring size (R433, R459); the requester ID is the host's, a free value. -/
def State.doorbellBad (s : State) (page : Nat) : State :=
  let (rid, s) := s.draw (2 ^ 16)
  s.record clsEdge s.primaryPort 2 R.EDGE_ERR_VALID [(R.EDGE_ERR_KIND, 1), (R.EDGE_ERR_RID, rid), (R.EDGE_ERR_INFO, page)]

/-- Whether a function's doorbell page serves a context: a cove whose VF is enabled has its doorbells served by the VF
alone (R443). -/
def State.doorbellServes (s : State) (vf : Option Nat) (x : Nat) : Bool :=
  match s.ctxCove x with
  | none => false
  | some c => (s.cove c).st == 2 && (match vf with | none => !s.vfOn c | some d => d == c && s.vfOn c)

/-- Whether a doorbell write reaches its queue (R433, R458, R534). -/
def State.doorbellOpen (s : State) (vf : Option Nat) (x q : Nat) : Bool :=
  s.ready && s.doorbellServes vf x && (s.ctx x).st != 0 && s.qfld x q R.Q_CFG_ENABLE == 1

/-- DOORBELL: a write of a BAR2 page, of `size` bytes. BAR2 accepts what BAR0 does (R10, R433); only a 64-bit write carries a
value with its V bit. -/
def execDoorbell (vf : Option Nat) (off size : Nat) (val : Nat) (s : State) : Host.Outcome State Fault Refusal :=
  let page := off / 4096
  let q := off % 4096 / 8
  if 2 ^ 24 ≤ off || !bar0Access off size then .next (s.emit { kind := outUnsupported, a := 2, b := off })
  else if 4 ≤ q || size ≠ 8 then .next s
  else match s.doorbellCtx vf page with
    | none => .next s.doorbellDrop
    | some x =>
      if !s.doorbellOpen vf x q then .next s.doorbellDrop
      else
        let n := s.ringSize x q
        let s := s.count clsEdge s.primaryPort Ev.EDGE_DOORBELL 1
        let s := if bit val 32 then
            (if bits val 15 0 < n then s.modQueue x q (fun u => { u with sqTail := bits val 15 0 }) else s.doorbellBad page) else s
        .next (if bit val 33 then
            (if bits val 31 16 < n then s.modQueue x q (fun u => { u with cqHead := bits val 31 16 }) else s.doorbellBad page) else s)

/-! ### Fetch (R434, R435, R453, R458) -/

/-- Opcodes of Table 15-8. -/
def knownOpcode (o : Nat) : Bool :=
  [0x00, 0x01, 0x02, 0x03, 0x04, 0x08, 0x09, 0x0A, 0x10, 0x11, 0x12, 0x13, 0x14, 0x15, 0x16, 0x18, 0x19, 0x1A, 0x1B, 0x1C, 0x20, 0x21,
    0x24, 0x28].contains o
/-- NOP, DISTANCES, TIDE_HOLD, TIDE_RESUME, TIDE_ABORT. -/
def controlOpcode (o : Nat) : Bool := [0x00, 0x28, 0x1A, 0x1B, 0x1C].contains o

/-- Whether ordinary commands of a context are held back (R453). -/
def Ctx.heldBack (x : Ctx) : Bool := !(x.st == 1 || x.st == 2) || x.stopping || x.saving || x.restoring

/-- Whether a queue may fetch at all. -/
def State.mayFetch (s : State) (x q : Nat) : Bool :=
  let u := s.queue x q
  let c := (s.ctxCove x).getD 64
  let host := s.qfld x q R.Q_SQ_BASE_SPACE == 1 || s.qfld x q R.Q_CQ_BASE_SPACE == 1
  s.ready && !s.ra.lost && (s.ctx x).st != 0 && c < 64 && (s.cove c).st == 2 && s.qfld x q R.Q_CFG_ENABLE == 1 && !u.halted &&
    (!host || s.hostUp c && (s.edge s.primaryPort).up)

/-- R435: an entry of the CQ is free for one more command. -/
def State.cqFree (s : State) (x q : Nat) : Bool :=
  let u := s.queue x q
  (u.cqTail + s.inflight x q + 1) % s.ringSize x q != u.cqHead

/-- Every earlier command of a queue has started (R436). -/
def State.allStarted (s : State) (x q : Nat) : Bool := s.hs.cmds.all (fun k => !(k.ctx == x && k.queue == q) || k.live)

/-- The SQ head moves past a fetched entry. -/
def State.takeEntry (s : State) (x q : Nat) : State :=
  (s.modQueue x q (fun u => { u with sqHead := (u.sqHead + 1) % s.ringSize x q })).qcount x Ev.CMDQ_FETCHED 1

/-- An SQ entry that cannot be read or reads poisoned: its record in its turn, and the halt (R601). -/
def State.ringEntryBad (s : State) (x q status : Nat) : State :=
  let i := (s.queue x q).sqHead
  ((s.takeEntry x q).fail { ctx := x, queue := q, idx := i } status Rsn.ringAccess 0).haltQueue x q true

/-- Fetch one descriptor; none when the queue has nothing to fetch now. A command with no row of its own (an unreadable
entry, an unknown opcode) is fetched and completed in its turn. -/
def State.fetchOne (s : State) (x q : Nat) : Option State :=
  let u := s.queue x q
  if !s.mayFetch x q || u.sqHead = u.sqTail || !s.cqFree x q then none
  else match s.bufRead ((s.ctxCove x).getD 0) (if s.qfld x q R.Q_SQ_BASE_SPACE = 1 then 2 else 0)
      (s.qfld x q R.Q_SQ_BASE_BASE * 4096 + 64 * u.sqHead) 64 with
    | .wait => none
    | .down => none
    | .ok bs p =>
      if p then (if s.allStarted x q && !(s.ctx x).heldBack then some (s.ringEntryBad x q Sta.poison) else none)
      else
        let k : Cmd := { ctx := x, queue := q, idx := u.sqHead, desc := bs, seq := s.hs.nextSeq }
        if !controlOpcode k.opcode && (s.ctx x).heldBack then none
        else if !knownOpcode k.opcode then
          (if s.allStarted x q then some ((s.takeEntry x q).fail k Sta.format Rsn.opcode 0) else none)
        else
          let s := s.takeEntry x q
          some { s with hs := { s.hs with cmds := s.hs.cmds ++ [k], nextSeq := s.hs.nextSeq + 1 } }
    | _ => if s.allStarted x q && !(s.ctx x).heldBack then some (s.ringEntryBad x q Sta.permission) else none

/-- Up to `n` descriptors. -/
def State.fetchUpTo (s : State) (x q : Nat) : Nat → State
  | 0 => s
  | n + 1 => match s.fetchOne x q with
    | none => s
    | some s => s.fetchUpTo x q n

/-- SQ_FETCH: one read of up to 8 descriptors. -/
def execSqFetch (ctx q : Nat) (s : State) : Host.Outcome State Fault Refusal := .next (s.fetchUpTo ctx q 8)

/-! ### Turns (R436, R453) -/

/-- Whether a command that was fetched may start: its place in its queue, and the state of its context. -/
def State.mayStart (s : State) (k : Cmd) : Bool :=
  let before := (s.hs.cmds.takeWhile (fun j => !j.is k.ctx k.queue k.idx)).filter (fun j => j.ctx == k.ctx && j.queue == k.queue)
  !s.ra.lost && (if k.waitPrev then before.isEmpty && (s.queue k.ctx k.queue).held.isEmpty else before.all Cmd.live) &&
    (controlOpcode k.opcode || !(s.ctx k.ctx).heldBack)

/-- Whether engine work of a running command may go on (R479, R484). -/
def State.mayWork (s : State) (k : Cmd) : Bool :=
  let x := s.ctx k.ctx
  x.st == 2 && !x.stopping && !x.saving && !x.restoring && !s.ra.lost

/-- What the event of a command's row finds: nothing to do, the command to validate, or the running command. -/
inductive CmdTurn
  | none
  | first (k : Cmd)
  | again (k : Cmd)

def State.turn (s : State) (x q i op : Nat) : CmdTurn :=
  match s.cmdAt x q i with
  | .none => .none
  | some k =>
    if k.opcode ≠ op then .none
    else if k.live then .again k
    else if s.mayStart k then .first k
    else .none

/-- A command starts (R436): a READY context is BUSY (Table 16-2). -/
def State.startCmd (s : State) (k : Cmd) (st : CSt) : State :=
  let s := s.setCmd { k with st := st, order := s.hs.nextStart }
  let s := { s with hs := { s.hs with nextStart := s.hs.nextStart + 1 } }
  if (s.ctx k.ctx).st = 1 then s.modCtx k.ctx (fun u => { u with st := 2 }) else s

/-- A command that starts and ends in one event. -/
def State.runNow (s : State) (k : Cmd) (result : Nat) : State :=
  (s.startCmd k .running).finish { k with st := .running } result

/-! ### Buffers (R439, R440, Table 15-6) -/

/-- bytes(n, F) of R440. -/
def bytesOf (f : Fmt) (n : Nat) : Nat := packedBytes f n

/-- A buffer descriptor of 32 bytes, and the reference's OFF; none where it is malformed. -/
def parseBuf (v off : Nat) : Option Buf :=
  match Fmt.ofCode (bits v 63 60) with
  | none => none
  | some f =>
    if 3 ≤ bits v 59 57 || bits v 127 112 ≠ 0 || bits v 255 130 ≠ 0 then none
    else some { fmt := f, space := bits v 59 57, base := bits v 56 0, bound := bits v 111 64, r := bit v 128, w := bit v 129, off := off }

/-- The first byte of a buffer from its OFF on. -/
def Buf.start (b : Buf) : Nat := b.base + bytesOf b.fmt b.off

/-- An OFF that R440 does not allow. -/
def offBad (f : Fmt) (off : Nat) : Bool := (f.width == 4 && off % 2 != 0) || (f.width == 6 && off % 4 != 0)

/-- What reading a buffer comes to; `late` failures are found at step 2 of R441. -/
inductive BufRes
  | wait
  | bad (status reason : Nat) (late : Bool)
  | ok (b : Buf)

def State.readBuf (s : State) (x ref : Nat) : BufRes :=
  let idx := ref % 2 ^ 16
  let off := ref / 2 ^ 16
  if s.xfld x R.CTX_BUFTAB_COUNT ≤ idx then .bad Sta.format Rsn.bufIndex false
  else match s.bufRead (s.coveOf x) 0 (s.xfld x R.CTX_BUFTAB_BASE * 4096 + 32 * idx) 32 with
    | .wait => .wait
    | .ok bs p =>
      if p then .bad Sta.poison Rsn.descPoison true
      else match parseBuf (leNat bs) off with
        | none => .bad Sta.format Rsn.bufDesc false
        | some b => if offBad b.fmt off then .bad Sta.format Rsn.offAlign false else .ok b
    | r => .bad (readStatus r).1 (readStatus r).2 true

/-! ### Validation, steps 1 to 5 (R441) -/

/-- What a command's body holds: its bits; fields with a range (offset, whether in range); references (offset, R, W);
whether it is reserved to the PF; other rights (offset, reason, whether held); lengths (offset, bytes); and what each
reference must hold, in bytes from the start of its buffer. -/
structure Body where
  allowed : Nat := 0
  range : List (Nat × Bool) := []
  refs : List (Nat × Bool × Bool) := []
  pf : Bool := false
  rights : List (Nat × Nat × Bool) := []
  lens : List (Nat × Nat) := []
  need : Buf → Nat → Option Nat := fun _ _ => none

/-- Header bits: OPCODE, WAIT_PREV, INTR, NOWAIT, RM, NOSAT, TAG. -/
def headerBits : Nat := fieldBits [(7, 0), (10, 8), (18, 16), (63, 32)]

inductive Verdict
  | wait
  | bad (status reason detail : Nat)
  | noop
  | ok (bufs : List Buf)

/-- Read the references in order: the first malformed one decides, else the first that cannot be read. -/
def State.readBufs (s : State) (k : Cmd) : List (Nat × Bool × Bool) → Option (Nat × Nat × Nat) → List Buf → Verdict
  | [], none, l => .ok l
  | [], some (st, r, o), _ => .bad st r o
  | (o, _, _) :: rs, late, l =>
    match s.readBuf k.ctx (k.num o 8) with
    | .wait => .wait
    | .bad st r false => .bad st r o
    | .bad st r true => s.readBufs k rs (match late with | some e => some e | none => some (st, r, o)) (l ++ [{}])
    | .ok b => s.readBufs k rs late (l ++ [b])

/-- The first reference whose buffer lacks a right. -/
def lacks : List (Nat × Bool × Bool) → List Buf → Option Nat
  | (o, r, w) :: rs, b :: bs => if (r && !b.r) || (w && !b.w) then some o else lacks rs bs
  | _, _ => none

/-- The first reference whose buffer is too short. -/
def tooShort (need : Buf → Nat → Option Nat) : List (Nat × Bool × Bool) → List Buf → Option Nat
  | (o, _, _) :: rs, b :: bs => match need b o with
    | some n => if b.bound < n then some o else tooShort need rs bs
    | none => tooShort need rs bs
  | _, _ => none

/-- Steps 1 to 5. -/
def State.validate (s : State) (k : Cmd) (b : Body) : Verdict :=
  match rsvByte 64 (leNat k.desc) (headerBits ||| b.allowed) with
  | some o => .bad Sta.format Rsn.rsvBit o
  | none => match b.range.find? (fun r => !r.2) with
    | some r => .bad Sta.format Rsn.fieldRange r.1
    | none =>
      match s.readBufs k b.refs (if b.pf && (s.fnOf k.ctx).isSome then some (Sta.permission, Rsn.pfOnly, 0) else none) [] with
      | .ok bufs =>
        match lacks b.refs bufs with
        | some o => .bad Sta.permission Rsn.bufAccess o
        | none => match b.rights.find? (fun r => !r.2.2) with
          | some r => .bad Sta.permission r.2.1 r.1
          | none => match b.lens.find? (fun l => k.num l.1 l.2 == 2 ^ (8 * l.2) - 1) with
            | some l => .bad Sta.lenReserved Rsn.lenAllOnes l.1
            | none =>
              if b.lens.any (fun l => k.num l.1 l.2 == 0) then .noop
              else match tooShort b.need b.refs bufs with
                | some o => .bad Sta.bounds Rsn.bound o
                | none => .ok bufs
      | v => v

/-- A validated command carries its buffers. -/
def Cmd.withBufs (k : Cmd) (l : List Buf) : Cmd := { k with a := l.getD 0 {}, b := l.getD 1 {}, c := l.getD 2 {} }

/-- The first event of a command: steps 1 to 5, then `f`. -/
def State.validated (s : State) (k : Cmd) (b : Body) (f : State → Cmd → State) : State :=
  match s.validate k b with
  | .wait => s
  | .bad st r o => s.fail k st r o
  | .noop => s.complete k 0 0 0 true
  | .ok bufs => f s (k.withBufs bufs)

/-- NOP. -/
def execNop (ctx q idx : Nat) (s : State) : Host.Outcome State Fault Refusal :=
  match s.turn ctx q idx 0x00 with
  | .first k => .next (s.validated k {} (fun s k => s.runNow k 0))
  | _ => .next s

end Sys2Proof.Machine
end

