-- ==== Sys2Proof/Machine/LaunchCmd.lean ====
section
/-! DEFINITION. LAUNCH, SPINDLE_STREAM, REDUCE and TORUS_REDUCE: validation and start (R63, R125, R218, R340, R341, R348,
R416, R441, R444, R447, R448, R477). -/

namespace Sys2Proof.Machine

/-! ### Launch records (Table 15-9) -/

def launchBits : Nat :=
  fieldBits [(56, 0), (64 + 56, 64), (319, 128), (335, 320), (340, 336), (346, 344), (360, 352), (415, 384), (511, 448), (512 + 56, 512),
    (576 + 56, 576), (767, 640), (768 + 56, 768), (863, 832)]

/-- A launch record as 128 bytes. -/
def recordLaunch (v x cove seq : Nat) (rm : RMode) (sm : SatMode) : Launch :=
  { ctx := x, cove := cove, cmd := seq, code := sx57 (bits v 56 0), dtab := sx57 (bits v 120 64), gx := bits v 191 128, gy := bits v 255 192
    gz := bits v 319 256, threads := bits v 335 320, alloc := 8 * (bits v 340 336 + 1), split := bits v 346 344, land := bits v 360 352
    spBytes := bits v 415 384, tileMap := (List.range 8).foldl (fun m t => mset 0 m t (bits v (448 + 8 * t + 7) (448 + 8 * t))) []
    slotTab := bits v 568 512, shelfBase := bits v 703 640, shelfLen := bits v 767 704, const := sx57 (bits v 824 768)
    constBytes := bits v 863 832, rm := rm, sat := sm }

/-- The first length or count field of a record that is all ones (step 3). -/
def launchAllOnes (v : Nat) : Option Nat :=
  ([(16, 191, 128), (24, 255, 192), (32, 319, 256), (40, 335, 320), (44, 360, 352), (48, 415, 384), (88, 767, 704), (104, 863, 832)].find?
    (fun f => bits v f.2.1 f.2.2 == 2 ^ (f.2.1 + 1 - f.2.2) - 1)).map Prod.fst

/-- A zero grid dimension or THREADS (R444). -/
def Launch.zero (l : Launch) : Bool := l.gx == 0 || l.gy == 0 || l.gz == 0 || l.threads == 0

/-- Groups that a quarter holds at an allocation (Table 3-3). -/
def quarterHolds (alloc : Nat) : Nat := min 8 (256 / alloc)

/-- What R444, R63, R125 and R218 find wrong with a record: reason and offset. -/
def launchBad (v : Nat) (l : Launch) : Option (Nat × Nat) :=
  match rsvByte 128 v launchBits with
  | some o => some (Rsn.rsvBit, o)
  | none =>
    let land := up4k (l.land * 2048)
    if 2 ^ 32 ≤ l.gx then some (Rsn.grid, 16)
    else if 2 ^ 32 ≤ l.gy then some (Rsn.grid, 24)
    else if 2 ^ 32 ≤ l.gz then some (Rsn.grid, 32)
    else if 2048 < l.threads || 4 * quarterHolds l.alloc < l.groups then some (Rsn.groups, 40)
    else if 5 < l.split then some (Rsn.split, 43)
    else if 256 < l.land || spPart l.split < land then some (Rsn.landSlots, 44)
    else if spPart l.split < land + up4k l.spBytes then some (Rsn.scratchpad, 48)
    else match (List.range 8).find? (fun t => decide (4 < l.tileClass t)) with
      | some t => some (Rsn.tileClass, 56 + t)
      | none => match (List.range 8).find? (fun t => l.tileClass t != 0 && decide (l.groups ≤ l.tileByte t % 32)) with
        | some t => some (Rsn.tileOwner, 56 + t)
        | none => if 262144 < l.tileTotal then some (Rsn.tileBytes, 56) else none

/-- The words of a slot table that differ from the default, or the offset of a reserved bit (R376). -/
def parseSlots (bs : List Byte) : Option Nat × List (Nat × Nat) :=
  let ws := (List.range 256).map (fun i => leNat ((bs.drop (4 * i)).take 4))
  match ws.findIdx? (fun w => decide (2 ^ 20 ≤ w)) with
  | some i => (some (4 * i), [])
  | none => (none, ws.zipIdx.foldl (fun m p => mset slotDefault m p.2 p.1) [])

/-- A record that a command names, read at step 7. -/
inductive RecRes
  | wait
  | bad (status reason : Nat)
  | ok (bs : List Byte)

def State.readRec (s : State) (cove space a n : Nat) : RecRes :=
  match s.bufRead cove space a n with
  | .wait => .wait
  | .ok bs p => if p then .bad Sta.poison Rsn.descPoison else .ok bs
  | r => .bad (readStatus r).1 (readStatus r).2

/-- The core set of a launch: its bitmap, or every core of the cove that is not leaving it (R464). -/
def State.coreSet (s : State) (cove va : Nat) : RecRes × List Nat :=
  if va = 0 then (.ok [], s.coveCoreBits cove)
  else match s.readRec cove 0 va 128 with
    | .ok bs => (.ok bs, (List.range 1024).filter (fun i => bit (bs.getD (i / 8) 0).toNat (i % 8)))
    | r => (r, [])

/-- A domain that reserves a core. -/
def State.coreReserved (s : State) (c : Nat) : Bool := s.ns.doms.any (fun p => p.2.reserved && p.2.cores.contains c)

/-- LAUNCH once its record has been read: step 2 for its cores, then steps 3, 4, 6, 7, and its start. -/
def State.launchRec (s : State) (k : Cmd) (v : Nat) : State :=
  let cove := s.coveOf k.ctx
  let l := recordLaunch v k.ctx cove k.seq k.rm k.sm
  match s.coreSet cove (bits v 632 576) with
  | (.wait, _) => s
  | (r, cores) =>
    let late : Option (Nat × Nat × Nat) := match r with | .bad st why => some (st, why, 72) | _ => none
    let own := s.coveCoreBits cove
    if cores.any (fun c => !own.contains c) then s.fail k Sta.permission Rsn.coreSet 72
    else match launchAllOnes v with
      | some o => s.fail k Sta.lenReserved Rsn.lenAllOnes o
      | none =>
        if l.zero then s.complete k 0 0 0 true
        else if cores.any s.coreReserved then s.fail k Sta.state Rsn.coreReserved 0
        else match late with
          | some (st, why, o) => s.fail k st why o
          | none =>
            match launchBad v l with
            | some (why, o) => s.fail k Sta.format why o
            | none =>
              if cores.isEmpty then s.fail k Sta.format Rsn.coreSet 72
              else
                let start : List (Nat × Nat) → State := fun slots =>
                  let l := { l with cores := cores, slots := slots }
                  let k := { k with blocksLeft := l.blocks }
                  (s.startCmd k .running).enqueueLaunch l
                if l.slotTab = 0 then start []
                else match s.readRec cove 0 l.slotTab 1024 with
                  | .wait => s
                  | .bad st why => s.fail k st why 64
                  | .ok bs => match parseSlots bs with
                    | (some o, _) => s.fail k Sta.format Rsn.rsvBit o
                    | (none, slots) => start slots

/-- A reference alone in bytes 8 to 15, to a record of `n` bytes. -/
def recordBody (n : Nat) : Body :=
  { allowed := fieldBits [(127, 64)], refs := [(8, true, false)], need := fun b o => if o = 8 then some (bytesOf b.fmt b.off + n) else none }

/-- LAUNCH. A launch that has started runs by its blocks. -/
def execLaunch (ctx q idx : Nat) (s : State) : Host.Outcome State Fault Refusal :=
  match s.turn ctx q idx 0x01 with
  | .first k => .next (s.validated k (recordBody 128) (fun s k =>
      match s.readRec (s.coveOf k.ctx) k.a.space k.a.start 128 with
      | .wait => s
      | .bad st why => s.fail k st why 8
      | .ok bs => s.launchRec k (leNat bs)))
  | _ => .next s

/-! ### SPINDLE_STREAM (R340, R341, R346, R447, R477) -/

/-- Streams of commands that an engine runs. -/
def State.streamsOn (s : State) (die : Nat) : Nat := (s.ns.streams.filter (fun t => t.target == die)).length

/-- The multicast sets of a table of `n` sets. -/
def parseSets (bs : List Byte) (n : Nat) : List (List Nat) :=
  (List.range n).map (fun i =>
    let a := ((bs.drop (128 * i)).take 128).toArray
    (List.range 1024).filter (fun c => bit (a.getD (c / 8) 0).toNat (c % 8)))

/-- The first set that is empty or names a core outside a cove. -/
def State.setBad (s : State) (cove : Nat) (l : List (List Nat)) : Option Nat :=
  let own := s.coveCores cove
  l.findIdx? (fun m => m.isEmpty || m.any (fun c => !own.contains c))

/-- A free stream slot goes to a waiting command that no other waiting command of the engine ranks before. -/
def State.streamTurn (s : State) (k : Cmd) : Bool :=
  decide (s.streamsOn (k.byte 29) < 8) &&
    s.hs.cmds.all (fun j => !(j.st == .waiting && j.opcode == 0x08 && j.byte 29 == k.byte 29 && j.ctx != k.ctx && s.mayWork j) ||
      !(s.rankOf j.ctx).before (s.rankOf k.ctx))

/-- A stream starts: the engine reads the whole multicast table (R341). -/
def State.streamStart (s : State) (k : Cmd) : State :=
  let c := s.coveOf k.ctx
  let n := k.byte 28
  match s.readRec c k.b.space k.b.start (128 * n) with
  | .wait => s
  | .bad st why => s.fail k st why 0
  | .ok bs =>
    let sets := parseSets bs n
    match s.setBad c sets with
    | some i => s.fail k Sta.format Rsn.coreSet (128 * i)
    | none =>
      let t : Table := {
        src := .cmd k.ctx k.queue k.idx, kind := 0, target := k.byte 29, cove := c, space := k.a.space, va := k.a.start, count := k.num 24 4
        msets := sets }
      let s := s.setCmd { k with st := .running, nodes := k.nodes ++ [0x600 + k.byte 29] }
      s.setNs (fun n => { n with streams := n.streams ++ [t] })

def spindleBody (k : Cmd) : Body :=
  { allowed := fieldBits [(223, 64), (231, 224), (239, 232)], range := [(28, decide (k.byte 28 ≤ 64)), (29, decide (k.byte 29 < 16))]
    refs := [(8, true, false), (16, true, false)], lens := [(24, 4), (28, 1)]
    need := fun b o => some (bytesOf b.fmt b.off + (if o = 8 then 32 * k.num 24 4 else 128 * k.byte 28)) }

/-- SPINDLE_STREAM: entries move by ENTRY_ISSUE, SEAL_CHECK and LANDING. -/
def execSpindleStream (ctx q idx : Nat) (s : State) : Host.Outcome State Fault Refusal :=
  match s.turn ctx q idx 0x08 with
  | .first k => .next (s.validated k (spindleBody k) (fun s k =>
      if s.streamTurn k then (s.startCmd k .running).streamStart { k with st := .running, order := s.hs.nextStart }
      else if k.noWait then s.fail k Sta.queueFull Rsn.none 0
      else s.startCmd k .waiting))
  | .again k => if k.st = .waiting && s.mayWork k && s.streamTurn k then .next (s.streamStart k) else .next s
  | .none => .next s

/-! ### REDUCE (R348, R447) -/

/-- REDUCE: the reduction waits for its allocator (RED_ALLOCATION). -/
def execReduce (ctx q idx : Nat) (s : State) : Host.Outcome State Fault Refusal :=
  match s.turn ctx q idx 0x09 with
  | .first k => .next (s.validated k (recordBody 64) (fun s k =>
      let c := s.coveOf k.ctx
      match s.readRec c k.a.space k.a.start 64 with
      | .wait => s
      | .bad st why => s.fail k st why 8
      | .ok bs =>
        let v := leNat bs
        if bits v 63 32 = 2 ^ 32 - 1 then s.fail k Sta.lenReserved Rsn.lenAllOnes 4
        else if bits v 63 32 = 0 then s.complete k 0 0 0 true
        else match s.redBad c v with
          | some (st, why, o) => s.fail k st why o
          | none => (s.startCmd k .running).addRed (.cmd ctx q idx) 0 c k.ctx v k.rm k.sm 0))
  | _ => .next s

/-! ### TORUS_REDUCE (R416, R417, R448) -/

/-- The port whose page counts a command's torus reduction: the lowest ACTIVE one of its first dimension. -/
def State.torPort (s : State) (v : Nat) : Nat :=
  let d := (dimsOf v).headD 0
  ((List.range 24).find? (fun p => portDim p == d && (s.port p).st == 6)).getD d

/-- A torus reduction starts; a module runs one at a time. -/
def State.torBeginCmd (s : State) (k : Cmd) : State :=
  let v := k.record
  match s.torStart (torOf (.cmd k.ctx k.queue k.idx) 0 (s.coveOf k.ctx) v k.b.start k.b.space k.rm k.sm (s.torPort v) s.myCoord) with
  | .ok s => s
  | .error .wait => s.setCmd { k with st := .waiting }
  | .error e => s.fail k (readStatus e).1 (readStatus e).2 0

def torusBody : Body :=
  { allowed := fieldBits [(191, 64)], refs := [(8, true, false), (16, true, false)]
    need := fun b o => if o = 8 then some (bytesOf b.fmt b.off + 64) else none }

/-- TORUS_REDUCE: its descriptor is read at validation; a waiting one starts when no other runs. -/
def execTorusReduce (ctx q idx : Nat) (s : State) : Host.Outcome State Fault Refusal :=
  match s.turn ctx q idx 0x0A with
  | .first k => .next (s.validated k torusBody (fun s k =>
      match s.readRec (s.coveOf k.ctx) k.a.space k.a.start 64 with
      | .wait => s
      | .bad st why => s.fail k st why 8
      | .ok bs =>
        let v := leNat bs
        let k := { k with record := v }
        if bits v 63 32 = 2 ^ 32 - 1 then s.fail k Sta.lenReserved Rsn.lenAllOnes 4
        else if bits v 63 32 = 0 then s.complete k 0 0 0 true
        else if k.b.bound < bytesOf k.b.fmt k.b.off + bytesOf ((Fmt.ofCode (bits v 15 12)).getD .int8) (bits v 63 32) then
          s.fail k Sta.bounds Rsn.bound 16
        else match s.torBad v with
          | some (why, o) => s.fail k Sta.format why o
          | none =>
            if s.ns.torus.isSome then s.startCmd k .waiting
            else (s.startCmd k .running).torBeginCmd { k with st := .running, order := s.hs.nextStart }))
  | .again k =>
    if k.st = .waiting && s.mayWork k && s.ns.torus.isNone then .next ((s.setCmd { k with st := .running }).torBeginCmd { k with st := .running })
    else .next s
  | .none => .next s

end Sys2Proof.Machine
end

