-- ==== Sys2Proof/Machine/CopyCmd.lean ====
section
/-! DEFINITION. COPY, FILL, PEER_COPY, COMMONS_LOAD and COMMONS_REPAIR (R421, R440, R445, R446, R449, R469, R479, R521, R525).
The first event of a row validates and starts its command; each later one does one 4 KiB granule or tile. -/

namespace Sys2Proof.Machine

/-! ### Elements of a buffer -/

/-- Elements that share whole bytes: 2 of 4 bits, 4 of 6 bits. -/
def Fmt.group (f : Fmt) : Nat := if f.width = 4 then 2 else if f.width = 6 then 4 else 1

/-- The first byte of element `pos` of a buffer, and the bit at which it begins there. -/
def Buf.at (b : Buf) (pos : Nat) : Nat := b.base + (b.off + pos) * b.fmt.width / 8
def Buf.bitAt (b : Buf) (pos : Nat) : Nat := (b.off + pos) * b.fmt.width % 8
/-- Bytes that `n` elements from `pos` touch. -/
def Buf.span (b : Buf) (pos n : Nat) : Nat := (b.bitAt pos + n * b.fmt.width + 7) / 8

/-- Elements of the destination granule that begins at element `pos`, at most `n`. -/
def Buf.granule (b : Buf) (pos n : Nat) : Nat :=
  let a := b.at pos
  let g := b.fmt.group
  let gb := g * b.fmt.width / 8
  min n (((a / 4096 + 1) * 4096 - a + gb - 1) / gb * g)

/-- Raw elements from `pos` on, each with its poison mark. -/
def State.readElems (s : State) (cove : Nat) (b : Buf) (pos n : Nat) : Except Rd (List (Nat × Bool)) :=
  let a := b.at pos
  let k := b.span pos n
  let w := b.fmt.width
  let o := b.bitAt pos
  match s.bufRead cove b.space a k with
  | .ok bs p =>
    let v := leNat bs
    let marks := if p then (s.bufPoison cove b.space a k).toArray else #[]
    .ok ((List.range n).map (fun i =>
      (bits v (o + i * w + w - 1) (o + i * w), marks.getD ((o + i * w) / 8) false || marks.getD ((o + i * w + w - 1) / 8) false)))
  | r => .error r

/-- Elements as bytes, low bits first. -/
def elemBytes (f : Fmt) (l : List Nat) : List Byte := (packVals f.width l).take ((l.length * f.width + 7) / 8)

/-- Write the pieces of a range, each with its own poison mark. -/
def State.writePieces (s : State) (cove space : Nat) : List (Nat × List Byte × Bool) → Wr
  | [] => .ok s
  | (a, bs, p) :: l => match s.bufWrite cove space a bs p with
    | .ok s => s.writePieces cove space l
    | r => r

/-- The last byte of a write whose elements end inside it keeps the elements it does not name (R445). -/
def State.mergeLast (s : State) (cove : Nat) (b : Buf) (pos n : Nat) (bs : List Byte) : Except Rd (List Byte) :=
  let r := n * b.fmt.width % 8
  if r = 0 then .ok bs
  else match s.bufRead cove b.space (b.at pos + bs.length - 1) 1 with
    | .ok old _ => .ok (bs.take (bs.length - 1) ++
        [BitVec.ofNat 8 (((bs.getLast?).getD 0).toNat % 2 ^ r + ((old.head?).getD 0).toNat / 2 ^ r * 2 ^ r)])
    | r => .error r

/-- Write elements to a buffer; a poisoned one marks the 32-byte sectors of the destination it lies in. -/
def State.writeElems (s : State) (cove : Nat) (b : Buf) (pos : Nat) (l : List (Nat × Bool)) : Except Rd Wr :=
  let a := b.at pos
  let w := b.fmt.width
  match s.mergeLast cove b pos l.length (elemBytes b.fmt (l.map Prod.fst)) with
  | .error r => .error r
  | .ok bs =>
    if l.all (fun e => !e.2) then .ok (s.bufWrite cove b.space a bs false)
    else
      let bad := ((l.zipIdx.filter (fun e => e.1.2)).flatMap (fun e => [(a + e.2 * w / 8) / 32, (a + ((e.2 + 1) * w - 1) / 8) / 32]))
      let n := bs.length
      .ok (s.writePieces cove b.space ((List.range ((a % 32 + n + 31) / 32)).map (fun i =>
        let lo := max a ((a / 32 + i) * 32)
        let hi := min (a + n) ((a / 32 + i + 1) * 32)
        (lo, (bs.drop (lo - a)).take (hi - lo), bad.contains (a / 32 + i)))))

/-! ### The engine of a granule (R445) -/

/-- The shelf die of an edge port (Table 1-4). -/
def edgeDie (e : Nat) : Nat := if e < 4 then e else 8 + e

/-- The shelf die that a device or shelf-scratch address belongs to. -/
def State.addrDie (s : State) (cove space a : Nat) (wr : Bool) : Option Nat :=
  match s.locate cove space a wr with
  | .dev pa => match region pa with
    | .shelf c o => some (s.windowSlice c o / 32)
    | r => if coherent r then some (s.home cove (pa / 128) / 32) else none
  | _ => none

/-- The copy engine of a granule: by the destination, else the source, else the cove's HOST port. -/
def State.copyDie (s : State) (cove : Nat) (src : Option (Nat × Nat)) (space a : Nat) : Nat :=
  match s.addrDie cove space a true with
  | some d => d
  | none => match (match src with | some p => s.addrDie cove p.1 p.2 false | none => none) with
    | some d => d
    | none => edgeDie ((s.hostPort cove).getD 0)

/-- An engine that took part (R293). -/
def Cmd.onEngine (k : Cmd) (die : Nat) : Cmd := if k.nodes.contains (0x610 + die) then k else { k with nodes := k.nodes ++ [0x610 + die] }

/-- A granule has been written: the next one, or the end. -/
def State.granuleDone (s : State) (k : Cmd) (len : Nat) : State :=
  if k.pos < len then s.setCmd k
  else if k.poisoned then s.complete k Sta.poison Rsn.none 0 false
  else s.finish k 0

/-- What a write that an engine made comes to: nothing yet, the end of its command, or the state after it. -/
def State.afterWrite (s : State) (k : Cmd) (w : Wr) (f : State → State) : State :=
  match w with
  | .ok s => f s
  | .wait => s
  | .refused => s.fail k Sta.permission Rsn.bufAccess 0
  | .down => s.fail k Sta.aborted Rsn.linkDown 0

/-! ### COPY and FILL (R445) -/

/-- The saturation mode of a conversion: integer destinations always saturate (R34). -/
def copySat (f : Fmt) (sm : SatMode) : SatMode := if f.isInt then .sat else sm

/-- One element from one format to another, rounded once (R36 to R40, R51). -/
def copyConvert (src dst : Fmt) (rm : RMode) (sm : SatMode) (x : Nat) : Rounded :=
  if src = dst then { bits := x }
  else if dst = .wes then { bits := Wes.encode (contribution src x) }
  else if src = .wes then (Wes.decode x).round dst rm (copySat dst sm)
  else convert src dst rm (copySat dst sm) x

/-- One granule of a COPY. -/
def State.copyGranule (s : State) (k : Cmd) : State :=
  let c := s.coveOf k.ctx
  let len := k.num 24 4
  let n := k.b.granule k.pos (len - k.pos)
  let die := s.copyDie c (some (k.a.space, k.a.at k.pos)) k.b.space (k.b.at k.pos)
  match s.readElems c k.a k.pos n with
  | .error r => s.failReadAt (0x610 + die) c k.a.space (k.a.at k.pos) (k.a.span k.pos n) k r
  | .ok es =>
    let rs := es.map (fun e => copyConvert k.a.fmt k.b.fmt k.rm k.sm e.1)
    match (s.noteBuf (0x610 + die) c k.a.space (k.a.at k.pos) (k.a.span k.pos n)).writeElems c k.b k.pos
        ((rs.map Rounded.bits).zip (es.map Prod.snd)) with
    | .error r => s.failRead k r
    | .ok w =>
      let wide := (rs.filter Rounded.wide).length
      let nan := (rs.filter Rounded.nanDrop).length
      s.afterWrite k w (fun s =>
        let s := (s.count clsSpindle die Ev.SPINDLE_COPY_INEXACT_WIDE wide).count clsSpindle die Ev.SPINDLE_COPY_NAN_DROP nan
        let k := { k with pos := k.pos + n, inexact := k.inexact || wide != 0, poisoned := k.poisoned || es.any Prod.snd }
        s.granuleDone (k.onEngine die) len)

def copyBody (k : Cmd) : Body :=
  { allowed := fieldBits [(223, 64)], refs := [(8, true, false), (16, false, true)], lens := [(24, 4)]
    need := fun b _ => some (bytesOf b.fmt (b.off + k.num 24 4)) }

/-- COPY. -/
def execCopy (ctx q idx : Nat) (s : State) : Host.Outcome State Fault Refusal :=
  match s.turn ctx q idx 0x02 with
  | .first k => .next (s.validated k (copyBody k) (fun s k => s.startCmd k .running))
  | .again k => if s.mayWork k then .next (s.copyGranule k) else .next s
  | .none => .next s

/-- One granule of a FILL: VALUE's bits beyond the element's width are not used. -/
def State.fillGranule (s : State) (k : Cmd) : State :=
  let c := s.coveOf k.ctx
  let len := k.num 16 4
  let n := k.a.granule k.pos (len - k.pos)
  let v := k.num 24 40 % 2 ^ k.a.fmt.width
  match s.writeElems c k.a k.pos (List.replicate n (v, false)) with
  | .error r => s.failRead k r
  | .ok w =>
    let die := s.copyDie c none k.a.space (k.a.at k.pos)
    s.afterWrite k w (fun s => s.granuleDone ({ k with pos := k.pos + n }.onEngine die) len)

def fillBody (k : Cmd) : Body :=
  { allowed := fieldBits [(159, 64), (511, 192)], refs := [(8, false, true)], lens := [(16, 4)]
    need := fun b _ => some (bytesOf b.fmt (b.off + k.num 16 4)) }

/-- FILL. -/
def execFill (ctx q idx : Nat) (s : State) : Host.Outcome State Fault Refusal :=
  match s.turn ctx q idx 0x03 with
  | .first k => .next (s.validated k (fillBody k) (fun s k => s.startCmd k .running))
  | .again k => if s.mayWork k then .next (s.fillGranule k) else .next s
  | .none => .next s

/-! ### PEER_COPY (R421, R446) -/

/-- A TXN that no outstanding peer write has. -/
def State.freeTxn (s : State) : Option Nat :=
  (List.range 256).findSome? (fun i =>
    let t := (s.ns.nextTxn + i) % 256
    if s.ns.peers.all (fun p => p.txn != t) then some t else none)

/-- Bytes of the next message: to the end of a 4 KiB granule of the source, in units of 32 but for the last. -/
def peerPart (a left : Nat) : Nat :=
  let room := 4096 - a % 4096
  if left ≤ room then left else max 32 (room / 32 * 32)

/-- One PEER_WRITE. The bytes beyond the end of the last unit are free. -/
def State.peerGranule (s : State) (k : Cmd) : State :=
  let c := s.coveOf k.ctx
  let total := k.peerTotal
  let a := k.a.start + k.pos
  let n := peerPart a (total - k.pos)
  let dst := k.num 28 2 % 2 ^ 15
  if total ≤ k.pos then s
  else match s.bufRead c k.a.space a n, s.freeTxn with
    | .ok bs p, some t =>
      let (pad, s) := s.drawBytes ((32 - n % 32) % 32)
      let m := peerWriteMsg (k.byte 30) dst t ((n + 31) / 32 * 32) s.myCoord (sx57 (k.num 16 8) + k.pos) (bs ++ pad)
      let die := s.copyDie c (some (k.a.space, a)) 2 0
      let s := s.noteBuf (0x610 + die) c k.a.space a n
      let k := { k with pos := k.pos + n, poisoned := k.poisoned || p }.onEngine die
      match s.peerHop dst with
      | some h =>
        let s := (s.setCmd k).setNs (fun x => { x with nextTxn := (t + 1) % 256, peers := x.peers ++ [{ txn := t, cmd := (k.ctx, k.queue, k.idx) }] })
        s.sendPeer (hopPort h (s.originStripe h)) m
      | none => match s.peerPerform m with
        | none => s
        | some (st, s) =>
          let s := (s.setCmd k).setNs (fun x => { x with nextTxn := (t + 1) % 256, peers := x.peers ++ [{ txn := t, cmd := (k.ctx, k.queue, k.idx) }] })
          s.peerAnswer t st
    | .ok _ _, none => s
    | r, _ => s.failReadAt (0x610 + s.copyDie c (some (k.a.space, a)) 2 0) c k.a.space a n k r

def State.peerBody (s : State) (k : Cmd) : Body :=
  let d := k.num 28 2
  { allowed := fieldBits [(127, 64), (184, 128), (223, 192), (238, 224), (245, 240)]
    range := [(28, [0, 1, 2].all (fun i => decide (coordDim d i < s.sizeOf i)))]
    refs := [(8, true, false)], lens := [(24, 4)], need := fun b _ => some (bytesOf b.fmt (b.off + k.num 24 4)) }

/-- PEER_COPY: it completes with the last PEER_ACK. -/
def execPeerCopy (ctx q idx : Nat) (s : State) : Host.Outcome State Fault Refusal :=
  match s.turn ctx q idx 0x04 with
  | .first k => .next (s.validated k (s.peerBody k) (fun s k => s.startCmd k .running))
  | .again k => if s.mayWork k then .next (s.peerGranule k) else .next s
  | .none => .next s

/-! ### COMMONS_LOAD and COMMONS_REPAIR (R449, R469, R521) -/

/-- Bytes of the usable commons (R469). -/
def State.commonsBytes (s : State) : Nat :=
  let n := (s.coveChans 64).length
  if s.fld clsCove 64 R.COMMONS_CFG_MIRROR = 1 then n * 2 ^ 30 else n * 2 ^ 31

/-- Write whole lines of memory through their homes; none while a line is busy. -/
def State.putLines (s : State) (c pa : Nat) (bs : List Byte) : Option State :=
  (cut pa bs.length).foldl (fun r p => match r with
    | none => none
    | some s => if s.lineBusy (p.1 / 128) then none else some (s.linePut c p.1 ((bs.drop (p.1 - pa)).take p.2) false)) (some s)

/-- The stored poison marks of a range of memory are cleared. -/
def State.clearMarks (s : State) (pa n : Nat) : State :=
  { s with poison := s.poison.filter (fun k => !(decide (pa / 32 ≤ k) && decide (k < (pa + n) / 32))) }

/-- A tile into the primary and, when the commons is mirrored, the mirror, with its seal. -/
def State.storeTile (s : State) (c d : Nat) (bs : List Byte) (sealWord : Nat) : Option State :=
  let pa := s.fld clsCove 64 R.COVE_FRAMES_FB * 2 ^ 31 + d
  let m := pa + (s.coveChans 64).length * 2 ^ 30
  match s.putLines c pa bs with
  | none => none
  | some s =>
    let s? := if s.fld clsCove 64 R.COMMONS_CFG_MIRROR = 1 then s.putLines c m bs else some s
    s?.map (fun s => { s with ra := { s.ra with
      seals := minsert (d / 4096) sealWord (merase s.ra.seals (d / 4096)), sealLoaded := sadd (d / 4096) s.ra.sealLoaded } })

/-- What a repair ends for a tile: its table entry, its stored marks, its place on the bad-primary list (R449, R523). -/
def State.repairTile (s : State) (d : Nat) : State :=
  let pa := s.fld clsCove 64 R.COVE_FRAMES_FB * 2 ^ 31 + d
  let s := s.clearMarks pa 4096
  let s := if s.fld clsCove 64 R.COMMONS_CFG_MIRROR = 1 then s.clearMarks (pa + (s.coveChans 64).length * 2 ^ 30) 4096 else s
  let s := s.setNs (fun n => { n with badTiles := n.badTiles.filter (fun p => p.2 / 128 != pa / 4096) })
  { s with ra := { s.ra with badPrim := sdel (pa / 4096) s.ra.badPrim } }

/-- The end of a load or repair: a repair clears what its written tiles had. -/
def State.commonsEnd (s : State) (k : Cmd) (ok : Bool) : State :=
  let d := k.num 16 8 % 2 ^ 48
  let s := if k.opcode = 0x16 then (List.range k.pos).foldl (fun s i => s.repairTile (d + 4096 * i)) s else s
  if ok then s.finish k 0 else s.fail { k with result := k.pos } Sta.poison Rsn.seal 0

/-- One tile. -/
def State.commonsTile (s : State) (k : Cmd) : State :=
  let c := s.coveOf k.ctx
  let d := k.num 16 8 % 2 ^ 48 + 4096 * k.pos
  let die := (s.paChan (s.fld clsCove 64 R.COVE_FRAMES_FB * 2 ^ 31 + d)).getD 0 / 64
  match s.bufRead c k.b.space (k.b.start + 4 * k.pos) 4 with
  | .ok w wp => match s.bufRead c k.a.space (k.a.start + 4096 * k.pos) 4096 with
    | .ok bs p =>
      let s1 := (s.noteBuf (0x610 + die) c k.b.space (k.b.start + 4 * k.pos) 4).noteBuf (0x610 + die) c k.a.space (k.a.start + 4096 * k.pos) 4096
      if p || wp || crc32c bs ≠ leNat w then s1.commonsEnd k false
      else match s1.storeTile c d bs (leNat w) with
        | none => s
        | some s =>
          let k := { k with pos := k.pos + 1 }.onEngine die
          if k.num 24 4 ≤ k.pos then s.commonsEnd k true else s.setCmd k
    | r => s.failReadAt (0x610 + die) c k.a.space (k.a.start + 4096 * k.pos) 4096 k r
  | r => s.failReadAt (0x610 + die) c k.b.space (k.b.start + 4 * k.pos) 4 k r

def commonsBody (k : Cmd) : Body :=
  { allowed := fieldBits [(127, 64), (175, 128), (223, 192), (319, 256)], refs := [(8, true, false), (32, true, false)], pf := true
    lens := [(24, 4)], need := fun b o => some (bytesOf b.fmt b.off + (if o = 8 then 4096 else 4) * k.num 24 4) }

/-- Steps 5 and 6 of R441 for the commons (R469). -/
def State.commonsStart (s : State) (k : Cmd) : State :=
  if (s.cove 64).st ≠ 2 then s.fail k Sta.state Rsn.ctxState 0
  else if s.commonsBytes < k.num 16 8 % 2 ^ 48 + 4096 * k.num 24 4 then s.fail k Sta.bounds Rsn.commonsSpace 16
  else s.startCmd k .running

/-- COMMONS_LOAD. -/
def execCommonsLoad (ctx q idx : Nat) (s : State) : Host.Outcome State Fault Refusal :=
  match s.turn ctx q idx 0x15 with
  | .first k => .next (s.validated k (commonsBody k) (fun s k => s.commonsStart k))
  | .again k => if s.mayWork k then .next (s.commonsTile k) else .next s
  | .none => .next s

/-- COMMONS_REPAIR. -/
def execCommonsRepair (ctx q idx : Nat) (s : State) : Host.Outcome State Fault Refusal :=
  match s.turn ctx q idx 0x16 with
  | .first k => .next (s.validated k (commonsBody k) (fun s k => s.commonsStart k))
  | .again k => if s.mayWork k then .next (s.commonsTile k) else .next s
  | .none => .next s

end Sys2Proof.Machine
end

