-- ==== Sys2Proof/Machine/Hbm.lean ====
section
/-! DEFINITION. Memory channels: corrected and uncorrectable reads, scrubbing, page walks, expander failures
(R313, R315 to R318, R329, R522). -/

namespace Sys2Proof.Machine

/-! ### Rows of a channel (R316, R318) -/

/-- A channel that holds data (Table 11-5). -/
def Chan.serving (c : Chan) : Bool := c.st == 1 || c.st == 2

/-- UE_RETRY (R316): a demand read of a burst was uncorrectable, and it is read again: clean (0), corrected (1),
uncorrectable (2). -/
def execUeRetry (ch burst outcome : Nat) (s : State) : Host.Outcome State Fault Refusal :=
  if !(s.chan ch).serving || 2 ^ 25 ≤ burst then .next s
  else match outcome with
    | 0 => .next (s.hbmRetryOk ch)
    | 1 => .next (s.hbmRetryOk ch)
    | _ => .next (s.hbmUe ch burst false false)

/-- SCRUB_READ (R318): the scrubber reads its next burst: clean (0), corrected (1), cleared by the retry (2),
uncorrectable (3). An injection armed on the channel is found by it (R576). -/
def execScrubRead (ch outcome : Nat) (s : State) : Host.Outcome State Fault Refusal :=
  let c := s.chan ch
  if !c.serving || s.fld clsHbmc ch R.HBMC_SCRUB_PERIOD = 0 || c.clearing then .next s
  else
    let b := c.scrubPos % 2 ^ 25
    let s := s.count clsHbmc ch Ev.HBMC_SCRUB_BURSTS 1
    let s := match outcome with
      | 0 => match s.takeInjection clsHbmc ch 1 with
        | some s => s.hbmUe ch b true true
        | none => match s.takeInjection clsHbmc ch 0 with
          | some s => s.hbmCe ch b true
          | none => s
      | 1 => s.hbmCe ch b false
      | 2 => s.hbmRetryOk ch
      | _ => s.hbmUe ch b true false
    let s := s.modChan ch (fun c => { c with scrubPos := (b + 1) % 2 ^ 25 })
    .next (if b + 1 = 2 ^ 25 then s.setFld clsHbmc ch R.HBMC_SCRUB_PASS_DONE 1 else s)

/-! ### Walks (R313) -/

/-- WALK: a core walks its cove's tables for an address; what it finds is held (R111, R313). A store of translations that
is full drops its oldest entries (DESIGN CHOICE, log entry 14). -/
def execWalk (core va : Nat) (s : State) : Host.Outcome State Fault Refusal :=
  if s.kfld core R.CORE_MAP_COVE_VALID = 0 then .next s
  else
    let c := s.kfld core R.CORE_MAP_COVE
    match s.walkCore core c va with
    | (.fault _, s) => .next (s.walkFault c va)
    | (.page e, s) =>
      .next (s.modCore core (fun k => { k with
        tlb := keepLast 1024 (k.tlb.filter (fun f => !f.hit va) ++ [e])
        utlb := k.utlb.filter (fun p => !p.2.hit va) }))

/-! ### Expanders (R329) -/

/-- EXPANDER_LINK_FAILURE: the slot's reads return poison and its writes are dropped until the next start; recorded once. -/
def execExpanderLinkFailure (slot : Nat) (s : State) : Host.Outcome State Fault Refusal :=
  match s.hb.expanders.find? (fun p => p.1 == slot) with
  | none => .next s
  | some (_, port, _) =>
    if s.hb.expFailed.contains slot then .next s
    else
      let s := { s with hb := { s.hb with expFailed := sadd slot s.hb.expFailed } }
      let s := s.record clsEdge port 1 R.EDGE_ERR_VALID [(R.EDGE_ERR_KIND, 3), (R.EDGE_ERR_INFO, 0)]
      .next (s.rasEvent {
        cls := clsEdge, inst := port, sev := Sev.contained, kind := 3, addr := 0x040000000000 + slot * 2 ^ 40
        info := [s.regWord clsEdge port 0x110] } false)

end Sys2Proof.Machine
end

