-- ==== Sys2Proof/Machine/Wire.lean ====
section
/-! DEFINITION. The words of a coherence message as it stands on the mesh (R254, R256, Tables 9-2 to 9-5). -/

namespace Sys2Proof.Machine

/-- TYPE of Table 9-3. -/
def mtyCode : MTy → Nat
  | .getS => 1 | .getM => 2 | .upg => 3 | .putM => 4 | .putO => 5 | .putE => 6 | .putS => 7 | .snoopRd => 8 | .atomFar => 9
  | .fwdGetS => 0x10 | .fwdGetM => 0x11 | .inv => 0x12
  | .data => 0x20 | .dataExcl => 0x21 | .invAck => 0x22 | .putAck => 0x23 | .nack => 0x24 | .atomResp => 0x25

/-- OP of Table 9-5. -/
def aopCode : AOp → Nat
  | .add => 0 | .min => 1 | .max => 2 | .and => 3 | .or => 4 | .xor => 5 | .xchg => 6 | .cas => 7 | .wes => 8 | .write => 0x10

/-- The code of a format in Table 4-3: the one that reads as it. -/
def fmtCode (f : Fmt) : Nat := ((List.range 16).find? (fun c => Fmt.ofCode c == some f)).getD 0

/-- Word 0 of Table 9-2. -/
def msgWord0 (m : Msg) : Nat :=
  mtyCode m.ty * 2 ^ 58 + m.dst % 4096 * 2 ^ 46 + m.src % 4096 * 2 ^ 34 + m.req % 4096 * 2 ^ 22 + m.txn % 256 * 2 ^ 14
  + m.mask % 16 * 2 ^ 10 + m.aux % 16 * 2 ^ 6 + m.flags % 64

/-- Word 1 of Table 9-2. -/
def msgWord1 (m : Msg) : Nat := boolNat m.commons * 2 ^ 63 + m.cove % 64 * 2 ^ 57 + m.line % 2 ^ 45 * 2 ^ 7

/-- TAG of word 2. -/
def tagBits : Option RelTag → Nat
  | none => 0
  | some t => 2 ^ 22 + t.scope % 4 * 2 ^ 20 + t.core % 1024 * 2 ^ 10 + t.blk % 32 * 2 ^ 5 + t.slot % 32

/-- Word 2: of AtomFar and AtomResp that of Table 9-5, of the others that of Table 9-2. -/
def msgWord2 (m : Msg) : Nat :=
  if m.ty = .atomFar ∨ m.ty = .atomResp then
    aopCode m.op * 2 ^ 56 + fmtCode m.fmt * 2 ^ 52 + m.ops.length % 128 * 2 ^ 45 + boolNat m.ret * 2 ^ 44 + m.offset % 128 * 2 ^ 32
  else m.dirty % 16 * 2 ^ 28 + m.poison % 16 * 2 ^ 24 + tagBits m.tag

/-- The types with a third word (R254). -/
def hasWord2 (t : MTy) : Bool := [MTy.data, .dataExcl, .invAck, .putM, .putO, .atomFar, .atomResp].contains t

/-- Bytes of one operand (Table 9-5). -/
def operandBytes (f : Fmt) : Nat := if f.width = 320 then 40 else if f.width = 64 then 8 else 4

/-- The payload: sectors, or the operands or old values of an atomic in member order; `cas` carries two values a member. -/
def msgPayload (m : Msg) : List Byte :=
  match m.ty with
  | .atomFar =>
    if m.op = .write then m.data
    else
      let n := operandBytes m.fmt
      m.ops.flatMap (fun p => leBytes n p.1 ++ (if m.op = .cas then leBytes n p.2 else []))
  | .atomResp => m.ops.flatMap (fun p => leBytes (if m.op = .wes then 40 else operandBytes m.fmt) p.1)
  | _ => m.data

/-- The whole message. -/
def msgBytes (m : Msg) : List Byte :=
  leBytes 8 (msgWord0 m) ++ leBytes 8 (msgWord1 m) ++ (if hasWord2 m.ty then leBytes 8 (msgWord2 m) else []) ++ msgPayload m

end Sys2Proof.Machine
end

