-- ==== Sys2Proof/Machine/Home.lean ====
section
/-! DEFINITION. The home of a slice: accepting, serving and completing requests, Puts, ghosts and ebb actions
(R249 to R270, R274 to R278, R289 to R294, Tables 9-10 to 9-12). -/

namespace Sys2Proof.Machine

/-! ### What a home sends -/

def State.toReq (s : State) (h : Nat) (m : Msg) (ty : MTy) (mask aux flags : Nat) (data : Mem) (poison : Nat) : State :=
  s.send { ty := ty, dst := m.req, src := homeNode h, req := m.req, txn := m.txn, mask := mask, aux := aux, flags := flags,
           commons := m.commons, cove := m.cove, line := m.line, poison := poison &&& mask,
           data := (secsOfMask mask).flatMap (fun i => data.readBytes (32 * i) 32) }

/-- Data or DataExcl with the slice's sectors. -/
def State.grant (s : State) (h : Nat) (m : Msg) (mask aux flags : Nat) : State :=
  let x := s.hline h m.line
  let s := if aux = 3 then s.hcount h Ev.HOME_E_GRANT 1 else s
  s.toReq h m (if 3 ≤ aux then .dataExcl else .data) mask aux flags x.data x.poison

def State.putAck (s : State) (m : Msg) : State :=
  s.send { ty := .putAck, dst := m.src, src := m.dst, req := m.src, commons := m.commons, cove := m.cove, line := m.line }

def State.nack (s : State) (h : Nat) (m : Msg) : State := (s.toReq h m .nack 0 0 0 [] 0).hcount h Ev.HOME_NACK 1

/-- A forward to the owner. -/
def State.forward (s : State) (h : Nat) (m : Msg) (ty : MTy) (x flags : Nat) : State :=
  (s.send { ty := ty, dst := x, src := homeNode h, req := m.req, txn := m.txn, mask := m.mask, flags := flags,
            commons := m.commons, cove := m.cove, line := m.line }).hcount h Ev.HOME_FWD_SENT 1

/-- Inv to each of several cores. -/
def State.invAll (s : State) (h : Nat) (m : Msg) (l : List Nat) (flags : Nat) (coarse : Bool) : State :=
  let s := l.foldl (fun s k => s.send {
    ty := .inv, dst := k, src := homeNode h, req := m.req, txn := m.txn, flags := flags, commons := m.commons,
    cove := m.cove, line := m.line }) s
  (s.hcount h Ev.HOME_INV_SENT l.length).hcount h Ev.HOME_COARSE_INV (if coarse then l.length else 0)

/-- Inv to every sharer but one, and with OWNER to the owner: who must answer, and the state after sending. -/
def State.invHolders (s : State) (h : Nat) (m : Msg) (except : Option Nat) : List Nat × Option Nat × State :=
  let d := (s.hline h m.line).dir
  let own := match d.st with
    | .em => some d.owner
    | .o => some d.owner
    | _ => none
  let own := if own == except then none else own
  let sh := match d.st with
    | .s | .o => (s.sharersOf d m.cove m.commons).filter (fun k => some k != except && some k != own)
    | _ => []
  let s := s.invAll h m sh 0 d.coarse.isSome
  (sh, own, match own with | some x => s.invAll h m [x] (2 ^ Msg.fOWNER) false | none => s)

/-- R278 at a home. -/
def State.homeError (s : State) (h : Nat) (m : Msg) : State :=
  (s.record clsHome h 2 R.HOME_PERR_VALID [(R.HOME_PERR_TYPE, mtyCode m.ty), (R.HOME_PERR_SRC, m.src), (R.HOME_PERR_LINE, m.line)]).hcount
    h Ev.HOME_PROTOCOL_ERR 1

/-! ### Atomic execution at the home (R209 to R211, R265) -/

/-- AtomFar at the unit of a slice. A line of tier B or C is written through to its device before the response leaves (R201,
log entry 74). -/
def State.homeAtom (s : State) (h : Nat) (m : Msg) : State :=
  let line := m.line
  let y := s.slice h
  let cont := y.atomHist.any (fun p => p.1 == line && p.2 != m.src && decide (p.2 < 1024))
  let s := s.modSlice h (fun y => { y with atomHist := (((line, m.src)) :: y.atomHist).take 16 })
  let resp : State → List (Nat × Nat) → State := fun s olds =>
    (s.send { ty := .atomResp, dst := m.req, src := homeNode h, req := m.req, txn := m.txn, flags := boolNat cont,
              commons := m.commons, cove := m.cove, line := line, op := m.op, fmt := m.fmt, ret := m.ret, ops := olds }).hcount h Ev.HOME_ATOM_CONT (boolNat cont)
  if m.op = .write then
    let secs := (secsOfMask m.mask).zipIdx
    let maskAt := fun (j : Nat) => leNat (((m.data.drop (36 * j)).drop 32).take 4)
    let down := secs.filter (fun p => !((s.hline h line).present && bit (s.hline h line).valid p.1 && !outerTier (line * 128)))
    let s := s.countWrites line (maskOfSecs ((down.filter (fun p => maskAt p.2 == 2 ^ 32 - 1)).map Prod.fst))
      (maskOfSecs ((down.filter (fun p => maskAt p.2 != 2 ^ 32 - 1)).map Prod.fst))
    let s := secs.foldl (fun s p =>
      let d := m.data.drop (36 * p.2)
      let mask := maskAt p.2
      let bs := ((List.range 32).filter (fun i => bit mask i)).map (fun i => (i, d.getD i 0))
      let x := s.hline h line
      let whole := bs.length == 32
      let here := x.present && bit x.valid p.1
      let pa := line * 128 + 32 * p.1
      let out := outerTier pa
      let s := if (here && !out) || s.linkLost pa then s
        else
          let s := { s with mem := bs.foldl (fun d b => d.write (pa + b.1) b.2) s.mem }
          if whole then s.setPoison pa false else s
      if here then
        s.setHline h line { x with
          data := bs.foldl (fun d b => d.write (32 * p.1 + b.1) b.2) x.data, dirty := if out then x.dirty else x.dirty ||| 2 ^ p.1
          poison := if whole then setBits x.poison p.1 p.1 0 else x.poison }
      else s) s
    resp s []
  else
    let x := s.hline h line
    let n := atomBytes m.op m.fmt
    let r := atomSeq m.op m.fmt (x.data.readLE m.offset n) (m.ops.zipIdx.map (fun p => (p.2, p.1.1, p.1.2)))
    let lo := m.offset / 32
    let hi := (m.offset + n - 1) / 32
    let out := outerTier (line * 128)
    let s := if out && !s.linkLost (line * 128 + m.offset) then { s with mem := s.mem.writeLE (line * 128 + m.offset) n r.1 } else s
    let s := s.setHline h line { x with
      data := x.data.writeLE m.offset n r.1
      dirty := if out then x.dirty else x.dirty ||| maskOfSecs ((List.range 4).filter (fun i => lo ≤ i && i ≤ hi)) }
    resp s (if m.ret then r.2.map (fun p => (p.2, 0)) else [])

/-! ### Errors of a slice (R277, R285, R517) -/

/-- An injected uncorrectable error of a slice: SLICE_ERR records the first; the event charges the slice's bucket. -/
def State.sliceError (s : State) (h line secs source : Nat) (lost : Bool) : State :=
  let s := s.record clsSlice h 1 R.SLICE_ERR_VALID [(R.SLICE_ERR_SOURCE, source), (R.SLICE_ERR_SECTORS, secs), (R.SLICE_ERR_LINE, line)]
  s.rasEvent {
    cls := clsSlice, inst := h, sev := if lost then Sev.contained else Sev.recovered, kind := Knd.other, addr := line * 128,
    count := popcount 4 secs, bcls := 1, binst := h, weight := if lost || source = 1 then s.bucketHeavy 1 else 1,
    info := [s.regWord clsSlice h 0x110] } true

/-- An injected corrected error of a slice's data or tag, or of its directory (R277, R281). -/
def State.sliceCorrected (s : State) (cls h line : Nat) : State :=
  let s := (s.disarm cls h).errBit cls h 0
  let s := if cls = clsHome then s.hcount h Ev.HOME_DIR_CORRECTED 1 else s
  s.rasEvent {
    cls := cls, inst := h, sev := Sev.corrected, kind := Knd.other, addr := line * 128, bcls := 1, binst := h, weight := 1 } true

/-- Shelf scratch, and management-region lines without a commons slice (R248, R307): performed by the slice at once on the
bytes. An uncorrectable error poisons the sectors read (R285). -/
def State.shelfServe (s : State) (h : Nat) (m : Msg) : State :=
  let pa := m.line * 128
  let secs := secsOfMask m.mask
  let s := match s.takeInjection clsSlice h 1 with
    | some s => (secs.foldl (fun (s : State) i => s.setPoison (pa + 32 * i) true) s).sliceError h m.line m.mask 0 true
    | none => if s.armed clsSlice h 0 then s.sliceCorrected clsSlice h m.line else s
  if m.ty = .snoopRd then
    let poison := maskOfSecs (secs.filter (fun i => s.poisoned (pa + 32 * i)))
    let d : Mem := Mem.writeBytes [] 0 (s.mem.readBytes pa 128)
    (s.toReq h m .data m.mask 0 0 d poison).scount h Ev.SLICE_SHELF_READ secs.length
  else (s.homeAtom h m).scount h Ev.SLICE_SHELF_WRITE secs.length

/-! ### Serving a request -/

/-- The nodes of the spindle and copy engines (Table 9-4). -/
def isEngine (n : Nat) : Bool := decide (0x600 ≤ n) && decide (n < 0x620)

/-- The sectors an answer needs from the slice. -/
def needOf (m : Msg) (d : Dir) : Nat :=
  match m.ty with
  | .getS | .getM | .snoopRd => m.mask
  | .upg => if d.listed m.src then m.aux else m.mask
  | .atomFar =>
    if m.op = .write then 0
    else
      let n := atomBytes m.op m.fmt
      maskOfSecs ((List.range 4).filter (fun i => m.offset / 32 ≤ i && i ≤ (m.offset + n - 1) / 32))
  | _ => 0

/-- A free transaction entry (R257). -/
def Slice.room (y : Slice) (n : Nat) : Bool := decide (y.txns.length + n ≤ 48)

/-- Table 9-10 for a line that is present with every needed sector valid; none when it needs an entry and none is free. -/
def State.serveStable (s : State) (h : Nat) (m : Msg) : Option State :=
  let y := s.slice h
  let x := y.line m.line
  let d := x.dir
  let lim := s.ptrLimit h
  let setDir : State → Dir → State := fun s d => s.setHline h m.line { s.hline h m.line with dir := d, ref := true }
  let begin : State → HTxn → Option State := fun s t => if y.room 1 then some (s.modSlice h (fun y => y.setTxn t)) else none
  let held := m.has Msg.fHELD
  let cont := 2 ^ Msg.fCONT
  let fwd := 2 ^ Msg.fFWD
  match m.ty with
  | .getS =>
    match d.st with
    | .i =>
      if m.has Msg.fSONLY || m.commons || s.fld clsHome h R.HOME_CFG_NO_E_GRANT = 1 then
        some ((setDir s (({ st := .s } : Dir).add lim m.src)).grant h m m.mask 1 0)
      else some ((setDir s (d.toEM m.src)).grant h m m.mask 3 0)
    | .s => some ((setDir s (d.add lim m.src)).grant h m m.mask (if held && d.isSharer m.src then 2 else 1) 0)
    | _ =>
      if d.owner = m.src then some (s.grant h m m.mask 2 0)
      else
        let s' := (s.forward h m .fwdGetS d.owner 0).grant h m m.mask (if held && d.isSharer m.src then 2 else 1) fwd
        begin s' { line := m.line, kind := .fwdGetS, msg := some m, owner := some d.owner, node := m.src }
  | .getM | .upg =>
    let need := needOf m d
    match d.st with
    | .i => some ((setDir s (d.toEM m.src)).grant h m need 4 0)
    | .em =>
      let s' := (s.forward h m .fwdGetM d.owner 0).grant h m need 4 (fwd + cont)
      begin s' { line := m.line, kind := .fwdGetM, msg := some m, owner := some d.owner, node := m.src, granted := true }
    | _ =>
      if d.st = .s || d.owner = m.src then
        let r := s.invHolders h m (some m.src)
        if r.1.isEmpty then some ((setDir s (d.toEM m.src)).grant h m need 4 0)
        else begin r.2.2 { line := m.line, kind := .invGrant, msg := some m, sharers := r.1, node := m.src, kept := need }
      else
        let sh := (s.sharersOf d m.cove m.commons).filter (fun k => k != m.src && k != d.owner)
        let s' := (s.forward h m .fwdGetM d.owner 0).invAll h m sh 0 d.coarse.isSome
        let s' := if sh.isEmpty then s'.grant h m need 4 (fwd + cont) else s'
        begin s' { line := m.line, kind := .fwdGetM, msg := some m, owner := some d.owner, sharers := sh, node := m.src,
                   granted := sh.isEmpty, kept := need }
  | .snoopRd =>
    match d.st with
    | .i | .s => some (s.grant h m m.mask 0 0)
    | _ => begin (s.forward h m .fwdGetS d.owner (2 ^ Msg.fSNP))
        { line := m.line, kind := .fwdSnp, msg := some m, owner := some d.owner, node := m.src }
  | _ =>
    if d.st = .i then some (s.homeAtom h m)
    else
      let r := s.invHolders h m none
      if r.1.isEmpty && r.2.1.isNone then some ((setDir s {}).homeAtom h m)
      else begin r.2.2 { line := m.line, kind := .invAtom, msg := some m, sharers := r.1, owner := r.2.1, node := m.src }

/-- The request for a line that a core which a broadcast of R277 awaits has made: the one that met the error, or a queued one. -/
def Slice.asking (y : Slice) (t : HTxn) (n : Nat) : Option Msg :=
  (t.msg.toList ++ y.queue.filter (fun q => q.line == t.line)).find? (fun q =>
    q.src == n && (q.ty == .getS || q.ty == .getM || q.ty == .upg))

/-- R269 within R277: a core may defer its Inv until its own request is answered. When every core still awaited asks, one request
is served ahead from the slice, that of a core that may hold the line first; its core then answers (DEDUCED, log entry 75). -/
def State.dirAhead (s : State) (h : Nat) (t : HTxn) : HTxn × State :=
  let asks := t.sharers.filterMap (fun n => (s.slice h).asking t n)
  if t.kind != .invDir || !t.puts.isEmpty || !t.aheadWait.isEmpty || asks.length != t.sharers.length then (t, s)
  else
    let pick := match asks.filter (fun m => m.ty == .upg || (m.ty == .getS && m.has Msg.fHELD)) with
      | [] => asks.head?
      | [m] => some m
      | _ => none
    match pick with
    | none => (t, s)
    | some m =>
      let need := if m.ty = .upg then m.aux else m.mask
      let s := s.modSlice h (fun y => { y with queue := y.queue.erase m })
      let s := s.fetch h m.line need true
      ({ t with aheadWait := [m.src], msg := if t.msg = some m then none else t.msg },
        s.grant h m need (if m.ty = .getS then (if m.has Msg.fHELD then 2 else 1) else 4) 0)

/-- R277: an uncorrectable directory error, or a lost tag (R517), is recovered before the request is served. -/
def State.dirBroadcast (s : State) (h : Nat) (m : Msg) : State :=
  let l := s.activeCores m.cove m.commons
  let s := (s.invAll h m l (2 ^ Msg.fOWNER) false).hcount h Ev.HOME_DIR_BROADCAST 1
  let s := s.record clsHome h 1 R.HOME_DERR_VALID [(R.HOME_DERR_LINE, m.line), (R.HOME_DERR_RECOVERED, 0)]
  let s := s.rasEvent {
    cls := clsHome, inst := h, sev := Sev.recovered, kind := Knd.other, addr := m.line * 128, bcls := 1, binst := h,
    weight := s.bucketHeavy 1, info := [s.regWord clsHome h 0x118] } true
  let t := s.dirAhead h { line := m.line, kind := .invDir, msg := some m, sharers := l, node := m.src }
  t.2.modSlice h (fun y => y.setTxn t.1)

/-- The broadcast of R277 has ended: the entry is I. -/
def State.recovered (s : State) (h line : Nat) : State :=
  let s := s.setHline h line { s.hline h line with dir := {} }
  if s.fld clsHome h R.HOME_DERR_VALID = 1 ∧ s.fld clsHome h R.HOME_DERR_LINE = line then s.setFld clsHome h R.HOME_DERR_RECOVERED 1
  else s

/-- R517: the check of the sectors that are read, and of the tag; which of the two an injected uncorrectable error meets is
free. Clean sectors are read again; dirty ones are poisoned. Under a tag error the line is as absent: dirty sectors go to memory
poisoned. The flag says that the directory entry is lost with the tag. -/
def State.sliceCheck (s : State) (h line need : Nat) : Bool × State :=
  match s.takeInjection clsSlice h 1 with
  | none => (false, if s.armed clsSlice h 0 then s.sliceCorrected clsSlice h line else s)
  | some s =>
    let r := s.draw 2
    let s := r.2
    let x := s.hline h line
    if r.1 = 0 then
      let bad := need &&& x.valid &&& x.dirty
      let s := (s.setHline h line
        { x with valid := x.valid &&& (15 - (need &&& (15 - x.dirty))), poison := x.poison ||| bad }).fetch h line need true
      (false, s.sliceError h line need 0 (bad != 0))
    else
      let s := (s.setHline h line { x with poison := x.poison ||| x.dirty }).writeDown h line
      let s := s.setHline h line { s.hline h line with valid := 0, poison := 0, data := [] }
      (true, s.sliceError h line x.valid 1 (x.dirty != 0))

/-- Whether the directory entry's check finds an injected uncorrectable error; a corrected one is counted. -/
def State.dirCheck (s : State) (h line : Nat) : Bool × State :=
  match s.takeInjection clsHome h 1 with
  | some s => (true, s)
  | none => (false, if s.armed clsHome h 0 then s.sliceCorrected clsHome h line else s)

/-- Serve a request on an idle line; none when it must wait for an entry or a way. -/
def State.serveReq (s : State) (h : Nat) (m : Msg) : Option State :=
  if (match region (m.line * 128) with | .shelf _ _ => true | _ => false) || (s.isMgmt (m.line * 128) && s.commonsC == 0) then some (s.shelfServe h m) else
  let x0 := s.hline h m.line
  -- R270
  let stale := x0.dir.isOwner m.src &&
    ((m.ty = .getS && !m.has Msg.fHELD) || m.ty = .getM || (m.ty = .upg && x0.dir.st == .em))
  let s := if stale then s.setHline h m.line { x0 with dir := x0.dir.ownerGone } else s
  let y := s.slice h
  let x := y.line m.line
  let write := m.ty = .getM || m.ty = .upg || m.ty = .atomFar
  let ghost := (y.ghost m.line).isSome
  if m.ty = .snoopRd && m.has Msg.fOUTER then
    -- R201, R264: the outer tier is read in place of the slice
    let d : Mem := Mem.writeBytes [] 0 (s.mem.readBytes (m.line * 128) 128)
    some (s.toReq h m .data m.mask 0 0 d (maskOfSecs ((secsOfMask m.mask).filter (fun i => s.poisoned (m.line * 128 + 32 * i)))))
  else if m.ty = .atomFar && m.op = .write && m.commons && !isEngine m.src then
    -- R265: refused; engines write the commons for a commons load or repair alone
    some (s.send { ty := .atomResp, dst := m.req, src := homeNode h, req := m.req, txn := m.txn, commons := true, cove := m.cove, line := m.line })
  else if m.ty = .atomFar && m.op = .write && !x.present && !ghost then some ((s.hcount h Ev.HOME_SLICE_MISS 1).homeAtom h m)
  else
    let strict := s.fld clsSlice h R.GHOST_CFG_STRICT = 1
    if ghost && !x.present && !write && strict then
      some (((s.reread h m.line m.src strict).hcount h Ev.HOME_SLICE_MISS 1).toReq h m .data m.mask (if m.ty = .getS then 1 else 0) (2 ^ Msg.fGHOST) [] 0)
    else
      let s := if ghost && !x.present && !write then s.reread h m.line m.src strict else s
      -- R292 on a line that is present
      let s := if ghost && x.present && write then
          ((s.modSlice h (fun y => { y.setLine m.line x.zeroed with ghosts := y.ghosts.filter (fun g => g.1 != m.line) })).scount
            h Ev.SLICE_GHOST_END_WRITE 1)
        else s
      let need := needOf m x.dir
      let ready : Option (State ⊕ State) :=
        if x.present then some (.inl s)
        else
          let s := s.hcount h Ev.HOME_SLICE_MISS 1
          match s.findWay h m.line with
          | (.free w, s) => some (.inl (s.claimWay h m w))
          | (.evict v w, s) => some (.inl (((s.writeDown h v).setHline h v {}).claimWay h m w))
          | (.recall v _, s) =>
            let vx := s.hline h v
            let vm : Msg := { ty := .inv, dst := 0, src := homeNode h, cove := vx.cove, commons := vx.commons, line := v }
            let r := s.invHolders h vm none
            if r.1.isEmpty && r.2.1.isNone then some (.inl (((s.writeDown h v).setHline h v {}).claimWay h m vx.way))
            else if !y.room 2 then none
            else some (.inr ((r.2.2.hcount h Ev.HOME_RECALL 1).modSlice h (fun y =>
              (y.setTxn { line := v, kind := .invRecall, sharers := r.1, owner := r.2.1 }).setTxn
                { line := m.line, kind := .mem, msg := some m, kept := if ghost then 0 else need, aheadWait := [v] })))
          | (.none, _) => none
      match ready with
      | none => none
      | some (.inr s) => some s
      | some (.inl s) =>
        let x := s.hline h m.line
        let miss := need &&& (15 - x.valid)
        if miss ≠ 0 then
          if y.room 1 then some (s.modSlice h (fun y => y.setTxn { line := m.line, kind := .mem, msg := some m, kept := miss }))
          else none
        else
          if x0.present && y.room 1 then
            let r := s.sliceCheck h m.line need
            let d := r.2.dirCheck h m.line
            if !r.1 && !d.1 then d.2.serveStable h m
            else
              let s := d.2.dirBroadcast h m
              if !(s.activeCores m.cove m.commons).isEmpty then some s
              else
                let s := (s.modSlice h (fun y => y.dropTxn m.line)).recovered h m.line
                let miss := need &&& (15 - (s.hline h m.line).valid)
                if miss = 0 then s.serveStable h m
                else some (s.modSlice h (fun y => y.setTxn { line := m.line, kind := .mem, msg := some m, kept := miss }))
          else s.serveStable h m

/-- Whether a request to a line must wait behind something (R257, R258, R267). -/
def Slice.lineWaits (y : Slice) (line : Nat) : Bool :=
  (y.txn line).isSome || y.ebbs.any (fun e => e.1 == line)

/-- The code that counts a request. -/
def reqEvent : MTy → Nat
  | .getS => Ev.HOME_GETS | .getM => Ev.HOME_GETM | .upg => Ev.HOME_UPG | .snoopRd => Ev.HOME_SNOOPRD | _ => Ev.HOME_ATOMFAR

/-- Run the queued requests whose lines are idle, in order, until none can run (R258). -/
def State.drainHome (s : State) (h : Nat) : Nat → State
  | 0 => s
  | n + 1 =>
    let y := s.slice h
    let cand := y.queue.filter (fun m => !y.lineWaits m.line &&
      (match (y.queue.find? (fun q => q.line == m.line)) with | some q => decide (q = m) | none => false))
    match cand.findSome? (fun m =>
        ((s.modSlice h (fun y => { y with queue := y.queue.erase m })).accepted h (reqEvent m.ty)).serveReq h m) with
    | none => s
    | some s' => s'.drainHome h n

def State.drain (s : State) (h : Nat) : State := s.drainHome h ((s.slice h).queue.length + 1)

/-- R258: into the conflict queue, or Nack. -/
def State.stall (s : State) (h : Nat) (m : Msg) : State :=
  let n := (s.slice h).queue.length
  if n < (if m.has Msg.fPRIO then 64 else 60) then
    (s.modSlice h (fun y => { y with queue := y.queue ++ [m] })).hcount h Ev.HOME_STALL 1
  else s.nack h m

/-- R269: the two requests that an awaited owner does not queue. -/
def State.awaitedOwner (s : State) (h : Nat) (m : Msg) (t : HTxn) : Option State :=
  if t.owner != some m.src || t.kind = .mem then none
  else
    -- the slice's copy of a sector its owner lacks is current; one the slice lacks is read from memory
    let fill : Nat → State → State := fun need s => s.fetch h m.line need true
    if m.ty = .getS && m.has Msg.fHELD then some ((fill m.mask s).grant h m m.mask 2 0)
    else if m.ty = .upg then
      let x := s.hline h m.line
      let d := x.dir
      let sh := (s.sharersOf d m.cove m.commons).filter (fun k => k != m.src && !t.sharers.contains k)
      -- a sharer the transaction has invalidated is awaited through it; the requester of a FwdGetM is not one
      let req := t.kind = .fwdGetM && sh.contains t.node
      let fresh := if t.kind = .fwdGetM || t.kind = .invEbb then sh.filter (fun k => k == t.node)
        else if t.kind = .invAtom || t.kind = .invRecall then [] else sh
      let s := (s.setHline h m.line { x with dir := d.unshared }).invAll h m fresh 0 d.coarse.isSome
      let s := (fill m.aux s).hcount h Ev.HOME_GRANT_AHEAD 1
      let t := if req then { t with kept := (match t.msg with | some q => q.mask | none => t.kept), granted := false } else t
      let wait := fresh ++ t.sharers
      if wait.isEmpty then some ((s.modSlice h (fun y => y.setTxn t)).grant h m m.aux 4 0)
      else some (s.modSlice h (fun y => y.setTxn { t with ahead := some m, aheadWait := wait }))
    else none

/-! ### Ebb (R267, R289) -/

/-- The slice's part once every holder has answered. -/
def State.ebbEnd (s : State) (h line node : Nat) (dirty : Bool) : State :=
  let y := s.slice h
  let x := y.line line
  let dd := dirty || x.dirty != 0
  let has := (y.ghost line).isSome
  let wants := dd || s.fld clsSlice h R.GHOST_CFG_STRICT = 1
  let free : State → State := fun s =>
    let s := if x.moored then
        (s.modCove x.cove (fun c => { c with moored := c.moored - 1 })).scount h Ev.SLICE_UNMOOR_LINES 1
      else s
    s.setHline h line {}
  let s := s.hcount h Ev.HOME_EBB_ACTION 1
  if has then
    (free (s.modSlice h (fun y => { y with ghosts := y.ghosts.map (fun g => if g.1 = line then (line, node) else g) }))).scount
      h Ev.SLICE_EBB_DIRTY_SECTORS (secsOfMask x.dirty).length
  else if !wants then (free s).scount h Ev.SLICE_EBB_CLEAN 1
  else if y.ghosts.length < 4096 then
    let s := (free s).modSlice h (fun y =>
      let g := minsert line node y.ghosts
      { y with ghosts := g, ghostHwm := max y.ghostHwm g.length })
    (s.scount h Ev.SLICE_EBB_GHOSTED 1).scount h Ev.SLICE_EBB_DIRTY_SECTORS (secsOfMask x.dirty).length
  else (free (s.writeDown h line)).scount h Ev.SLICE_GHOST_OVERFLOW 1

/-- EBB_ACTION: the pending ebb of an idle line: Inv to every holder but the sender, then the slice's part. -/
def State.ebbStart (s : State) (h line : Nat) : State :=
  let y := s.slice h
  match y.ebbs.find? (fun e => e.1 == line) with
  | none => s
  | some (_, v) =>
    if (y.txn line).isSome || !y.room 1 then s
    else
      let node := v % 4096
      let s := s.modSlice h (fun y => { y with ebbs := y.ebbs.erase (line, v) })
      let x := s.hline h line
      let m : Msg := { ty := .inv, dst := 0, src := homeNode h, cove := x.cove, commons := x.commons, line := line }
      let r := s.invHolders h m (some node)
      if r.1.isEmpty && r.2.1.isNone then (s.ebbEnd h line node (v ≥ 4096)).drain h
      else r.2.2.modSlice h (fun y => y.setTxn { line := line, kind := .invEbb, sharers := r.1, owner := r.2.1, node := node,
                                                 dirtyBack := v ≥ 4096 })

/-! ### Completion (Table 9-12) -/

def State.finishTxn (s : State) (h : Nat) (t : HTxn) : State :=
  let line := t.line
  let lim := s.ptrLimit h
  let x := s.hline h line
  let d := x.dir
  let s := match t.held with | some p => s.putAck p | none => s
  let back : SLine → SLine := fun x => match t.held with | some p => x.absorb p p.mask | none => x
  let s := s.modSlice h (fun y => y.dropTxn line)
  match t.kind, t.msg with
  | .fwdGetS, some m =>
    let d' : Dir :=
      if t.kept = 3 then ({ d with st := .o }).add lim m.src
      else if t.kept = 1 then (({ d with st := .s, owner := 0 }).add lim d.owner).add lim m.src
      else ({ d with st := .s, owner := 0 }).add lim m.src
    s.setHline h line { (if t.kept = 0 then back x else x) with dir := d' }
  | .fwdSnp, some m =>
    let merged : SLine := match t.ack with | some a => x.absorb a a.mask | none => x
    let s := s.toReq h m .data m.mask 0 0 merged.data merged.poison
    let d' := if t.notHeld || t.held.isSome then d.ownerGone else d
    s.setHline h line { back x with dir := d' }
  | .fwdGetM, some m => s.setHline h line { x with dir := d.toEM m.src }
  | .invGrant, some m =>
    (s.setHline h line { x with dir := d.toEM m.src }).grant h m t.kept 4 (2 ^ Msg.fCONT)
  | .invAtom, some m => (s.setHline h line { back x with dir := {} }).homeAtom h m
  | .invDir, q =>
    let s := (t.came.foldl State.putAck s).recovered h line
    match q with
    | none => s
    | some m => match s.serveReq h m with
      | some s => s
      | none => s.stall h m
  | .invEbb, _ => (s.setHline h line { back x with dir := {} }).ebbEnd h line t.node (t.dirtyBack || t.held.any (fun p => p.mask != 0))
  | .invRecall, _ =>
    let s := ((s.setHline h line { back x with dir := {} }).writeDown h line)
    let s := s.setHline h line {}
    -- the line that asked for the way takes it
    match (s.slice h).txns.find? (fun u => u.kind == .mem && u.aheadWait == [line]) with
    | none => s
    | some u => match u.msg with
      | none => s
      | some m =>
        let s := s.claimWay h m x.way
        if u.kept ≠ 0 then s.modSlice h (fun y => y.setTxn { u with aheadWait := [] })
        else
          let s := s.modSlice h (fun y => y.dropTxn u.line)
          match s.serveReq h m with
          | some s => s
          | none => s.stall h m
  | _, _ => s

/-- After an answer: what can go out now, and the end of the transaction when nothing is awaited. -/
def State.advance (s : State) (h : Nat) (t : HTxn) : State :=
  let r : HTxn × State := match t.ahead with
    | some m => if t.aheadWait.isEmpty then ({ t with ahead := none }, s.grant h m m.aux 4 (2 ^ Msg.fCONT)) else (t, s)
    | none => (t, s)
  let q : HTxn × State := match r.1.kind, r.1.msg with
    | .fwdGetM, some m =>
      if r.1.granted || !r.1.sharers.isEmpty then r
      else ({ r.1 with granted := true }, r.2.grant h m r.1.kept 4 (2 ^ Msg.fFWD + 2 ^ Msg.fCONT))
    | _, _ => r
  let q := q.2.dirAhead h q.1
  let t := q.1
  let s := q.2
  if t.owner.isNone && t.sharers.isEmpty && t.puts.isEmpty && t.ahead.isNone && t.kind != .mem then (s.finishTxn h t).drain h
  else s.modSlice h (fun y => y.setTxn t)

/-- InvAck (Table 9-11). -/
def State.onInvAck (s : State) (h : Nat) (m : Msg) : State :=
  let y := s.slice h
  match y.txn m.line with
  | none => s.homeError h m
  | some t =>
    let own := t.owner == some m.src
    let shr := t.sharers.contains m.src || t.aheadWait.contains m.src
    if t.kind = .mem || (!own && !shr) then s.homeError h m
    else
      let s := if m.has Msg.fNOTHELD then s.hcount h Ev.HOME_NOTHELD_ACK 1 else s
      let inv := t.kind = .invGrant || t.kind = .invAtom || t.kind = .invRecall || t.kind = .invEbb || t.kind = .invDir
      let s := if inv && m.mask ≠ 0 then s.setHline h m.line ((s.hline h m.line).absorb m m.mask) else s
      -- with PUT the Put is awaited, unless it has come already
      let came := t.held.any (fun p => p.src == m.src) || t.came.any (fun p => p.src == m.src) || y.ebbs.any (fun e => e.1 == m.line && e.2 % 4096 == m.src)
      let puts := if m.has Msg.fPUT && !came then sadd m.src t.puts else t.puts
      let t := { t with
        puts := puts, sharers := sdel m.src t.sharers, aheadWait := sdel m.src t.aheadWait
        dirtyBack := t.dirtyBack || (inv && m.dirty != 0), ebb := t.ebb || m.has Msg.fEBB }
      let t := if own then { t with
          owner := none, kept := if t.kind = .fwdGetM then t.kept else m.aux, notHeld := m.has Msg.fNOTHELD, ack := some m }
        else t
      s.advance h t

/-- Puts (R260, R267, Tables 9-10 and 9-11). -/
def State.onPut (s : State) (h : Nat) (m : Msg) : State :=
  let y := s.slice h
  let x := y.line m.line
  let d := x.dir
  let holder := d.putHolder m.src (m.ty == .putS)
  let s := (s.hcount h Ev.HOME_PUT 1).hcount h Ev.HOME_STALE_PUT (boolNat (!holder))
  if m.has Msg.fEBB then
    let e := (m.line, m.src + 4096 * boolNat (m.ty = .putM || m.ty = .putO))
    let s := (s.putAck m).modSlice h (fun y => { y with ebbs := y.ebbs ++ [e] })
    match y.txn m.line with
    | some t => if t.puts.contains m.src then s.advance h { t with puts := sdel m.src t.puts } else s
    | none => s
  else match y.txn m.line with
    | some t =>
      if t.kind = .invDir ∧ (t.sharers.contains m.src ∨ t.puts.contains m.src) then
        (s.setHline h m.line (x.absorb m m.mask)).advance h { t with came := t.came ++ [m], puts := sdel m.src t.puts }
      else if t.kind != .mem && (t.owner == some m.src || t.puts.contains m.src) then
        s.advance h { t with held := some m, puts := sdel m.src t.puts }
      else
        let s := s.putAck m
        if t.kind != .mem && m.ty = .putS && d.isSharer m.src then s.setHline h m.line { x with dir := d.del m.src } else s
    | none =>
      let s := s.putAck m
      if !holder then s
      else if d.isOwner m.src then
        if m.ty = .putS then s else s.setHline h m.line { x.absorb m m.mask with dir := d.ownerGone }
      else
        let d' := d.del m.src
        s.setHline h m.line { x with dir := if d'.st = .s && d'.noSharer then {} else d' }

/-- A request arrives at its home. -/
def State.onRequest (s : State) (h : Nat) (m : Msg) : State :=
  let y := s.slice h
  match y.txn m.line with
  | some t => match s.awaitedOwner h m t with
    | some s => s.accepted h (reqEvent m.ty)
    | none => if t.kind = .invDir then (s.stall h m).advance h t else s.stall h m
  | none =>
    if y.lineWaits m.line || y.queue.any (fun q => q.line == m.line) then s.stall h m
    else match (s.accepted h (reqEvent m.ty)).serveReq h m with
      | some s => s
      | none => s.stall h m

/-- Memory's answer to a slice miss: install, and resume the request under Table 9-10. -/
def State.onMemData (s : State) (h line : Nat) : State :=
  match (s.slice h).txn line with
  | none => s
  | some t =>
    if t.kind != .mem || !t.aheadWait.isEmpty then s
    else match t.msg with
      | none => s
      | some m =>
        let s := s.fetch h line t.kept true
        let s := s.modSlice h (fun y => y.dropTxn line)
        match s.serveReq h m with
        | some s => s.drain h
        | none => s.stall h m

/-! ### The rows -/

/-- A message of a type, for a home: the slice and the state without it. -/
def State.homeFor (s : State) (m : Msg) (ty : MTy) : Option State :=
  if m.ty = ty ∧ 0x400 ≤ m.dst ∧ m.dst < 0x600 then s.takeMsg m else none

def execGetS (m : Msg) (s : State) : Host.Outcome State Fault Refusal :=
  match s.homeFor m .getS with | none => .next s | some s => .next (s.onRequest (m.dst - 0x400) m)
def execGetM (m : Msg) (s : State) : Host.Outcome State Fault Refusal :=
  match s.homeFor m .getM with | none => .next s | some s => .next (s.onRequest (m.dst - 0x400) m)
def execUpg (m : Msg) (s : State) : Host.Outcome State Fault Refusal :=
  match s.homeFor m .upg with | none => .next s | some s => .next (s.onRequest (m.dst - 0x400) m)
def execSnoopRd (m : Msg) (s : State) : Host.Outcome State Fault Refusal :=
  match s.homeFor m .snoopRd with | none => .next s | some s => .next (s.onRequest (m.dst - 0x400) m)
def execAtomFar (m : Msg) (s : State) : Host.Outcome State Fault Refusal :=
  match s.homeFor m .atomFar with | none => .next s | some s => .next (s.onRequest (m.dst - 0x400) m)
def execPutM (m : Msg) (s : State) : Host.Outcome State Fault Refusal :=
  match s.homeFor m .putM with | none => .next s | some s => .next (s.onPut (m.dst - 0x400) m)
def execPutO (m : Msg) (s : State) : Host.Outcome State Fault Refusal :=
  match s.homeFor m .putO with | none => .next s | some s => .next (s.onPut (m.dst - 0x400) m)
def execPutE (m : Msg) (s : State) : Host.Outcome State Fault Refusal :=
  match s.homeFor m .putE with | none => .next s | some s => .next (s.onPut (m.dst - 0x400) m)
def execPutS (m : Msg) (s : State) : Host.Outcome State Fault Refusal :=
  match s.homeFor m .putS with | none => .next s | some s => .next (s.onPut (m.dst - 0x400) m)
def execInvAck (m : Msg) (s : State) : Host.Outcome State Fault Refusal :=
  match s.homeFor m .invAck with | none => .next s | some s => .next (s.onInvAck (m.dst - 0x400) m)

/-- MEMORY_DATA (Table 9-11). -/
def execMemoryData (slice line : Nat) (s : State) : Host.Outcome State Fault Refusal := .next (s.onMemData slice line)
/-- EBB_ACTION (R267, R289). -/
def execEbbAction (slice line : Nat) (s : State) : Host.Outcome State Fault Refusal := .next (s.ebbStart slice line)

end Sys2Proof.Machine
end

