-- ==== Sys2Proof/Machine/MemCmd.lean ====
section
/-! DEFINITION. SHELF_CARVE, MOOR, UNMOOR, EBB, XLATE_INVAL and the semaphores
(R282, R283, R287, R288, R295, R314, R450, Table 15-10). -/

namespace Sys2Proof.Machine

/-- Whether a command that runs to its end may act (R479): from its start on, in any state of its context. -/
def State.mayRun (s : State) : Bool := !s.ra.lost

/-! ### SHELF_CARVE (R282, R283) -/

/-- A launch that declares shelf scratch (R286). -/
def Launch.declares (l : Launch) (cove : Nat) : Bool := l.cove == cove && l.shelfLen != 0
def Core.declares (k : Core) (cove : Nat) : Bool := k.blocks.any (fun p => p.2.launch.declares cove) || k.waiting.any (fun w => w.launch.declares cove)

/-- A command of the cove that declares shelf scratch is running or preempted. -/
def State.shelfInUse (s : State) (cove : Nat) : Bool :=
  s.cores.any (fun p => p.2.declares cove) || s.hs.ctxs.any (fun p => p.2.images.any (fun i => i.body.declares cove)) ||
    s.ns.doms.any (fun p => decide (2 ≤ p.2.st) && p.2.launches.any (fun l => l.declares cove))

/-- Moored lines of a slice in a set. -/
def Slice.mooredIn (y : Slice) (set : Nat) : Nat := (y.lines.filter (fun p => p.2.present && p.2.set == set && p.2.moored)).length
def Slice.sets (y : Slice) : List Nat := dedup ((y.lines.filter (fun p => p.2.present)).map (fun p => p.2.set))

/-- Moored lines in the carved ways move to a way outside them, an ordinary line giving way; none while it is busy. -/
def State.moveMoored (s : State) (c h w : Nat) : Option State :=
  ((s.slice h).lines.filter (fun p => p.2.present && p.2.moored && decide (16 - w ≤ p.2.way))).foldl (fun r p => match r with
    | none => none
    | some s =>
      let y := s.slice h
      let ls := y.inSet p.2.set
      let go := fun (s : State) way => some (s.setHline h p.1 { s.hline h p.1 with way := way })
      match (List.range (16 - w)).find? (fun v => !ls.any (fun q => q.2.way == v)) with
      | some v => go s v
      | none => match ls.find? (fun q => decide (q.2.way < 16 - w) && !q.2.moored) with
        | some q => if s.lineBusy q.1 then none else go (s.dropLine c h q.1) q.2.way
        | none => none) (some s)

/-- Every other line in the carved ways is evicted; none while one is busy. -/
def State.evictCarved (s : State) (c h w : Nat) : Option State :=
  ((s.slice h).lines.filter (fun p => p.2.present && decide (16 - w ≤ p.2.way))).foldl (fun r p => match r with
    | none => none
    | some s => if s.lineBusy p.1 then none else some (s.dropLine c h p.1)) (some s)

/-- Where a byte of the old window lies in the new one: the same byte of the same way of the same slice (R284). -/
def carveMove (n old new o : Nat) : Option Nat :=
  let p := old * 655360
  let q := new * 655360
  if n * p ≤ o || q ≤ o % p then none else some (o / p * q + o % p)

/-- The window's bytes and marks under a new carve: kept ways keep their bytes, new ones are zero, released ones are lost. -/
def State.recarve (s : State) (c old new : Nat) : State :=
  let n := (s.coveSlices c).length
  let base := shelfBase c
  let inside := fun a => decide (base ≤ a) && decide (a < base + 2 ^ 32)
  let moved := s.mem.filterMap (fun p => if inside p.1 then (carveMove n old new (p.1 - base)).map (fun o => (base + o, p.2)) else none)
  let marks := s.poison.filterMap (fun k => if inside (32 * k) then (carveMove n old new (32 * k - base)).map (fun o => (base + o) / 32) else none)
  { s with
    mem := moved.foldl (fun m p => m.write p.1 p.2) (s.mem.filter (fun p => !inside p.1))
    poison := marks.foldl (fun l k => sadd k l) (s.poison.filter (fun k => !inside (32 * k))) }

/-- The carve of every slice of a cove; none while a line that must leave is busy. -/
def State.carveTo (s : State) (c w : Nat) : Option State :=
  let old := (s.cove c).carve
  let sl := s.coveSlices c
  let s? := if old < w then sl.foldl (fun r h => match r with
      | none => none
      | some s => match s.moveMoored c h w with
        | none => none
        | some s => s.evictCarved c h w) (some s) else some s
  s?.map (fun s =>
    let s := (s.recarve c old w).modCove c (fun x => { x with carve := w })
    sl.foldl (fun s h => s.modSlice h (fun y => { y with carve := w })) s)

def carveBody (k : Cmd) : Body := { allowed := fieldBits [(67, 64)], range := [(8, decide (k.byte 8 % 16 ≤ 12))] }

/-- SHELF_CARVE: in one event, once every line that must leave is idle. -/
def execShelfCarve (ctx q idx : Nat) (s : State) : Host.Outcome State Fault Refusal :=
  let go : State → Cmd → State := fun s k =>
    let c := s.coveOf k.ctx
    let w := k.byte 8 % 16
    let full := (s.coveSlices c).filter (fun h => (s.slice h).sets.any (fun t => decide (12 < w + (s.slice h).mooredIn t)))
    if !full.isEmpty then (full.foldl (fun s h => s.scount h Ev.SLICE_MOOR_REFUSED 1) s).fail k Sta.moorFull Rsn.moorSet 0
    else match s.carveTo c w with
      | none => s
      | some s => s.finish k 0
  match s.turn ctx q idx 0x10 with
  | .first k => .next (s.validated k (carveBody k) (fun s k =>
      if s.shelfInUse (s.coveOf k.ctx) then s.fail k Sta.state Rsn.shelfInUse 0
      else go (s.startCmd k .running) { k with st := .running }))
  | .again k => if s.mayRun then .next (go s k) else .next s
  | .none => .next s

/-! ### Ranges of lines (R287, R288, R295) -/

/-- The lines of a range, or where one of them may not be named. -/
inductive Lines
  | bad (reason : Nat)
  | ok (ls : List Nat)

/-- The physical lines of a MOOR, UNMOOR or EBB. `pf` admits commons lines; `wt` refuses write-through pages. -/
def State.rangeLines (s : State) (c : Nat) (b : Buf) (n : Nat) (pf wt : Bool) : Lines :=
  (List.range n).foldl (fun r i => match r with
    | .bad o => .bad o
    | .ok ls =>
      if b.space ≠ 0 then .bad Rsn.bufAccess
      else match s.walk c (sx57 (b.start + 128 * i)) with
        | .fault _ => .bad Rsn.bufAccess
        | .page e =>
          let pa := e.pa + (b.start + 128 * i) % 2 ^ e.shift
          if s.pageRefused c e pa false false || !coherent (region pa) || (wt && e.wt) then .bad Rsn.bufAccess
          else if s.isCommons pa && !pf then .bad Rsn.pfOnly
          else .ok (if ls.contains (pa / 128) then ls else ls ++ [pa / 128])) (.ok [])

def rangeBody (k : Cmd) (s : State) : Body :=
  let aligned := match s.readBuf k.ctx (k.num 8 8) with | .ok b => b.start % 128 == 0 | _ => true
  { allowed := fieldBits [(159, 64)], range := [(8, aligned)], refs := [(8, false, false)], lens := [(16, 4)]
    need := fun b _ => some (bytesOf b.fmt b.off + 128 * k.num 16 4) }

/-- Whose budget a line counts against (R288). -/
def State.moorOwner (s : State) (c line : Nat) : Nat := if s.isCommons (line * 128) then 64 else c

/-- A line that a MOOR fetches takes a way, as on a slice miss (R266), or is pinned where it lies; none while that is busy. -/
def State.moorLine (s : State) (c line : Nat) : Option State :=
  let h := s.home c line
  let x := s.hline h line
  let o := s.moorOwner c line
  let pin : State → State := fun s =>
    let s := (s.setHline h line { s.hline h line with moored := true }).fetch h line 15 false
    (s.modCove o (fun v => { v with moored := v.moored + 1 })).scount h Ev.SLICE_MOOR_LINES 1
  if s.lineBusy line then none
  else if x.present then some (if x.moored then s else pin s)
  else
    let m : Msg := { ty := .getS, dst := homeNode h, src := homeNode h, cove := c, commons := o == 64, line := line }
    let s := s.makeRoom h m
    if (s.hline h line).present then some (pin (s.hcount h Ev.HOME_SLICE_MISS 1)) else none

/-- Slices whose sets cannot take the lines of a range (R282, phase 2 of R287). -/
def State.moorFullSlices (s : State) (c : Nat) (ls : List Nat) : List Nat :=
  let new := (ls.filter (fun l => !(s.hline (s.home c l) l).moored)).map (fun l => (s.home c l, lineSet l))
  dedup ((new.filter (fun p => decide (12 < (s.slice p.1).carve + (s.slice p.1).mooredIn p.2 + (new.filter (fun q => q == p)).length))).map Prod.fst)

/-- Whether a budget admits the lines of a range (phase 1 of R287). -/
def State.moorBudget (s : State) (c : Nat) (ls : List Nat) (o : Nat) : Bool :=
  let m := (ls.filter (fun l => s.moorOwner c l == o && !(s.hline (s.home c l) l).moored)).length
  m = 0 || decide ((s.cove o).moored + m ≤ s.fld clsCove o R.COVE_MOOR_BUDGET)

/-- The three phases, in one event once every line is idle. -/
def State.moorRun (s : State) (k : Cmd) (ls : List Nat) : State :=
  let c := s.coveOf k.ctx
  if !s.moorBudget c ls c || !s.moorBudget c ls 64 then s.fail { k with result := 0 } Sta.moorFull Rsn.moorBudget 0
  else
    let full := s.moorFullSlices c ls
    if !full.isEmpty then (full.foldl (fun s h => s.scount h Ev.SLICE_MOOR_REFUSED 1) s).fail { k with result := 1 } Sta.moorFull Rsn.moorSet 0
    else match ls.foldl (fun r l => match r with
        | none => none
        | some s => s.moorLine c l) (some s) with
      | none => s
      | some s => s.finish k 0

/-- MOOR. -/
def execMoor (ctx q idx : Nat) (s : State) : Host.Outcome State Fault Refusal :=
  match s.turn ctx q idx 0x11 with
  | .first k => .next (s.validated k (rangeBody k s) (fun s k =>
      match s.rangeLines (s.coveOf k.ctx) k.a (k.num 16 4) (s.fnOf k.ctx).isNone false with
      | .bad why => s.fail k Sta.permission why 8
      | .ok ls => (s.startCmd k .running).moorRun { k with st := .running } ls))
  | .again k =>
    match s.rangeLines (s.coveOf k.ctx) k.a (k.num 16 4) (s.fnOf k.ctx).isNone false with
    | .bad why => .next (s.fail k Sta.permission why 8)
    | .ok ls => if s.mayRun then .next (s.moorRun k ls) else .next s
  | .none => .next s

/-- A line stops being moored and stays valid (R288). -/
def State.unmoorLine (s : State) (c line : Nat) : State :=
  let h := s.home c line
  let x := s.hline h line
  if x.moored then
    ((s.setHline h line { x with moored := false }).modCove (s.moorOwner c line) (fun v => { v with moored := v.moored - 1 })).scount
      h Ev.SLICE_UNMOOR_LINES 1
  else s

/-- UNMOOR. -/
def execUnmoor (ctx q idx : Nat) (s : State) : Host.Outcome State Fault Refusal :=
  match s.turn ctx q idx 0x12 with
  | .first k => .next (s.validated k (rangeBody k s) (fun s k =>
      match s.rangeLines (s.coveOf k.ctx) k.a (k.num 16 4) (s.fnOf k.ctx).isNone false with
      | .bad why => s.fail k Sta.permission why 8
      | .ok ls => (ls.foldl (fun s l => s.unmoorLine (s.coveOf k.ctx) l) (s.startCmd k .running)).finish { k with st := .running } 0))
  | _ => .next s

/-- An engine's PutS with EBB and the ebb action it brings, on an idle line (R267, R289): every copy goes. The engine is no
holder of the line. -/
def State.ebbEngine (s : State) (c line : Nat) : State :=
  let h := s.home c line
  let s := ((s.hcount h Ev.HOME_PUT 1).hcount h Ev.HOME_STALE_PUT 1).countInvs c h line
  (s.recallLine c line).ebbEnd h line (0x610 + h / 32) false

/-- EBB: one line of the range an event; a refused line anywhere refuses the command. -/
def execEbb (ctx q idx : Nat) (s : State) : Host.Outcome State Fault Refusal :=
  let refused := fun (s : State) (k : Cmd) => s.rangeLines (s.coveOf k.ctx) k.a (k.num 16 4) false true
  match s.turn ctx q idx 0x13 with
  | .first k => .next (s.validated k (rangeBody k s) (fun s k =>
      match refused s k with
      | .bad _ => s.fail k Sta.permission Rsn.bufAccess 8
      | .ok _ => s.startCmd k .running))
  | .again k =>
    let c := s.coveOf k.ctx
    match s.walk c (sx57 (k.a.start + 128 * k.pos)) with
    | .fault _ => .next (s.fail k Sta.permission Rsn.bufAccess 8)
    | .page e =>
      let line := (e.pa + (k.a.start + 128 * k.pos) % 2 ^ e.shift) / 128
      if s.lineBusy line || !s.mayRun then .next s
      else
        let k := { k with pos := k.pos + 1 }.onEngine (s.home c line / 32)
        let s := s.ebbEngine c line
        .next (if k.num 16 4 ≤ k.pos then s.finish k 0 else s.setCmd k)
  | .none => .next s

/-! ### XLATE_INVAL (R314) -/

/-- What a cove's cores hold of its tables is emptied. -/
def State.dropXlate (s : State) (c : Nat) : State :=
  (s.coveCores c).foldl (fun s k => s.modCore k (fun x => { x with tlb := [], utlb := [], walkCache := [] })) s

/-- Accesses of a cove's cores that were translated and have not been performed. -/
def State.xlateBusy (s : State) (c : Nat) : Bool :=
  (s.coveCores c).any (fun k => !(s.core k).ops.isEmpty)

/-- XLATE_INVAL: it completes once the accesses translated before it have been performed. -/
def execXlateInval (ctx q idx : Nat) (s : State) : Host.Outcome State Fault Refusal :=
  match s.turn ctx q idx 0x14 with
  | .first k => .next (s.validated k {} (fun s k => (s.startCmd k .running).dropXlate (s.coveOf k.ctx)))
  | .again k =>
    let c := s.coveOf k.ctx
    if s.xlateBusy c || !s.mayRun then .next s else .next ((s.dropXlate c).finish k 0)
  | .none => .next s

/-! ### Semaphores (R450) -/

def State.sem (s : State) (n : Nat) : Nat := mget 0 s.hs.sems n
def State.setSem (s : State) (n v : Nat) : State := { s with hs := { s.hs with sems := mset 0 s.hs.sems n (v % 2 ^ 64) } }

def Cmd.semMem (k : Cmd) : Bool := bit (k.byte 8) 0
def Cmd.semNum (k : Cmd) : Nat := k.num 16 8
def Cmd.semHolds (k : Cmd) (v : Nat) : Bool := if bits (k.byte 8) 4 3 = 0 then decide (k.num 24 8 ≤ v) else v == k.num 24 8

/-- A waiter that holds an entry of a hardware semaphore: `pos` is 1. -/
def Cmd.waitsOn (k : Cmd) (n : Nat) : Bool := k.opcode == 0x21 && k.st == .waiting && !k.semMem && k.semNum == n && k.pos == 1

/-- Each waiter whose condition holds completes with the value it saw; those of a context that is not running stay pending
(R479). -/
def State.semWake (s : State) (n : Nat) : State :=
  let v := s.sem n
  (s.hs.cmds.filter (fun k => k.waitsOn n && k.semHolds v && s.mayWork k)).foldl (fun s k => s.finish k v) s

def semBody (k : Cmd) (s : State) (wait : Bool) : Body :=
  let c := s.coveOf k.ctx
  let base := s.fld clsCove c R.COVE_SEM_BASE
  let code := if wait then bits (k.byte 8) 4 3 else bits (k.byte 8) 2 1
  let op := if wait then [(64, 64), (68, 67)] else [(66, 64)]
  let aligned := if k.semMem then (match s.readBuf k.ctx (k.num 16 8) with | .ok b => b.start % 8 == 0 | _ => true) else true
  { allowed := fieldBits (op ++ [(if k.semMem then 191 else 139, 128), (255, 192)] ++ (if wait then [(287, 256)] else []))
    range := [(8, decide (code ≤ 1)), (16, aligned)]
    refs := if k.semMem then [(16, wait || code == 1, !wait)] else []
    rights := if k.semMem then [] else [(16, Rsn.none, decide (base ≤ k.semNum) && decide (k.semNum < base + s.fld clsCove c R.COVE_SEM_COUNT))]
    need := fun b _ => some (bytesOf b.fmt b.off + 8) }

/-- The value of a memory semaphore. -/
def State.semRead (s : State) (k : Cmd) : Rd := s.bufRead (s.coveOf k.ctx) k.a.space k.a.start 8

/-- SEM_SIGNAL: SET or ADD, at once; waiters of a hardware semaphore see it. -/
def execSemSignal (ctx q idx : Nat) (s : State) : Host.Outcome State Fault Refusal :=
  let new := fun (k : Cmd) old => if bits (k.byte 8) 2 1 = 0 then k.num 24 8 else (old + k.num 24 8) % 2 ^ 64
  match s.turn ctx q idx 0x20 with
  | .first k => .next (s.validated k (semBody k s false) (fun s0 k =>
      let s := s0.startCmd k .running
      let k := { k with st := .running }
      if !k.semMem then ((s.setSem k.semNum (new k (s.sem k.semNum))).finish k 0).semWake k.semNum
      else match s.semRead k with
        | .ok bs p =>
          if p && bits (k.byte 8) 2 1 = 1 then s.fail k Sta.poison Rsn.none 0
          else match s.bufWrite (s.coveOf k.ctx) k.a.space k.a.start (leBytes 8 (new k (leNat bs))) false with
            | .ok s => s.finish k 0
            | .wait => s0
            | .refused => s.fail k Sta.permission Rsn.bufAccess 0
            | .down => s.fail k Sta.aborted Rsn.linkDown 0
        | .wait => s0
        | r => s.failRead k r))
  | _ => .next s

/-- Entries of a hardware semaphore that waiters hold. -/
def State.semWaiters (s : State) (n : Nat) : Nat := (s.hs.cmds.filter (fun k => k.waitsOn n)).length

/-- Whether the HOST port of a cove has trained in CXL mode. -/
def State.hostCxl (s : State) (c : Nat) : Bool := match s.hostPort c with | some p => (s.edge p).cxl | none => false

/-- A host-memory wait holds the line in CXL.cache. -/
def State.semHoldLine (s : State) (k : Cmd) : State :=
  match s.hostPort (s.coveOf k.ctx) with
  | some p => if k.a.space = 2 && (s.edge p).cxl then s.modEdge p (fun e => { e with owned := sadd (k.a.start / 64) e.owned }) else s
  | none => s

/-- A waiting command looks at its semaphore. -/
def State.semLook (s : State) (k : Cmd) : State :=
  if !k.semMem then
    (if k.semHolds (s.sem k.semNum) then s.finish k (s.sem k.semNum)
     else if k.pos = 0 && s.semWaiters k.semNum < 64 then s.setCmd { k with pos := 1 } else s)
  else match s.semRead k with
    | .ok bs p =>
      if p then s.fail k Sta.poison Rsn.none 0
      else if k.semHolds (leNat bs) then s.finish k (leNat bs) else s.semHoldLine k
    | r => s.failRead k r

/-- SEM_WAIT: it waits from its start, in an entry of the semaphore's waiter table where that has room; later events of
its row look again at a semaphore of the module. -/
def execSemWait (ctx q idx : Nat) (s : State) : Host.Outcome State Fault Refusal :=
  match s.turn ctx q idx 0x21 with
  | .first k => .next (s.validated k (semBody k s true) (fun s k =>
      let full := !k.semMem && !k.semHolds (s.sem k.semNum) && decide (64 ≤ s.semWaiters k.semNum)
      if full && k.noWait then s.fail k Sta.queueFull Rsn.none 0
      else
        let k := { k with since := s.now }
        (s.startCmd k .waiting).semLook { k with st := .waiting, order := s.hs.nextStart }))
  | .again k => if k.st = .waiting && s.mayWork k && !(k.semMem && k.a.space == 2) then .next (s.semLook k) else .next s
  | .none => .next s

/-- SEM_WAIT_TIMEOUT: TIMEOUT µs have passed since the wait began. -/
def execSemWaitTimeout (ctx q idx : Nat) (s : State) : Host.Outcome State Fault Refusal :=
  match s.cmdAt ctx q idx with
  | some k =>
    if k.opcode = 0x21 && k.st = .waiting && s.mayWork k && k.num 32 4 ≠ 0 && k.since + 1000 * k.num 32 4 ≤ s.now then
      .next (s.fail k Sta.deadline Rsn.timeout 0)
    else .next s
  | none => .next s

/-- SEM_POLL: without CXL a host-memory wait polls once every 1 µs. -/
def execSemPoll (ctx q idx : Nat) (s : State) : Host.Outcome State Fault Refusal :=
  match s.cmdAt ctx q idx with
  | some k =>
    if k.opcode = 0x21 && k.st = .waiting && s.mayWork k && k.semMem && k.a.space = 2 && !s.hostCxl (s.coveOf ctx) then .next (s.semLook k)
    else .next s
  | none => .next s

/-- CXL_SNOOP: the host takes back a line that the port holds (R429, R450): waits on it look at the host's new value. -/
def execCxlSnoop (port line : Nat) (s : State) : Host.Outcome State Fault Refusal :=
  if !(s.edge port).up || !(s.edge port).cxl then .next s
  else
    let s := (s.modEdge port (fun e => { e with owned := e.owned.filter (fun l => l != line) })).count clsEdge port Ev.EDGE_CXL_SNOOP 1
    let ks := s.hs.cmds.filter (fun k => k.opcode == 0x21 && k.st == .waiting && k.semMem && k.a.space == 2 && k.a.start / 64 == line &&
      s.hostPort (s.coveOf k.ctx) == some port && s.mayWork k)
    .next (ks.foldl (fun s k => s.semLook k) s)

end Sys2Proof.Machine
end

