-- ==== Sys2Proof/Machine/Cove.lean ====
section
/-! DEFINITION. Coves and the commons: create, reset, destroy, their cores, clearing of channels
(R220, R320, R322, R461 to R468, R519, R602). -/

namespace Sys2Proof.Machine

/-! ### What ends with a context (R465, R472) -/

/-- The engine work of a context's commands leaves the networks. -/
def State.clearCtxWork (s : State) (x : Nat) : State :=
  let n := s.ns
  let clear := fun (t : Option TorRed) => match t with
    | some r => if r.src.inCtx x then none else some r
    | none => none
  { s with ns := { n with
      flights := n.flights.filter (fun f => !f.src.inCtx x)
      landings := n.landings.filter (fun l => !l.src.inCtx x)
      streams := n.streams.filter (fun t => !t.src.inCtx x)
      reds := n.reds.filter (fun r => !r.src.inCtx x)
      torus := clear n.torus } }

/-- The blocks of every launch of a context leave their cores. -/
def State.evictCtx (s : State) (x : Nat) : State := s.evictAll (fun l => l.ctx == x)

/-- The slots of a context's domains are IDLE once the context is FREE. -/
def State.idleDoms (s : State) (x : Nat) : State :=
  s.ns.doms.foldl (fun s p => if p.2.st != 0 && p.2.ctx == x then
    (s.abortDom p.1 Sta.aborted Rsn.domainAbort 0 none).modDom p.1 (fun _ => {}) else s) s

/-- The queues of a context are disabled. -/
def State.disableQueues (s : State) (x : Nat) : State :=
  (List.range 4).foldl (fun s q => s.setQ x q R.Q_CFG_ENABLE 0) s

/-- A context becomes FREE: everything of it goes; its commands have completed or write no record. -/
def State.dropCtx (s : State) (x : Nat) : State :=
  let s := { s with hs := { s.hs with cmds := s.hs.cmds.filter (fun k => k.ctx != x) } }
  let s := ((((s.idleDoms x).evictCtx x).clearCtxWork x).releasePool x).disableQueues x
  s.setCtx x {}

/-! ### RESET (R465) -/

/-- Every ghost of the cove's slices ends (R293). -/
def State.endAllGhosts (s : State) (c : Nat) : State :=
  (s.coveSlices c).foldl (fun s h =>
    (s.count clsSlice h Ev.SLICE_GHOST_END_CMD (s.slice h).ghosts.length).modSlice h (fun y => { y with ghosts := [] })) s

/-- Every moored line of a cove is unmoored; it stays valid. -/
def State.unmoorAll (s : State) (c : Nat) : State :=
  ((s.coveSlices c).foldl (fun s h =>
    let ls := (s.slice h).lines.filter (fun p => p.2.moored && !p.2.commons)
    ls.foldl (fun s p => (s.setHline h p.1 { s.hline h p.1 with moored := false }).scount h Ev.SLICE_UNMOOR_LINES 1) s) s).modCove
      c (fun v => { v with moored := 0 })

/-- Every byte of the cove's shelf scratch is zero, unmarked. -/
def State.zeroShelf (s : State) (c : Nat) : State :=
  let base := shelfBase c
  let inside := fun a => decide (base ≤ a) && decide (a < base + 2 ^ 32)
  { s with mem := mdrop s.mem inside, poison := s.poison.filter (fun k => !inside (32 * k)) }

/-- RESET of a cove, done in one event: the cove is ACTIVE again when it ends. -/
def State.resetCove (s : State) (c : Nat) : State :=
  let s := (s.ctxsOf c).foldl (fun s x => s.dropCtx x) (s.modCove c (fun v => { v with st := 3 }))
  (((s.endAllGhosts c).unmoorAll c).zeroShelf c).modCove c (fun v => { v with st := 2, poolUsed := 0 })

/-! ### Cores of a cove (R220, R464) -/

/-- R16, R519: a logical core on an active compute die. -/
def State.activeCore (s : State) (c : Nat) : Bool := c < 1024 && s.se.ldie.any (fun p => p.1 == c / 16)

def State.mapCore (s : State) (k : Nat) (c : Option Nat) : State :=
  (s.setK k R.CORE_MAP_COVE (c.getD 0)).setK k R.CORE_MAP_COVE_VALID (boolNat c.isSome)

/-- The directory entry without one holder. -/
def Dir.without (d : Dir) (n : Nat) : Dir :=
  let p := d.ptr.filter (fun q => q != n)
  let shared : Dir := if p.isEmpty && d.coarse.isNone then {} else { st := .s, ptr := p, coarse := d.coarse }
  match d.st with
  | .i => d
  | .em => if d.owner = n then {} else d
  | .o => if d.owner = n then shared else { d with ptr := p }
  | .s => shared

/-- Whether nothing of a core is under way. -/
def State.coreQuiet (s : State) (k : Nat) : Bool :=
  let x := s.core k
  x.reqs.isEmpty && x.miss.isEmpty && x.ops.isEmpty

/-- A core leaves its cove, its L1 evicted: its translations go. -/
def State.leaveCore (s : State) (c k : Nat) : State :=
  let s := s.modCore k (fun x => { x with l1 := [], tlb := [], utlb := [], walkCache := [], pred := [] })
  (s.modCove c (fun v => { v with leaving := sdel k v.leaving })).mapCore k none

/-- Whether a core that is to leave may leave now. -/
def State.mayLeave (s : State) (k : Nat) : Bool :=
  let x := s.core k
  x.blocks.isEmpty && x.waiting.isEmpty && !s.reservedFor k none && s.coreQuiet k

/-- R220: the lines of a core that is leaving its cove are being evicted. -/
def State.leaveBusy (s : State) (k : Nat) : Bool :=
  s.hs.coves.any (fun p => p.2.leaving.contains k) && s.mayLeave k && (s.core k).heldLines.any (fun l => !stable ((s.core k).line l).st)

/-- CORE_LEAVE (R220, R464): the first moment at which a removed core holds no block and none is to come. Its L1 is evicted
first; it leaves once every line's Put has been acknowledged. -/
def execCoreLeave (core : Nat) (s : State) : Host.Outcome State Fault Refusal :=
  match s.hs.coves.find? (fun p => p.2.leaving.contains core) with
  | none => .next s
  | some (c, _) =>
    if !s.mayLeave core then .next s
    else if (s.core core).heldLines.isEmpty then .next (s.leaveCore c core)
    else .next (s.evictLines core (s.core core).heldLines)

/-- The cove that holds a core, leaving ones included. -/
def State.coreOwner (s : State) (k : Nat) : Option Nat :=
  (s.hs.coves.find? (fun p => p.1 < 64 && p.2.st != 0 && (s.coveCores p.1).contains k)).map Prod.fst

/-- A write of COVE_CORES_n while the cove is ACTIVE (R464, R519): word `n`, new value `v`. -/
def State.coresWrite (s : State) (c n v : Nat) : State :=
  let old := s.fldN clsCove c R.COVE_CORES_n_CORE (8 * n)
  let s := s.setFldN clsCove c R.COVE_CORES_n_CORE (8 * n) v
  (List.range 64).foldl (fun s j =>
    let k := 64 * n + j
    if v.testBit j = old.testBit j then s
    else if v.testBit j then
      let mine := (s.cove c).leaving.contains k
      let other := s.hs.coves.any (fun p => p.1 < 64 && p.1 != c && p.2.st != 0 && (s.coveCores p.1).contains k)
      if mine then s.modCove c (fun x => { x with leaving := sdel k x.leaving })
      else if other || !s.activeCore k then
        (s.setFldN clsCove c R.COVE_CORES_n_CORE (8 * n)
          (setBits (s.fldN clsCove c R.COVE_CORES_n_CORE (8 * n)) j j 0)).modCove c (fun x => { x with result := 1 })
      else (s.evictLines k (s.core k).heldLines).mapCore k (some c)
    else s.modCove c (fun x => { x with leaving := sadd k x.leaving })) s

/-! ### CREATE (R462, R463, R468) -/

def overlap (a n b m : Nat) : Bool := decide (0 < n) && decide (0 < m) && decide (a < b + m) && decide (b < a + n)

/-- The coves that are not FREE, other than one. -/
def State.others (s : State) (c : Nat) : List Nat := (s.hs.coves.filter (fun p => p.1 != c && p.2.st != 0)).map Prod.fst

def State.ctxRange (s : State) (c : Nat) : Nat × Nat := (s.fld clsCove c R.COVE_CTX_BASE, s.fld clsCove c R.COVE_CTX_COUNT)
def State.semRange (s : State) (c : Nat) : Nat × Nat := (s.fld clsCove c R.COVE_SEM_BASE, s.fld clsCove c R.COVE_SEM_COUNT)

/-- A named channel that cannot be assigned. -/
def State.chanTaken (s : State) (ch : Nat) : Bool := (s.chan ch).st != 1 || (s.chan ch).owner != 0

/-- CONFLICT of R462, R514 and R519. -/
def State.conflict (s : State) (c : Nat) : Bool :=
  let os := (s.others c).filter (fun o => o < 64)
  (s.coveChans c).any s.chanTaken ||
  (if c = 64 then s.ra.deadSlices.any (fun h => decide (h % 32 < s.commonsC)) else (s.coveSlices c).any (fun h => s.ra.deadSlices.contains h)) ||
  (c != 64 && (
    (s.coveSlices c).any (fun h => os.any (fun o => (s.coveSlices o).contains h)) ||
    (s.coveCoreBits c).any (fun k => !s.activeCore k || os.any (fun o => (s.coveCores o).contains k)) ||
    os.any (fun o => overlap (s.ctxRange c).1 (s.ctxRange c).2 (s.ctxRange o).1 (s.ctxRange o).2) ||
    os.any (fun o => overlap (s.semRange c).1 (s.semRange c).2 (s.semRange o).1 (s.semRange o).2)))

/-- R246: the first c slices of every shelf die are commons slices. -/
def State.isCommonsSlice (s : State) (h : Nat) : Bool := decide (h % 32 < s.commonsC)

/-- Frames that cannot be given: withdrawn, beyond the last, or another owner's. -/
def State.framesBad (s : State) (c : Nat) : Bool :=
  let r := s.framesOf c
  decide (1024 < r.1 + r.2) || (List.range r.2).any (fun i => !s.hb.present.contains (r.1 + i) || s.frameOwner (r.1 + i) != .none)

/-- The first frame index of each shelf die's group among a channel list in LOCAL (R306). -/
def groupStarts (cs : List Nat) : List Nat :=
  (List.range 16).map (fun d => (cs.filter (fun ch => ch / 64 < d)).length)

/-- RANGE of R462 and R468. -/
def State.rangeBad (s : State) (c : Nat) : Bool :=
  let n := (s.coveChans c).length
  s.framesBad c || n = 0 ||
  (if c = 64 then
    s.commonsC = 0 || (s.fld clsCove 64 R.COMMONS_CFG_MIRROR = 1 && (n % 2 = 1 || !(groupStarts (s.coveChans 64)).contains (n / 2)))
  else
    (s.coveSlices c).isEmpty || (s.coveCoreBits c).isEmpty || decide (2048 < (s.ctxRange c).2) ||
    decide (4096 < (s.ctxRange c).1 + (s.ctxRange c).2) || decide (4096 < (s.semRange c).1 + (s.semRange c).2) ||
    decide (n ≤ s.fld clsCove c R.COVE_SAVE_FRAMES) || (s.coveSlices c).any s.isCommonsSlice)

/-- The minimum save pool in frames (R482). -/
def minPool (cores slices : Nat) : Nat := (2 * (cores * 1197 + slices * 12 * 640) + 2 ^ 21 - 1) / 2 ^ 21

def State.poolBad (s : State) (c : Nat) : Bool :=
  c != 64 && decide (s.fld clsCove c R.COVE_SAVE_FRAMES < minPool (s.coveCoreBits c).length (s.coveSlices c).length)

/-- COVE_CTL.RESULT of a CREATE, the reasons in the order of R462. -/
def State.createResult (s : State) (c : Nat) : Nat :=
  if s.conflict c then 1 else if s.rangeBad c then 2 else if s.poolBad c then 4 else 0

/-- R220, R463: slices, cores and channels are taken; commons lines that an earlier cove left in a core are evicted; every
channel clears. -/
def State.startCreate (s : State) (c : Nat) : State :=
  let chs := s.coveChans c
  let sl := if c = 64 then (List.range 512).filter s.isCommonsSlice else s.coveSlices c
  let cores := if c = 64 then [] else s.coveCoreBits c
  let s := s.modCove c (fun v => { coreUs := v.coreUs, engineUs := v.engineUs, decayed := v.decayed, st := 1, clearing := chs })
  let s := if c = 64 then { s with ra := { s.ra with seals := [], sealLoaded := [] } } else s
  let s := chs.foldl (fun s ch => s.modChan ch (fun x => { x with owner := if c = 64 then 2 else 1, cove := c, clearing := true, doneMib := 0 })) s
  let s := sl.foldl (fun s h =>
    let s := s.modSlice h (fun y => { ghostHwm := y.ghostHwm, atomHist := y.atomHist, role := if c = 64 then 2 else 1, cove := c })
    if c = 64 then s else s.setFld clsSlice h R.GHOST_CFG_STRICT (s.fld clsCove c R.COVE_CFG_STRICT)) s
  cores.foldl (fun s k => (s.evictLines k (s.core k).heldLines).mapCore k (some c)) s

/-- OP = CREATE. -/
def State.coveCreateOp (s : State) (c : Nat) : State :=
  if (s.cove c).st ≠ 0 then s.modCove c (fun v => { v with result := 3 })
  else
    let r := s.createResult c
    if r = 0 then s.startCreate c else s.modCove c (fun v => { v with result := r })

/-! ### DESTROY (R466) -/

/-- A released channel (R320, R322): a pending one retires, but those of the commons wait for the next start. -/
def State.releaseChan (s : State) (ch : Nat) : State :=
  let x := s.chan ch
  let s := s.modChan ch (fun x => { x with owner := 0, cove := 0, clearing := false })
  if x.st = 2 && x.owner = 1 then ((s.modChan ch (fun x => { x with st := 3 })).withdrawFrame).mapChange else s

/-- Every line of some slices and its copies in the L1s are dropped unwritten, with the messages about them. -/
def State.dropSlices (s : State) (sl : List Nat) (gone : Nat → Bool) : State :=
  let s := sl.foldl (fun s h => s.modSlice h (fun y => { ghostHwm := y.ghostHwm, atomHist := y.atomHist })) s
  let s := s.cores.foldl (fun s p => s.modCore p.1 (fun k => { k with
    l1 := k.l1.filter (fun q => !gone q.1), reqs := k.reqs.filter (fun r => !gone r.line), miss := k.miss.filter (fun m => !gone (m.sector / 4)) })) s
  { s with net := s.net.filter (fun m => !gone m.line) }

/-- Whether the copies of a line belong to an owner that is destroyed. -/
def State.lineOf (s : State) (c line : Nat) : Bool :=
  if c = 64 then s.isCommons (line * 128)
  else match region (line * 128) with
    | .hbm f => s.frameOwner f == .cove c
    | _ => s.slices.any (fun p => p.2.role == 1 && p.2.cove == c && p.2.lines.any (fun l => l.1 == line))

/-- DESTROY after its RESET: everything is released, nothing is written to memory. -/
def State.destroyCove (s : State) (c : Nat) : State :=
  let sl := if c = 64 then (s.slices.filter (fun p => p.2.role == 2)).map Prod.fst else s.coveSlices c
  let lines := ((s.cores.flatMap (fun p => p.2.l1.map Prod.fst ++ p.2.reqs.map L1Req.line ++ p.2.miss.map (fun m => m.sector / 4)))
    ++ s.net.map Msg.line).filter (s.lineOf c)
  let chs := (s.hb.chans.filter (fun p => p.2.owner == (if c = 64 then 2 else 1) && p.2.cove == c)).map Prod.fst
  let cores := if c = 64 then [] else s.coveCores c
  let s := s.dropSlices sl (fun l => lines.contains l)
  let s := cores.foldl (fun s k => (s.modCore k (fun x => { x with
    l1 := x.l1.filter (fun q => s.isCommons (q.1 * 128)), reqs := x.reqs.filter (fun r => s.isCommons (r.line * 128))
    miss := x.miss.filter (fun m => s.isCommons (m.sector * 32)), ops := [], replay := []
    tlb := [], utlb := [], walkCache := [], pred := [] })).mapCore k none) s
  let s := s.modCove c (fun v => { coreUs := v.coreUs, engineUs := v.engineUs, decayed := v.decayed })
  let s := chs.foldl (fun s ch => s.releaseChan ch) s
  { s with
    hb := { s.hb with keyEpoch := bump s.hb.keyEpoch c 1, keySrc := mset 0 s.hb.keySrc c 0 }
    hs := { s.hs with granules := s.hs.granules.filter (fun p => !(p.2.mode == 1 && p.2.cove == c)) } }

/-- COVE_CTL.OP (R602). -/
def State.coveOp (s : State) (c op : Nat) : State :=
  if op = 0 then s
  else if op = 1 then s.coveCreateOp c
  else if (s.cove c).st ≠ 2 || (op = 2 && c = 64) then s.modCove c (fun v => { v with result := 3 })
  else
    let s := s.modCove c (fun v => { v with result := 0 })
    let s := if c = 64 then s else s.resetCove c
    if op = 3 then s.destroyCove c else s

/-! ### Clearing -/

/-- Zeros under the new key in every frame of an owner, unmarked (R320). -/
def State.clearFrames (s : State) (c : Nat) : State :=
  let r := s.framesOf c
  let inside := fun a => decide (r.1 * 2 ^ 31 ≤ a) && decide (a < (r.1 + r.2) * 2 ^ 31)
  { s with mem := mdrop s.mem inside, poison := s.poison.filter (fun k => !inside (32 * k)) }

/-- CLEARING_END (R320): the owner gains the channel; with the last one the cove or the commons is ACTIVE (R463). -/
def execClearingEnd (ch : Nat) (s : State) : Host.Outcome State Fault Refusal :=
  let x := s.chan ch
  if !x.clearing then .next s
  else
    let c := x.cove
    let s := (s.modChan ch (fun x => { x with clearing := false, doneMib := 2048 })).count clsHbmc ch Ev.HBMC_CLEAR_BURSTS (2 ^ 25)
    let s := s.modCove c (fun v => { v with clearing := sdel ch v.clearing })
    if (s.cove c).st = 1 && (s.cove c).clearing.isEmpty then .next ((s.clearFrames c).modCove c (fun v => { v with st := 2 }))
    else .next s

end Sys2Proof.Machine
end

