-- ==== Sys2Proof/Machine/Context.lean ====
section
/-! DEFINITION. Contexts: ALLOC, FREE, PREEMPT, RESUME, END, saving and restoring, shares and the scheduler, faults
resumed, the interference figures (R134, R391, R470 to R487). -/

namespace Sys2Proof.Machine

/-! ### What a context has on cores -/

/-- R479: nothing of a context is under way that must end before its save. -/
def State.ctxQuiet (s : State) (x : Nat) : Bool :=
  let dom := fun (r : Src) => match r with
    | .cmd y _ _ => y == x
    | .dom d _ => (s.dom d).ctx == x && (s.dom d).st != 0
  s.cores.all (fun p =>
    let g := p.2.slotsOf x
    p.2.ops.all (fun o => !g.contains o.slot) && p.2.mxq.all (fun e => !g.contains e.slot)) &&
  s.ns.flights.all (fun f => !dom f.src) && s.ns.landings.all (fun l => !dom l.src) &&
  s.ns.reds.all (fun r => !(dom r.src && r.alloc)) && (match s.ns.torus with | some r => !dom r.src | none => true) &&
  s.ns.peers.all (fun p => p.cmd.1 != x)

/-! ### The image (R480, Table 16-3) -/

/-- Parts of the scratchpad array that a context's blocks own on a core, the landing area among them. -/
def Core.regionsOf (k : Core) (x : Nat) : List (Nat × Nat) :=
  (k.landBase, up4k (k.landCount * 2048)) :: (k.blocksOf x).map (fun p => (p.2.spOff, p.2.spLen))

def inRanges (l : List (Nat × Nat)) (a : Nat) : Bool := l.any (fun r => decide (r.1 ≤ a) && decide (a < r.1 + r.2))

/-- What is saved of a core for a context. -/
def Core.image (k : Core) (x : Nat) : Core :=
  let bs := k.blocksOf x
  let g := k.slotsOf x
  let rs := k.regionsOf x
  { blocks := bs, placed := k.placed, groups := k.groups.filter (fun p => g.contains p.1)
    waiting := k.waiting.filter (fun w => w.launch.ctx == x), split := k.split
    sp := k.sp.filter (fun p => inRanges rs p.1), spPoison := k.spPoison.filter (fun i => inRanges rs (32 * i))
    spGhost := k.spGhost.filter (fun i => inRanges rs (32 * i)), land := k.land, landCount := k.landCount, landTab := k.landTab
    elq := k.elq.filter (fun e => g.contains e.slot) }

/-- The commands that a preemption stops and a restore resumes (R479). -/
def Cmd.stops (k : Cmd) : Bool := [0x01, 0x02, 0x03, 0x04, 0x08, 0x15, 0x16].contains k.opcode

def State.eachCmd (s : State) (x : Nat) (f : Cmd → Cmd) : State :=
  { s with hs := { s.hs with cmds := s.hs.cmds.map (fun k => if k.ctx == x && k.live then f k else k) } }

/-- R175: the compress, expand or reduction that a core's engine runs for a context completes before the save. -/
def State.finishCtxEl (s : State) (x : Nat) : State :=
  s.cores.foldl (fun s p => match p.2.elq with
    | e :: _ => if (p.2.slotsOf x).contains e.slot then s.finishEl p.1 else s
    | [] => s) s

/-- The image is written: blocks, waiting blocks and declared shelf scratch leave the cores and the window. -/
def State.takeImage (s : State) (x : Nat) : State :=
  let s := s.finishCtxEl x
  let kib := s.imageKib x
  let imgs := (s.cores.filter (fun p => p.2.ofCtx x)).map (fun p => ({ core := p.1, body := p.2.image x } : Image))
  let rs := s.shelfRanges x
  let bytes := ((s.mem.filter (fun p => inRanges rs p.1)).map (fun p => (p.1, [p.2]))) ++
    ((s.poison.filter (fun i => inRanges rs (32 * i))).map (fun i => (32 * i, [])))
  let s := s.cores.foldl (fun s p => s.modCore p.1 (fun k => k.evict (fun l => l.ctx == x))) s
  let s := s.eachCmd x (fun k => if k.st == .running && k.stops then { k with st := .stopped } else k)
  ((s.modCtx x (fun u => { u with images := imgs, shelf := bytes, ran := 0 })).setX x R.CTX_SAVE_IMAGE_KIB kib).xcount x Ev.CTX_SAVE_KIB kib

/-! ### Preemption (R473, R479, R482) -/

/-- PREEMPT (R473): of a READY context nothing is saved; a domain that is ARMED or RUNNING starts a hold. -/
def State.ctlPreempt (s : State) (x : Nat) : Option State :=
  let u := s.ctx x
  if u.restoring then none
  else if u.st = 1 then some ((s.modCtx x (fun u => { u with st := 3, heldBySw := true })).xcount x Ev.CTX_PREEMPT_REQ 1)
  else if u.st ≠ 2 then none
  else if u.bySw then some s
  else
    let s := s.modCtx x (fun u => { u with bySw := true })
    match s.activeDom x with
    | some d => some (s.startHold d)
    | none =>
      let s := s.xcount x Ev.CTX_PREEMPT_REQ 1
      if u.saving then some s else some (s.beginSave x)

/-- A domain's slot that holds and belongs to a context. -/
def State.holdingDom (s : State) (x : Nat) : Option Nat :=
  (s.ns.doms.find? (fun p => p.2.st == 4 && p.2.ctx == x)).map Prod.fst

/-- A domain's context is saved: HELD (R386). -/
def State.saveHeld (s : State) (x d : Nat) : State :=
  let b := (s.dom d).boundary.getD 0
  let s := (s.takeImage x).modDom d (fun m => { m with st := 5, holdAt := none })
  let f := (s.ctx x).st == 4
  let s := s.modCtx x (fun u => { u with
    st := if f then 4 else 3, heldBySw := !f, bySw := false, saving := false, stopping := false })
  (s.holdCmds d).foldl (fun s k => s.finish k b) (s.xcount x Ev.CTX_PREEMPT_REQ 1)

/-- SAVE_END (R386, R480): the image of a context that was stopped is complete. -/
def execSaveEnd (ctx : Nat) (s : State) : Host.Outcome State Fault Refusal :=
  let u := s.ctx ctx
  match s.holdingDom ctx with
  | some d =>
    if !s.ctxQuiet ctx then .next s
    else match s.reserve ctx with
      | (s, true) => .next ((s.saveHeld ctx d).coresFreed (s.coveOf ctx))
      | (s, false) => .next s
  | none =>
    if u.saving then
      if !s.ctxQuiet ctx then .next s
      else .next (((s.takeImage ctx).modCtx ctx (fun u => { u with
        st := if u.st = 4 then 4 else 3, heldBySw := u.bySw, bySw := false, saving := false, stopping := false })).coresFreed (s.coveOf ctx))
    else if u.bySw && (u.st == 2 || u.st == 4) && (s.activeDom ctx).isNone then .next (s.beginSave ctx)
    else .next s

/-! ### Faults resumed (R116, R134, R391, R485) -/

/-- One entry fills a slot range of a core again, from its source, without credits. -/
def State.refillEntry (s : State) (c : Nat) (f : Src × Nat) : Option State :=
  match s.table? f.1 with
  | none => none
  | some t =>
    if t.kind ≠ 0 then none
    else match s.bufRead t.cove t.space (t.va + 32 * f.2) 32 with
      | .ok bs false =>
        let v := leNat bs
        match s.bufRead t.cove 0 (bits v 56 5 * 32) (32 * (bits v 102 96 + 1)) with
        | .ok data p =>
          let bad := p || crc32c data ≠ bits v 95 64
          let sl := landSlots (bits v 119 112) (bits v 207 192) data.length
          some (s.modCore c (fun k =>
            let k := { k with sp := k.sp.writeBytes (k.landBase + 2048 * bits v 119 112 + 32 * bits v 207 192) data }
            sl.foldl (fun k n => k.setSlot n { k.slot n with poison := (k.slot n).poison || bad }) k))
        | _ => none
      | _ => none

/-- REFILL: every poisoned slot of a core loses its mark and is filled again. What a sender on another module sends is
free. -/
def State.refill (s : State) (x c : Nat) : State :=
  let bad := ((s.core c).land.filter (fun p => p.2.poison)).map Prod.fst
  let s := s.modCore c (fun k => bad.foldl (fun k n => k.setSlot n { k.slot n with poison := false }) k)
  let s := match s.domOfCtx x with | some d => s.count clsTide (d + 1) Ev.TIDE_REFILLS bad.length | none => s
  (bad.flatMap (fun n => ((s.core c).slot n).fills.map (fun f => (n, f)))).foldl (fun s p => match s.refillEntry c p.2 with
    | some s => s
    | none =>
      let (bs, s) := s.drawBytes 2048
      s.modCore c (fun k => { k with sp := k.sp.writeBytes (k.landBase + 2048 * p.1) bs })) s

/-- The records of a context's faults are cleared: the next fault is the first again (Tables 3-14, 16-12). -/
def State.clearFault (s : State) (x : Nat) : State :=
  let s := s.setX x R.CTX_FAULT_VALID 0
  s.cores.foldl (fun s p =>
    if s.kfld p.1 R.FAULT_INFO_VALID = 1 && s.kfld p.1 R.FAULT_INFO_CTX = x then (s.setK p.1 R.FAULT_INFO_VALID 0).setK p.1 R.MX_DIV_INFO_REC_MASK 0
    else s) s

/-- The faulting instruction is to issue again: MX_REBASE and REFILL first; after BREAKPOINT the next one (R116). -/
def State.unfault (s : State) (x : Nat) (rebase refill : Bool) : State :=
  let u := s.ctx x
  let c := u.faultCore
  let code := s.xfld x R.CTX_FAULT_CODE
  let mine := !((s.core c).slotsOf x).isEmpty && ((s.core c).slotsOf x).contains u.faultSlot
  let s := if s.xfld x R.CTX_FAULT_VALID = 1 && mine then
      let s := if code = Flt.breakpoint then s.modGroup c u.faultSlot (fun g => { g with pc := g.pc + 8 }) else s
      let s := if code = Flt.mxDiverge && rebase then
        s.modGroup c u.faultSlot (fun g => { g with region := some (mget 0 g.m 0) }) else s
      if refill && code = Flt.poison then s.refill x c else s
    else s
  let s := s.eachCmd x (fun k => if k.st == .faulted then { k with st := .running } else k)
  (s.clearFault x).modCtx x (fun u => { u with rebase := false, refill := false })

/-- BUSY, or READY when no command runs. -/
def State.goOn (s : State) (x : Nat) : State :=
  s.modCtx x (fun u => { u with st := if (s.runningOf x).isEmpty then 1 else 2, stopping := false })

/-! ### Restore (R483) -/

/-- A core that can take an image. -/
def State.takesImage (s : State) (x c : Nat) : Bool :=
  let k := s.core c
  k.blocks.isEmpty && (s.coveCoreBits (s.coveOf x)).contains c && !s.reservedFor c (s.domOfCtx x) && (mget ({} : Sleep) s.pw.sleep c).st == 0

/-- Hops between two shelf dies (R15). -/
def dieHops (a b : Nat) : Nat := (max (a / 4) (b / 4) - min (a / 4) (b / 4)) + (max (a % 4) (b % 4) - min (a % 4) (b % 4))

/-- The first of some cores in distance order from a core: fewest shelf-die hops, then the lowest number (DEDUCED, log
entry 55). -/
def nearestCore (from_ : Nat) (l : List Nat) : Option Nat :=
  (minimumNat (l.map (fun c => 1024 * dieHops (from_ / 64) (c / 64) + c % 1024))).map (fun v => v % 1024)

/-- A core for each image that holds blocks: its own if it can, else the nearest free one; none when one has no core. -/
def State.planImages (s : State) (x : Nat) : List Image → List Nat → Option (List (Nat × Image))
  | [], _ => some []
  | i :: l, used =>
    if i.body.blocks.isEmpty || s.takesImage x i.core then (s.planImages x l used).map (fun r => (i.core, i) :: r)
    else
      let own := (s.ctx x).images.map Image.core
      let free := (s.coveCoreBits (s.coveOf x)).filter (fun c => s.takesImage x c && !used.contains c && !own.contains c)
      match nearestCore i.core free with
      | none => none
      | some c => (s.planImages x l (c :: used)).map (fun r => (c, i) :: r)

/-- A core takes the split of an image; the ways that pass to scratchpad are free (R219). -/
def State.takeSplit (s : State) (c n : Nat) : State :=
  if (s.core c).split = n then s
  else s.modCore c (fun k => { k with split := n, sp := [], spPoison := [], spGhost := [] })

/-- The lines of a core that an image's split change must evict first. -/
def State.splitLines (s : State) (p : Nat × Image) : List Nat :=
  if p.2.body.blocks.isEmpty || (s.core p.1).split = p.2.body.split then [] else (s.core p.1).passing p.2.body.split

/-- When a launch started (R436). -/
def State.startOrder (s : State) (l : Launch) : Nat := match s.cmdOfLaunch l with | some k => k.order | none => 0

/-- Unplaced blocks join a core's order by the start of their launch (R599). -/
def State.joinPend (s : State) (w : Pend) : List Pend → List Pend
  | [] => [w]
  | v :: l => if s.startOrder w.launch < s.startOrder v.launch then w :: v :: l else v :: s.joinPend w l

/-- An image onto a core. Blocks still to be placed wait on the core they were assigned to (R64). -/
def State.putImage (s : State) (c : Nat) (i : Image) : State :=
  let b := i.body
  let s := s.modCore i.core (fun k => { k with waiting := b.waiting.foldl (fun q w => s.joinPend w q) k.waiting })
  if b.blocks.isEmpty then s
  else
    let s := s.takeSplit c b.split
    s.modCore c (fun k => { k.dropReadOnly with
      blocks := b.blocks, groups := b.groups, placed := max k.placed b.placed, maint := 0
      sp := b.sp, spPoison := b.spPoison, spGhost := b.spGhost, land := b.land, landCount := b.landCount, landTab := b.landTab
      elq := b.elq.map (fun e => { e with mark := 0 }) })

/-- The granules of an image by number: 256 to an image in order, scratchpad pages first, then its 32 group slots; the
declared shelf scratch after the last image (log entry 30). -/
def State.spoil (s : State) (x : Nat) (cores : List Nat) (n : Nat) : State :=
  let i := n / 256
  let j := n % 256
  match cores[i]? with
  | some c =>
    if j < 160 then s.modCore c (fun k =>
      { k with spPoison := (List.range 128).foldl (fun l m => if inRanges (k.regionsOf x) (32 * (128 * j + m)) then sadd (128 * j + m) l else l) k.spPoison })
    else if j < 192 then s.modCore c (fun k => if (k.slotsOf x).contains (j - 160) then
      k.modGroup (j - 160) (fun g => { g with poison := List.range (k.block g.blk).launch.alloc }) else k)
    else s
  | none =>
    let rs := s.shelfRanges x
    let a := (rs.headD (0, 0)).1 + 4096 * (n - 256 * cores.length)
    (List.range 128).foldl (fun s m => if inRanges rs (a + 32 * m) then s.setPoison (a + 32 * m) true else s) s

/-- RESTORE (R483): every image has a core, whose split changes first where it differs (R219); a granule whose copies both fail is restored marked, recorded once. -/
def execRestore (ctx : Nat) (second : Nat) (bad : List Nat) (s : State) : Host.Outcome State Fault Refusal :=
  let u := s.ctx ctx
  if !(u.restoring || (u.eligible && (u.st = 3 || u.st = 4))) then .next s
  else match s.planImages ctx u.images [] with
    | none => .next s
    | some plan =>
      if plan.any (fun p => !(s.splitLines p).isEmpty || s.maintBusy p.1) then
        .next (plan.foldl (fun s p => (s.maintAll p.1).evictLines p.1 (s.splitLines p)) s)
      else
      let s := plan.foldl (fun s p => s.putImage p.1 p.2) s
      let moved := plan.find? (fun q => q.2.core == u.faultCore && !q.2.body.blocks.isEmpty)
      let fc := match moved with | some q => q.1 | none => u.faultCore
      let rs := s.shelfRanges ctx
      let s := { s with mem := mdrop s.mem (inRanges rs), poison := s.poison.filter (fun i => !inRanges rs (32 * i)) }
      let s := u.shelf.foldl (fun s p => match p.2 with
        | [] => s.setPoison p.1 true
        | bs => { s with mem := s.mem.writeBytes p.1 bs }) s
      let s := bad.foldl (fun s n => s.spoil ctx (plan.map Prod.fst) n) s
      let s := if bad.isEmpty then s else s.rasEvent {
        cls := ctxCls ctx, inst := ctx % 2048, sev := Sev.contained, kind := Knd.other, cove := some (s.coveOf ctx), ctx := ctx } false
      let s := (s.xcount ctx Ev.CTX_RESTORES 1).xcount ctx Ev.CTX_RESTORE_SECOND_COPY second
      let s := s.eachCmd ctx (fun k => if k.st == .stopped then { k with st := .running } else k)
      let s := (s.releasePool ctx).modCtx ctx (fun u => { u with
        images := [], shelf := [], restoring := false, eligible := false, heldBySw := false, waiting := false, faultCore := fc, ran := 0 })
      let s := s.unfault ctx u.rebase u.refill
      let s := ((s.runningOf ctx).filter (fun k => k.opcode == 0x1B)).foldl (fun s k => s.finish k 0) (s.modCtx ctx (fun u => { u with st := 2 }))
      .next (s.goOn ctx)

/-! ### CTX_CTL (R470 to R473, Table 16-2) -/

/-- The ACTIVE cove whose range holds a context. -/
def State.activeCoveOf (s : State) (x : Nat) : Option Nat :=
  match s.ctxCove x with | some c => if (s.cove c).st = 2 then some c else none | none => none

/-- ALLOC: READY, its queues disabled, counters and LAST_ERROR zero. -/
def State.ctlAlloc (s : State) (x : Nat) : Option State :=
  if (s.ctx x).st ≠ 0 || (s.activeCoveOf x).isNone then none
  else
    let s := s.setFlds (ctxCls x) (x % 2048)
      [(R.LAST_ERROR_VALUE, 0), (R.CTX_FAULT_VALID, 0), (R.CTX_FAULT_RESUMABLE, 0), (R.CTX_FAULT_CODE, 0), (R.CTX_FAULT_LCORE, 0),
       (R.CTX_ACCT_CORE_US, 0), (R.CTX_ACCT_ENGINE_US, 0), (R.CTX_SAVE_IMAGE_KIB, 0)]
    let s := (List.range 4).foldl (fun s n => s.setFldN (ctxCls x) (x % 2048) R.EVT_COUNT_n_COUNT (0x20 * n) 0) s
    some ((s.disableQueues x).setCtx x { st := 1 })

/-- FREE (R472): running commands complete with ABORTED, saved ones with PREEMPTED. -/
def State.ctlFree (s : State) (x : Nat) : Option State :=
  if (s.ctx x).st = 0 then none
  else
    let saved := fun (k : Cmd) => k.st == .stopped || (k.live && !(s.ctx x).images.isEmpty && k.st == .faulted)
    let ks := s.hs.cmds.filter (fun k => k.ctx == x)
    some (((ks.foldl (fun s k => s.fail k (if saved k then Sta.preempted else Sta.aborted) Rsn.none 0) s).dropCtx x).coresFreed (s.coveOf x))

/-- A saved context is restored; with no image on a core, at once. -/
def State.makeEligible (s : State) (x : Nat) : State :=
  let u := s.ctx x
  if u.images.isEmpty then
    let had := u.poolKib != 0
    let s := s.eachCmd x (fun k => if k.st == .stopped then { k with st := .running } else k)
    let s := if had then s.xcount x Ev.CTX_RESTORES 1 else s
    ((s.releasePool x).modCtx x (fun u => { u with heldBySw := false, eligible := false })).goOn x
  else s.modCtx x (fun u => { u with st := 3, heldBySw := false, eligible := true })

/-- RESUME (R473, R485). -/
def State.ctlResume (s : State) (x : Nat) (rebase refill : Bool) : Option State :=
  let u := s.ctx x
  if u.saving || u.restoring then none
  else if u.st = 3 then (if (s.heldDom x).isSome then none else some (s.makeEligible x))
  else if u.st ≠ 4 then none
  else if (s.heldDom x).isSome then some (s.modCtx x (fun u => { u with st := 3, heldBySw := true, rebase := rebase, refill := refill }))
  else if (s.activeDom x).isSome then none
  else if u.images.isEmpty then some (((s.unfault x rebase refill).modCtx x (fun u => { u with st := 2 })).goOn x)
  else some ((s.modCtx x (fun u => { u with rebase := rebase, refill := refill })).makeEligible x)

/-- END (R116, R472): the faulted command completes with the status of Table 4-9; other commands go on. -/
def State.ctlEnd (s : State) (x : Nat) : Option State :=
  let u := s.ctx x
  if u.st ≠ 4 || u.saving then none
  else
    let code := s.xfld x R.CTX_FAULT_CODE
    let s := s.modCtx x (fun u => { u with st := 2 })
    let s := match s.domOfCtx x with
      | some d => if (s.dom d).faultHold then s.abortDom d (Flt.status code) Rsn.fault code none else s
      | none => s
    let ks := s.hs.cmds.filter (fun k => k.ctx == x && k.st == .faulted)
    let s := ks.foldl (fun s k =>
      let s := s.evictAll (fun l => l.cmd == k.seq && l.tide.isNone)
      let s := s.modCtx x (fun v => { v with
        images := (v.images.map (fun i => { i with body := i.body.evict (fun l => l.cmd == k.seq && l.tide.isNone) })).filter
          (fun i => !i.body.blocks.isEmpty || !i.body.waiting.isEmpty) })
      s.fail k (Flt.status k.faultCode) Rsn.fault k.faultCode) s
    let s := s.clearFault x
    some ((if (s.ctx x).images.isEmpty then (s.releasePool x).goOn x else s.makeEligible x).coresFreed (s.coveOf x))

/-- CTX_CTL.OP (Table 16-11): one that Table 16-2 does not allow sets CTL_REFUSED. -/
def State.ctxOp (s : State) (x op : Nat) (rebase refill : Bool) : State :=
  let r := match op with
    | 1 => s.ctlAlloc x
    | 2 => s.ctlFree x
    | 3 => s.ctlPreempt x
    | 4 => s.ctlResume x rebase refill
    | 5 => s.ctlEnd x
    | _ => some s
  match r with
  | some s => s
  | none => s.setX x R.CTX_STATE_CTL_REFUSED 1

/-! ### Shares and the scheduler (R474 to R478) -/

/-- What a context is charged (R474). -/
def State.charge (s : State) (c : Nat) (g : Charge) : State :=
  let s := (s.setX g.ctx R.CTX_ACCT_CORE_US (s.xfld g.ctx R.CTX_ACCT_CORE_US + g.coreUs)).setX
    g.ctx R.CTX_ACCT_ENGINE_US (s.xfld g.ctx R.CTX_ACCT_ENGINE_US + g.engineUs)
  let s := s.modCtx g.ctx (fun u => { u with usage := u.usage + g.coreUs + g.engineUs })
  let s := s.modCove c (fun v => { v with
    coreUs := v.coreUs + g.coreUs, engineUs := v.engineUs + g.engineUs, decayed := v.decayed + g.engineUs })
  g.cmds.foldl (fun s p => s.eachCmd g.ctx (fun k => if k.queue == p.1 && k.idx == p.2.1 then { k with coreUs := k.coreUs + p.2.2 } else k)) s

/-- Decay by one half when a half-life has passed (R475). -/
def State.decay (s : State) (c us : Nat) : State :=
  let t := (s.cove c).sinceHalf + us
  let n := t / s.halfLifeUs
  let s := s.modCove c (fun v => { v with sinceHalf := t % s.halfLifeUs, decayed := v.decayed / 2 ^ n })
  (s.ctxsOf c).foldl (fun s x => s.modCtx x (fun u => { u with usage := u.usage / 2 ^ n })) s

/-- QUANTUM_BOUNDARY (R474 to R478): charges since the last one, decay, the end of urgency, the scheduler. -/
def execQuantumBoundary (cove us : Nat) (charges : List Charge) (s : State) : Host.Outcome State Fault Refusal :=
  if 64 ≤ cove || (s.cove cove).st ≠ 2 then .next s
  else
    let mine := charges.filter (fun g => (s.ctxsOf cove).contains g.ctx)
    let s := (mine.foldl (fun s g => s.charge cove g) s).decay cove us
    let s := (s.ctxsOf cove).foldl (fun s x =>
      let s := if (s.ctx x).waiting then s.xcount x Ev.CTX_WAIT_US us else s
      let s := s.modCtx x (fun u => { u with
        ran := if (s.holds x).isEmpty then 0 else u.ran + us
        eligible := u.eligible || (u.st == 3 && !u.heldBySw && !u.images.isEmpty && !u.restoring) })
      if (s.ctx x).urgent && !s.isWaiting x && decide (s.quantumUs ≤ (s.ctx x).ran) then s.modCtx x (fun u => { u with urgent := false }) else s) s
    .next (((s.noteWaits cove).schedule cove))

/-- HORIZON_MS as it acts (Table 16-11). -/
def State.horizonMs (s : State) (x : Nat) : Nat :=
  let n := s.xfld x R.CTX_CFG_HORIZON_MS
  if n = 0 then 50 else min 1000 n

/-- HORIZON (R478): a context that has waited longer than its horizon is urgent. -/
def execHorizon (ctx : Nat) (s : State) : Host.Outcome State Fault Refusal :=
  let u := s.ctx ctx
  if u.st ≠ 0 && u.waiting && !u.urgent && s.isWaiting ctx && decide (u.waitFrom + s.horizonMs ctx * 1000000 < s.now) then
    .next ((s.modCtx ctx (fun u => { u with urgent := true })).xcount ctx Ev.CTX_URGENT_PROMOTE 1)
  else .next s

/-! ### Interference (R486) -/

/-- The nearest whole number to a quotient, halves upward. -/
def nearest (a b : Nat) : Nat := (2 * a + b) / (2 * b)

/-- SLOWDOWN_INTERVAL: FACTOR and the shares of every cove over 10 ms. -/
def execSlowdownInterval (m : List Slow) (s : State) : Host.Outcome State Fault Refusal :=
  .next (m.foldl (fun s w =>
    if 64 ≤ w.cove || (s.cove w.cove).st ≠ 2 then s
    else
      let i := w.mesh + w.commons + w.engine + w.tideway + w.edge
      let f := if i = 0 then 256 else if w.t ≤ i then 0xFFFF else min 0xFFFF (nearest (256 * w.t) (w.t - i))
      let share := fun n => if i = 0 then 0 else nearest (255 * n) i
      s.setFlds clsCove w.cove
        [(R.COVE_SLOWDOWN_FACTOR, f), (R.COVE_SLOWDOWN_MESH, share w.mesh), (R.COVE_SLOWDOWN_COMMONS, share w.commons),
         (R.COVE_SLOWDOWN_TIDEWAY, share w.tideway), (R.COVE_SLOWDOWN_ENGINE, share w.engine), (R.COVE_SLOWDOWN_EDGE, share w.edge)]) s)

end Sys2Proof.Machine
end

