-- ==== Sys2Proof/Machine/Tidemark.lean ====
section
/-! DEFINITION. The Tidemark recorder: the record, the flash areas, intervals, the scan at start, clears
(spec/20_tidemark_recorder.md). -/

namespace Sys2Proof.Machine

/-! ### Flash slots (R560, R561, R565) -/

/-- Bytes of a record slot or a ledger entry; a slot that is not listed is erased. -/
def flashAt (l : List (Nat × List Byte)) (size n : Nat) : List Byte := mget (List.replicate size 0xFF) l n

/-- R561: MARK and the CRC of bytes 1 to 251. -/
def recOk (bs : List Byte) : Bool := bs.getD 0 0 == 0xA5 && leNat ((bs.drop 252).take 4) == crc32c ((bs.drop 1).take 251)
/-- R565: MARK and the CRC of bytes 2 to 59. -/
def ledgerOk (bs : List Byte) : Bool := bs.getD 0 0 == 0xA5 && leNat ((bs.drop 60).take 4) == crc32c ((bs.drop 2).take 58)

def recSeq (bs : List Byte) : Nat := leNat ((bs.drop 4).take 4)

/-- Slot state as READ commands report it: 0 valid, 1 erased, 2 torn. -/
def slotState (ok : List Byte → Bool) (l : List (Nat × List Byte)) (n : Nat) : Nat :=
  match l.find? (fun p => p.1 == n) with
  | none => 1
  | some p => if ok p.2 then 0 else 2

def TmkSt.areaState (t : TmkSt) (area n : Nat) : Nat :=
  if area = 1 then slotState recOk t.circ n else if area = 2 then slotState ledgerOk t.ledger n else slotState recOk t.perm n
def TmkSt.areaBytes (t : TmkSt) (area n : Nat) : List Byte :=
  if area = 1 then flashAt t.circ 256 n else if area = 2 then flashAt t.ledger 64 n else flashAt t.perm 256 n
def TmkSt.circValid (t : TmkSt) : Nat := (t.circ.filter (fun p => recOk p.2)).length

/-- The recorder's first error (Table 20-10). -/
def State.tmkErr (s : State) (kind area slot : Nat) : State :=
  s.record clsTmk 0 1 R.TMK_ERR_VALID [(R.TMK_ERR_KIND, kind), (R.TMK_ERR_AREA, area), (R.TMK_ERR_SLOT, slot)]

/-! ### The record (R558, R559, Table 20-1) -/

/-- A port-minute's bin is that of R381; the bin of a minute's flit replays. -/
def d2dBin (n : Nat) : Nat := if n = 0 then 0 else min 7 (n.log2 / 4 + 1)

/-- A minute of the open interval ends. -/
def TmkOpen.minute (t : TmkOpen) : TmkOpen :=
  { t with
    tw := (List.range 24).foldl (fun l p => bump l (slipBin (mget 0 t.twNow p)) 1) t.tw
    d2d := bump t.d2d (d2dBin t.d2dNow) 1, twNow := [], d2dNow := 0 }

/-- A field of `n` bytes that saturates. -/
def satField (n v : Nat) : List Byte × Bool := (leBytes n (min v (2 ^ (8 * n) - 1)), decide (2 ^ (8 * n) ≤ v))

/-- Microseconds since the module reset. -/
def State.us (s : State) : Nat := s.now / 1000

/-- Bytes 1 to 251 of a record but for SEQ, with what the fields before and after it hold. VIN and rail figures without
a sample, and the mean power of an interval shorter than a second, are free. -/
def State.tmkBody (s : State) (ty : Nat) : List Byte × State :=
  let t0 := s.tm.cur
  let us := s.us - t0.openUs
  let t := if us % 60000000 ≠ 0 || us = 0 then t0.minute else t0
  let secs := us / 1000000
  let (vin, s) := if t.vinMin = 65535 then s.draw 65536 else (t.vinMin, s)
  let (rail, s) := if t.railMin = 65535 then s.draw 65536 else (t.railMin, s)
  let (isl, s) := if t.railMin = 65535 then s.draw 256 else (t.railIsl, s)
  let (avg, s) := if secs = 0 then s.draw 65536 else (t.energyMs / 1000 / secs, s)
  let f := fun n v => satField n v
  let fields : List (List Byte × Bool) :=
    [f 4 s.se.resets, f 4 secs, f 8 s.us] ++ (List.range 80).map (fun p => (leBytes 1 (mget 0 t.tempP p), false)) ++
    (List.range 16).map (fun p => (leBytes 1 (mget 0 t.tempS p), false)) ++
    [f 2 vin, f 2 rail, (leBytes 1 isl, false), (leBytes 1 0, false), f 2 t.peakW, f 2 avg, f 2 t.throttleS] ++
    (List.range 5).map (fun c => f 4 (mget 0 t.cls c)) ++ (List.range 5).map (fun k => f 2 (mget 0 t.sev k)) ++
    [f 2 t.droop] ++ (List.range 16).map (fun k => f 2 (mget 0 t.tw k)) ++ (List.range 8).map (fun k => f 2 (mget 0 t.d2d k)) ++
    (List.range 16).map (fun k => f 2 (mget 0 t.slip k)) ++ [f 4 t.slipMax, f 2 t.portDown, (leBytes 2 0, false)]
  let flags := boolNat (fields.any Prod.snd) + 2 * boolNat t.domain + 4 * boolNat t.restart
  (leBytes 1 ty ++ leBytes 1 1 ++ leBytes 1 flags ++ leBytes 4 0 ++ fields.flatMap Prod.fst, s)

/-- The 256 bytes of a record with its SEQ, MARK and CRC. -/
def finishRec (body : List Byte) (seq : Nat) : List Byte :=
  let b := body.take 3 ++ leBytes 4 seq ++ body.drop 7
  [0xA5] ++ b ++ leBytes 4 (crc32c b)

/-! ### Writing (R560, R561) -/

/-- The permanent slot that is next in order. -/
def TmkSt.permNext (t : TmkSt) : Option Nat :=
  (List.range 1024).find? (fun n => t.perm.all (fun p => p.1 != n))

/-- The circulating slot to write: the first of a sector that holds records is erased first; slots that are not erased
are skipped. Answers the slot and whether its sector is to be erased. -/
def TmkSt.circNext (t : TmkSt) : Nat → Nat → Nat × Bool
  | 0, n => (n, true)
  | k + 1, n =>
    let n := n % 1280
    let sector := t.circ.filter (fun p => p.1 / 256 == n / 256)
    if n % 256 = 0 && sector.any (fun p => recOk p.2) then (n, true)
    else if t.circ.all (fun p => p.1 != n) then (n, false)
    else TmkSt.circNext t k (n + 1)

/-- One attempt at a slot; an injected error makes its readback fail, and the slot is torn. -/
def State.tmkTry (s : State) (area n : Nat) (bs : List Byte) : State × Bool :=
  let put := fun (s : State) (b : List Byte) =>
    { s with tm := if area = 1 then { s.tm with circ := minsert n b (merase s.tm.circ n), nextCirc := (n + 1) % 1280 }
      else { s.tm with perm := minsert n b (merase s.tm.perm n) } }
  match s.takeInjection clsTmk 0 1 with
  | some s => ((((put s (0xFF :: bs.drop 1)).count clsTmk 0 Ev.TMK_WRITE_RETRY 1).tmkErr 0 area n), false)
  | none => ((put s bs).count clsTmk 0 Ev.TMK_RECORDS 1, true)

/-- Where the next record goes: the permanent area while it has an unused slot, else the circulating one. -/
def State.tmkTarget (s : State) : Nat × Nat × State :=
  match s.tm.permNext with
  | some n => (0, n, s)
  | none =>
    let (n, wipe) := s.tm.circNext 1281 s.tm.nextCirc
    if wipe then
      (1, n, (s.count clsTmk 0 Ev.TMK_ERASES 1 |> fun s => { s with tm := { s.tm with circ := s.tm.circ.filter (fun p => p.1 / 256 != n / 256) } }))
    else (1, n, s)

/-- A record that found no slot is dropped and recorded. -/
def State.tmkDrop (s : State) : State :=
  let s := ((s.count clsTmk 0 Ev.TMK_RECORDS_DROPPED 1).tmkErr 3 0 0)
  s.rasRecord { cls := clsTmk, inst := 0, sev := Sev.recovered, kind := 3, info := [s.regWord clsTmk 0 0x120] } 0

/-- One attempt to write a record, and whether it succeeded. -/
def State.tmkOnce (s : State) (body : List Byte) : State × Bool :=
  let (area, n, s) := s.tmkTarget
  match s.tmkTry area n (finishRec body s.tm.seq) with
  | (s, true) => ({ s with tm := { s.tm with seq := (s.tm.seq + 1) % 2 ^ 32 } }, true)
  | (s, false) => (s, false)

/-- Up to three slots for one record; then it is dropped. -/
def State.tmkPut (s : State) (body : List Byte) : State :=
  let a := s.tmkOnce body
  if a.2 then a.1
  else
    let b := a.1.tmkOnce body
    if b.2 then b.1
    else
      let c := b.1.tmkOnce body
      if c.2 then c.1 else c.1.tmkDrop

/-- A record; one for the circulating area waits while a clear erases it (R568). -/
def State.tmkWrite (s : State) (body : List Byte) : State :=
  if s.tm.clearing.isSome && s.tm.permNext.isNone then { s with tm := { s.tm with waitRec := s.tm.waitRec ++ [body] } }
  else s.tmkPut body

/-! ### Intervals (R557) -/

def State.periodMin (s : State) : Nat :=
  let n := s.fld clsTmk 0 R.TMK_CFG_PERIOD_MIN
  if n = 0 then 1 else min 1440 n

/-- An interval opens; its accumulators start again. -/
def State.tmkOpen (s : State) (restart : Bool) : State :=
  { s with tm := { s.tm with cur := {
    openUs := s.us, period := s.periodMin, restart := restart, domain := s.ns.doms.any (fun d => d.2.st == 3) } } }

/-- The open interval closes with a record of a type. -/
def State.tmkClose (s : State) (ty : Nat) (next : Bool) : State :=
  if !s.tm.running then s
  else
    let (body, s) := s.tmkBody ty
    let s := s.tmkWrite body
    if next then s.tmkOpen false else { s with tm := { s.tm with running := false } }

/-- INTERVAL_CLOSE: the period of the open interval has passed. -/
def execIntervalClose (s : State) : Host.Outcome State Fault Refusal :=
  if s.tm.running && decide (s.tm.cur.openUs + s.tm.cur.period * 60000000 ≤ s.us) then .next (s.tmkClose 1 true) else .next s

/-! ### The start of the recorder (R562, R566) -/

/-- All five circulating sectors are erased (R564). -/
def State.eraseCirc (s : State) : State :=
  let s := s.count clsTmk 0 Ev.TMK_ERASES 5
  { s with tm := { s.tm with circ := [], nextCirc := 0 } }

def setDone (bs : List Byte) : List Byte := bs.set 1 0

/-- The scan of the flash areas when stage 2 ends. -/
def State.tmkStart (s : State) : State :=
  let open? := s.tm.ledger.find? (fun p => ledgerOk p.2 && p.2.getD 1 0 == 0xFF)
  let s := match open? with
    | some p =>
      let s := s.eraseCirc
      { s with tm := { s.tm with ledger := minsert p.1 (setDone p.2) (merase s.tm.ledger p.1) } }
    | none => s
  let good := fun (l : List (Nat × List Byte)) => (l.filter (fun p => recOk p.2)).map (fun p => (recSeq p.2, p.1))
  let last := (good s.tm.perm ++ good s.tm.circ).foldl (fun m p => max m (p.1 + 1)) 0
  let lastCirc := (good s.tm.circ).find? (fun p => p.1 + 1 == last)
  let s := { s with tm := { s.tm with
    seq := last, running := true, clearing := none, waitRec := []
    nextCirc := match lastCirc with | some p => (p.2 + 1) % 1280 | none => if open?.isSome then 0 else s.tm.nextCirc } }
  let bad := ((s.tm.perm.filter (fun p => !recOk p.2)).map (fun p => (0, p))) ++ ((s.tm.circ.filter (fun p => !recOk p.2)).map (fun p => (1, p)))
    ++ ((s.tm.ledger.filter (fun p => !ledgerOk p.2)).map (fun p => (2, p)))
  let s := bad.foldl (fun s b =>
    if b.2.2.getD 0 0 = 0xA5 then (s.count clsTmk 0 Ev.TMK_CORRUPT_FOUND 1).tmkErr 2 b.1 b.2.1
    else s.count clsTmk 0 Ev.TMK_TORN_FOUND 1) s
  s.tmkOpen false

/-! ### Clears (R564 to R566) -/

/-- The ledger entry of a clear, not done. -/
def State.ledgerEntry (s : State) (scope : Nat) (nonce : List Byte) : List Byte :=
  let seqs := ((s.tm.circ.filter (fun p => recOk p.2)).map (fun p => recSeq p.2))
  let last := seqs.foldl max 0
  let b := leBytes 1 scope ++ leBytes 1 0 ++ leBytes 4 (if seqs.isEmpty then 2 ^ 32 - 1 else last) ++ leBytes 4 seqs.length
    ++ leBytes 4 s.se.resets ++ leBytes 8 s.se.serial ++ (Config.sha384 nonce).take 16 ++ leBytes 8 s.us ++ List.replicate 12 0
  [0xA5, 0xFF] ++ b ++ leBytes 4 (crc32c b)

/-- Steps 1 to 4 of a clear begin; none when the ledger is full. `via` says what asked for it. -/
def State.tmkClear (s : State) (scope via : Nat) (nonce : List Byte) : Option State :=
  match (List.range 64).find? (fun n => s.tm.ledger.all (fun p => p.1 != n)) with
  | none => none
  | some n =>
    let e := s.ledgerEntry scope nonce
    let s := { s with tm := { s.tm with ledger := minsert n e (merase s.tm.ledger n), clearing := some n, clearVia := via } }
    some (if bit scope 1 then s.tmkOpen true else s)

/-- The erase of a clear has ended: DONE, the records that waited. -/
def State.clearDone (s : State) (n : Nat) : State :=
  let s := s.eraseCirc
  let ws := s.tm.waitRec
  let s := { s with tm := { s.tm with
    ledger := minsert n (setDone (flashAt s.tm.ledger 64 n)) (merase s.tm.ledger n), clearing := none, waitRec := [] } }
  ws.foldl (fun s b => s.tmkPut b) (s.count clsTmk 0 Ev.TMK_CLEARS 1)

/-! ### Reading over PLDM (R567, Table 20-4) -/

/-- TMK_STATE and TMK_SEQ as their registers read (Tables 20-7, 20-8). -/
def State.tmkStateWord (s : State) : Nat :=
  boolNat s.tm.clearing.isSome * 2 ^ 49 + boolNat s.tm.clearing.isSome * 2 ^ 48 + s.tm.ledger.length * 2 ^ 32 +
    s.tm.circValid * 2 ^ 16 + s.tm.perm.length
def State.tmkSeqWord (s : State) : Nat := s.se.resets % 2 ^ 32 * 2 ^ 32 + s.tm.seq % 2 ^ 32

/-- The Vemuco management processor answers PLDM beyond its boot ROM (R535, R557). -/
def State.pldmUp (s : State) : Bool := s.tm.running && !s.se.off

def pldmReply (code : Nat) (bs : List Byte) : OutMsg := { kind := outPldm, a := code, data := bs }

/-- GetTidemarkInfo. -/
def execGetTidemarkInfo (s : State) : Host.Outcome State Fault Refusal :=
  if s.pldmUp then .next (s.emit (pldmReply 0 (leBytes 8 s.tmkStateWord ++ leBytes 8 s.tmkSeqWord))) else .next s

/-- ReadTidemarkSlot. -/
def execReadTidemarkSlot (area slot : Nat) (s : State) : Host.Outcome State Fault Refusal :=
  if !s.pldmUp then .next s
  else if 2 ≤ area || (if area = 0 then 1024 else 1280) ≤ slot then .next (s.emit (pldmReply 2 []))
  else .next (s.emit (pldmReply 0 (leBytes 1 (s.tm.areaState area slot) ++ s.tm.areaBytes area slot)))

/-- ReadClearLedger. -/
def execReadClearLedger (entry : Nat) (s : State) : Host.Outcome State Fault Refusal :=
  if !s.pldmUp then .next s
  else if 64 ≤ entry then .next (s.emit (pldmReply 2 []))
  else .next (s.emit (pldmReply 0 (leBytes 1 (s.tm.areaState 2 entry) ++ s.tm.areaBytes 2 entry)))

end Sys2Proof.Machine
end

