-- ==== Sys2Proof/Machine/Retire.lean ====
section
/-! DEFINITION. Device lost, isolation of a compute die, die-to-die lane groups, leaks, and the commons' two copies
(R455, R513, R515, R520 to R525, R528). -/

namespace Sys2Proof.Machine

/-! ### Device lost (R455, R528) -/

/-- The device is lost: a FATAL record; every command that has started completes with DEVICE_LOST; the recorder closes its
interval. -/
def State.deviceLost (s : State) (kind : Nat) : State :=
  if s.ra.lost then s
  else
    let s := { s with ra := { s.ra with lost := true } }
    let s := s.rasRecord { cls := clsRas, inst := 0, sev := Sev.fatal, kind := kind } 0
    let s := (s.hs.cmds.filter Cmd.live).foldl (fun s k => s.fail k Sta.deviceLost Rsn.none 0) s
    s.tmkClose 2 true

/-! ### Isolation (R520) -/

/-- The logical die at a physical one. -/
def State.logicalDie (s : State) (p : Nat) : Option Nat := (s.se.ldie.find? (fun q => q.2 == p)).map Prod.fst

/-- The commands whose launches have blocks, placed or to place, on some cores, and those of a context that saves or
restores there. -/
def State.cmdsOn (s : State) (cs : List Nat) : List Cmd :=
  let on := fun (l : Launch) => s.cores.any (fun p => cs.contains p.1 && (p.2.blocks.any (fun b => b.2.launch == l) || p.2.waiting.any (fun w => w.launch == l)))
  let ls := (s.cores.filter (fun p => cs.contains p.1)).flatMap (fun p => p.2.blocks.map (fun b => b.2.launch) ++ p.2.waiting.map (fun w => w.launch))
  s.hs.cmds.filter (fun k => k.live && ls.any (fun l => on l && l.tide.isNone && l.cmd == k.seq))

/-- Every line of a slice as the homes leave it when some cores are gone: how many lost their owner. -/
def Slice.dropHolders (y : Slice) (cs : List Nat) : Slice × Nat :=
  let lost := fun (x : SLine) => match x.ownerOf with | some o => cs.contains o | none => false
  let n := (y.lines.filter (fun p => lost p.2)).length
  ({ y with lines := y.lines.map (fun p =>
      let x := p.2
      let x := if lost x then { x with valid := 15, dirty := 15, poison := 15 } else x
      (p.1, { x with dir := cs.foldl (fun d c => d.without c) x.dir })) }, n)

/-- The start-measured sections of the distance table are measured again (R580). -/
def State.remeasure (s : State) : State :=
  ({ s with measGen := (s.measGen + 1) % 2 ^ 16, measUs := s.us }).count clsDist 0 Ev.DIST_REMEASURE 1

/-- A compute die is isolated. A home counts each answer it awaits from one of its cores as NOTHELD (step 2): a core without a
line answers so, and the messages that its cores have deferred are answered so at once. -/
def State.isolateDie (s : State) (p : Nat) : State :=
  match s.logicalDie p with
  | none => s
  | some d =>
    let cs := (List.range 16).map (fun i => 16 * d + i)
    let doms := (s.ns.doms.filter (fun m => m.2.st != 0 && m.2.cores.any (fun c => cs.contains c))).map Prod.fst
    let s := doms.foldl (fun s m => s.abortDom m Sta.tideFault Rsn.domainAbort 0 none) s
    let ks := s.cmdsOn cs
    let s := ks.foldl (fun s k =>
      (s.evictAll (fun l => l.cmd == k.seq && l.tide.isNone)).fail k Sta.aborted Rsn.linkDown 0) s
    let r := s.slices.foldl (fun (r : State × Nat) q =>
      let (y, n) := (r.1.slice q.1).dropHolders cs
      (r.1.setSlice q.1 y, r.2 + n)) (s, 0)
    let waiting := cs.flatMap (fun c => (r.1.core c).l1.filterMap (fun l => l.2.deferred.map (fun m => (c, m))))
    let s := waiting.foldl (fun s p => s.answerI p.1 p.2) (cs.foldl (fun s c => s.setCore c {}) r.1)
    let s := (List.range 64).foldl (fun s v => cs.foldl (fun s c =>
      let w := c / 64
      let bits := s.fldN clsCove v R.COVE_CORES_n_CORE (8 * w)
      let s := if bits.testBit (c % 64) then s.setFldN clsCove v R.COVE_CORES_n_CORE (8 * w) (setBits bits (c % 64) (c % 64) 0) else s
      if (s.cove v).leaving.contains c then s.modCove v (fun x => { x with leaving := sdel c x.leaving }) else s) s) s
    let s := cs.foldl (fun s c => (s.mapCore c none).setK c R.CORE_MAP_LCORE 0x7FF) s
    let s := { s with
      ra := { s.ra with isolated := sadd p s.ra.isolated }
      se := { s.se with ldie := s.se.ldie.filter (fun q => q.1 != d), diemap := minsert p 4 (merase s.se.diemap p) }
      pw := { s.pw with sleep := s.pw.sleep.filter (fun q => !cs.contains q.1), d3 := merase s.pw.d3 p } }
    let a := s.retireAdd (retireEntry 2 p 0)
    let s := a.1.rasRecord {
      cls := clsRas, inst := 0, sev := Sev.contained, kind := if a.2 then Knd.retireListFull else Knd.other, count := r.2 } 0
    (s.mapChange).remeasure

/-! ### Die-to-die lane groups (R515) -/

/-- A lane group by number: bundle × 65536 + group of the bundle; bundles 0 to 79 serve compute dies, the others are mesh
links between shelf dies (log entry 31). -/
def groupBundle (g : Nat) : Nat := g / 65536
def State.lane (s : State) (g : Nat) : Lane := mget {} s.ra.lanes g
def State.modLane (s : State) (g : Nat) (f : Lane → Lane) : State := { s with ra := { s.ra with lanes := mset {} s.ra.lanes g (f (s.lane g)) } }
/-- The bucket of a lane. -/
def laneInst (g lane : Nat) : Nat := groupBundle g * 65536 + g % 65536 * 34 + lane

/-- Whether a group carries traffic: a compute die in use, or a mesh link. -/
def State.laneUp (s : State) (g : Nat) : Bool :=
  !(s.lane g).failed && (decide (80 ≤ groupBundle g) || (s.logicalDie (groupBundle g)).isSome)

/-- A group fails: its compute die is isolated, or the device is lost. -/
def State.groupFails (s : State) (g : Nat) : State :=
  let s := s.modLane g (fun l => { l with failed := true, training := false })
  if groupBundle g < 80 then s.isolateDie (groupBundle g) else s.deviceLost Knd.other

/-- D2D_FLIT: parity errors are charged to their lanes; a flit with a bad CRC is replayed, and after 8 replays the group
retrains. -/
def execD2dFlit (group : Nat) (crcOk : Bool) (lanes : List Nat) (s : State) : Host.Outcome State Fault Refusal :=
  if !s.laneUp group || (s.lane group).training then .next s
  else
    let s := lanes.foldl (fun s l => if 34 ≤ l then s else s.rasEvent {
      cls := clsRas, inst := 0, sev := Sev.corrected, kind := Knd.other, bcls := 3, binst := laneInst group l, weight := 1 } false) s
    if crcOk then .next (s.modLane group (fun l => { l with replays := 0 }))
    else
      let s := (s.count clsRas 0 Ev.RAS_D2D_REPLAY 1).tmk (fun t => { t with d2dNow := t.d2dNow + 1 })
      let n := (s.lane group).replays + 1
      .next (s.modLane group (fun l => if 8 ≤ n then { l with replays := 0, training := true } else { l with replays := n }))

/-- D2D_RETRAIN: the retrain of a group ends. -/
def execD2dRetrain (group : Nat) (ok : Bool) (s : State) : Host.Outcome State Fault Refusal :=
  if !(s.lane group).training then .next s
  else
    let s := s.count clsRas 0 Ev.RAS_D2D_RETRAIN 1
    let recent := s.now :: (s.lane group).times.filter (fun t => decide (s.now < t + 1000000000))
    let s := s.modLane group (fun l => { l with training := false, times := recent })
    .next (if !ok || 3 ≤ recent.length then s.groupFails group else s)

/-! ### Leaks (R513) -/

/-- BUCKET_LEAK: one leak period of a source's bucket. -/
def execBucketLeak (cls inst : Nat) (s : State) : Host.Outcome State Fault Refusal :=
  let b := s.bucket cls inst
  if 5 ≤ cls || b.perm then .next s
  else .next (s.setBucket cls inst { b with level := b.level - s.fldN clsRas 0 R.RAS_BKT_CFG_c_LEAK (8 * cls) })

/-! ### The two copies of the commons (R521 to R525) -/

/-- Primary and mirror addresses of a tile of the usable commons. -/
def State.tileAt (s : State) (t : Nat) : Nat × Nat :=
  let p := s.fld clsCove 64 R.COVE_FRAMES_FB * 2 ^ 31 + 4096 * t
  (p, p + (s.coveChans 64).length * 2 ^ 30)

def State.tilePoisoned (s : State) (pa : Nat) : Bool := (List.range 128).any (fun i => s.poisoned (pa + 32 * i))

/-- The retained seal of a tile. -/
def State.retained (s : State) (t : Nat) : Option Nat :=
  if s.ra.sealLoaded.contains t then (s.ra.seals.find? (fun p => p.1 == t)).map Prod.snd else none

def State.mirrored (s : State) : Bool := (s.cove 64).st == 2 && s.fld clsCove 64 R.COMMONS_CFG_MIRROR == 1

/-- A tile is poisoned: in the table, or by its stored marks when the table is full; recorded once (R525). -/
def State.poisonTile (s : State) (t : Nat) (kind : Nat) (bucket : Option Nat) : State :=
  let (p, m) := s.tileAt t
  let r := s.listTile p
  let s := if r.2 then r.1
    else (List.range 128).foldl (fun s i => (s.setPoison (p + 32 * i) true).setPoison (m + 32 * i) true) r.1
  (s.count clsRas 0 Ev.RAS_TILES_POISONED 1).rasEvent {
    cls := clsRas, inst := 0, sev := Sev.contained, kind := kind, addr := p, count := 128
    bcls := if bucket.isSome then 0 else 7, binst := bucket.getD 0, weight := if bucket.isSome then s.bucketHeavy 0 else 0 } false

/-- Bytes of a tile over the other copy, its stored marks cleared. -/
def State.copyTile (s : State) (src dst : Nat) : State :=
  ({ s with mem := s.mem.writeBytes dst (s.mem.readBytes src 4096) }).clearMarks dst 4096

/-- PRIMARY_REWRITE (R523): a primary that failed its seal is written again from its mirror and read back. `tile` is the
physical tile number; `readOk` says that the readback is correctable. -/
def execPrimaryRewrite (tile : Nat) (readOk : Bool) (s : State) : Host.Outcome State Fault Refusal :=
  if !s.ra.rewriting.contains tile then .next s
  else
    let done := fun (s : State) => { s with ra := { s.ra with rewriting := sdel tile s.ra.rewriting } }
    let list := fun (s : State) =>
      if 64 ≤ s.ra.badPrim.length then s else { s with ra := { s.ra with badPrim := sadd tile s.ra.badPrim } }
    let t := (4096 * tile - s.fld clsCove 64 R.COVE_FRAMES_FB * 2 ^ 31) / 4096
    let (p, m) := s.tileAt t
    let bs := s.mem.readBytes m 4096
    let matches_ := fun (b : List Byte) => match s.retained t with | some w => crc32c b == w | none => true
    if !s.mirrored then .next (done s)
    else if s.tilePoisoned m || !matches_ bs then .next (done s)
    else match s.putLines 0 p bs with
      | none => .next s
      | some s =>
        let s := (s.clearMarks p 4096).count clsRas 0 Ev.RAS_PRIMARY_REWRITE 1
        .next (done (if readOk then s else list s))

/-- Whether a COMMONS_LOAD or COMMONS_REPAIR covers a tile. -/
def State.tileCovered (s : State) (t : Nat) : Bool :=
  s.hs.cmds.any (fun k => (k.opcode == 0x15 || k.opcode == 0x16) && k.live &&
    decide (k.num 16 8 % 2 ^ 48 / 4096 ≤ t) && decide (t < k.num 16 8 % 2 ^ 48 / 4096 + k.num 24 4))

/-- Tiles of the usable commons. -/
def State.commonsTiles (s : State) : Nat := (s.coveChans 64).length * 2 ^ 30 / 4096

/-- A copy found uncorrectable is reported by its channel (R316). -/
def State.copyUe (s : State) (pa : Nat) : State :=
  match s.chanOf .commons pa with
  | none => s
  | some (ch, o) =>
    let (b, s) := s.draw 64
    s.hbmUe ch (o / 64 + b) true false

/-- A copy is rewritten from the other and read back; a readback that fails charges the channel and poisons the tile. -/
def State.rewriteCopy (s : State) (t src dst : Nat) (primary readOk : Bool) : State :=
  let s := (s.copyTile src dst).count clsRas 0 (if primary then Ev.RAS_PRIMARY_REWRITE else Ev.RAS_MIRROR_REWRITE) 1
  if readOk then s else s.poisonTile t Knd.commonsDiverge ((s.chanOf .commons dst).map Prod.fst)

/-- COMMONS_COMPARE (R524, Table 18-4): the scrubber compares its next tile. `uePrimary` and `ueMirror` say which copy was
uncorrectable, `readOk` that a copy written reads back. -/
def execCommonsCompare (tile : Nat) (uePrimary ueMirror readOk : Bool) (s : State) : Host.Outcome State Fault Refusal :=
  let (p, m) := s.tileAt tile
  if !s.mirrored || s.commonsTiles ≤ tile || s.fld clsRas 0 R.RAS_CSCRUB_PERIOD_H = 0 || s.tileCovered tile ||
      s.ra.rewriting.contains (p / 4096) || s.tileListed p then .next s
  else
    let upr := uePrimary || s.tilePoisoned p
    let umi := ueMirror || s.tilePoisoned m
    let a := s.mem.readBytes p 4096
    let b := s.mem.readBytes m 4096
    let sealed := s.retained tile
    let fits := fun (x : List Byte) => match sealed with | some w => crc32c x == w | none => false
    let s := if uePrimary then s.copyUe p else s
    let s := if ueMirror then s.copyUe m else s
    let s := { s with ra := { s.ra with scrubPos := (tile + 1) % s.commonsTiles } }
    let s := s.count clsRas 0 Ev.RAS_CSCRUB_TILES 1
    let s := if tile + 1 = s.commonsTiles then s.setFld clsRas 0 R.RAS_CSCRUB_PASS_DONE 1 else s
    let note := fun (s : State) (at_ : Nat) => s.rasRecord {
      cls := clsRas, inst := 0, sev := Sev.recovered, kind := Knd.commonsDiverge, addr := at_
      info := [((List.range 4096).find? (fun i => a.getD i 0 != b.getD i 0)).getD 0] } 0
    .next (match upr, umi with
      | true, true => s.poisonTile tile Knd.commonsDiverge none
      | true, false => if sealed.isNone || fits b then s.rewriteCopy tile m p true readOk else s.poisonTile tile Knd.commonsDiverge none
      | false, true => if sealed.isNone || fits a then s.rewriteCopy tile p m false readOk else s.poisonTile tile Knd.commonsDiverge none
      | false, false =>
        if a == b then s
        else if fits a && !fits b then (note s m).rewriteCopy tile p m false readOk
        else if fits b && !fits a then (note s p).rewriteCopy tile m p true readOk
        else s.poisonTile tile Knd.commonsDiverge none)

end Sys2Proof.Machine
end

