-- ==== Sys2Proof/Machine/Power.lean ====
section
/-! DEFINITION. The power controller: polls, the cap, excursions, throttling, swell hints, sleep, droop, temperature and
input voltage (spec/17_power_and_sleep.md). Frequencies are in quarter MHz. -/

namespace Sys2Proof.Machine

/-! ### The cap and the stages (R494 to R496) -/

/-- PWR_CAP as it acts (Table 17-5): watts, seconds. -/
def State.capReg (s : State) : Nat := min 7200 (max 3000 (s.fld clsPwr 0 R.PWR_CAP_CAP_W))
def State.winReg (s : State) : Nat := min 60 (max 1 (s.fld clsPwr 0 R.PWR_CAP_WINDOW_S))

/-- The effective cap (R508): below 40 V, at most VIN × 180 A. -/
def State.capNow (s : State) : Nat :=
  if s.pw.vin ≠ 0 && s.pw.vin < 40000 then min s.pw.capW (s.pw.vin * 180 / 1000) else s.pw.capW

/-- How far the controller has throttled: clock steps, then gating, then pacing; 168 is every stage at its limit. -/
def PwrSt.level (p : PwrSt) : Nat := (7200 - p.clock4) / 25 + (16 - p.gate) + (16 - p.pace)
def levelMax : Nat := 168
def levelClock (l : Nat) : Nat := 7200 - 25 * min l 144
def levelGate (l : Nat) : Nat := 16 - min 12 (l - 144)
def levelPace (l : Nat) : Nat := 16 - min 12 (l - 156)

/-- PWR_STATUS.STAGE. -/
def PwrSt.stage (p : PwrSt) : Nat := if p.pace < 16 then 3 else if p.gate < 16 then 2 else if p.clock4 < 7200 then 1 else 0

/-- Every island takes a clock, gating and pacing. -/
def State.applyClock (s : State) (c g p : Nat) : State :=
  let s := if c ≠ s.pw.clock4 then s.count clsPwr 0 Ev.PWR_CLOCK_CHANGES 1 else s
  s.setPw (fun w => { w with clock4 := c, gate := g, pace := p, want4 := c, wantGate := g, wantPace := p })

/-- Throttle at once; by how much is free. -/
def State.throttleUp (s : State) : State :=
  let l := s.pw.level
  let s := s.setPw (fun w => { w with throttling := true })
  if levelMax ≤ l then s
  else
    let (n, s) := s.draw (levelMax - l)
    s.applyClock (levelClock (l + 1 + n)) (levelGate (l + 1 + n)) (levelPace (l + 1 + n))

/-- An event of PWR_ERR (Table 17-10). -/
def State.pwrErr (s : State) (kind info : Nat) : State :=
  s.record clsPwr 0 4 R.PWR_ERR_VALID [(R.PWR_ERR_KIND, kind), (R.PWR_ERR_INFO, info)]

/-! ### Shutdown (R508, R528) -/

/-- The regulators shut down: the device is lost, no record of the open interval is written. -/
def State.shutdown (s : State) : State :=
  let s := { s with tm := { s.tm with running := false } }
  let s := s.deviceLost Knd.other
  { s with se := { s.se with off := true, tripped := true, powerOk := false }, pw := { s.pw with off := true } }

/-! ### Polls (R492, R493) -/

/-- Consecutive polls a converter has missed. -/
def PwrSt.missed (p : PwrSt) (i : Nat) : Nat := mget 0 p.silent i

/-- The reading of a converter: its answer, its last reading after one miss, its rated maximum from the second miss on. -/
def PwrSt.reading (p : PwrSt) (i : Nat) (r : Option Nat) : Nat :=
  match r with
  | some w => w
  | none => if p.missed i = 0 then ((p.polls.headD []).getD i 1150) else 1150

/-- PMBUS_POLL: the eight converters, VIN and the island rails. -/
def execPmbusPoll (pins : List (Option Nat)) (vinMv : Nat) (rails : List (Nat × Nat)) (s : State) : Host.Outcome State Fault Refusal :=
  if s.se.off then .next s
  else
    let ins := (List.range 8).map (fun i => (i, (pins.getD i none)))
    let now := ins.map (fun p => s.pw.reading p.1 p.2)
    let s := ins.foldl (fun s p => match p.2 with
      | some _ => s.setPw (fun w => { w with silent := merase w.silent p.1 })
      | none =>
        let n := s.pw.missed p.1 + 1
        let s := s.setPw (fun w => { w with silent := mset 0 w.silent p.1 n })
        let s := if 2 ≤ n then s.count clsPwr 0 Ev.PWR_PMBUS_MISS 1 else s
        if n = 400 then
          let (a, s) := s.draw 128
          let s := s.pwrErr 1 (p.1 / 2 * 256 + a)
          s.rasEvent { cls := clsPwr, inst := 0, sev := Sev.recovered, kind := 1, info := [s.regWord clsPwr 0 0x140] } false
        else s) s
    let low := s.pw.vin ≠ 0 && s.pw.vin < 40000
    let out := vinMv < 38000 || 62000 < vinMv
    let s := s.setPw (fun w => { w with
      polls := (now :: w.polls).take 4, vin := vinMv, vinOutMs := if out then w.vinOutMs + 1 else 0 })
    let s := if vinMv < 40000 && !low then s.pwrErr 2 vinMv else s
    let worst := rails.foldl (fun (m : Nat × Nat) r => if r.2 < m.2 then r else m) (0, 65535)
    let s := s.tmk (fun t =>
      let t := { t with vinMin := min t.vinMin vinMv }
      if worst.2 < t.railMin then { t with railMin := worst.2, railIsl := worst.1 } else t)
    let sum := now.foldl (fun a b => a + b) 0
    if 5 * s.capNow < 4 * sum && !s.pw.hard then
      .next (((s.count clsPwr 0 Ev.PWR_HARD_CLAMP 1).setPw (fun w => { w with hard := true })).throttleUp)
    else .next s

/-! ### Swell (R500 to R502) -/

/-- Table 17-2: clock, rail in mV, k in thousandths. -/
def clockTable : List (Nat × Nat × Nat) :=
  [(7200, 750, 1000), (7125, 746, 980), (7100, 745, 973), (6400, 710, 797), (5600, 670, 621), (4800, 630, 470), (3600, 600, 320)]

/-- The rows about a clock. -/
def bracket : List (Nat × Nat × Nat) → Nat → (Nat × Nat) × (Nat × Nat)
  | a :: b :: l, f => if b.1 ≤ f then ((a.1, a.2.1), (b.1, b.2.1)) else bracket (b :: l) f
  | _, _ => ((3600, 600), (3600, 600))

/-- k(f) as a fraction: the table's figure, else its formula with the rail interpolated. -/
def kOf (f : Nat) : Nat × Nat :=
  match clockTable.find? (fun r => r.1 == f) with
  | some r => (r.2.2, 1000)
  | none =>
    let (a, b) := bracket clockTable f
    let d := a.1 - b.1
    let v := b.2 * d + (f - b.1) * (a.2 - b.2)
    (f * (v * v), 7200 * 750 * 750 * (d * d))

/-- Energy of the newest `n` ms, in W ms. -/
def energyOf (ms : List Nat) (n : Nat) : Nat := (ms.take n).foldl (fun a b => a + b) 0

/-- Running sums of a list, from none of it to all of it. -/
def runSums : List Nat → Nat → List Nat
  | [], a => [a]
  | x :: l, a => a :: runSums l (a + x)

/-- Whether a phase of `d` watts and `us` µs keeps every window that ends during it within the cap, at a clock. -/
def State.phaseFits (s : State) (d us f : Nat) : Bool :=
  let (n, m) := kOf f
  let p := d * (256 * m) - d * s.fld clsPwr 0 R.PWR_CTL_CORE_SHARE * (m - n)
  let w := 1000 * s.winReg
  let sums := (runSums s.pw.ms 0).toArray
  let last := sums.size - 1
  let t := min w ((us + 999) / 1000)
  (List.range t).all (fun i =>
    let k := i + 1
    decide (p * k + sums.getD (min last (w - k)) 0 * (256 * m) ≤ s.capReg * w * (256 * m)))

/-- The highest clock, from a given one down, at which a phase fits. -/
def State.swellClock (s : State) (d us : Nat) : Nat → Nat → Option Nat
  | 0, _ => none
  | k + 1, f => if f < 3600 then none else if s.phaseFits d us f then some f else s.swellClock d us k (f - 25)

/-- A swell hint that is not ignored: its RESULT (R500, R502). -/
def State.swellHint (s : State) (x lev us : Nat) : Nat × State :=
  let d := 32 * lev
  match s.pw.swell with
  | some w =>
    let d' := max d w.levelW
    let u' := max us w.remainUs
    if s.phaseFits d' u' w.mhz then
      (w.mhz / 4, (s.count clsPwr 0 Ev.PWR_SWELL_ACCEPT 1).setPw (fun p => { p with swell := some { w with levelW := d', remainUs := u' } }))
    else (0, s.count clsPwr 0 Ev.PWR_SWELL_DECLINED 1)
  | none =>
    match s.swellClock d us 145 s.pw.clock4 with
    | none => (0, s.count clsPwr 0 Ev.PWR_SWELL_DECLINED 1)
    | some f =>
      let s := s.count clsPwr 0 (if f = s.pw.clock4 then Ev.PWR_SWELL_ACCEPT else Ev.PWR_SWELL_REDUCED) 1
      (f / 4, s.setPw (fun p => { p with
        swell := some { levelW := d, remainUs := us, mhz := f, ctx := x }, breakMs := 0, want4 := f, wantGate := 16, wantPace := 16 }))

def hintBody (k : Cmd) : Body :=
  { allowed := fieldBits [(71, 64), (79, 72), (127, 96)], range := [(8, decide (k.byte 8 ≤ 1))], lens := [(12, 4)] }

/-- HINT (R452, R500, R503). -/
def execHint (ctx q idx : Nat) (s : State) : Host.Outcome State Fault Refusal :=
  match s.turn ctx q idx 0x24 with
  | .first k => .next (s.validated k (hintBody k) (fun s k =>
      let us := k.num 12 4
      if us = 0 then s.complete k 0 0 0 true
      else if k.byte 8 = 1 then
        s.runNow k 0 |>.setPw (fun p => { p with idleHint := mset 0 p.idleHint (s.coveOf ctx) (s.now + 1000 * us) })
      else if s.fld clsPwr 0 R.PWR_CTL_SWELL_EN = 0 || ((s.fnOf ctx).isSome && s.fld clsPwr 0 R.PWR_CTL_SWELL_VF = 0) then s.runNow k 0
      else if k.byte 9 = 0 then (s.setPw (fun p => { p with swell := none, breakMs := 0 })).runNow k 0
      else
        let r := s.swellHint ctx (k.byte 9) us
        r.2.runNow k r.1))
  | _ => .next s

/-- A commitment is broken (R501, R502). -/
def State.swellBroken (s : State) (recorded : Bool) : State :=
  match s.pw.swell with
  | none => s
  | some w =>
    let s := (s.count clsPwr 0 Ev.PWR_SWELL_BROKEN 1).setPw (fun p => { p with swell := none, breakMs := 0 })
    if recorded then s.pwrErr 4 w.ctx else s

/-- SWELL_END: the committed phase has lasted its time. -/
def execSwellEnd (s : State) : Host.Outcome State Fault Refusal :=
  match s.pw.swell with
  | some w => if w.remainUs = 0 then .next (s.setPw (fun p => { p with swell := none, breakMs := 0 })) else .next s
  | none => .next s

/-! ### The millisecond (R494 to R497, R501, R508) -/

/-- 1 ms power: the mean of the last four sums. -/
def PwrSt.msPower (p : PwrSt) : Nat :=
  let l := p.polls.map (fun r => r.foldl (fun a b => a + b) 0)
  if l.isEmpty then 0 else l.foldl (fun a b => a + b) 0 / l.length

/-- Mean power over the last window. -/
def State.windowMean (s : State) : Nat := energyOf s.pw.ms (1000 * s.pw.capWin) / (1000 * s.pw.capWin)

/-- A write of PWR_CAP takes effect; a committed swell is checked again. -/
def State.takeCap (s : State) : State :=
  if s.pw.capW = s.capReg && s.pw.capWin = s.winReg then s
  else
    let s := s.setPw (fun p => { p with capW := s.capReg, capWin := s.winReg })
    match s.pw.swell with
    | some w => if s.phaseFits w.levelW w.remainUs w.mhz then s else s.swellBroken false
    | none => s

/-- Excursions above the target and the throttling they bring. -/
def State.excursion (s : State) (p : Nat) : State :=
  let target := match s.pw.swell with | some w => max s.capNow w.levelW | none => s.capNow
  if p ≤ target then
    let s := s.setPw (fun w => { w with excOn := false, excMs := 0, hard := false, throttling := false })
    if s.capNow < s.windowMean then s.throttleUp
    else
      match s.pw.swell with
      | some w => s.setPw (fun q => { q with want4 := w.mhz, wantGate := 16, wantPace := 16 })
      | none =>
        let (n, s) := s.draw (s.pw.level + 1)
        s.setPw (fun w => { w with want4 := levelClock n, wantGate := levelGate n, wantPace := levelPace n })
  else
    let s := if s.pw.excOn then s else s.count clsPwr 0 Ev.PWR_EXCURSIONS 1
    let n := s.pw.excMs + 1
    let s := s.setPw (fun w => { w with excOn := true, excMs := n, hard := w.hard && decide (5 * s.capNow < 4 * p) })
    let s := if n = 20 then s.count clsPwr 0 Ev.PWR_EXC_CLAMP 1 else s
    if 20 ≤ n || s.pw.throttling || s.capNow < s.windowMean then s.throttleUp else s

/-- R497: the window mean above the cap with every stage at its limit. -/
def State.capUnmet (s : State) : State :=
  if s.capNow < s.windowMean && s.pw.level = levelMax then
    let n := s.pw.unmetMs + 1
    let s := s.setPw (fun w => { w with unmetMs := n })
    if n < 1000 then s
    else
      let s := s.count clsPwr 0 Ev.PWR_CAP_UNMET_MS 1
      if n = 1000 then (s.pwrErr 0 s.windowMean).raiseVector none 0 else s
  else s.setPw (fun w => { w with unmetMs := 0 })

/-- R501: a declared power exceeded for 20 ms; the time left. -/
def State.swellMs (s : State) (p : Nat) : State :=
  match s.pw.swell with
  | none => s
  | some w =>
    let n := if w.levelW < p then s.pw.breakMs + 1 else 0
    let s := s.setPw (fun q => { q with breakMs := n, swell := some { w with remainUs := w.remainUs - 1000 } })
    if 20 ≤ n then s.swellBroken true else s

/-- R508: dies above 100 °C lose 50 MHz a millisecond; one above 110 °C for 1 ms shuts the module down. -/
def State.thermalMs (s : State) : State :=
  let s := s.pw.therm.foldl (fun s t =>
    (s.count clsPwr (1 + t.1) Ev.PWR_THERM_CLAMP_MS 1).setPw (fun w => { w with therm := minsert t.1 (min 7200 (t.2 + 200)) (merase w.therm t.1) })) s
  let hot := s.pw.temps.filter (fun t => decide (110 < t.2) && decide (t.1 < 80))
  let tooHot := hot.any (fun t => mget 0 s.pw.thermMs t.1 = 1)
  let s := s.setPw (fun w => { w with thermMs := hot.map (fun t => (t.1, 1)) })
  if tooHot then s.shutdown else s

/-- Time slept, and the recorder's samples of the millisecond (R511, R559). -/
def State.msSamples (s : State) (p : Nat) : State :=
  let s := s.pw.sleep.foldl (fun s c => s.count clsPwr (1 + s.dieOf c.1) Ev.PWR_SLEEP_US 1000) s
  let sec := s.us / 1000000 + 1
  let high := fun (l : List (Nat × Nat)) (i v : Nat) => mset 0 l i (max v (mget 0 l i))
  s.tmk (fun t =>
    let t := { t with peakW := max t.peakW p, energyMs := t.energyMs + p }
    let t := if s.pw.stage ≠ 0 && t.throttleAt ≠ sec then { t with throttleS := t.throttleS + 1, throttleAt := sec } else t
    { t with
      tempP := (s.pw.temps.filter (fun q => decide (q.1 < 80))).foldl (fun l q => high l q.1 q.2) t.tempP
      tempS := (s.pw.temps.filter (fun q => decide (80 ≤ q.1))).foldl (fun l q => high l (q.1 - 80) q.2) t.tempS })

/-- POWER_MS: a millisecond boundary. -/
def execPowerMs (s : State) : Host.Outcome State Fault Refusal :=
  if s.se.off then .next s
  else
    let s := s.takeCap
    let p := s.pw.msPower
    let s := s.setPw (fun w => { w with ms := (p :: w.ms).take 60000, peak := max w.peak p })
    let s := ((s.swellMs p).excursion p).capUnmet
    let s := if s.pw.stage ≠ 0 then s.count clsPwr 0 Ev.PWR_THROTTLE_MS 1 else s
    .next ((s.msSamples p).thermalMs)

/-- CLOCK_CHANGE (R498): levels wanted take effect at once, or while a domain runs at a multiple of its longest window. -/
def execClockChange (s : State) : Host.Outcome State Fault Refusal :=
  let w := ((s.ns.doms.filter (fun d => d.2.st == 3)).map (fun d => d.2.window)).foldl max 1
  let p := s.pw
  if s.se.off || p.throttling || s.ns.tick % w ≠ 0 || (p.want4 = p.clock4 && p.wantGate = p.gate && p.wantPace = p.pace) then .next s
  else .next (s.applyClock p.want4 p.wantGate p.wantPace)

/-! ### Droop (R499) -/

/-- DROOP: a core island (1 to 80) or network/shelf island (81 to 96) stretches. -/
def execDroop (island : Nat) (s : State) : Host.Outcome State Fault Refusal :=
  if island = 0 || 96 < island || s.pw.droop.contains island then .next s
  else .next (((s.setPw (fun w => { w with droop := sadd island w.droop })).count clsPwr island Ev.PWR_DROOP_EVENTS 1).tmk (fun t => { t with droop := t.droop + 1 }))

/-- DROOP_END: after at least HOLD_CYC cycles. -/
def execDroopEnd (island cycles : Nat) (s : State) : Host.Outcome State Fault Refusal :=
  if !s.pw.droop.contains island || cycles < max 1 (s.fld clsPwr island R.ISL_DROOP_HOLD_CYC) then .next s
  else .next ((s.setPw (fun w => { w with droop := sdel island w.droop })).count clsPwr island Ev.PWR_DROOP_CYCLES cycles)

/-! ### Temperature and input voltage (R508) -/

/-- THERMAL: a temperature reading of a physical compute die, or of shelf die S as 80 + S. -/
def execThermal (die temp : Nat) (s : State) : Host.Outcome State Fault Refusal :=
  if 96 ≤ die || s.se.off then .next s
  else
    let on := s.pw.therm.any (fun t => t.1 == die)
    let s := s.setPw (fun w => { w with temps := mset 0 w.temps die (min 255 temp) })
    if 80 ≤ die then .next s
    else if 100 < temp && !on then .next ((s.setPw (fun w => { w with therm := minsert die 0 w.therm })).pwrErr 3 die)
    else if temp ≤ 97 then .next (s.setPw (fun w => { w with therm := merase w.therm die }))
    else .next s

/-- VIN_SHUTDOWN: the input has been out of range for 1 ms, four polls. -/
def execVinShutdown (s : State) : Host.Outcome State Fault Refusal :=
  if s.se.off || s.pw.vinOutMs < 4 then .next s else .next s.shutdown

/-! ### Sleep (R503 to R507) -/

def State.sleepOf (s : State) (c : Nat) : Sleep := mget {} s.pw.sleep c
def State.setSleep (s : State) (c : Nat) (x : Sleep) : State := s.setPw (fun w => { w with sleep := mset {} w.sleep c x })

/-- R504: a core that holds no block, or whose groups all wait on arrivals or barriers with nothing under way. -/
def State.coreIdle (s : State) (c : Nat) : Bool :=
  let k := s.core c
  k.blocks.isEmpty || (k.groups.all (fun g => !g.2.occupied || g.2.hold.sleeps) && k.mxq.isEmpty && k.elq.isEmpty && k.miss.isEmpty && k.ops.isEmpty)

/-- The time to the next known event that the idle hint gives (R503), in ns. -/
def State.hintNs (s : State) (c : Nat) : Option Nat :=
  if !(s.core c).blocks.isEmpty then none
  else match s.coreOwner c with
    | none => none
    | some v => let t := mget 0 s.pw.idleHint v
      if s.now < t then some (t - s.now) else none

/-- The earliest of some times. -/
def earliest (l : List (Option Nat)) : Option Nat :=
  l.foldl (fun r t => match r, t with
    | some a, some b => some (min a b)
    | some a, none => some a
    | none, t => t) none

/-- The time to the earliest planned land tick, after the present tick, of the core's domain on the core, in ns; a reference
cycle takes 0.5 ns. -/
def State.planNs (s : State) (c : Nat) : Option Nat :=
  match s.coreDom c with
  | none => none
  | some n =>
    let d := s.dom n
    let left := fun (p : Nat × Nat) => (p.2 : Int) - s.progTick d
    if d.st ≠ 3 then none
    else earliest ((d.plans.filter (fun p => p.1 == c && decide (0 < left p))).map (fun p => some (((left p).toNat * 256 - s.ns.phase) / 2)))

/-- The times that `sleep.hint` gave for the holds that the core's groups are in, in ns from now. -/
def State.sleepHintNs (s : State) (c : Nat) : Option Nat :=
  earliest ((s.pw.hint.filter (fun h => h.1 == c && (s.group c h.2.1).hinted == 2)).map (fun h => some (h.2.2 - s.now)))

/-- The next known event that the module's state gives a core, in ns from now (R504): now, where blocks wait to be placed on
it. -/
def State.eventNs (s : State) (c : Nat) : Option Nat :=
  earliest [if (s.core c).waiting.isEmpty then none else some 0, s.planNs c, s.sleepHintNs c, s.hintNs c]

/-- The deepest state whose threshold lies below the time to the next event; 4 stands for C3 in a die that may enter D3. -/
def State.sleepState (s : State) (next : Option Nat) : Nat :=
  let f := fun (r : Fld) (unit : Nat) =>
    let v := s.fld clsPwr 0 r
    v ≠ 0 && (match next with | none => true | some n => decide (v * unit < n))
  let m := min 4 (s.fld clsPwr 0 R.PWR_SLEEP_CTL_MAX_STATE)
  if 4 ≤ m && f R.PWR_SLEEP_THR_D3_THR 100000 then 4
  else if 3 ≤ m && f R.PWR_SLEEP_THR_C3_THR 1000 then 3
  else if 2 ≤ m && f R.PWR_SLEEP_THR_C2_THR 100 then 2
  else if 1 ≤ m && f R.PWR_SLEEP_THR_C1_THR 10 then 1
  else 0

/-- The logical cores of a core's die. -/
def dieCores (c : Nat) : List Nat := (List.range 16).map (fun i => c / 16 * 16 + i)

/-- R507: whether a core's state lets its die enter D3. -/
def State.d3Ready (s : State) (c : Nat) : Bool := (s.sleepOf c).st == 4 && !(s.sleepOf c).exit && (s.core c).blocks.isEmpty && !s.reservedFor c none

/-- What a core loses in C3 (Table 17-3), its L1 already evicted. -/
def State.emptyL1 (s : State) (c : Nat) : State :=
  s.modCore c (fun k => { k.dropReadOnly with l1 := [], tlb := [], utlb := [], walkCache := [], pred := [] })

/-- SLEEP_ENTRY: an idle core sleeps as deep as its next known event allows: the earliest of R504, and `nextNs`, the time in ns
to an event that the module's state does not give (a landing planned on another module), none when there is none. A core that is to lose its L1 evicts it first, and sleeps once
the Puts have been acknowledged. -/
def execSleepEntry (core : Nat) (nextNs : Option Nat) (s : State) : Host.Outcome State Fault Refusal :=
  let old := (s.sleepOf core).st
  let next := earliest [nextNs, s.eventNs core]
  let n := s.sleepState next
  if !s.activeCore core || !s.coreIdle core || n ≤ old || (s.sleepOf core).exit || (decide (3 ≤ n) && !s.coreQuiet core) then .next s
  else if 3 ≤ n && !(s.core core).heldLines.isEmpty then
    .next (((s.core core).evictable (s.core core).heldLines).foldl (fun s l => s.evictLine core l) s)
  else
    let isl := 1 + s.dieOf core
    let s := if 3 ≤ n then s.emptyL1 core else s
    let s := s.count clsPwr isl (if n = 1 then Ev.PWR_C1_ENTRY else if n = 2 then Ev.PWR_C2_ENTRY else Ev.PWR_C3_ENTRY) (boolNat (!(old == 3 && n == 4)))
    let planned := next.isSome && s.planNs core == next
    let s := s.setSleep core { st := n, planned := planned, wakeAt := next.map (fun t => s.now + t) }
    let cs := dieCores core
    if cs.all s.d3Ready then
      let s := cs.foldl (fun s c => s.modCore c (fun k => { k with sp := [], spPoison := [], spGhost := [] })) s
      .next ((s.setPw (fun w => { w with d3 := mset 0 w.d3 (s.dieOf core) 1 })).count clsPwr isl Ev.PWR_D3_ENTRY 1)
    else .next s

/-- The exit of a core begins; a die in D3 leaves it. -/
def State.beginExit (s : State) (c : Nat) : State :=
  let x := s.sleepOf c
  let s := s.setSleep c { x with exit := true }
  let p := s.dieOf c
  if mget 0 s.pw.d3 p = 1 then s.setPw (fun w => { w with d3 := mset 0 w.d3 p 2 }) else s

/-- R506: one of its events reaches a sleeping core. -/
def State.wake (s : State) (core : Nat) : State :=
  let x := s.sleepOf core
  if x.st = 0 || x.exit then s
  else
    let early := match x.wakeAt with | none => true | some t => decide (s.now < t)
    let s := if early then s.count clsPwr (1 + s.dieOf core) Ev.PWR_EARLY_WAKE 1 else s
    s.beginExit core

/-- WAKE: an event of R506. -/
def execWake (core : Nat) (s : State) : Host.Outcome State Fault Refusal := .next (s.wake core)

/-- PREWAKE: the exit begins one exit time before an event of the tide schedule. -/
def execPrewake (core : Nat) (s : State) : Host.Outcome State Fault Refusal :=
  let x := s.sleepOf core
  if x.st = 0 || x.exit || !x.planned || s.fld clsPwr 0 R.PWR_CTL_PREWAKE = 0 then .next s else .next (s.beginExit core)

/-- SLEEP_EXIT_END: the exit has taken its time. The other cores of a die that left D3 are in C3. -/
def execSleepExitEnd (core : Nat) (s : State) : Host.Outcome State Fault Refusal :=
  if !(s.sleepOf core).exit then .next s
  else
    let p := s.dieOf core
    let s := s.setSleep core {}
    if mget 0 s.pw.d3 p = 2 then
      let s := (dieCores core).foldl (fun s c => if (s.sleepOf c).st = 4 then s.setSleep c { s.sleepOf c with st := 3 } else s) s
      .next (s.setPw (fun w => { w with d3 := merase w.d3 p }))
    else .next s

end Sys2Proof.Machine
end

