-- ==== Sys2Proof/Machine/Host.lean ====
section
/-! DEFINITION. The host's side of the edge ports: BAR4, host completions, address translation, configuration, interrupts
by time and by unmasking, link loss and function-level reset, and DISTANCES (R426 to R431, R452, R456 to R458, R534, R580, R581). -/

namespace Sys2Proof.Machine

/-! ### BAR4 (R430, R431) -/

/-- The physical address behind an offset of a function's BAR4 through a port: the PF's and a secondary port's base, or
the cove's frames. -/
def State.bar4Pa (s : State) (port : Nat) (vf : Option Nat) (off : Nat) : Option Nat :=
  match vf with
  | none => if off < 2 ^ s.hs.bar4Log then some (s.fld clsEdge port R.EDGE_BAR4_BASE * 2 ^ 31 + off) else none
  | some c =>
    if s.primary == some port && s.vfOn c && off < 2 ^ s.hs.vfBar4Log then some (s.fld clsCove c R.COVE_FRAMES_FB * 2 ^ 31 + off) else none

/-- Whether a HOST port takes host requests now. -/
def State.hostPortUp (s : State) (port : Nat) : Bool :=
  s.fld clsEdge port R.EDGE_STATE_ROLE == 1 && (s.edge port).up && !s.se.off && !s.se.recovery

/-- Whether a function reaches every byte of a piece: mapped frames only, a VF only its own cove's. -/
def State.bar4Mapped (s : State) (vf : Option Nat) (pa : Nat) : Bool :=
  match region pa with
  | .hbm f => s.mapped pa && (match vf with | none => true | some c => (s.cove c).st == 2 && s.ownFrame c f)
  | _ => false

/-- The pieces of a BAR4 access, or none where one of them is refused (R431). -/
def State.bar4Pieces (s : State) (port : Nat) (vf : Option Nat) (off n : Nat) (wr : Bool) : Option (List (Nat × Nat)) :=
  match s.bar4Pa port vf off, s.bar4Pa port vf (off + n - 1) with
  | some a, some _ =>
    let l := cut a n
    if l.all (fun p => s.bar4Mapped vf p.1 && !(wr && (s.isCommons p.1 || s.isMgmt p.1))) then some l else none
  | _, _ => none

/-- One SnoopRd per line of a host read. -/
def State.bar4Gather (s : State) : List (Nat × Nat) → Rd
  | [] => .ok [] false
  | (a, n) :: l => (s.paRead 0 a n).then (fun _ => s.bar4Gather l)

/-- BAR4_READ: answered with the bytes and their poison mark, or with Unsupported Request. -/
def execBar4Read (port : Nat) (vf : Option Nat) (off bytes rid : Nat) (s : State) : Host.Outcome State Fault Refusal :=
  if !s.hostPortUp port || bytes = 0 || 4096 < bytes then .next s
  else
    let s' := s.count clsEdge port Ev.EDGE_BAR4_READ 1
    match s.bar4Pieces port vf off bytes false with
    | none => .next (s'.emit { kind := outUnsupported, a := rid, b := off })
    | some l => match s.bar4Gather l with
      | .ok bs p => .next ((l.foldl (fun s p => s.noteRead (0x620 + port) 0 p.1 p.2) s').emit
          { kind := outBar4, a := rid, b := boolNat p, data := bs })
      | .wait => .next s
      | .ghost => .next ((l.foldl (fun s p => s.noteRead (0x620 + port) 0 p.1 p.2) s').emit { kind := outUnsupported, a := rid, b := off })
      | _ => .next (s'.emit { kind := outUnsupported, a := rid, b := off })

/-- R459: an EDGE_ERR event of a port. -/
def State.edgeErr (s : State) (port kind rid info : Nat) : State :=
  s.record clsEdge port (if kind = 2 ∨ kind = 3 then 1 else 2) R.EDGE_ERR_VALID
    [(R.EDGE_ERR_KIND, kind), (R.EDGE_ERR_RID, rid), (R.EDGE_ERR_INFO, info % 2 ^ 32)]

/-- BAR4_WRITE: an AtomFar WRITE per line; a refused one is dropped and recorded. -/
def execBar4Write (port : Nat) (vf : Option Nat) (off : Nat) (data : List Byte) (rid : Nat) (s : State) : Host.Outcome State Fault Refusal :=
  if !s.hostPortUp port || data.isEmpty || 512 < data.length then .next s
  else
    let s' := s.count clsEdge port Ev.EDGE_BAR4_WRITE 1
    match s.bar4Pieces port vf off data.length true with
    | none => .next (s'.edgeErr port 0 rid off)
    | some l =>
      if l.any (fun p => s.lineBusy (p.1 / 128)) then .next s
      else .next (l.foldl (fun (r : State × Nat) p =>
        (r.1.linePut 0 p.1 ((data.drop r.2).take p.2) false, r.2 + p.2)) (s', 0)).1

/-- BAR4_ATOMICOP: FetchAdd, Swap or CAS of 32 or 64 bits; the old value is returned. Every other AtomicOp, and one on a
line that may not be written, is an Unsupported Request. -/
def execBar4AtomicOp (port : Nat) (vf : Option Nat) (off : Nat) (op : AOp) (bytes a b rid : Nat) (s : State) :
    Host.Outcome State Fault Refusal :=
  if !s.hostPortUp port then .next s
  else
    let bad := s.emit { kind := outUnsupported, a := rid, b := off }
    if !(op == .add || op == .xchg || op == .cas) || !(bytes == 4 || bytes == 8) || off % bytes ≠ 0 then .next bad
    else match s.bar4Pieces port vf off bytes true with
      | some [(pa, _)] =>
        if s.lineBusy (pa / 128) then .next s
        else
          let old := (List.range bytes).map (fun i => s.lineByte 0 (pa + i))
          let f : Fmt := if bytes = 4 then .u32 else .i64
          let v := atomApply op f (leNat (old.map Prod.fst)) a b
          .next ((s.linePut 0 pa (leBytes bytes v) false).emit
            { kind := outBar4, a := rid, b := boolNat (old.any Prod.snd), data := old.map Prod.fst })
      | _ => .next bad

/-! ### Translations and completions (R213, R428) -/

/-- The invalidations of a port whose accesses have all completed are answered. -/
def State.answerInvals (s : State) (port : Nat) : State :=
  let used := fun (q : Nat × Nat × Nat) => s.hs.accs.any (fun r =>
    r.port == port && r.bytes != 0 && s.coreCove r.core == q.1 && decide (q.2.1 < r.addr + r.bytes) && decide (r.addr < q.2.1 + q.2.2))
  let done := (s.edge port).invals.filter (fun q => !used q)
  let s := s.modEdge port (fun e => { e with invals := e.invals.filter used })
  done.foldl (fun s q => s.emit { kind := outAts, a := q.2.1, b := q.1 }) s

/-- ATS_INVALIDATE_REQUEST: the entries go at once; the answer waits for the accesses that used them. -/
def execAtsInvalidateRequest (port cove addr bytes : Nat) (s : State) : Host.Outcome State Fault Refusal :=
  if !s.hostPortUp port then .next s
  else
    let s := s.count clsEdge port Ev.EDGE_ATS_INVAL 1
    let hit := fun (k : Nat) => k / 2 ^ 52 == cove && decide (addr / 4096 ≤ k % 2 ^ 52) && decide (k % 2 ^ 52 * 4096 < addr + bytes)
    .next ((s.modEdge port (fun e => { e with
      atc := e.atc.filter (fun t => !hit t.1), invals := e.invals ++ [(cove, addr, bytes)] })).answerInvals port)

/-- A translation completion: the entry enters the cache of the port its tag names, the oldest of 4,096 making room. -/
def State.putAtc (s : State) (tag : Nat) (granted : Bool) : State :=
  let p := tag / 2 ^ 60 - 1
  let k := tag % 2 ^ 60
  s.modEdge p (fun e =>
    let l := e.atc.filter (fun t => t.1 != k)
    { e with atc := (if 4096 ≤ l.length then l.drop 1 else l) ++ [(k, boolNat granted)] })

/-- The bytes of a completion, for a load's access. -/
def MemOp.hostData (o : MemOp) (pa tag : Nat) (bs : List Byte) (poison : Bool) : MemOp :=
  let sec := pa / 32
  let old := match o.got.find? (fun p => p.1 == sec) with | some (_, l) => l | none => List.replicate 32 0
  let l := (List.range 32).map (fun i => if pa % 32 ≤ i && i < pa % 32 + bs.length then bs.getD (i - pa % 32) 0 else old.getD i 0)
  { o with got := (o.got.filter (fun p => p.1 != sec)) ++ [(sec, l)], left := sdel tag o.left, poison := o.poison || poison }

/-- The answer of an AtomicOp that the host performed: the old value in the bytes, and what host memory then holds. -/
def State.hostAtomDone (s : State) (o : MemOp) (a : HostAcc) (bs : List Byte) (poison : Bool) : State :=
  let ts := ((targets o.acc).find? (fun t => t.1 - 0xF80000000000 == a.addr)).map Prod.snd
  let r := atomSeq o.aop o.fmt (leNat bs) ((ts.getD []).map (fun t => (t, valOf o.vals t, valOf o.vals2 t)))
  let s := { s with host := s.host.writeLE a.addr o.bytes r.1 }
  s.modCore a.core (fun k => k.setOp { o with
    left := sdel a.tag o.left, olds := r.2.foldl (fun l p => minsert p.1 p.2 (merase l p.1)) o.olds, poison := o.poison || poison })

/-- HOST_COMPLETION: of a translation request, of a read or of an AtomicOp of this module. -/
def execHostCompletion (port tag : Nat) (data : List Byte) (poison granted : Bool) (s : State) : Host.Outcome State Fault Refusal :=
  if !s.hostPortUp port then .next s
  else match s.hs.accs.find? (fun a => a.port == port && a.tag == tag) with
    | none => .next s
    | some a =>
      let s := { s with hs := { s.hs with accs := s.hs.accs.filter (fun r => !(r.port == port && r.tag == tag)) } }
      if a.bytes = 0 then .next (s.putAtc tag granted)
      else
        let bs := (List.range a.bytes).map (fun i => data.getD i 0)
        match (s.core a.core).opOf a.op with
        | none => .next (s.answerInvals port)
        | some o =>
          let s := if o.kind = .hostAt then s.hostAtomDone o a bs poison
            else s.modCore a.core (fun k => k.setOp (o.hostData (a.addr + 0xF80000000000) tag bs poison))
          .next (((s.checkOp a.core o.id).serve a.core).answerInvals port)

/-! ### Links (R458) -/

/-- LINK_UP: an edge port's link is up, at a speed and width (Table 15-18); stopped queues go on. -/
def execLinkUp (port speed width : Nat) (flit cxl : Bool) (s : State) : Host.Outcome State Fault Refusal :=
  if 8 ≤ port || s.se.off || s.se.recovery || s.fld clsEdge port R.EDGE_STATE_ROLE = 0 || s.fld clsEdge port R.EDGE_STATE_ROLE = 3
      || speed = 0 || 6 < speed || 4 < width then .next s
  else .next (s.modEdge port (fun e => { e with up := true, flit := flit, cxl := cxl, speed := speed, width := width }))

/-- Whether a running command names host memory through a port. -/
def State.usesPort (s : State) (port : Nat) (k : Cmd) : Bool :=
  k.live && k.opcode != 0x01 && s.hostPort (s.coveOf k.ctx) == some port && [k.a, k.b, k.c].any (fun b => b.space == 2)

/-- A HOST port's link is gone: outstanding reads return poisoned, commands that use the port end, the loss is recorded. -/
def State.hostLinkLoss (s : State) (port : Nat) : State :=
  let s := (s.modEdge port (fun e => { e with up := false, atc := [], invals := [] })).edgeErr port 3 0 0
  let mine := s.hs.accs.filter (fun a => a.port == port)
  let s := { s with hs := { s.hs with accs := s.hs.accs.filter (fun a => a.port != port) } }
  let ops := (mine.filter (fun a => a.bytes != 0)).foldl (fun l a => if l.contains (a.core, a.op) then l else l ++ [(a.core, a.op)]) []
  let s := ops.foldl (fun s p => (s.hostDead p.1 p.2).serve p.1) s
  let ks := s.hs.cmds.filter (fun k => s.usesPort port k)
  ks.foldl (fun s k => s.fail k Sta.aborted Rsn.linkDown 0) s

/-- HOST_LINK_DOWN. -/
def execHostLinkDown (port : Nat) (s : State) : Host.Outcome State Fault Refusal :=
  if s.hostPortUp port then .next (s.hostLinkLoss port) else .next s

/-- FUNCTION_LEVEL_RESET of a VF: its cove is reset; its queues are disabled (R458, R465). -/
def execFunctionLevelReset (vf : Nat) (s : State) : Host.Outcome State Fault Refusal :=
  if s.vfOn vf && (s.cove vf).st = 2 then .next (s.resetCove vf) else .next s

/-! ### Interrupts (R456, R457) -/

/-- COAL_US: the time after the first counted completion has run out. -/
def execCoalUs (ctx q : Nat) (s : State) : Host.Outcome State Fault Refusal :=
  let u := s.queue ctx q
  if u.armed && u.counted != 0 && s.qfld ctx q R.Q_CFG_COAL_US != 0 then .next (s.queueIntr ctx q) else .next s

/-- VECTOR_UNMASK: the pending interrupt of the vector is sent, and counts for the context whose queue raised it. -/
def execVectorUnmask (vf : Option Nat) (vector : Nat) (s : State) : Host.Outcome State Fault Refusal :=
  let k := maskKey vf vector
  if !s.hs.masked.contains k then .next s
  else
    let s' := { s with hs := { s.hs with masked := sdel k s.hs.masked, msixPend := sdel k s.hs.msixPend } }
    if s.hs.msixPend.contains k then
      let x := mget 0 s.hs.pendFrom k
      let s' := { s' with hs := { s'.hs with pendFrom := mset 0 s.hs.pendFrom k 0 } }
      .next ((if x ≠ 0 && s.vectorFires vf vector then s'.qcount (x - 1) Ev.CMDQ_INTERRUPTS 1 else s').raiseVector vf vector)
    else .next s'

/-! ### Configuration requests (R427, R430, R534) -/

/-- The answer of a configuration request. -/
def State.cfgReply (s : State) (port req : Nat) (data : List Byte) : State := s.emit { kind := outConfig, a := port, b := req, data := data }

/-- R3, Table 15-1: the extended capabilities that a function lists, by their PCIe identifiers (log entry 32): AER, ATS,
SR-IOV, Resizable BAR, the CXL DVSEC, VF Resizable BAR and DOE on the primary port; no ATS or SR-IOV on a secondary one. Any
other reads as absent, PRI, PASID, TPH and IDE among them. -/
def extCapabilities (main : Bool) : List Nat := if main then [0x01, 0x0F, 0x10, 0x15, 0x23, 0x24, 0x2E] else [0x01, 0x15, 0x23, 0x2E]

/-- CONFIGURATION_REQUEST (log entry 32): 0 NumVFs := a; 1 ATS of VF a on or off; 2 and 3 the PF's and the VFs' BAR4 is
2^a bytes; 4 mask vector b of function a (0 the PF, c + 1 the VF of cove c); 5 a read of the CDAT; 6 whether the port's
function has extended capability a. The SR-IOV, ATS and
MSI-X requests are the primary port's. -/
def execConfigurationRequest (port req a b : Nat) (s : State) : Host.Outcome State Fault Refusal :=
  if !s.hostPortUp port then .next s
  else
    let main := s.primary == some port
    match req with
    | 0 => .next (if main && a ≤ 64 then { (s.cfgReply port req []) with hs := { (s.cfgReply port req []).hs with vfs := a } } else s.cfgReply port req [])
    | 1 => .next (if main && a < 64 then (s.cfgReply port req []).modCove a (fun c => { c with ats := b != 0 }) else s.cfgReply port req [])
    | 2 => .next (if 28 ≤ a && a ≤ 41 then { (s.cfgReply port req []) with hs := { (s.cfgReply port req []).hs with bar4Log := a } } else s.cfgReply port req [])
    | 3 => .next (if main && 28 ≤ a && a ≤ 36 then { (s.cfgReply port req []) with hs := { (s.cfgReply port req []).hs with vfBar4Log := a } } else s.cfgReply port req [])
    | 4 =>
      let vf := if a = 0 then none else some (a - 1)
      let ok := main && (if a = 0 then decide (b < 2048) else decide (a ≤ 64) && decide (b < 31))
      .next (if ok then { (s.cfgReply port req []) with hs := { (s.cfgReply port req []).hs with masked := sadd (maskKey vf b) s.hs.masked } }
        else s.cfgReply port req [])
    | 6 => .next (s.cfgReply port req [if (extCapabilities main).contains a then 1 else 0])
    | _ => .next (s.cfgReply port req ((List.range 64).map (fun i => Config.replyByte 256 a i)))

/-! ### The distance table (R580, R581, R452) -/

def tableBytes : Nat := 58368

/-- A measured byte of the table. -/
def State.measuredByte (s : State) (i : Nat) : Byte := Config.measured s.measGen i
def State.measuredNat (s : State) (i n : Nat) : Nat := leNat ((List.range n).map (fun j => s.measuredByte (i + j)))

/-- A word of the table (Table 21-6), by its number. -/
def State.distWord (s : State) (w : Nat) : Nat :=
  let b := 8 * w
  if b < 0x40 then
    (match w with
      | 0 => tableBytes + 2 ^ 32
      | 1 => s.occGen
      | 2 => s.measUs
      | _ => 0)
  else if b < 0x140 then
    let i := w - 8
    portRouter i * 2 ^ 56 + mget 0 s.occ i
  else if b < 0x200 then
    let p := w - 40
    (s.port p).st * 2 ^ 60 + (if (s.port p).st = 6 then ofInt 32 (s.port p).lat else 0)
  else if b < 0x260 then
    let e := (w - 64) / 2
    match s.hb.expanders.find? (fun x => x.1 == e) with
    | some (_, p, g) => if w % 2 = 0 then 2 ^ 63 + p % 8 * 2 ^ 56 + g % 2 ^ 11 * 2 ^ 32 + s.measuredNat b 4 else s.measuredNat b 8
    | none => 0
  else if b < 0x360 then
    let r := (w - 76) / 2
    if s.fldN clsEdge 8 R.TIERC_LOC_r_VALID (16 * r) = 0 then 0
    else if w % 2 = 0 then
      2 ^ 63 + s.fldN clsEdge 8 R.TIERC_LOC_r_PORT (16 * r) * 2 ^ 56 + s.fldN clsEdge 8 R.TIERC_LOC_r_SIZE (16 * r) * 2 ^ 32 + s.measuredNat b 4
    else s.measuredNat b 8
  else if b < 0x400 then 0
  else if b < 0x2400 then
    let c := w - 128
    if s.activeCore c then
      2 ^ 63 + s.corePage c * 2 ^ 40 + c / 64 % 16 * 2 ^ 36 + c % 16 * 2 ^ 32 + (s.measuredByte (b + 3)).toNat % 57 * 2 ^ 24
    else 0
  else
    (List.range 4).foldl (fun v j =>
      let o := b + 2 * j
      let gone := if o < 0x6400 then s.ra.deadSlices.contains ((o - 0x2400) / 2 % 512)
        else !((s.chan ((o - 0x6400) / 2 % 1024)).st == 1 || (s.chan ((o - 0x6400) / 2 % 1024)).st == 2)
      v + (if gone then 65535 else s.measuredNat o 2) * 2 ^ (16 * j)) 0

/-- The first `n` bytes. -/
def State.distBytes (s : State) (n : Nat) : List Byte := ((List.range ((n + 7) / 8)).flatMap (fun w => leBytes 8 (s.distWord w))).take n

def distBody (k : Cmd) : Body :=
  { allowed := fieldBits [(127, 64), (159, 128)], refs := [(8, false, true)], lens := [(16, 4)]
    need := fun b _ => some (bytesOf b.fmt b.off + k.num 16 4) }

/-- DISTANCES (R452, R581). -/
def execDistances (ctx q idx : Nat) (s : State) : Host.Outcome State Fault Refusal :=
  match s.turn ctx q idx 0x28 with
  | .first k => .next (s.validated k (distBody k) (fun s k =>
      match s.bufWrite (s.coveOf ctx) k.a.space k.a.start (s.distBytes (min tableBytes (k.num 16 4))) false with
      | .ok s => s.runNow k tableBytes
      | .refused => s.fail k Sta.permission Rsn.bufAccess 8
      | .down => s.fail k Sta.aborted Rsn.linkDown 8
      | .wait => s))
  | _ => .next s

end Sys2Proof.Machine
end

