-- ==== Sys2Proof/Machine/Startup.lean ====
section
/-! DEFINITION. Module resets, the ten start-up stages, the stage log and the identity memories
(R321, R323, R324, R426, R515, R519, R532 to R542, R548, R593). -/

namespace Sys2Proof.Machine

def State.setSe (s : State) (f : SecSt → SecSt) : State := { s with se := f s.se }

/-! ### Module reset (R532) -/

/-- First address of the outer tiers, which hold their data across resets (R545). -/
def outerBase : Nat := 0x040000000000

/-- The module configuration in flash (R324, R426). -/
def configKeys : List Nat := [fkey clsEdge 8 R.EDGE_ROLES_ROLE 0, fkey clsEdge 8 R.TIERB_CFG_WAYS 0]

/-- What remains of start-up and security: fuses, both image slots, the unlock ledger, the records of earlier starts. -/
def SecSt.kept (e : SecSt) : SecSt :=
  { ({} : SecSt) with
    serial := e.serial, slots := e.slots, prefer := e.prefer, minSvn := e.minSvn, pwUsed := e.pwUsed, fuses := e.fuses
    ledger := e.ledger, stackSerial := e.stackSerial, nodes := e.nodes, resets := e.resets }

/-- The module right after a module reset, with what flash, fuses, the outer tiers and the host keep. -/
def State.cleared (s : State) : State :=
  { State.reset with
    regs := s.regs.filter (fun p => configKeys.contains p.1)
    mem := mdrop s.mem (fun a => decide (a < outerBase))
    poison := s.poison.filter (fun k => decide (outerBase ≤ 32 * k))
    host := s.host
    hs := { ({} : HostSt) with out := s.hs.out }
    pw := { ({} : PwrSt) with vin := s.pw.vin }
    ra := { ({} : RasSt) with retire := s.ra.retire, retireGen := s.ra.retireGen }
    se := s.se.kept
    tm := { ({} : TmkSt) with perm := s.tm.perm, circ := s.tm.circ, ledger := s.tm.ledger }
    free := s.free, pending := s.pending }

/-- A module reset: every cove, context, queue and domain ends without a record, and stage 1 begins. -/
def State.moduleReset (s : State) : State := s.cleared.setSe (fun e => { e with resets := s.se.resets + 1 })

/-- The port that the module configuration names as primary (R426, R427). -/
def State.configPrimary (s : State) : Nat :=
  ((List.range 8).find? (fun e => bits (s.fld clsEdge 8 R.EDGE_ROLES_ROLE) (2 * e + 1) (2 * e) == 1)).getD 1

/-- POWER_ON: the input rises through 40 V. -/
def execPowerOn (s : State) : Host.Outcome State Fault Refusal := .next s.moduleReset

/-- PERST: of the primary HOST port, a module reset; of another HOST port, its link and function. -/
def execPerst (port : Nat) (s : State) : Host.Outcome State Fault Refusal :=
  if port = s.configPrimary then .next s.moduleReset
  else if s.fld clsEdge port R.EDGE_STATE_ROLE = 1 then
    let s := if (s.edge port).up then s.hostLinkLoss port else s
    .next ((s.modEdge port (fun _ => {})).setFld clsEdge port R.EDGE_BAR4_BASE 0)
  else .next s

/-- WATCHDOG: a second expiry within 10 s of the reset that the first one brought loses the device (R528); else a module reset. -/
def execWatchdog (s : State) : Host.Outcome State Fault Refusal :=
  if s.se.off then .next s
  else match s.ra.watchdogUs with
    | some t =>
      if s.us < t + 10 ^ 7 then .next (s.deviceLost Knd.other)
      else .next { s.moduleReset with ra := { s.moduleReset.ra with watchdogUs := some 0 } }
    | none => .next { s.moduleReset with ra := { s.moduleReset.ra with watchdogUs := some 0 } }

/-- EXTEST, CLAMP or HIGHZ (R548): every unit stops and nothing is retained. -/
def execExtest (s : State) : Host.Outcome State Fault Refusal :=
  if s.se.off then .next s else .next (s.cleared.setSe (fun e => { e with scan := true }))

/-- TEST_LOGIC_RESET (R548): from boundary scan, the start-up sequence begins at stage 1. -/
def execTestLogicReset (s : State) : Host.Outcome State Fault Refusal :=
  if s.se.scan then .next s.cleared else .next s

/-! ### The stage log (R536, Tables 19-2 and 19-3) -/

def State.stageLog (s : State) (kind info : Nat) : State :=
  let e := (kind * 2 ^ 56 + s.se.stage % 16 * 2 ^ 52 + s.us % 2 ^ 32, info)
  let n := s.se.log.length
  if n < 255 then s.setSe (fun x => { x with log := x.log ++ [e] })
  else
    let full := (0x13 * 2 ^ 56 + s.se.stage % 16 * 2 ^ 52 + s.us % 2 ^ 32, s.se.logLost + 1)
    s.setSe (fun x => { x with log := x.log.take 255 ++ [full], logLost := x.logLost + 1 })

def Lg.stageEnd : Nat := 0x01
def Lg.imageFallback : Nat := 0x02
def Lg.dieSpared : Nat := 0x03
def Lg.dieAbsent : Nat := 0x04
def Lg.sliceRetired : Nat := 0x05
def Lg.laneRepaired : Nat := 0x06
def Lg.channelRetired : Nat := 0x07
def Lg.stackNotPresent : Nat := 0x08
def Lg.fruInvalid : Nat := 0x09
def Lg.hostFallback : Nat := 0x0A
def Lg.tierbNoInterleave : Nat := 0x0B
def Lg.expanderIgnored : Nat := 0x0C
def Lg.portDown : Nat := 0x0D
def Lg.alignTimeout : Nat := 0x0E
def Lg.retireListBad : Nat := 0x0F
def Lg.stackChanged : Nat := 0x10
def Lg.debugOpen : Nat := 0x11
def Lg.fatal : Nat := 0x12

/-- A stage stops the module: SEC_STAGE.FAILED, REASON and a FATAL entry. -/
def State.stageFail (s : State) (cause : Nat) : State :=
  (s.stageLog Lg.fatal s.se.stage).setSe (fun e => { e with failed := true, reason := cause })

/-- The stage that stops it also loses the device (R528). -/
def State.stageLost (s : State) (cause : Nat) : State := (s.stageFail cause).deviceLost Knd.other

/-- A source that failed at start enters the retirement list (R512, R527). -/
def State.retireSource (s : State) (e : Nat) : State :=
  let r := s.retireAdd e
  if r.2 then r.1.rasRecord { cls := clsRas, inst := 0, sev := Sev.retire, kind := Knd.retireListFull } 0 else r.1

/-! ### Stage 2: boot (R538, R539) -/

/-- Whether the ROM accepts a slot. -/
def State.slotOk (s : State) (f : StageIn) (n : Nat) : Bool :=
  let x := s.se.slots.getD n { valid := false }
  x.valid && f.imgOk.getD n false && decide (s.se.minSvn ≤ x.svn)

/-- Table 18-2, loaded by the start-up sequence (R530). -/
def State.loadBuckets (s : State) : State :=
  [(0, 256, 1, 16, 1024), (1, 256, 1, 16, 1024), (2, 256, 1, 16, 1024), (3, 0, 1, 64, 256), (4, 8192, 0, 400, 65536)].foldl (fun s b =>
    let (c, hi, per, leak, lim) := b
    (((s.setFldN clsRas 0 R.RAS_BKT_CFG_c_WEIGHT_HI (8 * c) hi).setFldN clsRas 0 R.RAS_BKT_CFG_c_PERIOD (8 * c) per).setFldN clsRas 0
      R.RAS_BKT_CFG_c_LEAK (8 * c) leak).setFldN clsRas 0 R.RAS_BKT_CFG_c_LIMIT (8 * c) lim) s

/-- Recovery mode (R535). -/
def State.recover (s : State) : State := (s.stageFail Lg.imageFallback).setSe (fun e => { e with recovery := true })

def State.bootStage (s : State) (f : StageIn) : State :=
  let p := s.se.prefer % 2
  if f.fault then s.recover
  else if s.slotOk f p then (s.setSe (fun e => { e with running := p, fallback := false })).loadBuckets
  else if s.slotOk f (1 - p) then
    ((s.setSe (fun e => { e with running := 1 - p, fallback := true })).stageLog Lg.imageFallback (1 - p)).loadBuckets
  else s.recover

/-! ### Stages 3 and 4: dies, slices, lanes (R17, R18, R515, R519) -/

/-- Die status of Table 19-14 from the test and the list: 0 usable, 2 failed at this start, 3 named by the list. -/
def dieStatus (bad named : List Nat) (p : Nat) : Nat := if bad.contains p then 2 else if named.contains p then 3 else 0

/-- The active sites of a shelf die in ascending order: sites 0 to 3 that are usable, and the spare, site 4, when one of
them is not. -/
def activeSites (bad named : List Nat) (d : Nat) : List Nat :=
  let l := (List.range 4).filter (fun i => dieStatus bad named (5 * d + i) == 0)
  if l.length < 4 && dieStatus bad named (5 * d + 4) == 0 then l ++ [4] else l

/-- SEC_DIEMAP's byte of a physical die. -/
def dieByte (bad named : List Nat) (p : Nat) : Nat :=
  match (activeSites bad named (p / 5)).idxOf? (p % 5) with
  | some k => 8 * k
  | none => if dieStatus bad named p = 0 then 1 else dieStatus bad named p

/-- The logical dies and their physical ones (R17). -/
def logicalDies (bad named : List Nat) : List (Nat × Nat) :=
  (List.range 16).flatMap (fun d => ((activeSites bad named d).zipIdx).map (fun q => (4 * d + q.2, 5 * d + q.1)))

/-- Physical dies that the retirement list names. -/
def State.namedDies (s : State) : List Nat := (List.range 80).filter (fun p => s.ra.retire.contains (retireEntry 2 p 0))

/-- The die map for a set of failed dies; what changed is logged. -/
def State.mapDies (s : State) (bad named : List Nat) : State :=
  let old := s.se.ldie
  let first := old.isEmpty
  let new := logicalDies bad named
  let s := s.setSe (fun e => { e with ldie := new, diemap := ((List.range 80).map (fun p => (p, dieByte bad named p))).filter (fun q => q.2 != 0) })
  (List.range 16).foldl (fun s d =>
    let has := fun (l : List (Nat × Nat)) => l.any (fun q => q.2 == 5 * d + 4)
    let out := (List.range 4).filter (fun i => dieStatus bad named (5 * d + i) != 0)
    let s := if has new && !has old then s.stageLog Lg.dieSpared ((5 * d + 4) * 2 ^ 8 + 5 * d + out.headD 0) else s
    (List.range 4).foldl (fun s k =>
      if new.any (fun q => q.1 == 4 * d + k) || (!first && !old.any (fun q => q.1 == 4 * d + k)) then s
      else s.stageLog Lg.dieAbsent (4 * d + k)) s) s

/-- R528: a shelf die with no usable compute die. -/
def State.emptyShelf (s : State) : Bool := (List.range 16).any (fun d => !s.se.ldie.any (fun q => q.1 / 4 == d))

def State.selftestStage (s : State) (f : StageIn) : State :=
  let s := if f.listBad then ({ s with ra := { s.ra with retire := [] } }).stageLog Lg.retireListBad 1 else s
  let named := s.namedDies
  let bad := f.badDies.filter (fun p => decide (p < 80))
  let slices := (List.range 512).filter (fun h => f.badSlices.contains h || s.ra.retire.contains (retireEntry 1 h 0))
  let s := bad.foldl (fun s p => s.retireSource (retireEntry 2 p 0)) s
  let s := (slices.filter (fun h => f.badSlices.contains h)).foldl (fun s h => s.retireSource (retireEntry 1 h 0)) s
  let s := s.mapDies bad named
  let s := { s with ra := { s.ra with deadSlices := slices } }
  let s := slices.foldl (fun s h => s.stageLog Lg.sliceRetired h) s
  if s.emptyShelf then s.stageLost Lg.dieAbsent else s

/-- Dies that the die map shows failed at this start, and those it shows named by the list. -/
def State.diesWith (s : State) (st : Nat) : List Nat := (s.se.diemap.filter (fun q => q.2 % 8 == st)).map Prod.fst

def State.d2dStage (s : State) (f : StageIn) : State :=
  let s := (s.ra.retire.filter (fun e => e / 2 ^ 60 == 3)).foldl (fun s e =>
    s.stageLog Lg.laneRepaired (e / 2 ^ 44 % 2 ^ 16 * 2 ^ 16 + e % 2 ^ 16)) s
  if f.badGroups.any (fun g => decide (80 ≤ g / 65536)) then s.stageLost Lg.laneRepaired
  else
    let new := dedup (f.badGroups.map (fun g => g / 65536))
    if new.isEmpty then s
    else
      let s := new.foldl (fun s p => s.retireSource (retireEntry 2 p 0)) s
      let s := s.mapDies (s.diesWith 2 ++ new) (s.diesWith 3)
      if s.emptyShelf then s.stageLost Lg.dieAbsent else s

/-! ### Stage 5: memory (R304, R305, R319 to R321, R545) -/

/-- The state of a channel at start: not present, failed training, named by the list, in service. -/
def State.startChan (s : State) (f : StageIn) (ch : Nat) : Nat :=
  if f.noStacks.contains (ch / 32) then 0
  else if f.badChans.contains ch || s.ra.retire.contains (retireEntry 0 ch 0) then 3
  else 1

def State.hbmStage (s : State) (f : StageIn) : State :=
  let s := ((List.range 32).filter (fun k => f.noStacks.contains k)).foldl (fun s k => s.stageLog Lg.stackNotPresent k) s
  let s := (f.serials.filter (fun q => !f.noStacks.contains q.1)).foldl (fun s q =>
    let old := s.se.stackSerial.find? (fun o => o.1 == q.1)
    let s := match old with
      | some o => if o.2 = q.2 then s else s.stageLog Lg.stackChanged q.1
      | none => s
    s.setSe (fun e => { e with stackSerial := minsert q.1 q.2 (merase e.stackSerial q.1) })) s
  let sts := (List.range 1024).map (fun ch => (ch, s.startChan f ch))
  let gone := sts.filter (fun q => q.2 == 3)
  let s := gone.foldl (fun s q =>
    let listed := s.ra.retire.contains (retireEntry 0 q.1 0)
    let s := s.stageLog Lg.channelRetired ((if listed then 0 else 1) * 2 ^ 16 + q.1)
    if listed then s else s.retireSource (retireEntry 0 q.1 0)) s
  let live := (sts.filter (fun q => q.2 == 1)).map Prod.fst
  let mg := fun k => live.find? (fun ch => ch / 32 == k)
  let own := fun ch => mg 0 == some ch || mg 1 == some ch
  let s := { s with hb := { s.hb with
    chans := (sts.filter (fun q => q.2 != 0)).map (fun q => (q.1, ({ st := q.2, owner := if own q.1 then 3 else 0 } : Chan)))
    present := List.range live.length
    keyEpoch := (List.range 66).foldl (fun l k => bump l k 1) s.hb.keyEpoch
    keySrc := [] } }
  if (mg 0).isNone || (mg 1).isNone then s.stageLost Lg.channelRetired else s

/-! ### Stage 6: identity (R541, R542, R593) -/

/-- Byte `i` of the carrier identity record (Table 22-8). -/
def carrierByte (r i : Nat) : Nat := r / 256 ^ i % 256

/-- What stage 6 makes of the EEPROM: the reason of FRU_INVALID, or none when the record is loaded. -/
def fruReason (f : StageIn) : Option Nat :=
  let b := carrierByte f.carrier
  if f.fru ≤ 2 then some f.fru
  else if b 0 = 0x71 && b 1 = 0x55 && b 2 = 0x01 && b 3 = 0x4B && b 4 = 1 && [5, 6, 7, 8, 9, 10].all (fun i => decide (b i < 32)) && b 11 < 2
      && [12, 13, 14, 15].all (fun i => b i == 0) && b 5 ≤ b 8 && b 6 ≤ b 9 && b 7 ≤ b 10 then none
  else some 2

def State.identityStage (s : State) (f : StageIn) : State :=
  match fruReason f with
  | some r => s.stageLog Lg.fruInvalid r
  | none =>
    let b := carrierByte f.carrier
    ((s.setFlds clsTwp 24 [(R.TORUS_CFG_X, b 5), (R.TORUS_CFG_Y, b 6), (R.TORUS_CFG_Z, b 7), (R.TORUS_CFG_DXM1, b 8), (R.TORUS_CFG_DYM1, b 9),
      (R.TORUS_CFG_DZM1, b 10)]).setFld clsTide 0 R.TIDE_SYNC_CFG_MASTER (b 11)).setSe (fun e => { e with carrier := f.carrier })

/-! ### Stages 7 and 8: ports (R323, R324, R400, R422, R426, R427) -/

/-- The roles taken at start; with no HOST port configured, port 1 is HOST. -/
def State.takeRoles (s : State) : State :=
  let cfg := fun e => bits (s.fld clsEdge 8 R.EDGE_ROLES_ROLE) (2 * e + 1) (2 * e)
  let some? := (List.range 8).any (fun e => cfg e == 1)
  let role := fun e => if !some? && e == 1 then 1 else if cfg e = 3 then 0 else cfg e
  let s := if some? then s else s.stageLog Lg.hostFallback 0
  let s := (List.range 8).foldl (fun s e => s.setFld clsEdge e R.EDGE_STATE_ROLE (role e)) s
  match s.primary with
  | some p => s.setFld clsEdge p R.EDGE_STATE_PRIMARY 1
  | none => s

/-- A link that stage 7 found up; the value is laid out as EDGE_STATE. -/
def State.takeLink (s : State) (l : Nat × Nat) : State :=
  if s.fld clsEdge l.1 R.EDGE_STATE_ROLE = 0 then s
  else s.modEdge l.1 (fun e => { e with up := true, flit := bit l.2 16, cxl := bit l.2 3, speed := bits l.2 15 12, width := bits l.2 11 8 })

/-- Tier B (R323, R324): each entry of `expanders` is a port, its capacity in GiB, and 1 when its CDAT was read. -/
def State.takeExpanders (s : State) (f : StageIn) : State :=
  let mems := (List.range 8).filter (fun e => s.fld clsEdge e R.EDGE_STATE_ROLE == 2)
  let s := (mems.filter (fun e => !(s.edge e).up)).foldl (fun s e => s.stageLog Lg.expanderIgnored (2 * 2 ^ 8 + e)) s
  let found := (mems.filter (fun e => (s.edge e).up)).filterMap (fun e => f.expanders.find? (fun x => x.1 == e))
  let s := found.foldl (fun s x =>
    if x.2.1 = 0 then s.stageLog Lg.expanderIgnored x.1
    else if x.2.2 = 0 then s.stageLog Lg.expanderIgnored (2 ^ 8 + x.1)
    else s) s
  let good := (found.filter (fun x => x.2.1 != 0 && x.2.2 != 0)).take 6
  let w := s.fld clsEdge 8 R.TIERB_CFG_WAYS
  let ok := decide (tierbW w ≤ good.length)
  let s := { s with hb := { s.hb with
    expanders := good.zipIdx.map (fun (q : (Nat × Nat × Nat) × Nat) => (q.2, q.1.1, min 1024 q.1.2.1)), tierbWays := if ok then tierbW w else 0, expFailed := [] } }
  let s := s.setFld clsEdge 8 R.TIERB_CFG_ACTIVE (if ok then w else 0)
  if ok then s else s.stageLog Lg.tierbNoInterleave good.length

/-- Training of the Tideway ports begins; the list's lanes are left out. -/
def State.beginTideway (s : State) : State :=
  let s := (s.ra.retire.filter (fun e => e / 2 ^ 60 == 4)).foldl (fun s e =>
    let p := e / 2 ^ 44 % 2 ^ 16
    if p < 24 then s.modPort p (fun t => { t with badLanes := sadd (e % 2 ^ 16) t.badLanes }) else s) s
  (List.range 24).foldl (fun s p => s.startTraining p) s

def State.edgeStage (s : State) (f : StageIn) : State :=
  ((f.links.foldl (fun s l => s.takeLink l) s.takeRoles).takeExpanders f).beginTideway

/-- Ports that are DOWN are logged; at the limit every port that still trains is DOWN. -/
def State.tidewayStage (s : State) (limit : Bool) : State :=
  let s := if limit then (List.range 24).foldl (fun s p =>
      let st := (s.port p).st
      if st ≠ 0 && st ≠ 6 && st ≠ 7 && st ≠ 8 then s.portDown p (st + 2) else s) s
    else s
  (List.range 24).foldl (fun s p =>
    if (s.port p).st = 8 then s.stageLog Lg.portDown (p * 2 ^ 8 + (s.port p).down % 16) else s) s

/-! ### The sequence (R533, R534) -/

/-- The work of the stage in progress. -/
def State.stageWork (s : State) (f : StageIn) (limit : Bool) : State :=
  let s := s.setSe (fun e => { e with identity := e.identity ++ f.identity })
  match s.se.stage with
  | 1 => s
  | 2 => s.bootStage f
  | 3 => s.selftestStage f
  | 4 => s.d2dStage f
  | 5 => s.hbmStage f
  | 6 => s.identityStage f
  | 7 => s.edgeStage f
  | 8 => s.tidewayStage limit
  | 9 =>
    let s := if limit then s.stageLog Lg.alignTimeout s.ns.align else s
    s.remeasure
  | _ => s

/-- The running image's SVN (R538). -/
def State.runSlot (s : State) : Slot := s.se.slots.getD s.se.running {}

/-- READY: an image that commits its SVN raises the minimum (R539); a PLDM event names the stage (R534). -/
def State.enterReady (s : State) : State :=
  let x := s.runSlot
  (s.setSe (fun e => { e with minSvn := if x.commit then max e.minSvn x.svn else e.minSvn })).emit { kind := outEvent, a := 0xA }

/-- The next stage begins. -/
def State.nextStage (s : State) : State :=
  let n := s.se.stage + 1
  let s := (s.stageLog Lg.stageEnd (s.us - s.se.elapsed)).setSe (fun e => { e with stage := n, elapsed := s.us })
  if n = 3 then s.tmkStart else if n = 10 then s.enterReady else s

/-- Whether the start-up sequence is under way. -/
def State.starting (s : State) : Bool := decide (s.se.stage < 10) && !s.se.failed && !s.se.off && !s.se.scan

/-- STAGE_END: the stage in progress ends, with what it found. -/
def execStageEnd (info : StageIn) (s : State) : Host.Outcome State Fault Refusal :=
  if !s.starting then .next s
  else
    let s := s.stageWork info false
    .next (if s.se.failed then s else s.nextStage)

/-- STAGE_LIMIT: a stage at its limit (Table 19-1): the rails go off, recovery mode, or the stage ends with what did not
pass counted as failed. -/
def execStageLimit (info : StageIn) (s : State) : Host.Outcome State Fault Refusal :=
  if !s.starting then .next s
  else match s.se.stage with
    | 1 => .next ((s.stageFail Lg.fatal).setSe (fun e => { e with off := true, powerOk := false }))
    | 2 => .next ((s.stageFail Lg.fatal).setSe (fun e => { e with recovery := true }))
    | 6 => .next ((s.stageLog Lg.fruInvalid 0).nextStage)
    | _ =>
      let s := s.stageWork info true
      .next (if s.se.failed then s else s.nextStage)

/-- SEC_STAGE (Table 19-9). -/
def State.secStageWord (s : State) : Nat :=
  boolNat s.se.failed * 2 ^ 63 + boolNat s.se.recovery * 2 ^ 62 + min 65535 (s.se.elapsed / 1000) * 2 ^ 32 + s.se.reason % 256 * 2 ^ 8
    + s.se.stage % 16
/-- SEC_BOOT (Table 19-10). -/
def State.secBootWord (s : State) : Nat :=
  let x := s.runSlot
  x.svn % 2 ^ 16 * 2 ^ 32 + x.major % 256 * 2 ^ 24 + x.minor % 256 * 2 ^ 16 + boolNat s.se.fallback * 2 ^ 8 + boolNat s.se.pendingImg * 2
    + s.se.running % 2
/-- SEC_DEBUG (Table 19-11). -/
def State.secDebugWord (s : State) : Nat :=
  s.se.fuses % 64 * 2 ^ 32 + s.se.scope % 16 * 2 ^ 8 + boolNat s.se.pwUsed * 2 + boolNat s.se.debugOpen

end Sys2Proof.Machine
end

