-- ==== Sys2Proof/Machine/Vendor.lean ====
section
/-! DEFINITION. The vendor-defined messages, challenges, signed tokens, the manufacturing password, unlocks, clears of the
Tidemark recorder (R549 to R554, R564, R567, R568). -/

namespace Sys2Proof.Machine

/-! ### Messages (R550, Tables 19-16 and 19-17) -/

/-- Bytes 0 to 4 of every message: the type and Stowen's number, most significant byte first. -/
def vendorHead : List Byte := [0x7F, 0x00, 0x01, 0x55, 0x71]

def Cpl.ok : Nat := 0
def Cpl.refused : Nat := 1
def Cpl.busy : Nat := 2
def Cpl.invalid : Nat := 3
def Cpl.lockedOut : Nat := 4

/-- Lengths of the request bodies by command; an unknown command has none. -/
def bodyLen : Nat → Option Nat
  | 1 => some 0 | 2 => some 0 | 3 => some 160 | 4 => some 16 | 5 => some 0 | _ => none

/-- The Vemuco management processor serves messages: from the end of stage 2, and not in recovery mode. -/
def State.vendorUp (s : State) : Bool := decide (3 ≤ s.se.stage) && !s.se.recovery && !s.se.off && !s.se.scan

/-- Whether a medium reaches the module now: 0 PCIe VDM through the primary port, 1 SMBus, 2 the TAP. -/
def State.mediumUp (s : State) (m : Nat) : Bool :=
  match m with
  | 0 => (match s.primary with | some p => (s.edge p).up | none => false)
  | 1 => true
  | 2 => true
  | _ => false

/-- A response: the instance ID of the request is echoed. Over the TAP only bytes from byte 6 on go back. -/
def State.vendorReply (s : State) (medium rq cmd cpl : Nat) (body : List Byte) : State :=
  let tail := leBytes 1 cmd ++ leBytes 1 cpl ++ body
  s.emit { kind := outVendor, a := medium, b := cpl, data := if medium = 2 then tail else vendorHead ++ leBytes 1 (rq % 32) ++ tail }

/-! ### Challenges and tokens (R549, R552) -/

/-- The challenge record of a fresh nonce. -/
def State.challenge (s : State) : List Byte × State :=
  let (n, s) := s.drawBytes 32
  let r := leBytes 8 s.se.serial ++ n ++ leBytes 1 s.se.fuses ++ leBytes 1 0xB0 ++ leBytes 2 s.runSlot.svn ++ leBytes 4 0
  (r, (s.setSe (fun e => { e with nonce := some (leNat n) })).count clsSec 0 Ev.SEC_CHALLENGES 1)

/-- Whether a token is accepted (R552, R564): its layout, serial, nonce, signature and, for TYPE 3, its SCOPE. -/
def State.tokenOk (s : State) (t : List Byte) : Bool :=
  let ty := (t.getD 4 0).toNat
  let scope := (t.getD 5 0).toNat
  t.take 4 == [0x4B, 0x39, 0x54, 0x4B] && (1 ≤ ty && ty ≤ 3) && (t.drop 6).take 2 == List.replicate 2 0 &&
    (t.drop 48).take 16 == List.replicate 16 0 && leNat ((t.drop 8).take 8) == s.se.serial && s.se.nonce == some (leNat ((t.drop 16).take 32)) &&
    (ty != 2 || scope == 0) && (ty != 3 || (bit scope 0 && decide (scope < 4))) && Config.signatureOk (Config.sha384 (t.take 64)) (t.drop 64)

def tokenType (t : List Byte) : Nat := (t.getD 4 0).toNat
def tokenScope (t : List Byte) : Nat := (t.getD 5 0).toNat
def tokenNonce (t : List Byte) : List Byte := (t.drop 16).take 32

/-- The nonce is consumed. -/
def State.useNonce (s : State) : State := s.setSe (fun e => { e with nonce := none })

/-- A refused token. -/
def State.tokenRefused (s : State) : State := s.count clsSec 0 Ev.SEC_TOKEN_REFUSED 1

/-! ### The unlock ledger and unlocking (R551, R553) -/

/-- An entry of 64 bytes (log entry 33): path, TYPE, SCOPE, serial, digest of the nonce, time, resets, CRC-32C. -/
def State.unlockEntry (s : State) (path ty scope : Nat) (nonce : List Byte) : List Byte :=
  let digest := if nonce.isEmpty then List.replicate 16 0 else (Config.sha384 nonce).take 16
  let b := leBytes 1 path ++ leBytes 1 ty ++ leBytes 1 scope ++ leBytes 5 0 ++ leBytes 8 s.se.serial ++ digest ++ leBytes 8 s.us
    ++ leBytes 4 s.se.resets ++ leBytes 16 0
  b ++ leBytes 4 (crc32c b)

def State.ledgerFull (s : State) : Bool := decide (128 ≤ s.se.ledger.length)

/-- Every cove and the commons are destroyed: their work ends, no record is written (R465, R554). -/
def State.destroyAll (s : State) : State :=
  ((s.hs.coves.filter (fun p => p.2.st != 0)).map Prod.fst).foldl (fun s c => (if c = 64 then s else s.resetCove c).destroyCove c) s

/-- A successful unlock, steps 1 to 6; none when no fuse is left. -/
def State.unlock (s : State) (path ty scope : Nat) (nonce : List Byte) : Option State :=
  if s.se.fuses = 0 then none
  else
    let s := (s.setSe (fun e => { e with fuses := e.fuses - 1 })).destroyAll
    let s := { s with hb := { s.hb with
      keyEpoch := (List.range 65).foldl (fun l k => bump l k 1) s.hb.keyEpoch, keySrc := mdrop s.hb.keySrc (fun k => decide (k < 65)) } }
    let n := s.se.ledger.length
    let s := s.setSe (fun e => { e with ledger := e.ledger ++ [s.unlockEntry path ty scope nonce], debugOpen := true, scope := scope })
    some ((s.stageLog Lg.debugOpen n).emit { kind := outEvent, a := Lg.debugOpen, b := n })

/-- A TYPE 2 token: both copies of the retirement list are empty at their next generation. -/
def State.clearRetire (s : State) (nonce : List Byte) : State :=
  { (s.setSe (fun e => { e with ledger := e.ledger ++ [s.unlockEntry 0 2 0 nonce] })) with
    ra := { s.ra with retire := [], retireGen := s.ra.retireGen + 1 } }

/-- What a token comes to: a completion code at once, or a clear under way that answers later. -/
inductive TokenRes
  | done (cpl : Nat) (s : State)
  | later (s : State)

/-- A token arrives (R551 to R553, R564, R568). `via` tells a clear whom to answer. -/
def State.token (s : State) (t : List Byte) (via : Nat) : TokenRes :=
  let ok := s.tokenOk t
  let s := s.useNonce
  if !ok then .done Cpl.refused s.tokenRefused
  else match tokenType t with
    | 1 =>
      if s.ledgerFull then .done Cpl.lockedOut s
      else match s.unlock 0 1 (tokenScope t % 16) (tokenNonce t) with
        | some s => .done Cpl.ok s
        | none => .done Cpl.refused s.tokenRefused
    | 2 => if s.ledgerFull then .done Cpl.lockedOut s else .done Cpl.ok (s.clearRetire (tokenNonce t))
    | _ =>
      if s.tm.clearing.isSome then .done Cpl.busy s
      else match s.tmkClear (tokenScope t) via (tokenNonce t) with
        | some s => .later s
        | none => .done Cpl.lockedOut (s.count clsTmk 0 Ev.TMK_CLEAR_REFUSED 1)

/-- A password arrives (R549). -/
def State.password (s : State) (pw : List Byte) : Nat × State :=
  if s.se.pwUsed || 3 ≤ s.se.wrong then (Cpl.lockedOut, s)
  else if !Config.passwordOk pw then
    (Cpl.refused, (s.setSe (fun e => { e with wrong := e.wrong + 1 })).count clsSec 0 Ev.SEC_PASSWORD_FAIL 1)
  else if s.ledgerFull then (Cpl.refused, s)
  else match s.unlock 1 0 15 [] with
    | some s => (Cpl.ok, s.setSe (fun e => { e with pwUsed := true }))
    | none => (Cpl.refused, s)

/-! ### Serving a request -/

/-- The answer that a clear owes: the medium, the instance ID. -/
def viaOf (medium rq : Nat) : Nat := medium + 8 * (rq % 32)
def viaPldm : Nat := 3

/-- A well-formed request is carried out and answered. -/
def State.vendorServe (s : State) (medium : Nat) (owner : Bool) (rq cmd : Nat) (body : List Byte) : State :=
  match cmd with
  | 1 =>
    if owner then (((s.vendorReply medium rq 1 Cpl.ok []).tmkClose 2 false).moduleReset)
    else s.vendorReply medium rq 1 Cpl.refused []
  | 2 => let (r, s) := s.challenge; s.vendorReply medium rq 2 Cpl.ok r
  | 3 => match s.token body (viaOf medium rq) with
    | .done c s => s.vendorReply medium rq 3 c []
    | .later s => s
  | 4 => let (c, s) := s.password body; s.vendorReply medium rq 4 c []
  | _ => s.vendorReply medium rq 5 Cpl.ok (leBytes 8 s.secStageWord)

/-- A request as it waits for the SEC unit: the medium with 8 added for its bus owner, and the message. -/
def State.serveWaiting (s : State) (w : Nat × List Byte) : State :=
  s.vendorServe (w.1 % 8) (decide (8 ≤ w.1)) (w.2.getD 5 0).toNat (w.2.getD 6 0).toNat (w.2.drop 7)

/-- A message of a row: one that is malformed is answered with COMPLETION 3; one of another command is that command's row's.
While a clear runs a request waits, but for a token of TYPE 3, whose answer is BUSY (R550, R568). -/
def State.vendorMsg (s : State) (medium : Nat) (owner : Bool) (msg : List Byte) (cmds : List Nat) : State :=
  let rq := (msg.getD 5 0).toNat
  let cmd := (msg.getD 6 0).toNat
  if !s.vendorUp || !s.mediumUp medium || msg.length < 7 || (msg.getD 0 0).toNat % 128 ≠ 0x7F || !bit rq 7 then s
  else if msg.take 5 ≠ vendorHead || bodyLen cmd ≠ some (msg.length - 7) then s.vendorReply medium rq cmd Cpl.invalid []
  else if !cmds.contains cmd then s
  else if s.tm.clearing.isSome && !(cmd == 3 && tokenType (msg.drop 7) == 3) then
    s.setSe (fun e => { e with busyWait := e.busyWait ++ [(medium + (if owner then 8 else 0), msg)] })
  else s.vendorServe medium owner rq cmd (msg.drop 7)

/-- RESET (R532, R550). -/
def execReset (medium : Nat) (owner : Bool) (msg : List Byte) (s : State) : Host.Outcome State Fault Refusal :=
  .next (s.vendorMsg medium (owner && medium != 2) msg [1])
/-- GET_CHALLENGE (R549). -/
def execGetChallenge (medium : Nat) (msg : List Byte) (s : State) : Host.Outcome State Fault Refusal := .next (s.vendorMsg medium false msg [2])
/-- SUBMIT_TOKEN (R552). -/
def execSubmitToken (medium : Nat) (msg : List Byte) (s : State) : Host.Outcome State Fault Refusal := .next (s.vendorMsg medium false msg [3])
/-- SUBMIT_PASSWORD (R549). -/
def execSubmitPassword (medium : Nat) (msg : List Byte) (s : State) : Host.Outcome State Fault Refusal := .next (s.vendorMsg medium false msg [4])
/-- GET_STAGE (R550). -/
def execGetStage (medium : Nat) (msg : List Byte) (s : State) : Host.Outcome State Fault Refusal := .next (s.vendorMsg medium false msg [5])
/-- DBG_AUTH (R548, R550): the bytes from byte 6 on, over the TAP, which has no bus owner. -/
def execDbgAuth (msg : List Byte) (s : State) : Host.Outcome State Fault Refusal :=
  .next (s.vendorMsg 2 false (vendorHead ++ [0x80] ++ msg) [1, 2, 3, 4, 5])

/-- SEC_BUSY_TIMEOUT: the oldest request of a medium that waits is answered with COMPLETION 2 (R550). -/
def execSecBusyTimeout (medium : Nat) (s : State) : Host.Outcome State Fault Refusal :=
  match s.se.busyWait.find? (fun w => w.1 % 8 == medium) with
  | none => .next s
  | some w =>
    let s := s.setSe (fun e => { e with busyWait := e.busyWait.erase w })
    .next (s.vendorReply medium (w.2.getD 5 0).toNat (w.2.getD 6 0).toNat Cpl.busy [])

/-! ### Clears of the recorder (R564, R567, R568) -/

/-- CLEAR_ERASE_END: DONE is programmed, the request answered, and the requests that waited are served. -/
def execClearEraseEnd (s : State) : Host.Outcome State Fault Refusal :=
  match s.tm.clearing with
  | none => .next s
  | some n =>
    let via := s.tm.clearVia
    let s := s.clearDone n
    let s := if via % 8 = viaPldm then s.emit (pldmReply 0 []) else s.vendorReply (via % 8) (via / 8) 3 Cpl.ok []
    let ws := s.se.busyWait
    let s := s.setSe (fun e => { e with busyWait := [] })
    .next (ws.foldl (fun s w => if s.vendorUp then s.serveWaiting w else s) s)

/-- SUBMIT_TIDEMARK_CLEAR: the PLDM command; only a token of TYPE 3 is one of its tokens. -/
def execSubmitTidemarkClear (token : List Byte) (s : State) : Host.Outcome State Fault Refusal :=
  if !s.pldmUp || s.se.scan then .next s
  else if token.length ≠ 160 || tokenType token ≠ 3 then .next (s.useNonce.tokenRefused.emit (pldmReply 0x80 []))
  else match s.token token viaPldm with
    | .done c s => .next (s.emit (pldmReply (if c = Cpl.busy then 0x82 else if c = Cpl.lockedOut then 0x81 else 0x80) []))
    | .later s => .next s

end Sys2Proof.Machine
end

