-- ==== Sys2Proof/Machine/Attest.lean ====
section
/-! DEFINITION. Attestation over SPDM, memory keys, firmware update over PLDM, MCTP control
(R535, R539, R540, R543 to R547, R554). The bytes that the protocols' own standards fix are free (log entry 10). -/

namespace Sys2Proof.Machine

/-! ### The responder (R543) -/

/-- The responder answers from stage 3 on. -/
def State.spdmUp (s : State) : Bool := s.vendorUp

def State.setSpdm (s : State) (f : Spdm → Spdm) : State := s.setSe (fun e => { e with spdm := f e.spdm })

/-- Codes of the requests, as DSP0274 numbers them (log entry 10). -/
def Sp.digests : Nat := 0x81
def Sp.certificate : Nat := 0x82
def Sp.challenge : Nat := 0x83
def Sp.version : Nat := 0x84
def Sp.measurements : Nat := 0xE0
def Sp.capabilities : Nat := 0xE1
def Sp.algorithms : Nat := 0xE3
def Sp.keyExchange : Nat := 0xE4
def Sp.finish : Nat := 0xE5
def Sp.heartbeat : Nat := 0xE8
def Sp.keyUpdate : Nat := 0xE9
def Sp.endSession : Nat := 0xEC
def Sp.vendor : Nat := 0xFE

/-- Reply bytes of a standard: `n` of them for a command and an argument. -/
def replyBytes (cmd arg n : Nat) : List Byte := (List.range n).map (Config.replyByte cmd arg)

/-- An answered request; `b` is 0 for a response, else the error. -/
def State.spdmReply (s : State) (cmd err : Nat) (data : List Byte) : State :=
  (s.count clsSec 0 Ev.SEC_SPDM_REQUESTS 1).emit { kind := outSpdm, a := cmd, b := err, data := data }

/-- Errors of DSP0274: Busy, UnexpectedRequest, InvalidRequest, DecryptError. -/
def Er.invalid : Nat := 0x01
def Er.busy : Nat := 0x03
def Er.unexpected : Nat := 0x04
def Er.decrypt : Nat := 0x06

def argOf (msg : List Byte) : Nat := leNat msg

/-- The versions offered: 1.2 and 1.3, and no other (R3, R543; the layout is DSP0274's, log entry 10). -/
def spdmVersions (arg : Nat) : List Byte := replyBytes Sp.version arg 5 ++ [2, 0x00, 0x12, 0x00, 0x13]

/-- The capability flags: CERT, CHAL, MEAS with signature, MEAS_FRESH, ENCRYPT, MAC, MUT_AUTH, KEY_EX and HBEAT. Every option
that R543 does not list reads as absent (R3); KEY_UPD, whose message it lists and whose flag it does not, is free. -/
def spdmFlags (arg : Nat) : List Byte := [0xF6, 0x23 ||| (Config.replyByte Sp.capabilities arg 9 &&& 0x40), 0, 0]
def spdmCapabilities (arg : Nat) : List Byte :=
  replyBytes Sp.capabilities arg 8 ++ spdmFlags arg ++ (List.range 8).map (fun i => Config.replyByte Sp.capabilities arg (12 + i))

/-- The algorithms selected: of each selection no bit but those of R543's algorithms can be set (R3): SHA-384 measurement
digests, ECDSA P-384, SHA-384; then secp384r1, AES-256-GCM, ECDSA P-384 for mutual authentication and the SPDM key schedule. -/
def spdmAlgorithms (arg : Nat) : List Byte :=
  let b := fun i => Config.replyByte Sp.algorithms arg i
  let sel := fun i (m : Byte) => [b i &&& m, 0, 0, 0]
  let row := fun (t : Byte) i (m : Byte) => [t, 0x20, b i &&& m, 0]
  replyBytes Sp.algorithms arg 8 ++ sel 8 0x04 ++ sel 12 0x80 ++ sel 16 0x02 ++ List.replicate 16 0
    ++ row 2 36 0x10 ++ row 3 40 0x02 ++ row 4 44 0x80 ++ row 5 48 0x01

/-- GET_VERSION starts the negotiation again; 1.3 and 1.2 are offered. -/
def execGetVersion (msg : List Byte) (s : State) : Host.Outcome State Fault Refusal :=
  if !s.spdmUp then .next s
  else .next ((s.setSpdm (fun _ => { step := 1 })).spdmReply Sp.version 0 (spdmVersions (argOf msg)))

/-- GET_CAPABILITIES. -/
def execGetCapabilities (msg : List Byte) (s : State) : Host.Outcome State Fault Refusal :=
  if !s.spdmUp then .next s
  else if s.se.spdm.step ≠ 1 then .next (s.spdmReply Sp.capabilities Er.unexpected [])
  else .next ((s.setSpdm (fun p => { p with step := 2 })).spdmReply Sp.capabilities 0 (spdmCapabilities (argOf msg)))

/-- NEGOTIATE_ALGORITHMS. -/
def execNegotiateAlgorithms (msg : List Byte) (s : State) : Host.Outcome State Fault Refusal :=
  if !s.spdmUp then .next s
  else if s.se.spdm.step ≠ 2 then .next (s.spdmReply Sp.algorithms Er.unexpected [])
  else .next ((s.setSpdm (fun p => { p with step := 3 })).spdmReply Sp.algorithms 0 (spdmAlgorithms (argOf msg)))

/-- A request that needs the negotiation done. -/
def State.negotiated (s : State) (cmd : Nat) (f : State → State) : State :=
  if !s.spdmUp then s else if s.se.spdm.step < 3 then s.spdmReply cmd Er.unexpected [] else f s

/-- GET_DIGESTS: the digest of the chain in slot 0, the only one (R544). -/
def execGetDigests (msg : List Byte) (s : State) : Host.Outcome State Fault Refusal :=
  .next (s.negotiated Sp.digests (fun s => s.spdmReply Sp.digests 0 (replyBytes Sp.digests (argOf msg) 48)))
/-- GET_CERTIFICATE: the slot number is the low half of byte 2. -/
def execGetCertificate (msg : List Byte) (s : State) : Host.Outcome State Fault Refusal :=
  .next (s.negotiated Sp.certificate (fun s =>
    if (msg.getD 2 0).toNat % 16 ≠ 0 then s.spdmReply Sp.certificate Er.invalid []
    else s.spdmReply Sp.certificate 0 (replyBytes Sp.certificate (argOf msg) 1024)))
/-- CHALLENGE of slot 0. -/
def execChallenge (msg : List Byte) (s : State) : Host.Outcome State Fault Refusal :=
  .next (s.negotiated Sp.challenge (fun s =>
    if (msg.getD 2 0).toNat % 16 ≠ 0 then s.spdmReply Sp.challenge Er.invalid []
    else (s.setSpdm (fun p => { p with challenged := true })).spdmReply Sp.challenge 0 (replyBytes Sp.challenge (argOf msg) 212)))

/-! ### Measurements (R544, Table 19-6) -/

/-- What a key slot holds, for the measurements: how its key came. -/
def State.keySource (s : State) (k : Nat) : Nat := mget 0 s.hb.keySrc k

/-- What an index measures; none where there is no such index. -/
def State.measured (s : State) (i : Nat) : Option (List Nat) :=
  if i = 1 then some []
  else if i = 2 then some [s.se.running, s.secBootWord]
  else if i = 3 then some [s.secBootWord]
  else if i = 4 then some [0xB0, s.se.minSvn]
  else if i = 5 then some ([s.fld clsEdge 8 R.EDGE_ROLES_ROLE, s.fld clsEdge 8 R.TIERB_CFG_WAYS] ++ s.ra.retire)
  else if i = 6 then some [s.secDebugWord]
  else if i = 7 then some ((List.range 80).map (fun p => mget 0 s.se.diemap p))
  else if 0x10 ≤ i && i < 0x50 then
    let c := i - 0x10
    some ([s.fld clsCove c R.COVE_CFG_MODE, s.fld clsCove c R.COVE_CFG_STRICT, s.fld clsCove c R.COVE_CFG_PEER_ACCEPT, s.keySource c]
      ++ s.coveChans c ++ [1024] ++ s.coveSlices c ++ [1024] ++ s.coveCoreBits c)
  else if i = 0x50 then
    some ([s.commonsC, s.fld clsCove 64 R.COMMONS_CFG_MIRROR, s.keySource 64] ++ s.coveChans 64)
  else none

/-- Whether an index belongs to an owner that is not ACTIVE: it gives the digest of zero bytes. -/
def State.measuresFree (s : State) (i : Nat) : Bool :=
  (0x10 ≤ i && i < 0x50 && (s.cove (i - 0x10)).st != 2) || (i == 0x50 && (s.cove 64).st != 2)

/-- The answer to one index: an error, or the digest or raw bytes. -/
def State.measurement (s : State) (i : Nat) (raw : Bool) : Nat × List Byte :=
  match s.measured i with
  | none => (Er.invalid, [])
  | some l =>
    if !s.ready && (i = 5 || i = 7 || 0x10 ≤ i) then (Er.busy, [])
    else if raw then (if i = 3 || i = 6 then (0, l.flatMap (leBytes 8)) else (Er.invalid, []))
    else if s.measuresFree i then (0, Config.sha384 [])
    else (0, Config.measurement i l)

/-- GET_MEASUREMENTS. -/
def execGetMeasurements (index : Nat) (raw : Bool) (s : State) : Host.Outcome State Fault Refusal :=
  .next (s.negotiated Sp.measurements (fun s =>
    let r := s.measurement index raw
    s.spdmReply Sp.measurements r.1 r.2))

/-! ### Sessions (R543) -/

/-- KEY_EXCHANGE: a handshake begins; the session's number is free. `root` is the requester's root public key. -/
def execKeyExchange (mutAuth : Bool) (root : List Byte) (s : State) : Host.Outcome State Fault Refusal :=
  .next (s.negotiated Sp.keyExchange (fun s =>
    let (n, s) := s.draw (2 ^ 32 - 1)
    (s.setSpdm (fun p => { p with step := 4, session := n + 1, mutAuth := mutAuth, root := leNat (Config.sha384 root) })).spdmReply
      Sp.keyExchange 0 (leBytes 4 (n + 1))))

/-- FINISH: the session is established, or the handshake ends. -/
def execFinish (ok : Bool) (s : State) : Host.Outcome State Fault Refusal :=
  .next (s.negotiated Sp.finish (fun s =>
    if s.se.spdm.step ≠ 4 then s.spdmReply Sp.finish Er.unexpected []
    else if ok then ((s.setSpdm (fun p => { p with step := 5 })).count clsSec 0 Ev.SEC_SPDM_SESSIONS 1).spdmReply Sp.finish 0 []
    else (s.setSpdm (fun p => { p with step := 3, session := 0, mutAuth := false, root := 0 })).spdmReply Sp.finish Er.decrypt []))

/-- Whether a session is the established one. -/
def State.inSession (s : State) (n : Nat) : Bool := s.se.spdm.step == 5 && s.se.spdm.session == n

/-- A message of a secured session; without it the record cannot be decrypted. -/
def State.secured (s : State) (cmd n : Nat) (f : State → State) : State :=
  if !s.spdmUp then s else if s.inSession n then f s else s.spdmReply cmd Er.decrypt []

def execHeartbeat (session : Nat) (s : State) : Host.Outcome State Fault Refusal :=
  .next (s.secured Sp.heartbeat session (fun s => s.spdmReply Sp.heartbeat 0 []))
def execKeyUpdate (session : Nat) (s : State) : Host.Outcome State Fault Refusal :=
  .next (s.secured Sp.keyUpdate session (fun s => s.spdmReply Sp.keyUpdate 0 []))
/-- END_SESSION: the session is gone. -/
def execEndSession (session : Nat) (s : State) : Host.Outcome State Fault Refusal :=
  .next (s.secured Sp.endSession session (fun s =>
    (s.spdmReply Sp.endSession 0 []).setSpdm (fun p => { p with step := 3, session := 0, mutAuth := false, root := 0 })))

/-! ### Memory keys (R545 to R547) -/

/-- The owner of a key slot is FREE. -/
def State.slotFree (s : State) (k : Nat) : Bool := (s.cove k).st == 0

/-- A slot is loaded: `src` is 1 for GENERATE and 2 for KEY_IMPORT. -/
def State.loadKey (s : State) (k src : Nat) : State :=
  { (s.count clsSec 0 Ev.SEC_KEY_LOADS 1) with
    hb := { (s.count clsSec 0 Ev.SEC_KEY_LOADS 1).hb with keyEpoch := bump s.hb.keyEpoch k 1, keySrc := mset 0 s.hb.keySrc k src } }

/-- SEC_IMPORT_ROOT as a number of 384 bits. -/
def State.importRoot (s : State) : Nat :=
  (List.range 6).foldl (fun v n => v + s.fldN clsSec 0 R.SEC_IMPORT_ROOT_n_HASH (8 * n) * 2 ^ (64 * n)) 0

/-- The status of a KEY_IMPORT body. -/
def State.importStatus (s : State) (body : List Byte) : Nat :=
  let k := (body.getD 0 0).toNat
  if s.importRoot = 0 || s.se.spdm.root ≠ s.importRoot then 1
  else if 64 < k then 3
  else if !s.slotFree k then 2
  else if (body.drop 1).take 32 = (body.drop 33).take 32 then 4
  else 0

/-- KEY_IMPORT: one outside a session with mutual authentication, or with another body length, is an error. -/
def execKeyImport (session : Nat) (body : List Byte) (s : State) : Host.Outcome State Fault Refusal :=
  if !s.spdmUp then .next s
  else if !s.inSession session || !s.se.spdm.mutAuth || body.length ≠ 65 then
    .next ((s.count clsSec 0 Ev.SEC_IMPORT_REFUSED 1).spdmReply Sp.vendor (if s.inSession session then Er.invalid else Er.decrypt) [])
  else
    let r := s.importStatus body
    if r = 0 then .next ((s.loadKey (body.getD 0 0).toNat 2).spdmReply Sp.vendor 0 (leBytes 1 0))
    else .next ((s.count clsSec 0 Ev.SEC_IMPORT_REFUSED 1).spdmReply Sp.vendor 0 (leBytes 1 r))

/-- A write of SEC_KEY_CTL: SLOT and OP. The load is done in one event, so BUSY is never seen set. -/
def State.keyCtl (s : State) (slot op : Nat) : State :=
  let s := s.setFld clsSec 0 R.SEC_KEY_CTL_SLOT slot
  if op ≠ 1 then s
  else if 64 < slot then s.setFld clsSec 0 R.SEC_KEY_CTL_RESULT 2
  else if !s.slotFree slot then s.setFld clsSec 0 R.SEC_KEY_CTL_RESULT 1
  else (s.loadKey slot 1).setFld clsSec 0 R.SEC_KEY_CTL_RESULT 0

/-! ### Firmware update (R540) -/

/-- PLDM of type 5 is answered from stage 3 on, and by the recovery responder. -/
def State.updUp (s : State) : Bool := !s.se.off && !s.se.scan && (s.se.recovery || decide (3 ≤ s.se.stage))

/-- The slot that is not running; in recovery mode, where none runs, the one not preferred. -/
def State.idleSlot (s : State) : Nat := if s.se.recovery then 1 - s.se.prefer % 2 else 1 - s.se.running % 2

/-- A PLDM answer: completion code and body. -/
def State.updReply (s : State) (code : Nat) (bs : List Byte) : State := s.emit (pldmReply code bs)

/-- Completion codes of DSP0267: not in update mode, already in it, wrong state (log entry 10). -/
def Up.notInMode : Nat := 0x80
def Up.already : Nat := 0x81
def Up.badState : Nat := 0x84

/-- The steps of an update: 0 idle, 1 requested, 2 component table passed, 3 component under way, 4 verified. -/
def State.inUpdate (s : State) (steps : List Nat) (f : State → State) : State :=
  if !s.updUp then s
  else if s.se.update = 0 then s.updReply Up.notInMode []
  else if !steps.contains s.se.update then s.updReply Up.badState []
  else f s

def execQueryDeviceIdentifiers (s : State) : Host.Outcome State Fault Refusal :=
  if s.updUp then .next (s.updReply 0 (replyBytes 0x501 0 32)) else .next s
/-- A version as one decimal digit. -/
def digit (n : Nat) : Byte := BitVec.ofNat 8 (48 + n % 10)

/-- The firmware parameters (R1, R540; the layout is DSP0267's, log entry 10): one component, the bundle. Its entry of the
component parameter table gives the major version of the running image, and of the one that the next module reset starts
where an update has been activated. -/
def State.fwParams (s : State) : List Byte :=
  let free := fun k n => (List.range n).map (fun i => Config.replyByte 0x502 s.secBootWord (k + i))
  let now := [digit (s.se.slots.getD s.se.running {}).major]
  let next := if s.se.pendingImg then [digit (s.se.slots.getD s.se.prefer {}).major] else []
  let len := BitVec.ofNat 8 next.length
  free 0 4 ++ [1, 0, 1, 1, 1, len] ++ now ++ next
    ++ (free 16 9 ++ [1, 1] ++ free 32 12 ++ [1, len] ++ free 48 14 ++ now ++ next)

/-- GET_FIRMWARE_PARAMETERS: the versions of the running and the pending image. -/
def execGetFirmwareParameters (s : State) : Host.Outcome State Fault Refusal :=
  if s.updUp then .next (s.updReply 0 s.fwParams) else .next s
/-- REQUEST_UPDATE: the module enters update mode. -/
def execRequestUpdate (size : Nat) (s : State) : Host.Outcome State Fault Refusal :=
  if !s.updUp then .next s
  else if s.se.update ≠ 0 then .next (s.updReply Up.already [])
  else .next ((s.setSe (fun e => { e with update := 1, updSize := size, updGot := 0 })).updReply 0 [])
def execPassComponentTable (s : State) : Host.Outcome State Fault Refusal :=
  .next (s.inUpdate [1] (fun s => (s.setSe (fun e => { e with update := 2 })).updReply 0 []))
/-- UPDATE_COMPONENT: the idle slot is about to be written, so what it held is gone. -/
def execUpdateComponent (hdr : Slot) (s : State) : Host.Outcome State Fault Refusal :=
  .next (s.inUpdate [2] (fun s =>
    let n := s.idleSlot
    (s.setSe (fun e => { e with
      update := 3, updGot := 0, updHdr := hdr, slots := e.slots.set n { (e.slots.getD n {}) with valid := false } })).updReply 0 []))
/-- REQUEST_FIRMWARE_DATA: data for the idle slot; with the last of it the image is verified under R538. -/
def execRequestFirmwareData (bytes : Nat) (verifies : Bool) (s : State) : Host.Outcome State Fault Refusal :=
  .next (s.inUpdate [3] (fun s =>
    let got := s.se.updGot + bytes
    if got < s.se.updSize then s.setSe (fun e => { e with updGot := got })
    else if verifies && decide (s.se.minSvn ≤ s.se.updHdr.svn) then
      (s.setSe (fun e => { e with
        updGot := got, update := 4, slots := e.slots.set s.idleSlot { e.updHdr with valid := true } })).updReply 0 []
    else (s.setSe (fun e => { e with updGot := 0, update := 2 })).updReply 1 []))
/-- ACTIVATE_FIRMWARE: the preference bit is the last write; the new image runs from the next module reset. -/
def execActivateFirmware (s : State) : Host.Outcome State Fault Refusal :=
  .next (s.inUpdate [4] (fun s =>
    (s.setSe (fun e => { e with prefer := s.idleSlot, pendingImg := true, update := 0 })).updReply 0 []))
def execGetStatus (s : State) : Host.Outcome State Fault Refusal :=
  if s.updUp then .next (s.updReply 0 (leBytes 1 s.se.update)) else .next s
def execCancelUpdateComponent (s : State) : Host.Outcome State Fault Refusal :=
  .next (s.inUpdate [3, 4] (fun s => (s.setSe (fun e => { e with
    update := 2, updGot := 0, slots := e.slots.set s.idleSlot { (e.slots.getD s.idleSlot {}) with valid := false } })).updReply 0 []))
def execCancelUpdate (s : State) : Host.Outcome State Fault Refusal :=
  .next (s.inUpdate [1, 2, 3, 4] (fun s => (s.setSe (fun e => { e with update := 0, updGot := 0 })).updReply 0 []))

/-! ### MCTP control (R535) -/

/-- MCTP_CONTROL_MESSAGE: answered on SMBus, by the recovery responder too, and on PCIe VDM through the primary port. -/
def execMctpControlMessage (medium : Nat) (msg : List Byte) (s : State) : Host.Outcome State Fault Refusal :=
  if s.updUp && (medium == 1 || (medium == 0 && !s.se.recovery && s.mediumUp 0)) then
    .next (s.emit { kind := outMctp, a := medium, data := replyBytes 0x600 (argOf msg) 8 })
  else .next s

end Sys2Proof.Machine
end

