-- ==== Sys2Proof/Machine/TideCmd.lean ====
section
/-! DEFINITION. TIDE_LOAD, TIDE_START, TIDE_HOLD, TIDE_RESUME and TIDE_ABORT
(R367 to R371, R376, R381, R382, R385, R387, R390, R451, Table 15-10). -/

namespace Sys2Proof.Machine

/-! ### The image (R368 to R371) -/

/-- A section descriptor (Table 13-5). -/
structure Sect where
  ty : Nat
  target : Nat
  count : Nat
  va : Nat

def sectOf (bs : List Byte) (i : Nat) : Sect :=
  let v := leNat ((bs.drop (64 + 16 * i)).take 16)
  { ty := bits v 7 0, target := bits v 31 16, count := bits v 63 32, va := bits v 120 64 }

/-- What R368 finds wrong with a header: the offset of the field. -/
def headerBad (bs : List Byte) : Option Nat :=
  let n := fun o k => leNat ((bs.drop o).take k)
  if n 0 1 ≠ 0xE7 then some 0
  else if n 1 1 ≠ 1 then some 1
  else if n 2 1 < 4 || 12 < n 2 1 then some 2
  else if n 3 1 = 0 then some 3
  else if 32767 < n 4 2 || n 6 2 < n 4 2 then some 4
  else if 32767 < n 6 2 then some 6
  else if n 14 1 = 0 then some 14
  else if n 15 1 = 0 || 15 < n 15 1 then some 15
  else if n 16 2 = 0 then some 16
  else if n 26 38 ≠ 0 then some 26
  else none

/-- Whether a section descriptor is well formed (Table 13-5). -/
def sectOk (bs : List Byte) (i : Nat) : Bool :=
  let v := leNat ((bs.drop (64 + 16 * i)).take 16)
  let d := sectOf bs i
  bits v 15 8 == 0 && bits v 127 121 == 0 && (match d.ty with
    | 1 => decide (0 < d.count) && decide (d.target + d.count ≤ 1024)
    | 2 => decide (d.target + d.count ≤ 1024)
    | 3 => decide (d.target < 16)
    | 4 => decide (d.target < 24) || (decide (0x100 ≤ d.target) && decide (d.target < 0x110))
    | _ => false)

/-- What checking an image comes to. A failure of the image names its section and entry. -/
inductive Chk (α : Type)
  | wait
  | bad (status reason detail : Nat)
  | ok (v : α)

/-- DETAIL of an IMAGE failure; the header counts as section 255 (DESIGN CHOICE, log entry 29). -/
def imageDetail (sect entry : Nat) : Nat := sect * 2 ^ 24 + entry % 2 ^ 24
def Chk.image {α : Type} (sect entry : Nat) : Chk α := .bad Sta.format Rsn.image (imageDetail sect entry)

def State.readChk {α : Type} (s : State) (cove space a n sect : Nat) (f : List Byte → Chk α) : Chk α :=
  match s.readRec cove space a n with
  | .wait => .wait
  | .bad st why => .bad st why (imageDetail sect 0)
  | .ok bs => f bs

/-- Cores of a CODE or SLOTS section. -/
def Sect.cores (d : Sect) : List Nat := (List.range d.count).map (fun i => d.target + i)

/-- A CODE section: one launch on its cores. -/
def State.loadCode (s : State) (k : Cmd) (slot i : Nat) (d : Sect) (m : Dom) : Chk Dom :=
  let cove := s.coveOf k.ctx
  s.readChk cove 0 d.va 128 i (fun bs =>
    let v := leNat bs
    let l := { recordLaunch v k.ctx cove k.seq k.rm k.sm with cores := d.cores, tide := some slot }
    if (launchAllOnes v).isSome then .bad Sta.lenReserved Rsn.lenAllOnes (imageDetail i 0)
    else if l.zero then .ok { m with cores := m.cores ++ d.cores.filter (fun c => !m.cores.contains c) }
    else match launchBad v l with
      | some _ => Chk.image i 0
      | none => .ok { m with cores := m.cores ++ d.cores.filter (fun c => !m.cores.contains c), launches := m.launches ++ [l] })

/-- A SLOTS section: one slot table for each of its cores. -/
def State.loadSlots (s : State) (k : Cmd) (i : Nat) (d : Sect) (m : Dom) : Chk Dom :=
  s.readChk (s.coveOf k.ctx) 0 d.va (1024 * d.count) i (fun bs =>
    (List.range d.count).foldl (fun r j => match r with
      | .ok m => match parseSlots ((bs.drop (1024 * j)).take 1024) with
        | (some _, _) => Chk.image i j
        | (none, t) =>
          let c := d.target + j
          .ok { m with cores := (if m.cores.contains c then m.cores else m.cores ++ [c]), slotTabs := m.slotTabs.filter (fun p => p.1 != c) ++ [(c, t)] }
      | r => r) (.ok m))

/-- Bytes of a whole multicast table. -/
def mtabBytes : Nat := 64 * 128

/-- A SPINDLE section: a multicast table, then tile entries. -/
def State.loadSpindle (s : State) (k : Cmd) (slot i : Nat) (d : Sect) (m : Dom) : Chk Dom :=
  let cove := s.coveOf k.ctx
  s.readChk cove 0 d.va (mtabBytes + 32 * d.count) i (fun bs =>
    let sets := parseSets bs 64
    if (s.setBad cove sets).isSome then Chk.image i 0
    else
      let es := (List.range d.count).map (fun j => leNat ((bs.drop (mtabBytes + 32 * j)).take 32))
      let tick := fun v => bits v 159 128
      match (es.zip (es.headD 0 :: es)).zipIdx.find? (fun p => (rsvByte 32 p.1.1 tileBits).isSome || decide (tick p.1.1 < tick p.1.2)) with
      | some p => Chk.image i p.2
      | none =>
        let t : Table := {
          src := .dom slot m.tables.length, kind := 0, target := d.target, cove := cove, va := d.va + mtabBytes, count := d.count, msets := sets }
        .ok { m with
          tables := m.tables ++ [t]
          plans := m.plans ++ es.flatMap (fun v => (sets.getD (bits v 111 104) []).map (fun c => (c, tick v + m.spnPlat))) })

/-- What is wrong with the descriptor that a RED entry names (R416). -/
def State.redEntry (s : State) (cove i j v : Nat) : Chk Unit :=
  s.readChk cove 0 (bits v 248 192) 64 i (fun bs =>
    let d := leNat bs
    if bits d 63 32 = 2 ^ 32 - 1 then .bad Sta.lenReserved Rsn.lenAllOnes (imageDetail i j)
    else if (s.torBad d).isSome then Chk.image i j
    else .ok ())

/-- A LINK section. A Tideway table's port must have a neighbouring module. -/
def State.loadLink (s : State) (k : Cmd) (slot i : Nat) (d : Sect) (m : Dom) : Chk Dom :=
  let cove := s.coveOf k.ctx
  s.readChk cove 0 d.va (32 * d.count) i (fun bs =>
    let es := (List.range d.count).map (fun j => leNat ((bs.drop (32 * j)).take 32))
    match (es.zip (es.headD 0 :: es)).zipIdx.find? (fun p =>
        (linkBad d.target p.1.1).isSome || decide (linkTick p.1.1 < linkTick p.1.2) || (decide (d.target < 24) && !s.portServes d.target)) with
    | some p => Chk.image i p.2
    | none =>
      match es.zipIdx.foldl (fun (r : Chk Unit) p => match r with
          | .ok () => if linkKind p.1 = 1 then s.redEntry cove i p.2 p.1 else .ok ()
          | r => r) (.ok ()) with
      | .wait => .wait
      | .bad st why o => .bad st why o
      | .ok () =>
        let t : Table := {
          src := .dom slot m.tables.length, kind := 1, target := d.target, cove := cove, va := d.va, count := d.count }
        let twp := decide (d.target < 24)
        let names := twp && es.any (fun v => linkKind v = 0 || linkKind v = 1)
        let far := if twp then (es.filter (fun v => linkKind v = 0 || linkKind v = 3)).map (fun v => (d.target, bits v 121 112)) else []
        .ok { m with
          tables := m.tables ++ [t], neigh := (if names && !m.neigh.contains d.target then m.neigh ++ [d.target] else m.neigh)
          remote := m.remote ++ far.filter (fun p => !m.remote.contains p)
          plans := m.plans ++ (if twp then [] else (es.filter (fun v => linkKind v = 0 || linkKind v = 3)).map (fun v => (bits v 121 112, linkPlan v))) })

def State.loadSect (s : State) (k : Cmd) (slot : Nat) (bs : List Byte) (i : Nat) (m : Dom) : Chk Dom :=
  let d := sectOf bs i
  if !sectOk bs i then Chk.image i 0
  else match d.ty with
    | 1 => s.loadCode k slot i d m
    | 2 => s.loadSlots k i d m
    | 3 => s.loadSpindle k slot i d m
    | _ => s.loadLink k slot i d m

/-- The domain that an image describes, or what R371 finds wrong with it. -/
def State.loadImage (s : State) (k : Cmd) (slot : Nat) : Chk Dom :=
  let cove := s.coveOf k.ctx
  s.readChk cove k.a.space k.a.start 64 255 (fun h =>
    match headerBad h with
    | some o => Chk.image 255 o
    | none =>
      let n := (h.getD 3 0).toNat
      if k.a.bound < bytesOf k.a.fmt k.a.off + 64 + 16 * n then .bad Sta.bounds Rsn.bound 8
      else s.readChk cove k.a.space k.a.start (64 + 16 * n) 255 (fun bs =>
        let f := fun o c => leNat ((h.drop o).take c)
        let m : Dom := {
          st := 1, ctx := k.ctx, cove := cove, domainId := f 12 2, hash := f 8 4, rank := f 4 2, nmod := f 6 2 + 1, winLog := f 2 1, spnPlat := f 14 1
          holdLead := f 15 1, waitLimit := f 16 2, rm := k.rm, sm := k.sm }
        (List.range n).foldl (fun r i => match r with
          | .ok m => s.loadSect k slot bs i m
          | r => r) (.ok m)))

/-! ### Slots and cores -/

/-- A slot of another context (R451). -/
def State.foreignSlot (s : State) (x slot : Nat) : Bool := (s.dom slot).st != 0 && (s.dom slot).ctx != x
/-- A core that another domain reserves. -/
def State.coresTaken (s : State) (slot : Nat) (l : List Nat) : Bool :=
  s.ns.doms.any (fun p => p.1 != slot && p.2.reserved && l.any (fun c => p.2.cores.contains c))
/-- A core that runs blocks. -/
def State.coresBusy (s : State) (l : List Nat) : Bool := l.any (fun c => !(s.core c).blocks.isEmpty)

/-- R381: the slip records of a slot are cleared. -/
def State.clearSlips (s : State) (slot : Nat) : State :=
  let i := slot + 1
  let s := s.setFlds clsTide i [(R.TD_SLIP_MAX_CYCLES, 0), (R.TD_SLIP_MAX_LCORE, 0), (R.TD_SLIP_MAX_SLOT, 0), (R.TD_SLIP_TOTAL_CYCLES, 0),
    (R.TD_SEND_TOTAL_CYCLES, 0)]
  (List.range 16).foldl (fun s b => (s.setFldN clsTide i R.TD_SLIP_HIST_n_COUNT (8 * b) 0).setFldN clsTide i R.TD_SEND_HIST_n_COUNT (8 * b) 0) s

def slotRights (s : State) (k : Cmd) (o : Nat) : List (Nat × Nat × Bool) := [(o, Rsn.none, !s.foreignSlot k.ctx (k.byte o % 8))]

/-! ### TIDE_LOAD -/

/-- The load ends once no named core runs a block. -/
def State.loadEnd (s : State) (k : Cmd) (slot : Nat) : State :=
  if s.coresBusy (s.dom slot).cores then s.setCmd { k with st := .waiting }
  else (s.modDom slot (fun d => { d with cmd := none })).finish k 0

def loadBody (s : State) (k : Cmd) : Body :=
  { allowed := fieldBits [(127, 64), (130, 128)], refs := [(8, true, false)], rights := slotRights s k 16
    need := fun b _ => some (bytesOf b.fmt b.off + 64) }

/-- TIDE_LOAD: the whole image is checked first; the cores it names are reserved. -/
def execTideLoad (ctx q idx : Nat) (s : State) : Host.Outcome State Fault Refusal :=
  match s.turn ctx q idx 0x18 with
  | .first k => .next (s.validated k (loadBody s k) (fun s k =>
      let slot := k.byte 16 % 8
      let d := s.dom slot
      if 2 ≤ d.st || d.cmd.isSome then s.fail k Sta.state Rsn.domainState 16
      else match s.loadImage k slot with
        | .wait => s
        | .bad st why o => s.fail k st why o
        | .ok m =>
          if m.cores.any (fun c => !(s.coveCoreBits m.cove).contains c) then s.fail k Sta.permission Rsn.coreSet 8
          else if s.coresTaken slot m.cores then s.fail k Sta.state Rsn.coreReserved 8
          else
            let s := s.startCmd k .running
            let s := (s.modDom slot (fun _ => { m with reserved := true, cmd := some (ctx, q, idx) })).clearSlips slot
            s.loadEnd { k with st := .running, order := s.hs.nextStart - 1 } slot))
  | .again k => if k.st = .waiting && s.mayWork k then .next (s.loadEnd k (k.byte 16 % 8)) else .next s
  | .none => .next s

/-! ### TIDE_START (R382) -/

/-- T0 or Tr is at least 2 windows ahead. -/
def State.ahead (s : State) (d : Dom) (t : Nat) : Bool := decide (s.ns.tick + 2 * d.window ≤ t)

/-- The domain is ARMED. -/
def State.armDom (s : State) (k : Cmd) (slot t0 : Nat) : State :=
  let d := s.dom slot
  let s := s.modDom slot (fun d => { d with
    st := 2, cmd := some (k.ctx, k.queue, k.idx), epoch := (t0 : Int), tables := d.tables.map Table.fresh, boundary := none, holdAt := none
    faultHold := false, checks := [], checked := false, late := false, reserved := true })
  let s := s.setCmd { k with st := .running, blocksLeft := (d.launches.map Launch.blocks).sum }
  d.launches.foldl (fun s l => s.enqueueLaunch l) s

/-- The wait for the cores has ended, or has not. -/
def State.startDom (s : State) (k : Cmd) (slot : Nat) : State :=
  if s.coresBusy (s.dom slot).cores then s.setCmd { k with st := .waiting }
  else if !s.ahead (s.dom slot) (k.num 16 8) then (s.modDom slot Dom.loaded).fail k Sta.deadline Rsn.none 16
  else s.armDom k slot (k.num 16 8)

def startBody (s : State) (k : Cmd) : Body :=
  { allowed := fieldBits [(66, 64), (191, 128)], rights := slotRights s k 8 }

/-- TIDE_START. A T0 that is no multiple of the window is a FORMAT failure of a loaded slot. -/
def execTideStart (ctx q idx : Nat) (s : State) : Host.Outcome State Fault Refusal :=
  match s.turn ctx q idx 0x19 with
  | .first k => .next (s.validated k (startBody s k) (fun s k =>
      let slot := k.byte 8 % 8
      let d := s.dom slot
      let t0 := k.num 16 8
      if d.st ≠ 0 && t0 % d.window ≠ 0 then s.fail k Sta.format Rsn.epoch 16
      else if d.st ≠ 1 || d.cmd.isSome then s.fail k Sta.state Rsn.domainState 8
      else if 2 ≤ d.nmod && s.ns.align ≠ alAligned then s.fail k Sta.state Rsn.notAligned 8
      else if s.coresTaken slot d.cores then s.fail k Sta.state Rsn.coreReserved 8
      else if !s.coresBusy d.cores && !s.ahead d t0 then s.fail k Sta.deadline Rsn.none 16
      else
        let s := s.startCmd k .running
        let s := s.modDom slot (fun d => { d with reserved := true, cmd := some (ctx, q, idx) })
        s.startDom { k with st := .running, order := s.hs.nextStart - 1 } slot))
  | .again k => if k.st = .waiting && s.mayWork k then .next (s.startDom k (k.byte 8 % 8)) else .next s
  | .none => .next s

/-! ### TIDE_HOLD, TIDE_RESUME, TIDE_ABORT -/

/-- READY or BUSY for Table 15-10. -/
def Ctx.open (x : Ctx) : Bool := !x.heldBack

def holdBody (s : State) (k : Cmd) : Body := { allowed := fieldBits [(66, 64)], rights := slotRights s k 8 }

/-- TIDE_HOLD: it completes when the module is HELD. -/
def execTideHold (ctx q idx : Nat) (s : State) : Host.Outcome State Fault Refusal :=
  match s.turn ctx q idx 0x1A with
  | .first k => .next (s.validated k (holdBody s k) (fun s k =>
      let slot := k.byte 8 % 8
      if !((s.ctx ctx).open) then s.fail k Sta.state Rsn.ctxState 8
      else if (s.dom slot).st ≠ 2 && (s.dom slot).st ≠ 3 then s.fail k Sta.state Rsn.domainState 8
      else (((s.startCmd k .running).modCtx ctx (fun x => { x with bySw := true })).startHold slot).pumpAll))
  | _ => .next s

def resumeBody (s : State) (k : Cmd) : Body := { allowed := fieldBits [(66, 64), (223, 128)], rights := slotRights s k 8 }

/-- TIDE_RESUME: the context is restored (RESTORE) and the domain runs again at Tr; the command completes with the restore. -/
def execTideResume (ctx q idx : Nat) (s : State) : Host.Outcome State Fault Refusal :=
  match s.turn ctx q idx 0x1B with
  | .first k => .next (s.validated k (resumeBody s k) (fun s k =>
      let slot := k.byte 8 % 8
      let d := s.dom slot
      let tr := k.num 16 8
      let h := k.num 24 4
      if d.st ≠ 0 && tr % d.window ≠ 0 then s.fail k Sta.format Rsn.epoch 16
      else if h < d.boundary.getD 0 then s.fail k Sta.format Rsn.fieldRange 24
      else if (s.ctx ctx).st ≠ 3 then s.fail k Sta.state Rsn.ctxState 8
      else if d.st ≠ 5 then s.fail k Sta.state Rsn.domainState 8
      else if !s.ahead d tr then s.fail k Sta.deadline Rsn.none 16
      else
        let s := s.startCmd k .running
        let s := s.modDom slot (fun d => { d with st := 6, epoch := (tr : Int) - (h : Int), resumeAt := (tr : Int), late := false })
        s.modCtx ctx (fun x => { x with restoring := true, heldBySw := false, bySw := false })))
  | _ => .next s

/-- The commands that wait for a slot in the state LOADED: a load or a start whose cores run blocks. -/
def State.loadedCmd (s : State) (slot : Nat) : Option Cmd :=
  if (s.dom slot).st = 1 then s.cmdOf? (s.dom slot).cmd else none

/-- TIDE_ABORT: a LOADED slot becomes IDLE, another one ends under R390. -/
def execTideAbort (ctx q idx : Nat) (s : State) : Host.Outcome State Fault Refusal :=
  match s.turn ctx q idx 0x1C with
  | .first k => .next (s.validated k (holdBody s k) (fun s k =>
      let slot := k.byte 8 % 8
      let d := s.dom slot
      if d.st = 0 then s.fail k Sta.state Rsn.domainState 8
      else
        let s := s.startCmd k .running
        let k := { k with st := .running }
        if d.st = 1 then
          let c := s.loadedCmd slot
          let s := s.modDom slot (fun _ => {})
          let s := match c with | some j => s.fail j Sta.tideFault Rsn.domainAbort 0 | none => s
          s.finish k 0
        else ((s.abortDom slot Sta.tideFault Rsn.domainAbort 0 none).pumpAll).finish k 0))
  | _ => .next s

end Sys2Proof.Machine
end

