-- ==== Sys2Proof/Machine/RegWrite.lean ====
section
/-! DEFINITION. Writes of registers through BAR0 (R6 to R11, R461 to R471, R571 to R578, R602): where an offset leads,
what each access code does, and the registers whose write does more. -/

namespace Sys2Proof.Machine

/-! ### Where an offset leads (R571 to R573) -/

/-- A BAR0 offset: no register access at all, nothing there, dropped in silence, or a byte of a page. -/
inductive Place
  | unsupported
  | unmapped
  | dropped
  | page (cls inst byte : Nat)
  deriving DecidableEq, Repr

/-- A register that an offset of a page names, with the number of the entry where it repeats. -/
def regAt (cls inst byte : Nat) : Option (RegDef × Nat) :=
  ((if byte < 0x100 then regsHdr else (unitRegs cls).filter (fun r => decide (r.lo ≤ inst) && decide (inst ≤ r.hi))).find? (fun r =>
    decide (r.off ≤ byte) && (if r.stride = 0 then byte == r.off
      else (byte - r.off) % r.stride == 0 && decide ((byte - r.off) / r.stride < r.count)))).map
    (fun r => (r, if r.stride = 0 then 0 else (byte - r.off) / r.stride))

/-- Offsets that the map names as reserved: in the header, the fields a page shows in windows, and Table 16-9 for the
commons. Their bits discard writes (R7). -/
def reservedAt (cls inst byte : Nat) : Bool :=
  decide (byte < 0x100) || (cls == clsCove && inst == 64 && decide (0x280 ≤ byte) && decide (byte < 0x340)) ||
  (cls == clsDist && (if inst = 0 then byte == 0x100 || byte == 0x108 else decide (0x100 ≤ byte)))

/-- A page of the PF's BAR0. -/
def pfPlace (off : Nat) : Place :=
  let cls := off / 2 ^ 23
  let inst := off / 2 ^ 12 % 2 ^ 11
  match classMax cls with
  | none => .unmapped
  | some n => if inst ≤ n then .page cls inst (off % 4096) else .unmapped

/-- A page of a VF's BAR0: the CMDQ window at 0, the CTX window at 8 MiB (R573). Of the header nothing can be written. -/
def State.vfPlace (s : State) (c off : Nat) : Place :=
  let base := s.fld clsCove c R.COVE_CTX_BASE
  let n := s.fld clsCove c R.COVE_CTX_COUNT
  let byte := off % 4096
  if 2 ^ 24 ≤ off then .unmapped
  else if 2 ^ 23 ≤ off then
    let k := off % 2 ^ 23 / 4096
    if n ≤ k || byte < 0x100 then .dropped else .page (ctxCls (base + k)) ((base + k) % 2048) byte
  else
    let j := off / 4096
    if n ≤ 2 * j || byte < 0x100 then .dropped
    else if 0x200 ≤ byte then .unmapped
    else
      let i := 2 * j + (byte - 0x100) / 0x80
      let x := base + i
      if n ≤ i then .dropped else .page clsCmdq (x / 2) (0x100 + 0x80 * (x % 2) + (byte - 0x100) % 0x80)

/-- The physical die of a page of a compute die: a CORE page, or the power page of its island. -/
def pageDie (cls inst : Nat) : Option Nat :=
  if cls = clsCore then some (inst / 16) else if cls = clsPwr && 1 ≤ inst && inst ≤ 80 then some (inst - 1) else none

/-- R572: the die of the page is in use. -/
def State.pageLive (s : State) (cls inst : Nat) : Bool :=
  match pageDie cls inst with
  | some p => (s.logicalDie p).isSome
  | none => true

/-- The place of an access. Only aligned accesses of 4 or 8 bytes are register accesses (R10); before READY none is
performed on a page (R534); a function of a cove that is not ACTIVE has none (R463, R465). -/
def State.place (s : State) (w : RegW) : Place :=
  if !bar0Access w.off w.size then .unsupported
  else if !s.ready then .dropped
  else match w.vf with
    | none => if 2 ^ 28 ≤ w.off then .unmapped else pfPlace w.off
    | some c => if !s.vfOn c || (s.cove c).st ≠ 2 then .dropped else s.vfPlace c w.off

/-! ### One field (Table 0-4, R11) -/

/-- What a write carries for a 64-bit register: its bits, and which of them it addresses. -/
structure Wdata where
  val : Nat
  mask : Nat
  deriving DecidableEq, Repr

def wdata (w : RegW) : Wdata :=
  if w.size = 8 then ⟨w.val % 2 ^ 64, 2 ^ 64 - 1⟩
  else if w.off % 8 = 4 then ⟨w.val % 2 ^ 32 * 2 ^ 32, (2 ^ 32 - 1) * 2 ^ 32⟩
  else ⟨w.val % 2 ^ 32, 2 ^ 32 - 1⟩

/-- Whether a write addresses bits of a field. -/
def Wdata.covers (d : Wdata) (f : Fld) : Bool := bits d.mask f.hi f.lo != 0
/-- The value a field takes: addressed bits from the write, the others as they were. -/
def Wdata.merge (d : Wdata) (f : Fld) (old : Nat) : Nat :=
  let m := bits d.mask f.hi f.lo
  (bits d.val f.hi f.lo &&& m) ||| (old ^^^ (old &&& m))
/-- The bits of a field that the write gives as 1. -/
def Wdata.ones (d : Wdata) (f : Fld) : Nat := bits d.val f.hi f.lo &&& bits d.mask f.hi f.lo
/-- Whether a write gives the one bit of a field as 1. -/
def Wdata.sets (d : Wdata) (f : Fld) : Bool := d.ones f == 1

/-- Write one field by its access code; `e` is the byte distance of the entry. -/
def State.writeFld (s : State) (cls inst e : Nat) (d : Wdata) (f : FldDef) : State :=
  let old := s.fldN cls inst f.fld e
  if !d.covers f.fld then s
  else match f.acc with
    | .ro => s
    | .wo => s
    | .rw => s.setFldN cls inst f.fld e (d.merge f.fld old)
    | .rw1c => s.setFldN cls inst f.fld e (old ^^^ (old &&& d.ones f.fld))
    | .rw1s => s.setFldN cls inst f.fld e (old ||| d.ones f.fld)
    | .wl =>
      let k := fkey cls inst f.fld e
      if s.wl.contains k then s else { s.setFldN cls inst f.fld e (d.merge f.fld old) with wl := sadd k s.wl }

/-- Write the fields of a register that satisfy a test. -/
def State.writeFlds (s : State) (cls inst e : Nat) (d : Wdata) (r : RegDef) (ok : Fld → Bool) : State :=
  (r.fields.filter (fun f => ok f.fld)).foldl (fun s f => s.writeFld cls inst e d f) s

/-! ### The common header (R574 to R578) -/

/-- The four event counts go to zero (R578). -/
def State.clearCounts (s : State) (cls inst : Nat) : State :=
  (List.range 4).foldl (fun s n => s.setFldN cls inst R.EVT_COUNT_n_COUNT (0x20 * n) 0) s

/-- What a write of a header register does beside its fields. -/
def State.headerEffect (s : State) (cls inst e : Nat) (d : Wdata) (off : Nat) : State :=
  if off = R.UNIT_CTRL_EVT_CLR.off then
    let s := if d.sets R.UNIT_CTRL_EVT_CLR then s.clearCounts cls inst else s
    if d.sets R.UNIT_CTRL_ERRCNT_CLR then s.setFlds cls inst [(R.ERR_COUNT_TOTAL, 0), (R.ERR_COUNT_UNRECORDED, 0)] else s
  else if off = R.ERR_STATUS_CE.off then
    if s.errStatus cls inst = 0 then s.setFld cls inst R.ERR_FIRST_VALID 0 else s
  else if off = R.EVT_SEL_n_CODE.off then
    if d.covers R.EVT_SEL_n_CODE then s.setFldN cls inst R.EVT_COUNT_n_COUNT e 0 else s
  else s

/-! ### CORE, SLICE, TIDE, TWP, PWR, SEC and TMK pages -/

/-- The logical core of a CORE page. -/
def State.coreOfPage (s : State) (inst : Nat) : Option Nat := (s.logicalDie (inst / 16)).map (fun l => 16 * l + inst % 16)

/-- R219: ways of the L1 are on their way to scratchpad. -/
def Core.splitBusy (k : Core) : Bool :=
  match k.waiting with
  | [] => false
  | w :: _ => k.blocks.isEmpty && k.split != w.launch.split && !(k.passing w.launch.split).isEmpty

/-- R242: an L1_MAINT operation is refused while a block is resident or a split or cove change is under way. -/
def State.l1Maint (s : State) (k op : Nat) : State :=
  let x := s.core k
  if op = 0 || op = 3 then s
  else if !x.blocks.isEmpty || x.splitBusy || s.leaveBusy k then s.setK k R.L1_MAINT_REFUSED 1
  else (s.modCore k (fun x => { x with maint := op })).maintAll k

def State.coreEffect (s : State) (k : Nat) (d : Wdata) (off : Nat) : State :=
  if off = R.RECONV_HWM_HWM_CLR.off then (if d.sets R.RECONV_HWM_HWM_CLR then s.setK k R.RECONV_HWM_DEPTH_HWM 0 else s)
  else if off = R.ATOM_CTL_PRED_CLEAR.off then (if d.sets R.ATOM_CTL_PRED_CLEAR then s.modCore k (fun x => { x with pred := [] }) else s)
  else if off = R.L1_MAINT_OP.off then s.l1Maint k (d.ones R.L1_MAINT_OP)
  else s

/-- GHOST_STATE.HWM_CLR: the high-water mark becomes the number of live ghosts. -/
def State.sliceEffect (s : State) (h : Nat) (d : Wdata) (off : Nat) : State :=
  if off = R.GHOST_STATE_HWM_CLR.off && d.sets R.GHOST_STATE_HWM_CLR then s.modSlice h (fun y => { y with ghostHwm := y.ghosts.length })
  else s

def State.tideEffect (s : State) (inst : Nat) (d : Wdata) (off : Nat) : State :=
  if 1 ≤ inst && off = R.TD_CTL_HIST_CLR.off && d.sets R.TD_CTL_HIST_CLR then s.clearSlips (inst - 1) else s

/-- TWP_CFG: FORCE_RETRAIN and a change of ENABLE start training, which leaves a port that is not enabled DISABLED. -/
def State.twpEffect (s : State) (p was : Nat) (d : Wdata) (off : Nat) : State :=
  if p < 24 && off = R.TWP_CFG_ENABLE.off && (d.sets R.TWP_CFG_FORCE_RETRAIN || s.fld clsTwp p R.TWP_CFG_ENABLE ≠ was)
  then s.startTraining p else s

def State.pwrEffect (s : State) (inst : Nat) (d : Wdata) (off : Nat) : State :=
  if inst = 0 && off = R.PWR_INPUT_PEAK_CLR.off && d.sets R.PWR_INPUT_PEAK_CLR then s.setPw (fun p => { p with peak := p.ms.headD 0 }) else s

def State.secEffect (s : State) (d : Wdata) (off : Nat) : State :=
  if off = R.SEC_KEY_CTL_OP.off && d.covers R.SEC_KEY_CTL_OP then s.keyCtl (s.fld clsSec 0 R.SEC_KEY_CTL_SLOT) (d.ones R.SEC_KEY_CTL_OP) else s

def State.tmkEffect (s : State) (d : Wdata) (off : Nat) : State :=
  if off = R.TMK_CFG_CLOSE_NOW.off && d.sets R.TMK_CFG_CLOSE_NOW then s.tmkClose 2 true else s

/-! ### Queues (R433, R437, R459) -/

/-- Vectors in the table of the function that serves a context (R456). -/
def State.vectorsOf (s : State) (x : Nat) : Nat := if (s.fnOf x).isSome then 31 else 2048

/-- R433: the queue starts afresh. Commands that had started go on; those only fetched are forgotten. -/
def State.freshQueue (s : State) (x q : Nat) : State :=
  let s := { s with hs := { s.hs with cmds := s.hs.cmds.filter (fun k => !(k.ctx == x && k.queue == q) || k.live) } }
  s.modQueue x q (fun u => { u with sqTail := 0, cqHead := 0, sqHead := 0, cqTail := 0, written := 0, phase := true })

/-- A write of Q_CFG. -/
def State.writeQcfg (s : State) (inst e : Nat) (d : Wdata) (r : RegDef) : State :=
  let x := 2 * inst + e / 0x80
  let q := e / 0x20 % 4
  let on := s.qfld x q R.Q_CFG_ENABLE == 1
  let vec := d.merge R.Q_CFG_VECTOR (s.qfld x q R.Q_CFG_VECTOR)
  let s := s.writeFlds clsCmdq inst e d r (fun f =>
    if f = R.Q_CFG_LOG2 then !on else if f = R.Q_CFG_VECTOR then !on && decide (vec < s.vectorsOf x) else true)
  let s := if !on && s.qfld x q R.Q_CFG_ENABLE == 1 then
      (if 2 ≤ s.qfld x q R.Q_SQ_BASE_SPACE || 2 ≤ s.qfld x q R.Q_CQ_BASE_SPACE then (s.setQ x q R.Q_CFG_ENABLE 0).doorbellDrop
       else s.freshQueue x q)
    else s
  if d.sets R.Q_CFG_RESUME then
    let held := (s.queue x q).held
    (s.modQueue x q (fun u => { u with halted := false, ringFault := false })).flushHeld x q held
  else s

/-- A write of a register of a CMDQ page. -/
def State.writeCmdq (s : State) (inst e : Nat) (d : Wdata) (r : RegDef) : State :=
  let x := 2 * inst + e / 0x80
  let q := e / 0x20 % 4
  if r.off = R.Q_CFG_ENABLE.off then s.writeQcfg inst e d r
  else if s.qfld x q R.Q_CFG_ENABLE = 1 then s
  else s.writeFlds clsCmdq inst e d r (fun _ => true)

/-! ### Contexts (R470, R471) -/

/-- A write of a register of a CTX page; `vf` says that it came through a VF. -/
def State.writeCtx (s : State) (x : Nat) (d : Wdata) (r : RegDef) (vf : Bool) : State :=
  let vec := d.merge R.CTX_CFG_FAULT_VECTOR (s.xfld x R.CTX_CFG_FAULT_VECTOR)
  let s := s.writeFlds (ctxCls x) (x % 2048) 0 d r (fun f =>
    if f = R.CTX_CFG_FAULT_VECTOR then decide (vec < s.vectorsOf x)
    else if f = R.CTX_CFG_WEIGHT ∨ f = R.CTX_CFG_CLASS then !vf else true)
  if r.off = R.CTX_CTL_OP.off then s.ctxOp x (d.ones R.CTX_CTL_OP) (d.sets R.CTX_CTL_MX_REBASE) (d.sets R.CTX_CTL_REFILL) else s

/-! ### Coves, the commons and granules (R464, R467, R468, R602) -/

/-- A write to a field that is fixed: RESULT reads BUSY. -/
def State.coveBusy (s : State) (c : Nat) : State := s.modCove c (fun v => { v with result := 3 })

/-- The fields of a COVE page that are fixed unless the cove is FREE (R464). -/
def fixedCove (off : Nat) : Bool :=
  off == R.COVE_FRAMES_FB.off || off == R.COVE_SEM_BASE.off || off == R.COVE_CTX_BASE.off || off == R.COVE_SAVE_FRAMES.off ||
  off == R.COVE_CHANNELS_n_CH.off || off == R.COVE_SLICES_n_SL.off

/-- COVE_CFG: MODE stays fixed, STRICT reaches the cove's slices at once. -/
def State.writeCoveCfg (s : State) (c : Nat) (d : Wdata) (r : RegDef) : State :=
  let live := (s.cove c).st != 0
  let mode := s.fld clsCove c R.COVE_CFG_MODE
  let moved := d.merge R.COVE_CFG_MODE mode != mode
  let s := s.writeFlds clsCove c 0 d r (fun f => if f = R.COVE_CFG_MODE then !live && c != 64 else true)
  let s := if live && moved && c != 64 then s.coveBusy c else s
  if live && c != 64 then (s.coveSlices c).foldl (fun s h => s.setFld clsSlice h R.GHOST_CFG_STRICT (s.fld clsCove c R.COVE_CFG_STRICT)) s
  else s

/-- COVE_CORES_n: one core at a time while the cove is ACTIVE. -/
def State.writeCoveCores (s : State) (c e : Nat) (d : Wdata) (r : RegDef) : State :=
  let st := (s.cove c).st
  if st = 0 then s.writeFlds clsCove c e d r (fun _ => true)
  else if st = 2 then s.coresWrite c (e / 8) (d.merge R.COVE_CORES_n_CORE (s.fldN clsCove c R.COVE_CORES_n_CORE e))
  else s.coveBusy c

/-- COMMONS_CFG: written while the commons is FREE, C only while the slices it names are unassigned (R468). -/
def State.writeCommons (s : State) (d : Wdata) (r : RegDef) : State :=
  let n := min 8 (d.merge R.COMMONS_CFG_C (s.fld clsCove 64 R.COMMONS_CFG_C))
  let taken := s.hs.coves.any (fun p => p.1 < 64 && p.2.st != 0 && (s.coveSlices p.1).any (fun h => decide (h % 32 < n)))
  if (s.cove 64).st ≠ 0 then s
  else s.writeFlds clsCove 64 0 d r (fun f => if f = R.COMMONS_CFG_C then !taken else true)

/-- GRANULE_VIEW and GRANULE_MASK write the granule that GRANULE_SEL names (R467). -/
def State.writeGranule (s : State) (d : Wdata) (off : Nat) : State :=
  let i := s.fld clsCove 64 R.GRANULE_SEL_INDEX
  let g := s.granule i
  let g := if off = R.GRANULE_MASK_COVES.off then { g with mask := d.merge R.GRANULE_MASK_COVES g.mask }
    else { g with mode := d.merge R.GRANULE_VIEW_MODE g.mode, cove := d.merge R.GRANULE_VIEW_COVE g.cove }
  if 22528 ≤ i then s else { s with hs := { s.hs with granules := mset {} s.hs.granules i g } }

/-- A write of a register of a COVE page. -/
def State.writeCove (s : State) (c e : Nat) (d : Wdata) (r : RegDef) : State :=
  let all : Fld → Bool := fun _ => true
  if r.off = R.COVE_CTL_OP.off then s.coveOp c (d.ones R.COVE_CTL_OP)
  else if r.off = R.COVE_CFG_MODE.off then s.writeCoveCfg c d r
  else if r.off = R.COVE_CORES_n_CORE.off then s.writeCoveCores c e d r
  else if r.off = R.COMMONS_CFG_C.off then s.writeCommons d r
  else if r.off = R.GRANULE_VIEW_MODE.off || r.off = R.GRANULE_MASK_COVES.off then s.writeGranule d r.off
  else if fixedCove r.off && (s.cove c).st ≠ 0 then s.coveBusy c
  else s.writeFlds clsCove c e d r all

/-! ### EDGE page -/

/-- A granule of a region of tier C is granted (R326). -/
def State.regionGranted (s : State) (r : Nat) : Bool :=
  s.hs.granules.any (fun p => decide (6144 + 1024 * r ≤ p.1) && decide (p.1 < 6144 + 1024 * (r + 1)) && (p.2.mode == 1 || p.2.mode == 2))

def State.writeEdge (s : State) (inst e : Nat) (d : Wdata) (r : RegDef) : State :=
  if (r.off = R.TIERC_LOC_r_VALID.off || r.off = R.TIERC_BASE_r_BASE.off) && inst = 8 && s.regionGranted (e / 16) then s
  else s.writeFlds clsEdge inst e d r (fun _ => true)

/-! ### One register -/

/-- A write that reaches a register: its fields by their access codes, and what its unit does at once. -/
def State.writeReg (s : State) (cls inst e : Nat) (d : Wdata) (r : RegDef) (vf : Bool) : State :=
  let all : Fld → Bool := fun _ => true
  if r.off < 0x100 then (s.writeFlds cls inst e d r all).headerEffect cls inst e d r.off
  else if cls = clsCmdq then s.writeCmdq inst e d r
  else if cls = clsCove then s.writeCove inst e d r
  else if cls = clsEdge then s.writeEdge inst e d r
  else if cls = 8 || cls = 9 then s.writeCtx (2048 * (cls - 8) + inst) d r vf
  else
    let was := s.fld clsTwp inst R.TWP_CFG_ENABLE
    let s := s.writeFlds cls inst e d r all
    if cls = clsCore then match s.coreOfPage inst with | some k => s.coreEffect k d r.off | none => s
    else if cls = clsSlice then s.sliceEffect inst d r.off
    else if cls = clsTide then s.tideEffect inst d r.off
    else if cls = clsTwp then s.twpEffect inst was d r.off
    else if cls = clsPwr then s.pwrEffect inst d r.off
    else if cls = clsSec then s.secEffect d r.off
    else if cls = clsTmk then s.tmkEffect d r.off
    else s

/-- R577: the write meets a locked field. -/
def State.lockedReg (s : State) (cls inst : Nat) (r : RegDef) : Bool :=
  (r.lock && s.fld cls inst R.LOCK_CFG_LOCK == 1) || (r.off == R.ERR_INJECT_ARM.off && s.fld cls inst R.LOCK_INJECT_LOCK == 1)

/-- R506, R572: an access to the page of a sleeping core, or of a die in D3, wakes it. -/
def State.wakePage (s : State) (cls inst : Nat) : State :=
  match pageDie cls inst with
  | none => s
  | some p => match s.logicalDie p with
    | none => s
    | some l => if cls = clsCore then s.wake (16 * l + inst % 16)
      else if mget 0 s.pw.d3 p = 1 then s.wake (16 * l) else s

/-- A write of a byte of a page. -/
def State.pageWrite (s : State) (cls inst byte : Nat) (d : Wdata) (vf : Bool) : State :=
  let b := byte / 8 * 8
  match regAt cls inst b with
  | none => if reservedAt cls inst b then s else s.count clsSys 0 Ev.SYS_BAR0_UNMAPPED 1
  | some (r, i) =>
    if !s.pageLive cls inst then s
    else
      let s := s.wakePage cls inst
      if s.lockedReg cls inst r then s.count clsSys 0 Ev.SYS_BAR0_LOCKED_WRITE 1
      else s.writeReg cls inst (r.stride * i) d r vf

/-- A write through BAR0. -/
def State.regWrite (s : State) (w : RegW) : State :=
  match s.place w with
  | .unsupported => s.emit { kind := outUnsupported, a := 0, b := w.off }
  | .unmapped => s.count clsSys 0 Ev.SYS_BAR0_UNMAPPED 1
  | .dropped => s
  | .page cls inst byte => s.pageWrite cls inst byte (wdata w) w.vf.isSome

/-! ### Rows

A row for one register performs the whole write when the write names that register and gives the row's field its value;
any other write is none of that row's. -/

/-- The write names a register of a class of pages, and its data satisfies a test. -/
def State.hits (s : State) (w : RegW) (cls : Nat → Bool) (f : Fld) (stride count : Nat) (ok : Wdata → Bool) : Bool :=
  match s.place w with
  | .page c _ byte =>
    let b := byte / 8 * 8
    cls c && decide (f.off ≤ b) && (if stride = 0 then b == f.off else (b - f.off) % stride == 0 && decide ((b - f.off) / stride < count)) && ok (wdata w)
  | _ => false

/-- Perform the write when a row's condition holds. -/
def State.writeIf (s : State) (b : Bool) (w : RegW) : Host.Outcome State Fault Refusal := .next (if b then s.regWrite w else s)

/-- REGISTER_WRITE (R6 to R11, R571 to R573). -/
def execRegisterWrite (w : RegW) (s : State) : Host.Outcome State Fault Refusal := .next (s.regWrite w)

/-- LOCK (R577). -/
def execLock (w : RegW) (s : State) : Host.Outcome State Fault Refusal := s.writeIf (s.hits w (fun _ => true) R.LOCK_CFG_LOCK 0 1 (fun _ => true)) w
/-- EVT_SEL (R578). -/
def execEvtSel (w : RegW) (s : State) : Host.Outcome State Fault Refusal :=
  s.writeIf (s.hits w (fun _ => true) R.EVT_SEL_n_CODE 0x20 4 (fun _ => true)) w
/-- EVT_CLR (R578). -/
def execEvtClr (w : RegW) (s : State) : Host.Outcome State Fault Refusal :=
  s.writeIf (s.hits w (fun _ => true) R.UNIT_CTRL_EVT_CLR 0 1 (fun d => d.sets R.UNIT_CTRL_EVT_CLR)) w
/-- ERRCNT_CLR (Table 21-3). -/
def execErrcntClr (w : RegW) (s : State) : Host.Outcome State Fault Refusal :=
  s.writeIf (s.hits w (fun _ => true) R.UNIT_CTRL_ERRCNT_CLR 0 1 (fun d => d.sets R.UNIT_CTRL_ERRCNT_CLR)) w
/-- ERR_INJECT (R576). -/
def execErrInject (w : RegW) (s : State) : Host.Outcome State Fault Refusal :=
  s.writeIf (s.hits w (fun _ => true) R.ERR_INJECT_ARM 0 1 (fun _ => true)) w
/-- PRED_CLEAR (Table 7-5). -/
def execPredClear (w : RegW) (s : State) : Host.Outcome State Fault Refusal :=
  s.writeIf (s.hits w (fun c => c == clsCore) R.ATOM_CTL_PRED_CLEAR 0 1 (fun d => d.sets R.ATOM_CTL_PRED_CLEAR)) w
/-- RECONV_HWM_CLR (Table 3-13). -/
def execReconvHwmClr (w : RegW) (s : State) : Host.Outcome State Fault Refusal :=
  s.writeIf (s.hits w (fun c => c == clsCore) R.RECONV_HWM_HWM_CLR 0 1 (fun d => d.sets R.RECONV_HWM_HWM_CLR)) w
/-- GHOST_HWM_CLR (Table 10-6). -/
def execGhostHwmClr (w : RegW) (s : State) : Host.Outcome State Fault Refusal :=
  s.writeIf (s.hits w (fun c => c == clsSlice) R.GHOST_STATE_HWM_CLR 0 1 (fun d => d.sets R.GHOST_STATE_HWM_CLR)) w
/-- HIST_CLR (Table 13-17). -/
def execHistClr (w : RegW) (s : State) : Host.Outcome State Fault Refusal :=
  s.writeIf (s.hits w (fun c => c == clsTide) R.TD_CTL_HIST_CLR 0 1 (fun d => d.sets R.TD_CTL_HIST_CLR)) w
/-- L1_MAINT_WRITE_BACK (R242, Table 8-6). -/
def execL1MaintWriteBack (w : RegW) (s : State) : Host.Outcome State Fault Refusal :=
  s.writeIf (s.hits w (fun c => c == clsCore) R.L1_MAINT_OP 0 1 (fun d => d.ones R.L1_MAINT_OP == 1)) w
/-- L1_MAINT_EVICT (R242, Table 8-6). -/
def execL1MaintEvict (w : RegW) (s : State) : Host.Outcome State Fault Refusal :=
  s.writeIf (s.hits w (fun c => c == clsCore) R.L1_MAINT_OP 0 1 (fun d => d.ones R.L1_MAINT_OP == 2)) w
/-- FORCE_RETRAIN (Table 14-9). -/
def execForceRetrain (w : RegW) (s : State) : Host.Outcome State Fault Refusal :=
  s.writeIf (s.hits w (fun c => c == clsTwp) R.TWP_CFG_FORCE_RETRAIN 0 1 (fun d => d.sets R.TWP_CFG_FORCE_RETRAIN)) w
/-- QUEUE_ENABLE (R433). -/
def execQueueEnable (w : RegW) (s : State) : Host.Outcome State Fault Refusal :=
  s.writeIf (s.hits w (fun c => c == clsCmdq) R.Q_CFG_ENABLE 0x20 8 (fun d => d.sets R.Q_CFG_ENABLE)) w
/-- QUEUE_RESUME (R437, R601). -/
def execQueueResume (w : RegW) (s : State) : Host.Outcome State Fault Refusal :=
  s.writeIf (s.hits w (fun c => c == clsCmdq) R.Q_CFG_RESUME 0x20 8 (fun d => d.sets R.Q_CFG_RESUME)) w
/-- COVE_CREATE (R462, R463). -/
def execCoveCreate (w : RegW) (s : State) : Host.Outcome State Fault Refusal :=
  s.writeIf (s.hits w (fun c => c == clsCove) R.COVE_CTL_OP 0 1 (fun d => d.ones R.COVE_CTL_OP == 1)) w
/-- COVE_RESET (R465). -/
def execCoveReset (w : RegW) (s : State) : Host.Outcome State Fault Refusal :=
  s.writeIf (s.hits w (fun c => c == clsCove) R.COVE_CTL_OP 0 1 (fun d => d.ones R.COVE_CTL_OP == 2)) w
/-- COVE_DESTROY (R466). -/
def execCoveDestroy (w : RegW) (s : State) : Host.Outcome State Fault Refusal :=
  s.writeIf (s.hits w (fun c => c == clsCove) R.COVE_CTL_OP 0 1 (fun d => d.ones R.COVE_CTL_OP == 3)) w
/-- COVE_CORES_WRITE (R464). -/
def execCoveCoresWrite (w : RegW) (s : State) : Host.Outcome State Fault Refusal :=
  s.writeIf (s.hits w (fun c => c == clsCove) R.COVE_CORES_n_CORE 8 16 (fun _ => true)) w

/-- A write of CTX_CTL with one OP. -/
def State.ctlHits (s : State) (w : RegW) (op : Nat) : Bool :=
  s.hits w (fun c => c == 8 || c == 9) R.CTX_CTL_OP 0 1 (fun d => d.ones R.CTX_CTL_OP == op)

/-- ALLOC (R471). -/
def execAlloc (w : RegW) (s : State) : Host.Outcome State Fault Refusal := s.writeIf (s.ctlHits w 1) w
/-- FREE (R472). -/
def execFree (w : RegW) (s : State) : Host.Outcome State Fault Refusal := s.writeIf (s.ctlHits w 2) w
/-- PREEMPT (R473, R479). -/
def execPreempt (w : RegW) (s : State) : Host.Outcome State Fault Refusal := s.writeIf (s.ctlHits w 3) w
/-- RESUME (R473, R485). -/
def execResume (w : RegW) (s : State) : Host.Outcome State Fault Refusal := s.writeIf (s.ctlHits w 4) w
/-- END (R472). -/
def execEndCommand (w : RegW) (s : State) : Host.Outcome State Fault Refusal := s.writeIf (s.ctlHits w 5) w
/-- PWR_CAP_WRITE (R494). -/
def execPwrCapWrite (w : RegW) (s : State) : Host.Outcome State Fault Refusal :=
  s.writeIf (s.hits w (fun c => c == clsPwr) R.PWR_CAP_CAP_W 0 1 (fun _ => true)) w
/-- PEAK_CLR (Table 17-8). -/
def execPeakClr (w : RegW) (s : State) : Host.Outcome State Fault Refusal :=
  s.writeIf (s.hits w (fun c => c == clsPwr) R.PWR_INPUT_PEAK_CLR 0 1 (fun d => d.sets R.PWR_INPUT_PEAK_CLR)) w
/-- GENERATE (R545, R546). -/
def execGenerate (w : RegW) (s : State) : Host.Outcome State Fault Refusal :=
  s.writeIf (s.hits w (fun c => c == clsSec) R.SEC_KEY_CTL_OP 0 1 (fun d => d.ones R.SEC_KEY_CTL_OP == 1)) w
/-- CLOSE_NOW (R565). -/
def execCloseNow (w : RegW) (s : State) : Host.Outcome State Fault Refusal :=
  s.writeIf (s.hits w (fun c => c == clsTmk) R.TMK_CFG_CLOSE_NOW 0 1 (fun d => d.sets R.TMK_CFG_CLOSE_NOW)) w

end Sys2Proof.Machine
end

