-- ==== Sys2Proof/Machine/Dispatch.lean ====
section
/-! DEFINITION. One arm per command; each calls its meaning. -/

namespace Sys2Proof.Machine

def exec (i : Instr) (s : State) : Host.Outcome State Fault Refusal :=
  match i with
  | .nopInstruction wd => Sys2Proof.Machine.execNopInstruction wd s
  | .mov wd => Sys2Proof.Machine.execMov wd s
  | .movSv wd => Sys2Proof.Machine.execMovSv wd s
  | .sel wd => Sys2Proof.Machine.execSel wd s
  | .add wd => Sys2Proof.Machine.execAdd wd s
  | .sub wd => Sys2Proof.Machine.execSub wd s
  | .mul wd => Sys2Proof.Machine.execMul wd s
  | .mulhi wd => Sys2Proof.Machine.execMulhi wd s
  | .fma wd => Sys2Proof.Machine.execFma wd s
  | .min wd => Sys2Proof.Machine.execMin wd s
  | .max wd => Sys2Proof.Machine.execMax wd s
  | .abs wd => Sys2Proof.Machine.execAbs wd s
  | .neg wd => Sys2Proof.Machine.execNeg wd s
  | .and wd => Sys2Proof.Machine.execAnd wd s
  | .or wd => Sys2Proof.Machine.execOr wd s
  | .xor wd => Sys2Proof.Machine.execXor wd s
  | .not wd => Sys2Proof.Machine.execNot wd s
  | .shl wd => Sys2Proof.Machine.execShl wd s
  | .shr wd => Sys2Proof.Machine.execShr wd s
  | .sar wd => Sys2Proof.Machine.execSar wd s
  | .popc wd => Sys2Proof.Machine.execPopc wd s
  | .clz wd => Sys2Proof.Machine.execClz wd s
  | .brev wd => Sys2Proof.Machine.execBrev wd s
  | .cmp wd => Sys2Proof.Machine.execCmp wd s
  | .cvt wd => Sys2Proof.Machine.execCvt wd s
  | .shfl wd => Sys2Proof.Machine.execShfl wd s
  | .vote wd => Sys2Proof.Machine.execVote wd s
  | .mand wd => Sys2Proof.Machine.execMand wd s
  | .mor wd => Sys2Proof.Machine.execMor wd s
  | .mxor wd => Sys2Proof.Machine.execMxor wd s
  | .mnot wd => Sys2Proof.Machine.execMnot wd s
  | .movPm wd => Sys2Proof.Machine.execMovPm wd s
  | .movMp wd => Sys2Proof.Machine.execMovMp wd s
  | .popcM wd => Sys2Proof.Machine.execPopcM wd s
  | .ld wd => Sys2Proof.Machine.execLd wd s
  | .st wd => Sys2Proof.Machine.execSt wd s
  | .ldSp wd => Sys2Proof.Machine.execLdSp wd s
  | .stSp wd => Sys2Proof.Machine.execStSp wd s
  | .ldShelf wd => Sys2Proof.Machine.execLdShelf wd s
  | .stShelf wd => Sys2Proof.Machine.execStShelf wd s
  | .ldConst wd => Sys2Proof.Machine.execLdConst wd s
  | .atomAdd wd => Sys2Proof.Machine.execAtomAdd wd s
  | .atomMin wd => Sys2Proof.Machine.execAtomMin wd s
  | .atomMax wd => Sys2Proof.Machine.execAtomMax wd s
  | .atomAnd wd => Sys2Proof.Machine.execAtomAnd wd s
  | .atomOr wd => Sys2Proof.Machine.execAtomOr wd s
  | .atomXor wd => Sys2Proof.Machine.execAtomXor wd s
  | .atomXchg wd => Sys2Proof.Machine.execAtomXchg wd s
  | .atomCas wd => Sys2Proof.Machine.execAtomCas wd s
  | .atomWes wd => Sys2Proof.Machine.execAtomWes wd s
  | .fence wd => Sys2Proof.Machine.execFence wd s
  | .invRo wd => Sys2Proof.Machine.execInvRo wd s
  | .mxBegin wd => Sys2Proof.Machine.execMxBegin wd s
  | .mxEnd wd => Sys2Proof.Machine.execMxEnd wd s
  | .mma wd => Sys2Proof.Machine.execMma wd s
  | .mxDrain wd => Sys2Proof.Machine.execMxDrain wd s
  | .mxZero wd => Sys2Proof.Machine.execMxZero wd s
  | .mxSave wd => Sys2Proof.Machine.execMxSave wd s
  | .mxLoad wd => Sys2Proof.Machine.execMxLoad wd s
  | .mxExecuteEnd core => Sys2Proof.Machine.execMxExecuteEnd core s
  | .elRun wd => Sys2Proof.Machine.execElRun wd s
  | .elCompress wd => Sys2Proof.Machine.execElCompress wd s
  | .elExpand wd => Sys2Proof.Machine.execElExpand wd s
  | .elReduce wd => Sys2Proof.Machine.execElReduce wd s
  | .elLut wd => Sys2Proof.Machine.execElLut wd s
  | .elWait wd => Sys2Proof.Machine.execElWait wd s
  | .elFinish core => Sys2Proof.Machine.execElFinish core s
  | .bra wd => Sys2Proof.Machine.execBra wd s
  | .brx wd => Sys2Proof.Machine.execBrx wd s
  | .call wd => Sys2Proof.Machine.execCall wd s
  | .ret wd => Sys2Proof.Machine.execRet wd s
  | .exit wd => Sys2Proof.Machine.execExit wd s
  | .barBlk wd => Sys2Proof.Machine.execBarBlk wd s
  | .waitLand wd => Sys2Proof.Machine.execWaitLand wd s
  | .sleepHint wd => Sys2Proof.Machine.execSleepHint wd s
  | .brk wd => Sys2Proof.Machine.execBrk wd s
  | .blockStart core => Sys2Proof.Machine.execBlockStart core s
  | .splitChange core => Sys2Proof.Machine.execSplitChange core s
  | .sectorFill core sector => Sys2Proof.Machine.execSectorFill core sector s
  | .replayQueueServe core => Sys2Proof.Machine.execReplayQueueServe core s
  | .getS m => Sys2Proof.Machine.execGetS m s
  | .getM m => Sys2Proof.Machine.execGetM m s
  | .upg m => Sys2Proof.Machine.execUpg m s
  | .putM m => Sys2Proof.Machine.execPutM m s
  | .putO m => Sys2Proof.Machine.execPutO m s
  | .putE m => Sys2Proof.Machine.execPutE m s
  | .putS m => Sys2Proof.Machine.execPutS m s
  | .snoopRd m => Sys2Proof.Machine.execSnoopRd m s
  | .atomFar m => Sys2Proof.Machine.execAtomFar m s
  | .fwdGetS m => Sys2Proof.Machine.execFwdGetS m s
  | .fwdGetM m => Sys2Proof.Machine.execFwdGetM m s
  | .inv m => Sys2Proof.Machine.execInv m s
  | .data m => Sys2Proof.Machine.execData m s
  | .dataExcl m => Sys2Proof.Machine.execDataExcl m s
  | .invAck m => Sys2Proof.Machine.execInvAck m s
  | .putAck m => Sys2Proof.Machine.execPutAck m s
  | .nack m => Sys2Proof.Machine.execNack m s
  | .nackResend node txn => Sys2Proof.Machine.execNackResend node txn s
  | .atomResp m => Sys2Proof.Machine.execAtomResp m s
  | .memoryData slice line => Sys2Proof.Machine.execMemoryData slice line s
  | .ebbAction slice line => Sys2Proof.Machine.execEbbAction slice line s
  | .ueRetry ch burst outcome => Sys2Proof.Machine.execUeRetry ch burst outcome s
  | .scrubRead ch outcome => Sys2Proof.Machine.execScrubRead ch outcome s
  | .clearingEnd ch => Sys2Proof.Machine.execClearingEnd ch s
  | .walk core va => Sys2Proof.Machine.execWalk core va s
  | .atsInvalidateRequest port cove addr bytes => Sys2Proof.Machine.execAtsInvalidateRequest port cove addr bytes s
  | .expanderLinkFailure slot => Sys2Proof.Machine.execExpanderLinkFailure slot s
  | .occUpdates occ => Sys2Proof.Machine.execOccUpdates occ s
  | .syncResend router => Sys2Proof.Machine.execSyncResend router s
  | .entryIssue src => Sys2Proof.Machine.execEntryIssue src s
  | .sealCheck src num => Sys2Proof.Machine.execSealCheck src num s
  | .landing core slot => Sys2Proof.Machine.execLanding core slot s
  | .redAllocation src num => Sys2Proof.Machine.execRedAllocation src num s
  | .chunkCombine src num router chunk => Sys2Proof.Machine.execChunkCombine src num router chunk s
  | .syncSend => Sys2Proof.Machine.execSyncSend s
  | .holdover => Sys2Proof.Machine.execHoldover s
  | .unaligned => Sys2Proof.Machine.execUnaligned s
  | .startCheckSend slot => Sys2Proof.Machine.execStartCheckSend slot s
  | .epochReached slot => Sys2Proof.Machine.execEpochReached slot s
  | .holdBoundary slot => Sys2Proof.Machine.execHoldBoundary slot s
  | .resumeTick slot => Sys2Proof.Machine.execResumeTick slot s
  | .tideStall core slot => Sys2Proof.Machine.execTideStall core slot s
  | .creditStall slot table => Sys2Proof.Machine.execCreditStall slot table s
  | .redStall src => Sys2Proof.Machine.execRedStall src s
  | .credit owner core slot => Sys2Proof.Machine.execCredit owner core slot s
  | .linkCopy slot table => Sys2Proof.Machine.execLinkCopy slot table s
  | .linkRed slot table => Sys2Proof.Machine.execLinkRed slot table s
  | .netred slot table => Sys2Proof.Machine.execNetred slot table s
  | .linkMark slot table => Sys2Proof.Machine.execLinkMark slot table s
  | .frame port bytes => Sys2Proof.Machine.execFrame port bytes s
  | .replayTimeout port => Sys2Proof.Machine.execReplayTimeout port s
  | .recover port errs => Sys2Proof.Machine.execRecover port errs s
  | .detect port cable => Sys2Proof.Machine.execDetect port cable s
  | .noCable port => Sys2Proof.Machine.execNoCable port s
  | .equalize port => Sys2Proof.Machine.execEqualize port s
  | .align port errs => Sys2Proof.Machine.execAlign port errs s
  | .identify port id => Sys2Proof.Machine.execIdentify port id s
  | .latency port ps margins => Sys2Proof.Machine.execLatency port ps margins s
  | .trainingLimit port => Sys2Proof.Machine.execTrainingLimit port s
  | .downRetry port => Sys2Proof.Machine.execDownRetry port s
  | .forceRetrain w => Sys2Proof.Machine.execForceRetrain w s
  | .land port => Sys2Proof.Machine.execLand port s
  | .mark port => Sys2Proof.Machine.execMark port s
  | .redReady port => Sys2Proof.Machine.execRedReady port s
  | .redChunk port => Sys2Proof.Machine.execRedChunk port s
  | .peerWrite port => Sys2Proof.Machine.execPeerWrite port s
  | .peerAck port => Sys2Proof.Machine.execPeerAck port s
  | .peerWriteWait port => Sys2Proof.Machine.execPeerWriteWait port s
  | .sync port arrive => Sys2Proof.Machine.execSync port arrive s
  | .hold port => Sys2Proof.Machine.execHold port s
  | .abort port => Sys2Proof.Machine.execAbort port s
  | .startCheck port => Sys2Proof.Machine.execStartCheck port s
  | .doorbell vf off wide val => Sys2Proof.Machine.execDoorbell vf off wide val s
  | .sqFetch ctx q => Sys2Proof.Machine.execSqFetch ctx q s
  | .queueEnable w => Sys2Proof.Machine.execQueueEnable w s
  | .queueResume w => Sys2Proof.Machine.execQueueResume w s
  | .nop ctx q idx => Sys2Proof.Machine.execNop ctx q idx s
  | .launch ctx q idx => Sys2Proof.Machine.execLaunch ctx q idx s
  | .copy ctx q idx => Sys2Proof.Machine.execCopy ctx q idx s
  | .fill ctx q idx => Sys2Proof.Machine.execFill ctx q idx s
  | .peerCopy ctx q idx => Sys2Proof.Machine.execPeerCopy ctx q idx s
  | .spindleStream ctx q idx => Sys2Proof.Machine.execSpindleStream ctx q idx s
  | .reduce ctx q idx => Sys2Proof.Machine.execReduce ctx q idx s
  | .torusReduce ctx q idx => Sys2Proof.Machine.execTorusReduce ctx q idx s
  | .shelfCarve ctx q idx => Sys2Proof.Machine.execShelfCarve ctx q idx s
  | .moor ctx q idx => Sys2Proof.Machine.execMoor ctx q idx s
  | .unmoor ctx q idx => Sys2Proof.Machine.execUnmoor ctx q idx s
  | .ebb ctx q idx => Sys2Proof.Machine.execEbb ctx q idx s
  | .xlateInval ctx q idx => Sys2Proof.Machine.execXlateInval ctx q idx s
  | .commonsLoad ctx q idx => Sys2Proof.Machine.execCommonsLoad ctx q idx s
  | .commonsRepair ctx q idx => Sys2Proof.Machine.execCommonsRepair ctx q idx s
  | .tideLoad ctx q idx => Sys2Proof.Machine.execTideLoad ctx q idx s
  | .tideStart ctx q idx => Sys2Proof.Machine.execTideStart ctx q idx s
  | .tideHold ctx q idx => Sys2Proof.Machine.execTideHold ctx q idx s
  | .tideResume ctx q idx => Sys2Proof.Machine.execTideResume ctx q idx s
  | .tideAbort ctx q idx => Sys2Proof.Machine.execTideAbort ctx q idx s
  | .semSignal ctx q idx => Sys2Proof.Machine.execSemSignal ctx q idx s
  | .semWait ctx q idx => Sys2Proof.Machine.execSemWait ctx q idx s
  | .semWaitTimeout ctx q idx => Sys2Proof.Machine.execSemWaitTimeout ctx q idx s
  | .semPoll ctx q idx => Sys2Proof.Machine.execSemPoll ctx q idx s
  | .cxlSnoop port line => Sys2Proof.Machine.execCxlSnoop port line s
  | .hint ctx q idx => Sys2Proof.Machine.execHint ctx q idx s
  | .distances ctx q idx => Sys2Proof.Machine.execDistances ctx q idx s
  | .coalUs ctx q => Sys2Proof.Machine.execCoalUs ctx q s
  | .vectorUnmask vf vector => Sys2Proof.Machine.execVectorUnmask vf vector s
  | .bar4Read port vf off bytes rid => Sys2Proof.Machine.execBar4Read port vf off bytes rid s
  | .bar4Write port vf off data rid => Sys2Proof.Machine.execBar4Write port vf off data rid s
  | .bar4AtomicOp port vf off op bytes a b rid => Sys2Proof.Machine.execBar4AtomicOp port vf off op bytes a b rid s
  | .hostLinkDown port => Sys2Proof.Machine.execHostLinkDown port s
  | .functionLevelReset vf => Sys2Proof.Machine.execFunctionLevelReset vf s
  | .coveCreate w => Sys2Proof.Machine.execCoveCreate w s
  | .coveReset w => Sys2Proof.Machine.execCoveReset w s
  | .coveDestroy w => Sys2Proof.Machine.execCoveDestroy w s
  | .coveCoresWrite w => Sys2Proof.Machine.execCoveCoresWrite w s
  | .coreLeave core => Sys2Proof.Machine.execCoreLeave core s
  | .alloc w => Sys2Proof.Machine.execAlloc w s
  | .free w => Sys2Proof.Machine.execFree w s
  | .preempt w => Sys2Proof.Machine.execPreempt w s
  | .resume w => Sys2Proof.Machine.execResume w s
  | .endCommand w => Sys2Proof.Machine.execEndCommand w s
  | .quantumBoundary cove us charges => Sys2Proof.Machine.execQuantumBoundary cove us charges s
  | .saveEnd ctx => Sys2Proof.Machine.execSaveEnd ctx s
  | .restore ctx second bad => Sys2Proof.Machine.execRestore ctx second bad s
  | .horizon ctx => Sys2Proof.Machine.execHorizon ctx s
  | .slowdownInterval m => Sys2Proof.Machine.execSlowdownInterval m s
  | .pmbusPoll pins vinMv rails => Sys2Proof.Machine.execPmbusPoll pins vinMv rails s
  | .powerMs => Sys2Proof.Machine.execPowerMs s
  | .clockChange => Sys2Proof.Machine.execClockChange s
  | .droop island => Sys2Proof.Machine.execDroop island s
  | .droopEnd island cycles => Sys2Proof.Machine.execDroopEnd island cycles s
  | .swellEnd => Sys2Proof.Machine.execSwellEnd s
  | .pwrCapWrite w => Sys2Proof.Machine.execPwrCapWrite w s
  | .peakClr w => Sys2Proof.Machine.execPeakClr w s
  | .sleepEntry core nextNs => Sys2Proof.Machine.execSleepEntry core nextNs s
  | .wake core => Sys2Proof.Machine.execWake core s
  | .prewake core => Sys2Proof.Machine.execPrewake core s
  | .thermal die temp => Sys2Proof.Machine.execThermal die temp s
  | .vinShutdown => Sys2Proof.Machine.execVinShutdown s
  | .bucketLeak cls inst => Sys2Proof.Machine.execBucketLeak cls inst s
  | .d2dFlit group crcOk lanes => Sys2Proof.Machine.execD2dFlit group crcOk lanes s
  | .d2dRetrain group ok => Sys2Proof.Machine.execD2dRetrain group ok s
  | .primaryRewrite tile readOk => Sys2Proof.Machine.execPrimaryRewrite tile readOk s
  | .commonsCompare tile uePrimary ueMirror readOk => Sys2Proof.Machine.execCommonsCompare tile uePrimary ueMirror readOk s
  | .powerOn => Sys2Proof.Machine.execPowerOn s
  | .perst port => Sys2Proof.Machine.execPerst port s
  | .watchdog => Sys2Proof.Machine.execWatchdog s
  | .stageEnd info => Sys2Proof.Machine.execStageEnd info s
  | .stageLimit info => Sys2Proof.Machine.execStageLimit info s
  | .reset medium owner msg => Sys2Proof.Machine.execReset medium owner msg s
  | .getChallenge medium msg => Sys2Proof.Machine.execGetChallenge medium msg s
  | .submitToken medium msg => Sys2Proof.Machine.execSubmitToken medium msg s
  | .submitPassword medium msg => Sys2Proof.Machine.execSubmitPassword medium msg s
  | .getStage medium msg => Sys2Proof.Machine.execGetStage medium msg s
  | .dbgAuth msg => Sys2Proof.Machine.execDbgAuth msg s
  | .extest => Sys2Proof.Machine.execExtest s
  | .testLogicReset => Sys2Proof.Machine.execTestLogicReset s
  | .getVersion msg => Sys2Proof.Machine.execGetVersion msg s
  | .getCapabilities msg => Sys2Proof.Machine.execGetCapabilities msg s
  | .negotiateAlgorithms msg => Sys2Proof.Machine.execNegotiateAlgorithms msg s
  | .getDigests msg => Sys2Proof.Machine.execGetDigests msg s
  | .getCertificate msg => Sys2Proof.Machine.execGetCertificate msg s
  | .challenge msg => Sys2Proof.Machine.execChallenge msg s
  | .getMeasurements index raw => Sys2Proof.Machine.execGetMeasurements index raw s
  | .keyExchange mutAuth root => Sys2Proof.Machine.execKeyExchange mutAuth root s
  | .finish ok => Sys2Proof.Machine.execFinish ok s
  | .heartbeat session => Sys2Proof.Machine.execHeartbeat session s
  | .keyUpdate session => Sys2Proof.Machine.execKeyUpdate session s
  | .endSession session => Sys2Proof.Machine.execEndSession session s
  | .keyImport session body => Sys2Proof.Machine.execKeyImport session body s
  | .generate w => Sys2Proof.Machine.execGenerate w s
  | .queryDeviceIdentifiers => Sys2Proof.Machine.execQueryDeviceIdentifiers s
  | .getFirmwareParameters => Sys2Proof.Machine.execGetFirmwareParameters s
  | .requestUpdate size => Sys2Proof.Machine.execRequestUpdate size s
  | .passComponentTable => Sys2Proof.Machine.execPassComponentTable s
  | .updateComponent hdr => Sys2Proof.Machine.execUpdateComponent hdr s
  | .requestFirmwareData bytes verifies => Sys2Proof.Machine.execRequestFirmwareData bytes verifies s
  | .activateFirmware => Sys2Proof.Machine.execActivateFirmware s
  | .getStatus => Sys2Proof.Machine.execGetStatus s
  | .cancelUpdateComponent => Sys2Proof.Machine.execCancelUpdateComponent s
  | .cancelUpdate => Sys2Proof.Machine.execCancelUpdate s
  | .intervalClose => Sys2Proof.Machine.execIntervalClose s
  | .closeNow w => Sys2Proof.Machine.execCloseNow w s
  | .clearEraseEnd => Sys2Proof.Machine.execClearEraseEnd s
  | .getTidemarkInfo => Sys2Proof.Machine.execGetTidemarkInfo s
  | .readTidemarkSlot area slot => Sys2Proof.Machine.execReadTidemarkSlot area slot s
  | .readClearLedger entry => Sys2Proof.Machine.execReadClearLedger entry s
  | .submitTidemarkClear token => Sys2Proof.Machine.execSubmitTidemarkClear token s
  | .registerWrite w => Sys2Proof.Machine.execRegisterWrite w s
  | .lock w => Sys2Proof.Machine.execLock w s
  | .evtSel w => Sys2Proof.Machine.execEvtSel w s
  | .evtClr w => Sys2Proof.Machine.execEvtClr w s
  | .errcntClr w => Sys2Proof.Machine.execErrcntClr w s
  | .errInject w => Sys2Proof.Machine.execErrInject w s
  | .predClear w => Sys2Proof.Machine.execPredClear w s
  | .reconvHwmClr w => Sys2Proof.Machine.execReconvHwmClr w s
  | .ghostHwmClr w => Sys2Proof.Machine.execGhostHwmClr w s
  | .histClr w => Sys2Proof.Machine.execHistClr w s
  | .l1MaintWriteBack w => Sys2Proof.Machine.execL1MaintWriteBack w s
  | .l1MaintEvict w => Sys2Proof.Machine.execL1MaintEvict w s
  | .partnerLost port => Sys2Proof.Machine.execPartnerLost port s
  | .linkUp port speed width flit cxl => Sys2Proof.Machine.execLinkUp port speed width flit cxl s
  | .hostCompletion port tag data poison granted => Sys2Proof.Machine.execHostCompletion port tag data poison granted s
  | .configurationRequest port req a b => Sys2Proof.Machine.execConfigurationRequest port req a b s
  | .mctpControlMessage medium msg => Sys2Proof.Machine.execMctpControlMessage medium msg s
  | .secBusyTimeout medium => Sys2Proof.Machine.execSecBusyTimeout medium s
  | .sleepExitEnd core => Sys2Proof.Machine.execSleepExitEnd core s

end Sys2Proof.Machine
end

