-- ==== Sys2Proof/Machine/Tick.lean ====
section
/-! DEFINITION. What the passing of time alone changes (log entry 11). -/

namespace Sys2Proof.Machine

/-- The minutes that have passed in the open Tidemark interval. -/
def State.tmkMinutes (s : State) (now : Nat) : Nat := (now / 1000 - s.tm.cur.openUs) / 60000000

/-- One tick of the tide counter: 128 ns (R359) of uptime (R579). A minute of the open Tidemark interval may end (R558). -/
def State.tickNow (s : State) : State :=
  let t := s.count clsTide 0 Ev.TIDE_TICKS 1
  { t with
    now := s.now + 128
    ns := { t.ns with tick := (s.ns.tick + 1) % 2 ^ 64 }
    tm := if s.tm.running && s.tmkMinutes (s.now + 128) != s.tmkMinutes s.now then { t.tm with cur := t.tm.cur.minute } else t.tm }

end Sys2Proof.Machine
end

