-- ==== Sys2Proof/Safety.lean ====
section
/-! DEFINITION. The terms in which claims are stated: memory in canonical form, what every command keeps, when an
instruction issues and what its issue leaves alone, a written destination. -/

namespace Sys2Proof.Machine

/-- Device memory and host memory are in canonical form. -/
def State.memoryWf (s : State) : Prop := s.mem.wf = true ∧ s.host.wf = true

/-- What holds between the states before and after any command: the commands that wait stay as they are; a memory in
canonical form stays so; the minimum security version of the fuses never falls, an unlock fuse that is blown stays blown
and the unlock ledger only grows (R538, R551); a free value is never drawn twice (log entry 1). -/
structure Keeps (a b : State) : Prop where
  queue : b.pending = a.pending
  mem : a.mem.wf = true → b.mem.wf = true
  host : a.host.wf = true → b.host.wf = true
  svn : a.se.minSvn ≤ b.se.minSvn
  fuses : b.se.fuses ≤ a.se.fuses
  ledger : a.se.ledger <+: b.se.ledger
  draws : a.free ≤ b.free

/-! ### The issue of an instruction (R75, R91, R111 to R113) -/

/-- The group that an instruction word is presented to, its pending paths switched and its entries popped (R75). -/
def State.atIssue (s : State) (w : IWord) : Group := (Group.settle 66 (s.group w.core w.slot)).1

/-- What the instruction sees when it issues. -/
def State.view (s : State) (w : IWord) : Iss :=
  { core := w.core, slot := w.slot, g := s.atIssue w, l := s.launchOf w.core w.slot, i := insOf w
    act := (s.atIssue w).active (insOf w) }

/-- The state that has fetched the instruction, where the words at the group's program counter are its own. -/
def State.fetched (s : State) (w : IWord) : Option State :=
  let r := Group.settle 66 (s.group w.core w.slot)
  let s := (s.modCore w.core (fun k => k.setGroup w.slot r.1)).kcount w.core Ev.CORE_PATH_SWITCH r.2
  let cove := (s.launchOf w.core w.slot).cove
  match s.fetchWord w.core r.1.quarter cove r.1.pc with
  | .word v u =>
    if v ≠ w.w.toNat then none
    else if !(insOf w).lg then some u
    else match u.fetchWord w.core r.1.quarter cove ((r.1.pc + 8) % 2 ^ 64) with
      | .word v u => if v = w.x.toNat then some u else none
      | _ => none
  | _ => none

/-- The instruction `w` issues at `s`: its group may issue, `u` has fetched its words, the opcode is `op`, no register that
the form `f` names is awaited, no fault of Table 4-9 lies in the word or its registers, no error is injected. -/
structure State.Issues (s u : State) (w : IWord) (op : Nat × Nat) (f : Form) : Prop where
  may : s.mayIssue w.core w.slot = true
  fetch : s.fetched w = some u
  opcode : (insOf w).cl = op.1 ∧ (insOf w).op = op.2
  ready : (s.atIssue w).scoreboard f = false
  clean : formFaults (s.view w) f op = []
  sound : u.fld clsCore (u.corePage w.core) R.ERR_INJECT_ARM = 0

/-- What a fetch, a translation or any read of memory leaves alone: of every core all but its L1 lines, the translations it
holds and the lines of its read-only caches; host memory, the start-up and security state, the power controller, the tide
domains and the queue. -/
structure Quiet (s t : State) : Prop where
  cores : ∀ c, t.core c = { s.core c with
    l1 := (t.core c).l1, tlb := (t.core c).tlb, utlb := (t.core c).utlb, walkCache := (t.core c).walkCache
    icache := (t.core c).icache, ccache := (t.core c).ccache, dcache := (t.core c).dcache }
  host : t.host = s.host
  se : t.se = s.se
  pw : t.pw = s.pw
  ns : t.ns = s.ns
  pending : t.pending = s.pending

/-- What an instruction without an effect outside its group leaves alone, from the state `s` that has fetched it: every part of
the module but the group's core, the event counters of the core's page and the model's draws; every other core; of its own
core, all but the groups; every other group. -/
structure Issued (s t : State) (w : IWord) : Prop where
  rest : t = { s with cores := t.cores, regs := t.regs, free := t.free }
  regs : ∀ d k, (∀ n < 4, k ≠ fkey clsCore (s.corePage w.core) R.EVT_COUNT_n_COUNT (0x20 * n)) → mget d t.regs k = mget d s.regs k
  others : ∀ c, c ≠ w.core → t.core c = s.core c
  core : t.core w.core = { s.core w.core with groups := (t.core w.core).groups }
  groups : ∀ g, g ≠ w.slot → t.group w.core g = s.group w.core g

/-- The group after an instruction that neither jumps nor writes a register of its own: the program counter has moved on
(R89), it waits on nothing, registers it writes have lost their marks (R115), a memory instruction is numbered (R70), a
`sleep.hint` that a hold has used is spent (R504). -/
def Iss.moved (z : Iss) (f : Form) : Group :=
  { (if z.act = 0 then z.g else z.g.clearMarks ((f.ops.filter (fun o => o.wr)).flatMap Opnd.vregs)) with
    pc := nextPc z.g.pc z.i.size, hold := .none, since := none, memSeq := z.g.memSeq + boolNat (z.i.cl == 1)
    hinted := if z.g.hinted = 2 then 0 else z.g.hinted }

/-- The group `h` is `g` with the `k` registers from D written: per acting thread in the vector form, once in the scalar
form when a thread acts; v255 discards (R60, R61, R92, R101). -/
structure Wrote (g h : Group) (z : Iss) (k : Nat) (val : Nat → Nat) : Prop where
  rest : h = { g with v := h.v, s := h.s }
  vec : ∀ r t, t < 64 → h.rv r t =
    if !z.i.scalar && z.act.getLsbD t && decide (z.i.d ≤ r) && decide (r < z.i.d + k) && r != 255
    then val t / 2 ^ (32 * (r - z.i.d)) % 2 ^ 32 else g.rv r t
  sca : ∀ r, h.rs r =
    if z.i.scalar && z.act != 0 && decide (z.i.d ≤ r) && decide (r < z.i.d + k)
    then val z.first / 2 ^ (32 * (r - z.i.d)) % 2 ^ 32 else g.rs r

/-- R74 of a divergent branch: the reconvergence stack after it, for the threads `taken`, target T and reconvergence point P. -/
def Group.afterBranch (g : Group) (taken : W64) (t p : Nat) : List Recon :=
  let push : List Recon := { rpc := p, full := g.m0, pend := taken, pendPc := t } :: g.stack
  match g.stack with
  | [] => push
  | e :: es =>
    if t = e.rpc then e :: es
    else if p = e.rpc ∧ e.pend = 0 then { e with pend := taken, pendPc := t } :: es
    else push

/-- The group after a divergent branch: the threads that do not take it go on at `n` (R74). -/
def Iss.diverged (z : Iss) (taken : W64) (t p n : Nat) : Group :=
  { z.g.wm 0 (z.g.m0 &&& ~~~taken) with pc := n, hold := .none, stack := z.g.afterBranch taken t p }

/-- DEPTH_HWM of the core keeps the greatest depth (Table 3-13). -/
def State.depthMark (v : State) (c n : Nat) : State :=
  if v.kfld c R.RECONV_HWM_DEPTH_HWM < n then v.setK c R.RECONV_HWM_DEPTH_HWM n else v

/-- The state at which the effect of an instruction starts: its group has moved on. -/
def State.advanced (u : State) (w : IWord) (z : Iss) (f : Form) : State :=
  u.modGroup w.core w.slot (fun _ => z.moved f)

/-- No other memory instruction of the group is outstanding, those of other groups have entered the L1, and none waits for
replay. -/
def Core.clearFor (k : Core) (slot : Nat) : Prop :=
  (∀ o ∈ k.ops, o.started = true ∧ o.todo = [] ∧ o.slot ≠ slot ∧ o.id < k.nextOp) ∧ (∀ m ∈ k.miss, k.nextOp ∉ m.waiters) ∧
    k.replay = [] ∧ slot < 32

/-- No gather of the group is queued at the element engine (R185). -/
def Core.writesFree (k : Core) (slot : Nat) : Prop := ∀ e ∈ k.elq, e.slot = slot → e.gather = []

/-- The acting threads' accesses, as they translated, all lie in one line of device memory. -/
def inLine (r : List (Nat × Nat × XAcc)) (line n : Nat) : Prop :=
  ∀ p ∈ r, ∃ pa e, p.2.2 = .ok pa e ∧ pa / 128 = line ∧ pa % 128 + n ≤ 128 ∧ inHost pa = false

/-- The sectors of a line that the accesses touch are valid and not poisoned. -/
def L1Line.holds (l : L1Line) (r : List (Nat × Nat × XAcc)) (n : Nat) : Prop :=
  ∀ p ∈ r, ∀ pa e, p.2.2 = .ok pa e → ∀ i < 4, 32 * i < pa % 128 + n → pa % 128 < 32 * i + 32 →
    bit l.valid i = true ∧ bit l.poison i = false

/-- The atomic instructions: word, opcode, operation, types (Table 4-6, R105, R106). -/
def atomRow : Instr → Option (IWord × Nat × AOp × (Fmt → Bool))
  | .atomAdd w => some (w, 0x010, .add, atomAddTypes)
  | .atomMin w => some (w, 0x011, .min, atomAddTypes)
  | .atomMax w => some (w, 0x012, .max, atomAddTypes)
  | .atomAnd w => some (w, 0x013, .and, intTypes)
  | .atomOr w => some (w, 0x014, .or, intTypes)
  | .atomXor w => some (w, 0x015, .xor, intTypes)
  | .atomXchg w => some (w, 0x016, .xchg, atomCasTypes)
  | .atomCas w => some (w, 0x017, .cas, atomCasTypes)
  | .atomWes w => some (w, 0x018, .wes, atomWesTypes)
  | _ => none

/-- Only the core of the instruction, register fields, messages on the mesh and draws differ. -/
def OnlyCore (s t : State) (c : Nat) : Prop :=
  t = { s with cores := t.cores, regs := t.regs, net := t.net, free := t.free } ∧ ∀ d, d ≠ c → t.core d = s.core d

/-- The ALU instructions whose result is a function of their operands: the word, its row of Table 4-5, and the value per
thread from the launch, the word, the type, a free number and A, B and C. -/
def aluValue : Instr → Option (IWord × AluRow × (Launch → Ins → Fmt → Nat → Nat → Nat → Nat → Nat))
  | .mov w => some (w, row1 0x001 movTypes, movRegs)
  | .add w => some (w, row2 0x010 arithTypes, addRegs)
  | .sub w => some (w, row2 0x011 arithTypes, subRegs)
  | .mul w => some (w, row2 0x012 arithTypes, mulRegs)
  | .mulhi w => some (w, row2 0x013 int32Types, mulhiRegs)
  | .fma w => some (w, row3 0x014 fmaTypes, fmaRegs)
  | .min w => some (w, row2 0x015 arithTypes, minRegs)
  | .max w => some (w, row2 0x016 arithTypes, maxRegs)
  | .abs w => some (w, row1 0x017 absTypes, absRegs)
  | .neg w => some (w, row1 0x018 absTypes, negRegs)
  | .and w => some (w, row2 0x020 intTypes, andRegs)
  | .or w => some (w, row2 0x021 intTypes, orRegs)
  | .xor w => some (w, row2 0x022 intTypes, xorRegs)
  | .not w => some (w, row1 0x023 intTypes, notRegs)
  | .shl w => some (w, row2 0x024 intTypes, shlRegs)
  | .shr w => some (w, row2 0x025 intTypes, shrRegs)
  | .sar w => some (w, row2 0x026 intTypes, sarRegs)
  | .popc w => some (w, row1 0x027 int32Types, popcRegs)
  | .clz w => some (w, row1 0x028 int32Types, clzRegs)
  | .brev w => some (w, row1 0x029 int32Types, brevRegs)
  | _ => none

/-- The instructions that write a whole mask register from predicates and masks (Table 4-5, R103). -/
def maskValue : Instr → Option (IWord × AluRow × (Iss → W64))
  | .vote w => some (w, { rowMask 0x060 .m1 .p .no with c := .raw }, fun z =>
      let set := z.g.rp z.i.a &&& z.act
      if z.i.c = 0 then (if set = 0 then 0 else BitVec.allOnes 64)
      else if z.i.c = 1 then (if set = z.act then BitVec.allOnes 64 else 0)
      else set)
  | .mand w => some (w, rowMask 0x061 .m1 .m .m, fun z => z.g.rm z.i.a &&& z.g.rm z.i.b)
  | .mor w => some (w, rowMask 0x062 .m1 .m .m, fun z => z.g.rm z.i.a ||| z.g.rm z.i.b)
  | .mxor w => some (w, rowMask 0x063 .m1 .m .m, fun z => z.g.rm z.i.a ^^^ z.g.rm z.i.b)
  | .mnot w => some (w, rowMask 0x064 .m1 .m .no, fun z => ~~~(z.g.rm z.i.a))
  | .movPm w => some (w, rowMask 0x065 .m1 .p .no, fun z => z.g.rp z.i.a)
  | _ => none

/-! ### Exact values (R42, R45 to R49, R96) -/

/-- The exact value of what a format decodes to, where it is not a NaN; both zeros are 0. -/
def FVal.exact : FVal → WithBot (WithTop ℚ)
  | .inf true => ⊥
  | .inf false => ((⊤ : WithTop ℚ) : WithBot (WithTop ℚ))
  | .fin m e => (((m : ℚ) * 2 ^ e : ℚ) : WithTop ℚ)
  | .zero _ => ((0 : ℚ) : WithTop ℚ)
  | .nan => ((0 : ℚ) : WithTop ℚ)

/-- The condition codes of `cmp` over two values (R96). -/
def condition (cc : Nat) (x y : FVal) : Prop :=
  let num := x ≠ .nan ∧ y ≠ .nan
  match cc with
  | 0 => num ∧ x.exact = y.exact
  | 1 => ¬num ∨ x.exact ≠ y.exact
  | 2 => num ∧ x.exact < y.exact
  | 3 => num ∧ x.exact ≤ y.exact
  | 4 => num ∧ y.exact < x.exact
  | 5 => num ∧ y.exact ≤ x.exact
  | 6 => num
  | 7 => ¬num
  | _ => False

/-- A contribution as a number of window units of a sum whose window exponent is `w`. -/
def Wes.units (b : Wes) (w : Int) : ℚ := (b.f : ℚ) * 2 ^ (b.w - w)

/-- A contribution that carries a finite value. -/
def Wes.counts (b : Wes) : Bool := b.special == .finite && !b.empty

/-! ### Register writes (R6 to R11, R534, R571, R572) -/

/-- A 64-bit write of the PF that reaches the register at an offset of a page: naturally aligned, the page exists, the
module is READY, the page's die is in use and nothing of it sleeps. -/
structure State.Reaches (s : State) (w : RegW) (cls inst off : Nat) : Prop where
  fn : w.vf = none
  size : w.size = 8
  val : w.val < 2 ^ 64
  addr : w.off = cls * 2 ^ 23 + inst * 2 ^ 12 + off
  page : ∃ n, classMax cls = some n ∧ inst ≤ n
  aligned : off % 8 = 0 ∧ off < 4096
  ready : s.ready = true
  live : s.pageLive cls inst = true
  awake : s.wakePage cls inst = s

/-- Only register fields differ, and of these only fields whose keys are listed. -/
def OnlyFields (s t : State) (ks : List Nat) : Prop :=
  t = { s with regs := t.regs } ∧ ∀ d k, k ∉ ks → mget d t.regs k = mget d s.regs k

/-- The same register fields but for the keys listed. -/
def SameFields (s t : State) (ks : List Nat) : Prop := ∀ d k, k ∉ ks → mget d t.regs k = mget d s.regs k

/-- The four event counts of a page. -/
def countKeys (cls inst : Nat) : List Nat := (List.range 4).map (fun n => fkey cls inst R.EVT_COUNT_n_COUNT (0x20 * n))

/-- `t` is `x` with one message sent out; besides, only event counts of one page differ. -/
def Replied (x t : State) (m : OutMsg) (cls inst : Nat) : Prop :=
  t = { x with regs := t.regs, hs := { x.hs with out := x.hs.out ++ [m] } } ∧ SameFields x t (countKeys cls inst)

/-- `x` with one message sent out. -/
def State.said (x : State) (m : OutMsg) : State := { x with hs := { x.hs with out := x.hs.out ++ [m] } }

/-- What a module reset leaves (R532): stage 1, nothing of the running module; flash, fuses, the ledgers, the outer
tiers, the host and what waits stay. -/
structure Restarted (s t : State) : Prop where
  stage : t.se.stage = 1 ∧ t.se.failed = false ∧ t.se.nonce = none ∧ t.se.debugOpen = false
  gone : t.cores = [] ∧ t.slices = [] ∧ t.net = [] ∧ t.hs.ctxs = [] ∧ t.hs.coves = [] ∧ t.hs.cmds = [] ∧ t.ns = {} ∧ t.hb = {} ∧ t.wl = []
  regs : ∀ d k, mget d t.regs k = if k ∈ configKeys then mget d s.regs k else d
  mem : ∀ a, t.mem.read a = if a < outerBase then 0 else s.mem.read a
  host : t.host = s.host
  fuses : t.se.fuses = s.se.fuses ∧ t.se.minSvn = s.se.minSvn ∧ t.se.slots = s.se.slots ∧ t.se.prefer = s.se.prefer ∧ t.se.ledger = s.se.ledger
  flash : t.tm.perm = s.tm.perm ∧ t.tm.circ = s.tm.circ ∧ t.tm.ledger = s.tm.ledger ∧ t.ra.retire = s.ra.retire
  waits : t.pending = s.pending

/-- A vendor-defined request: its bytes, and that the module serves it now (R550). -/
structure State.Serves (s : State) (medium rq cmd : Nat) (body msg : List Byte) : Prop where
  msg : msg = vendorHead ++ leBytes 1 rq ++ leBytes 1 cmd ++ body
  request : 128 ≤ rq ∧ rq < 256
  length : cmd < 256 ∧ bodyLen cmd = some body.length
  up : s.vendorUp = true
  medium : s.mediumUp medium = true
  clear : s.tm.clearing = none

/-- A record that closes an interval is in slot `n` of the permanent area, and a new interval is open (R557 to R561). -/
structure Closed (s t : State) (n ty : Nat) : Prop where
  record : ∃ bs, t.tm.areaBytes 0 n = bs ∧ bs.length = 256 ∧ recOk bs = true ∧ recSeq bs = s.tm.seq % 2 ^ 32 ∧ bs.getD 1 0 = BitVec.ofNat 8 ty
  others : (∀ k, k ≠ n → t.tm.areaBytes 0 k = s.tm.areaBytes 0 k) ∧ t.tm.circ = s.tm.circ ∧ t.tm.ledger = s.tm.ledger
  seq : t.tm.seq = (s.tm.seq + 1) % 2 ^ 32
  interval : t.tm.running = true ∧ t.tm.cur.openUs = s.us
  rest : t = { s with regs := t.regs, tm := t.tm, free := t.free }

/-- `t` is `x` but for the four event counts of one page. -/
def CountsOnly (x t : State) (cls inst : Nat) : Prop := t = { x with regs := t.regs } ∧ SameFields x t (countKeys cls inst)
/-- Bytes of one line of HBM that no cache holds and no message concerns, and that are not marked: they are read and
written in memory. -/
structure State.Uncached (s : State) (pa n : Nat) : Prop where
  range : 1 ≤ n ∧ pa % 128 + n ≤ 128 ∧ pa + n ≤ 2 ^ 41
  quiet : s.lineBusy (pa / 128) = false
  slices : ∀ h, (s.slice h).line (pa / 128) = {} ∧ (s.slice h).ghost (pa / 128) = none
  cores : ∀ p ∈ s.cores, (p.2.line (pa / 128)).st = .i
  marks : ∀ a, pa ≤ a → a < pa + n → s.poisoned a = false ∧ s.badTile a = false

/-- A command of a queue has ended (R435, R436): it is in flight no more, its queue has one record more, the other queues and
contexts are as they were. -/
def State.Ended (s t : State) (x q i : Nat) : Prop :=
  t.cmdAt x q i = none ∧ (t.queue x q).written = (s.queue x q).written + 1 ∧ (∀ p, p ≠ q → t.queue x p = s.queue x p) ∧ ∀ y, y ≠ x → t.ctx y = s.ctx y

end Sys2Proof.Machine
end

