-- ==== Sys2Proof/Certificates/Slice0/Obligations.lean ====
section
/-! DEFINITION. The statements about the model. -/

open Sys2Proof Sys2Proof.Machine

/-- a step runs the command at the front of the queue on the rest of the queue (spec/95_what_each_step_holds.md; derived). -/
def Obligations.StepRunsFront : Prop :=
  ∀ (c : Instr) (rest : List Instr) (s : State), s.pending = c :: rest →
    step s = exec c { s with pending := rest }

/-- a step on an empty queue is one tick of the tide counter (the model's choice, log entry 11) (spec/13_tide_schedules.md; derived). -/
def Obligations.IdleStepIsOneTick : Prop :=
  ∀ s : State, s.pending = [] → ∃ t, step s = .next t ∧
    t.ns.tick = (s.ns.tick + 1) % 2 ^ 64 ∧ t.now = s.now + 128 ∧
    t = { s with regs := t.regs, now := t.now, tm := t.tm, ns := { s.ns with tick := t.ns.tick } } ∧
    t.tm = { s.tm with cur := t.tm.cur }

/-- every step completes and takes exactly the front command off the queue (spec/95_what_each_step_holds.md, spec/00_scope.md; derived). -/
def Obligations.EveryStepTakesOneCommand : Prop :=
  ∀ s : State, ∃ t, step s = .next t ∧ t.pending = s.pending.tail

/-- every step keeps device memory and host memory in canonical form (spec/11_hbm_and_outer_tiers.md, spec/15_host_ports_and_commands.md; derived). -/
def Obligations.StepKeepsMemoriesCanonical : Prop :=
  ∀ s t : State, s.memoryWf → step s = .next t → t.memoryWf

/-- right after reset both memories are in canonical form, no command waits and start-up is in stage 1 (spec/11_hbm_and_outer_tiers.md; derived). -/
def Obligations.ResetMemoriesCanonical : Prop :=
  State.reset.memoryWf ∧ State.reset.pending = [] ∧ State.reset.se.stage = 1 ∧ State.reset.cores = [] ∧
    State.reset.hs.ctxs = [] ∧ State.reset.hs.coves = [] ∧ State.reset.ns.doms = [] ∧ State.reset.net = []

/-- no step lowers the minimum SVN, restores a blown unlock fuse or removes an unlock ledger entry (R538, R539, R551; derived). -/
def Obligations.NoStepRollsBackSecurity : Prop :=
  ∀ s t : State, step s = .next t →
    s.se.minSvn ≤ t.se.minSvn ∧ t.se.fuses ≤ s.se.fuses ∧ s.se.ledger <+: t.se.ledger

/-- no step draws a free value a second time (the model's own counter, log entry 1) (spec/00_scope.md; derived). -/
def Obligations.StepDrawsForward : Prop :=
  ∀ s t : State, step s = .next t → s.free ≤ t.free

/-- an arithmetic, logic, shift or move instruction that issues writes its result per acting thread and nothing else (R60, R61, R89, R92, R101, R115, R597; derived). -/
def Obligations.AluResultIsWritten : Prop :=
  ∀ (c : Instr) (w : IWord) (r : AluRow) (val : Launch → Ins → Fmt → Nat → Nat → Nat → Nat → Nat) (s u : State),
    aluValue c = some (w, r, val) →
    let z := s.view w
    let f := r.ty z.i
    let form := r.form z.i f f true
    s.Issues u w (r.code w) form →
    ∃ t, ∃ free : Nat → Nat, exec c s = .next t ∧ Issued u t w ∧
      Wrote (z.moved form) (t.group w.core w.slot) z f.nregs
        (fun th => val z.l z.i f (free th) (z.opA f th) (z.opB f th) (z.opC f th))

/-- integer results of the ALU: exact sums in range, low and high product halves, comparisons, logic, shifts, counts (R101, R597; derived). -/
def Obligations.AluIntegerResults : Prop :=
  ∀ (l : Launch) (i : Ins) (f : Fmt) (free a b c : Nat), intTypes f = true → a < 2 ^ f.width → b < 2 ^ f.width → c < 2 ^ f.width →
    let fits := fun x : Int => f.range.1 ≤ x ∧ x ≤ f.range.2
    (fits (f.intVal a + f.intVal b) → f.intVal (addRegs l i f free a b c) = f.intVal a + f.intVal b) ∧
    (fits (f.intVal a - f.intVal b) → f.intVal (subRegs l i f free a b c) = f.intVal a - f.intVal b) ∧
    (fits (f.intVal a * f.intVal b + f.intVal c) → f.intVal (fmaRegs l i f free a b c) = f.intVal a * f.intVal b + f.intVal c) ∧
    mulRegs l i f free a b c = a * b % 2 ^ f.width ∧
    f.intVal (minRegs l i f free a b c) = min (f.intVal a) (f.intVal b) ∧
    f.intVal (maxRegs l i f free a b c) = max (f.intVal a) (f.intVal b) ∧
    (fits |f.intVal a| → f.intVal (absRegs l i f free a b c) = |f.intVal a|) ∧
    (fits (-f.intVal a) → f.intVal (negRegs l i f free a b c) = -f.intVal a) ∧
    (∀ k < f.width,
      (andRegs l i f free a b c).testBit k = (a.testBit k && b.testBit k) ∧
      (orRegs l i f free a b c).testBit k = (a.testBit k || b.testBit k) ∧
      (xorRegs l i f free a b c).testBit k = (a.testBit k ^^ b.testBit k) ∧
      (notRegs l i f free a b c).testBit k = !a.testBit k ∧
      (shlRegs l i f free a b c).testBit k = (decide (b % f.width ≤ k) && a.testBit (k - b % f.width)) ∧
      (shrRegs l i f free a b c).testBit k = a.testBit (k + b % f.width) ∧
      (sarRegs l i f free a b c).testBit k = a.testBit (min (k + b % f.width) (f.width - 1)) ∧
      (f.width = 32 → (brevRegs l i f free a b c).testBit k = a.testBit (31 - k))) ∧
    (f.width = 32 →
      f.intVal a * f.intVal b = f.intVal (mulhiRegs l i f free a b c) * 2 ^ 32 + (mulRegs l i f free a b c : Int) ∧
      (a = 0 → clzRegs l i f free a b c = 32) ∧
      (a ≠ 0 → 2 ^ (31 - clzRegs l i f free a b c) ≤ a ∧ a < 2 ^ (32 - clzRegs l i f free a b c)) ∧
      popcRegs l i f free a b c = ((List.range 32).filter (fun k => a.testBit k)).length)

/-- floating-point results of the ALU: one rounding, ordered zeros, canonical NaNs, sign operations, packed elements apart (R596; derived). -/
def Obligations.AluFloatResults : Prop :=
  ∀ (l : Launch) (i : Ins) (f : Fmt) (free a b c : Nat), f = .fp32 ∨ f = .fp64 ∨ f = .fp16 ∨ f = .bf16 →
    let rm := rmodeOf l i.q
    let fin := fun v : FVal => (f.round rm (satmOf l i.q) v).bits
    let el := fun (k x : Nat) => x / 2 ^ (f.width * k) % 2 ^ f.width
    (∀ k < 32 * f.nregs / f.width,
      let x := el k a
      let y := el k b
      let v := f.decode x
      let u := f.decode y
      el k (addRegs l i f free a b c) = fin (FVal.add rm v u) % 2 ^ f.width ∧
      el k (subRegs l i f free a b c) = fin (FVal.add rm v u.neg) % 2 ^ f.width ∧
      el k (mulRegs l i f free a b c) = fin (FVal.mul v u) % 2 ^ f.width ∧
      el k (fmaRegs l i f free a b c) = fin (FVal.add rm (FVal.mul v u) (f.decode (el k c))) % 2 ^ f.width ∧
      (isNan v = true ∨ isNan u = true → el k (minRegs l i f free a b c) = f.nan ∧ el k (maxRegs l i f free a b c) = f.nan) ∧
      (isNan v = false → isNan u = false →
        el k (minRegs l i f free a b c) = (if FVal.cmp true v u = .gt then y else x) ∧
        el k (maxRegs l i f free a b c) = (if FVal.cmp true v u = .gt then x else y)) ∧
      (isNan v = true → el k (absRegs l i f free a b c) = f.nan ∧ el k (negRegs l i f free a b c) = f.nan) ∧
      (isNan v = false →
        (∀ j < f.width - 1, (el k (absRegs l i f free a b c)).testBit j = x.testBit j ∧
          (el k (negRegs l i f free a b c)).testBit j = x.testBit j) ∧
        (el k (absRegs l i f free a b c)).testBit (f.width - 1) = false ∧
        (el k (negRegs l i f free a b c)).testBit (f.width - 1) = !x.testBit (f.width - 1)))

/-- sel, shfl, cvt and mov.sv write their result per acting thread and nothing else (R102, R103, R104; derived). -/
def Obligations.SelShflCvtMovSvWriteTheirResult : Prop :=
  ∀ (w : IWord) (s u : State),
    let z := s.view w
    let T := (z.i.ty).getD .int32
    (let r : AluRow := { row2 0x003 Fmt.is32 with c := .p }
     let form := r.form z.i T T true
     s.Issues u w (r.code w) form → ∃ t, exec (.sel w) s = .next t ∧ Issued u t w ∧
       Wrote (z.moved form) (t.group w.core w.slot) z T.nregs
         (fun th => (if (z.g.rp z.i.c).getLsbD th then z.opA T th else z.opB T th) % 2 ^ T.regBits)) ∧
    (let r : AluRow := { row2 0x050 Fmt.is32 with lay := .shfl, scalar := false }
     let form := r.form z.i T T true
     s.Issues u w (r.code w) form → ∃ t, exec (.shfl w) s = .next t ∧ Issued u t w ∧
       Wrote (z.moved form) (t.group w.core w.slot) z T.nregs (fun th =>
         let b := if z.i.bi then (if z.i.lg then low32 z.i.x else z.i.b) else z.readV .int32 z.i.bs z.i.b th
         let src : Int := if bits z.i.q 1 0 = 0 then ((b % 64 : Nat) : Int) else if bits z.i.q 1 0 = 1 then (th : Int) - b
           else if bits z.i.q 1 0 = 2 then (th : Int) + b else ((th ^^^ (b % 64) : Nat) : Int)
         z.g.rv z.i.a (if 0 ≤ src ∧ src < 64 ∧ z.g.live.getLsbD src.toNat = true then src.toNat else th) % 2 ^ T.regBits)) ∧
    (let r : AluRow := { row1 0x040 (fun f => f != .wes) with c := .raw }
     let src := (Fmt.ofCode (z.i.c % 16)).getD .wes
     let form := r.form z.i T src (z.i.c < 16 && src != .wes && z.i.c != 15 &&
       !(bits z.i.q 2 1 == 2 && (T == .e3m2 || T == .e2m3 || T == .e2m1)))
     s.Issues u w (r.code w) form → ∃ t, exec (.cvt w) s = .next t ∧ Issued u t w ∧
       Wrote (z.moved form) (t.group w.core w.slot) z T.nregs
         (fun th => (convert src T (rmodeOf z.l z.i.q) (satmFor z.l z.i.q T) (z.opA src th)).bits)) ∧
    (let r : AluRow := { op := 0x002, types := fun _ => true, scalar := true, lay := .none, d := .val, a := .sv, typed := false }
     let f : Fmt := if 0x10 ≤ z.i.a then .i64 else .int32
     let form := r.form z.i f .int32 true
     s.Issues u w (r.code w) form → ∃ t, ∃ x : Nat, exec (.movSv w) s = .next t ∧ Issued u t w ∧
       Wrote (z.moved form) (t.group w.core w.slot) z f.nregs
         (fun th => if z.i.a = 0x10 then x % 2 ^ 64 else sysValue u z z.i.a th))

/-- cmp, vote, mand, mor, mxor, mnot, mov.pm, mov.mp and popc.m write their predicate, mask or scalar and nothing else (R60, R96, R101, R103; derived). -/
def Obligations.PredicatesAndMasksWritten : Prop :=
  (∀ (c : Instr) (w : IWord) (r : AluRow) (val : Iss → W64) (s u : State), maskValue c = some (w, r, val) →
    let z := s.view w
    let form := r.form z.i .int32 .int32 (r.op != 0x060 || decide (z.i.c < 3))
    s.Issues u w (r.code w) form →
    ∃ t, exec c s = .next t ∧ Issued u t w ∧ t.group w.core w.slot = (z.moved form).wm z.i.d (val z)) ∧
  (∀ (w : IWord) (s u : State),
    let z := s.view w
    (let r : AluRow := { row2 0x030 arithTypes with lay := .cmp, d := .p }
     let f := r.ty z.i
     let form := r.form z.i f f true
     s.Issues u w (r.code w) form →
     ∃ t v, exec (.cmp w) s = .next t ∧ Issued u t w ∧ t.group w.core w.slot = (z.moved form).wp z.i.d v ∧
       ∀ th < 64, v.getLsbD th = if z.act.getLsbD th then
         (let k := if z.i.scalar then z.first else th
          compareRegs f z.i.cc (z.opA f k) (z.opB f k)) else (z.g.rp z.i.d).getLsbD th) ∧
    (let r := rowMask 0x066 .p .m .no
     let form := r.form z.i .int32 .int32 true
     s.Issues u w (r.code w) form →
     ∃ t v, exec (.movMp w) s = .next t ∧ Issued u t w ∧ t.group w.core w.slot = (z.moved form).wp z.i.d v ∧
       ∀ th < 64, v.getLsbD th = if z.act.getLsbD th then (z.g.rm z.i.a).getLsbD th else (z.g.rp z.i.d).getLsbD th) ∧
    (let r := rowMask 0x067 .s1 .m .no
     let form := r.form z.i .int32 .int32 true
     s.Issues u w (r.code w) form →
     ∃ t, exec (.popcM w) s = .next t ∧ Issued u t w ∧
       t.group w.core w.slot = (z.moved form).ws z.i.d (popcount 64 (z.g.rm z.i.a).toNat)) ∧
    (let r := rowMask 0 .no .no .no
     let form := r.form z.i .int32 .int32 true
     s.Issues u w (r.code w) form →
     ∃ t, exec (.nopInstruction w) s = .next t ∧ Issued u t w ∧ t.group w.core w.slot = z.moved form))

/-- bra and brx: uniform branches go on together; divergent ones split the group as R74 says (R60, R74, R76, R88, R89, R109; derived). -/
def Obligations.BranchesTurnTheGroup : Prop :=
  ∀ (w : IWord) (s u : State),
    let z := s.view w
    let n := nextPc z.g.pc z.i.size
    (let form : Form := {
       legal := z.i.guardOk true && z.i.t == 0 && z.i.q == 0 && (if z.i.lg then z.i.xLowOk && z.i.xHighOk else true) &&
         (z.i.ge || (if z.i.lg then z.i.x / 2 ^ 32 == 0 else z.i.b == 0 && z.i.c == 0))
       ops := noOps z.i (!z.i.lg) (!z.i.lg) (!z.i.lg) (!z.i.lg) }
     let T := z.rel z.i.braTarget
     let P := z.rel z.i.braRecon
     s.Issues u w (4, 0x000) form →
     (z.act = 0 → ∃ t, exec (.bra w) s = .next t ∧ Issued u t w ∧ t.group w.core w.slot = z.moved form) ∧
     (z.act ≠ 0 → z.act = z.g.m0 → ∃ t, exec (.bra w) s = .next t ∧ Issued u t w ∧
       t.group w.core w.slot = { z.moved form with pc := T }) ∧
     (z.act ≠ 0 → z.act ≠ z.g.m0 → z.g.stack.length < 32 → ∃ v, Issued u v w ∧
       v.group w.core w.slot = z.diverged z.act T P n ∧
       exec (.bra w) s = .next (v.depthMark w.core (z.g.afterBranch z.act T P).length))) ∧
    (let form : Form := {
       legal := z.i.guardOk false && z.i.t == 0 && z.i.q == 0 && (!z.i.lg || (z.i.x % 2 ^ 32 == 0 && z.i.xHighOk))
       ops := [⟨.zero, z.i.d, false⟩, ⟨.v 1, z.i.a, false⟩, ⟨if z.i.lg then .zero else .raw, z.i.b, false⟩,
         ⟨if z.i.lg then .zero else .raw, z.i.c, false⟩] }
     let P := z.rel (if z.i.lg then z.i.xHigh else off16 z.i.c z.i.b)
     let target := fun th => z.rel (sext 32 (z.g.rv z.i.a th))
     s.Issues u w (4, 0x001) form → (∀ th, z.act.getLsbD th = true → target th % 8 = 0) → z.act ≠ 0 → z.act = z.g.m0 →
     ((∀ th, z.act.getLsbD th = true → target th = target z.first) → ∃ t, exec (.brx w) s = .next t ∧ Issued u t w ∧
       t.group w.core w.slot = { z.moved form with pc := target z.first }) ∧
     (∀ rest : W64, (∀ th < 64, rest.getLsbD th = (z.act.getLsbD th && target th != target z.first)) → rest ≠ 0 →
       z.g.stack.length < 32 → ∃ v, Issued u v w ∧
       v.group w.core w.slot = z.diverged rest z.g.pc P (target z.first) ∧
       exec (.brx w) s = .next (v.depthMark w.core (z.g.afterBranch rest z.g.pc P).length)))

/-- call, ret, sleep.hint and wait.land of an arrived slot: the scalar pair, the jump, the hint, and nothing else (R70, R89, R110, R378, R504; derived). -/
def Obligations.CallReturnHintAndWait : Prop :=
  ∀ (w : IWord) (s u : State),
    let z := s.view w
    (let form : Form := {
       legal := z.i.guardOk false && z.i.t == 0 && z.i.q == 0 && (!z.i.lg || (z.i.x / 2 ^ 32 == 0 && z.i.xLowOk))
       ops := [⟨.s 2, z.i.d, true⟩, ⟨.zero, z.i.a, false⟩, ⟨if z.i.lg then .zero else .raw, z.i.b, false⟩,
         ⟨if z.i.lg then .zero else .raw, z.i.c, false⟩] }
     s.Issues u w (4, 0x002) form → ∃ t, ∃ h : Group, exec (.call w) s = .next t ∧ Issued u t w ∧
       t.group w.core w.slot = { h with pc := z.rel (if z.i.lg then z.i.xLow else off16 z.i.c z.i.b) } ∧
       h = { z.moved form with s := h.s } ∧
       h.rs2 z.i.d = nextPc z.g.pc z.i.size ∧ ∀ r, r ≠ z.i.d → r ≠ z.i.d + 1 → h.rs r = z.g.rs r) ∧
    (let form : Form := {
       legal := z.i.guardOk false && !z.i.lg && z.i.t == 0 && z.i.q == 0
       ops := [⟨.zero, z.i.d, false⟩, ⟨.s 2, z.i.a, false⟩, ⟨.zero, z.i.b, false⟩, ⟨.zero, z.i.c, false⟩] }
     s.Issues u w (4, 0x003) form → z.g.rs2 z.i.a % 8 = 0 → ∃ t, exec (.ret w) s = .next t ∧ Issued u t w ∧
       t.group w.core w.slot = { z.moved form with pc := z.g.rs2 z.i.a }) ∧
    (let form : Form := {
       legal := z.i.guardOk false && !z.i.lg && z.i.t == 0 && (z.i.q == 0 || z.i.q == 0x80)
       ops := [⟨.zero, z.i.d, false⟩, ⟨if z.i.q = 0x80 then .zero else .s 1, z.i.a, false⟩,
         ⟨if z.i.q = 0x80 then .raw else .zero, z.i.b, false⟩, ⟨if z.i.q = 0x80 then .raw else .zero, z.i.c, false⟩] }
     s.Issues u w (4, 0x030) form → ∃ v, Issued u v w ∧ v.group w.core w.slot = { z.moved form with hinted := 1 } ∧
       exec (.sleepHint w) s = .next { v with
         pw := { v.pw with
           hint := v.pw.hint.filter (fun h => !(h.1 == w.core && h.2.1 == w.slot)) ++
             [(w.core, w.slot, v.now + (if z.i.q = 0x80 then 256 * z.i.c + z.i.b else z.g.rs z.i.a) * 4000 / v.pw.clock4)] } }) ∧
    (let form : Form := {
       legal := z.i.guardOk false && !z.i.lg && z.i.t == 0 && (z.i.q == 0 || z.i.q == 0x80)
       ops := [⟨.zero, z.i.d, false⟩, ⟨if z.i.q = 0x80 then .zero else .s 1, z.i.a, false⟩, ⟨.zero, z.i.b, false⟩,
         ⟨if z.i.q = 0x80 then .raw else .zero, z.i.c, false⟩] }
     let slot := if z.i.q = 0x80 then z.i.c else z.g.rs z.i.a
     s.Issues u w (4, 0x020) form → slot < (u.core w.core).landCount → ((u.core w.core).slot slot).st = 2 →
       ∃ t, exec (.waitLand w) s = .next t ∧ Issued u t w ∧ t.group w.core w.slot = z.moved form)

/-- exit removes the active threads from the live mask; a group left without threads frees its slot (R59, R75, R77; derived). -/
def Obligations.ExitRemovesThreads : Prop :=
  ∀ (w : IWord) (s u : State),
    let z := s.view w
    let form : Form := {
      legal := z.i.guardOk true && !z.i.lg && z.i.t == 0 && z.i.q == 0
      ops := noOps z.i false false false false }
    let left := (Group.settle 66
      { (z.moved form).wm 0 (z.g.m0 &&& ~~~z.act) with live := z.g.live &&& ~~~z.act }).1
    s.Issues u w (4, 0x004) form → z.g.region = none →
    (¬(left.stack = [] ∧ left.m0 &&& left.live = 0) →
      (u.core w.core).busyWith w.slot = false →
      ∃ t, exec (.exit w) s = .next t ∧ Issued u t w ∧ t.group w.core w.slot = left ∧
        left.live = z.g.live &&& ~~~z.act) ∧
    (left.stack = [] → left.m0 &&& left.live = 0 → (u.core w.core).busyWith w.slot = false →
      ((u.core w.core).groupsOf z.g.blk).any (fun p => p.1 != w.slot) = true →
      ∃ t, exec (.exit w) s = .next t ∧ t.group w.core w.slot = {} ∧ t.mem = u.mem ∧ t.host = u.host ∧ t.net = u.net ∧
        t.hs = u.hs ∧ (∀ c, c ≠ w.core → t.core c = u.core c))

/-- bar.blk waits until every occupied group of its block has arrived; the last arrival releases them all (R80; derived). -/
def Obligations.BarrierWaitsForTheBlock : Prop :=
  ∀ (w : IWord) (s u : State),
    let z := s.view w
    let form : Form := {
      legal := z.i.guardOk false && !z.i.lg && z.i.t == 0 && z.i.q == 0
      ops := noOps z.i false false false false }
    let k := u.core w.core
    let here := sadd w.slot (k.block z.g.blk).arrived
    s.Issues u w (4, 0x010) form → z.g.region = none → z.g.m0 = z.g.live →
    k.elq.any (fun e => e.slot == w.slot) = false → k.allPerformed w.slot 1 = true → z.g.occupied = true →
    ((k.groupsOf z.g.blk).any (fun p => !here.contains p.1) = true →
      ∃ t, exec (.barBlk w) s = .next t ∧
        t.group w.core w.slot = (z.moved form).holding .barrier ∧
        ((t.core w.core).block z.g.blk).arrived = here ∧
        (∀ g, g ≠ w.slot → t.group w.core g = u.group w.core g) ∧ (∀ c, c ≠ w.core → t.core c = u.core c) ∧
        t.mem = u.mem ∧ t.net = u.net ∧ t.hs = u.hs) ∧
    ((k.groupsOf z.g.blk).all (fun p => here.contains p.1) = true →
      ∃ t, exec (.barBlk w) s = .next t ∧
        t.group w.core w.slot = { (z.moved form).holding .barrier with hold := .none } ∧
        ((t.core w.core).block z.g.blk).arrived = [] ∧
        (∀ g ∈ here, g ≠ w.slot → t.group w.core g = { u.group w.core g with hold := .none }) ∧
        (∀ g, g ∉ here → t.group w.core g = u.group w.core g) ∧ (∀ c, c ≠ w.core → t.core c = u.core c) ∧
        t.mem = u.mem ∧ t.net = u.net ∧ t.hs = u.hs)

/-- brk executed by a thread raises BREAKPOINT: the context is FAULTED, the fault recorded, the group still at the brk (R84, R87, R110, R112; derived). -/
def Obligations.BreakpointFaultsTheContext : Prop :=
  ∀ (w : IWord) (s u : State),
    let z := s.view w
    let form : Form := {
      legal := z.i.guardOk true && !z.i.lg && z.i.t == 0 && z.i.q == 0
      ops := noOps z.i false false false false }
    s.Issues u w (4, 0x031) form →
    (z.act ≠ 0 → (u.core w.core).busyWith w.slot = false → s.corePage w.core < 2048 → z.l.ctx < 4096 → ∃ t, exec (.brk w) s = .next t ∧
      (t.ctx z.l.ctx).st = 4 ∧ t.group w.core w.slot = s.atIssue w ∧
      (u.xfld z.l.ctx R.CTX_FAULT_VALID = 0 →
        t.xfld z.l.ctx R.CTX_FAULT_VALID = 1 ∧ t.xfld z.l.ctx R.CTX_FAULT_CODE = 17 ∧ t.xfld z.l.ctx R.CTX_FAULT_RESUMABLE = 1) ∧
      (u.kfld w.core R.FAULT_INFO_VALID = 0 →
        t.kfld w.core R.FAULT_INFO_VALID = 1 ∧ t.kfld w.core R.FAULT_INFO_FAULT_CODE = 17 ∧
        t.kfld w.core R.FAULT_INFO_SLOT = w.slot % 32 ∧ t.kfld w.core R.FAULT_PC_PC = z.g.pc % 2 ^ 57)) ∧
    (z.act = 0 → ∃ t, exec (.brk w) s = .next t ∧ Issued u t w ∧ t.group w.core w.slot = z.moved form)

/-- a plain ld whose line the L1 holds writes the bytes of the line to its registers in the same step (R98, R100, R226; derived). -/
def Obligations.LoadHitsTheL1 : Prop :=
  ∀ (w : IWord) (s u x : State) (r : List (Nat × Nat × XAcc)) (line : Nat),
    let z := s.view w
    let n := z.i.width
    let form := ldstForm z.i true 2 (z.i.ordOk [0, 1] [0, 1, 2, 3] [0, 1])
    let k := x.core w.core
    s.Issues u w (1, 0x000) form → z.act ≠ 0 → z.i.order = 0 → z.i.loc = 0 →
    addrFaults (fun a => a % n == 0) (u.coreAddrs w.core z.g.quarter z.l.cove false (z.addrs n)).1 = [] →
    (u.advanced w z form).coreAddrs w.core z.g.quarter z.l.cove false (z.addrs n) = (r, x) → inLine r line n →
    k.clearFor w.slot → x.fld clsCore (x.corePage w.core) R.ERR_INJECT_ARM = 0 →
    stable (k.line line).st = true → (k.line line).holds r n →
    ∃ t, exec (.ld w) s = .next t ∧ OnlyCore x t w.core ∧ t.net = x.net ∧
      (∀ th va pa e, (th, va, .ok pa e) ∈ r → ∀ j < widthRegs z.i, z.i.d + j ≠ 255 →
        (t.group w.core w.slot).rv (z.i.d + j) th = (k.line line).data.readLE (pa % 128) n / 2 ^ (32 * j) % 2 ^ 32) ∧
      (∀ q th, th < 64 → (q < z.i.d ∨ z.i.d + widthRegs z.i ≤ q ∨ z.act.getLsbD th = false) →
        (t.group w.core w.slot).rv q th = z.g.rv q th) ∧
      t.group w.core w.slot = { z.moved form with v := (t.group w.core w.slot).v } ∧
      (∀ g, g ≠ w.slot → t.group w.core g = x.group w.core g) ∧ (t.core w.core).ops = k.ops

/-- a plain st whose line the L1 holds in E or M writes the line, the highest thread last, and makes it M and dirty (R98, R100, R225, R233; derived). -/
def Obligations.StoreHitsTheL1 : Prop :=
  ∀ (w : IWord) (s u x : State) (r : List (Nat × Nat × XAcc)) (line : Nat),
    let z := s.view w
    let n := z.i.width
    let form := ldstForm z.i false 2 (z.i.ordOk [0, 2] [0, 1, 2, 3] [0])
    let k := x.core w.core
    let l := k.line line
    s.Issues u w (1, 0x001) form → z.act ≠ 0 → z.i.order = 0 →
    addrFaults (fun a => a % n == 0) (u.coreAddrs w.core z.g.quarter z.l.cove true (z.addrs n)).1 = [] →
    (u.advanced w z form).coreAddrs w.core z.g.quarter z.l.cove true (z.addrs n) = (r, x) → inLine r line n →
    (∀ p ∈ r, ∀ pa e, p.2.2 = .ok pa e → e.wt = false) →
    k.clearFor w.slot → k.writesFree w.slot → l.st = .e ∨ l.st = .m → l.holds r n → k.lineMisses line = [] →
    ∃ t, exec (.st w) s = .next t ∧ OnlyCore x t w.core ∧ t.net = x.net ∧
      (∀ th va pa e b, (th, va, .ok pa e) ∈ r → pa % 128 ≤ b → b < pa % 128 + n →
        (∀ th' va' pa' e', (th', va', .ok pa' e') ∈ r → th < th' → ¬(pa' % 128 ≤ b ∧ b < pa' % 128 + n)) →
        ((t.core w.core).line line).data.read b = BitVec.ofNat 8 (z.g.rvk z.i.d th (widthRegs z.i) / 256 ^ (b - pa % 128))) ∧
      (∀ b, (∀ th va pa e, (th, va, .ok pa e) ∈ r → ¬(pa % 128 ≤ b ∧ b < pa % 128 + n)) →
        ((t.core w.core).line line).data.read b = l.data.read b) ∧
      ((t.core w.core).line line).st = .m ∧
      (∀ i < 4, bit ((t.core w.core).line line).dirty i = (bit l.dirty i ||
        r.any (fun p => match p.2.2 with
          | .ok pa _ => decide (32 * i < pa % 128 + n) && decide (pa % 128 < 32 * i + 32)
          | _ => false))) ∧
      t.group w.core w.slot = z.moved form ∧ (∀ g, g ≠ w.slot → t.group w.core g = x.group w.core g) ∧
      (t.core w.core).ops = k.ops

/-- an atomic on one target acts in thread order on a line held in E or M, or is sent to the home as one AtomFar (R105, R205, R208, R209, R210, R211; derived). -/
def Obligations.AtomicsActNearOrFar : Prop :=
  ∀ (w : IWord) (s u x : State) (r : List (Nat × Nat × XAcc)) (pa : Nat),
    let z := s.view w
    let f := (z.i.ty).getD .int32
    let k := x.core w.core
    let l := k.line (pa / 128)
    let vas := z.threads.map (fun th => (th, z.atomEa th))
    let val := fun th => z.g.rvk z.i.c th f.nregs
    let starts : Nat → AOp → (Fmt → Bool) → Prop := fun code op types =>
      s.Issues u w (1, code) (atomForm z.i op types) ∧ z.act ≠ 0 ∧ z.i.order = 0 ∧
      addrFaults (atomAligned op f) (u.coreAddrs w.core z.g.quarter z.l.cove true vas).1 = [] ∧
      (u.advanced w z (atomForm z.i op types)).coreAddrs w.core z.g.quarter z.l.cove true vas = (r, x) ∧
      (∀ p ∈ r, ∃ e, p.2.2 = .ok pa e) ∧
      (∀ p ∈ (u.coreAddrs w.core z.g.quarter z.l.cove true vas).1, ∃ e, p.2.2 = .ok pa e) ∧
      inHost pa = false ∧ pa % 128 + atomBytes op f ≤ 128 ∧ k.clearFor w.slot ∧ k.writesFree w.slot ∧
      x.fld clsCore (x.corePage w.core) R.ERR_INJECT_ARM = 0
    let near : Instr → Nat → AOp → (Fmt → Bool) → Prop := fun c code op types =>
      let n := atomBytes op f
      let val2 := fun th => if op = .cas then z.g.rvk (z.i.c + f.nregs) th f.nregs else 0
      let step := fun o th => atomApply op f o (val th) (val2 th)
      starts code op types → x.goesFar w.core z.i.loc pa = false → (∀ p ∈ r, ∀ e, p.2.2 = .ok pa e → e.wt = false) →
      l.st = .e ∨ l.st = .m → k.lineMisses (pa / 128) = [] →
      (∀ i < 4, 32 * i < pa % 128 + n → pa % 128 < 32 * i + 32 → bit l.valid i = true) →
      ∃ t, exec c s = .next t ∧ OnlyCore x t w.core ∧ t.net = x.net ∧
        ((t.core w.core).line (pa / 128)).data.readLE (pa % 128) n =
          (z.threads.foldl step (l.data.readLE (pa % 128) n)) % 256 ^ n ∧
        (∀ b, b < pa % 128 ∨ pa % 128 + n ≤ b → ((t.core w.core).line (pa / 128)).data.read b = l.data.read b) ∧
        (z.i.d ≠ 255 → ∀ before after th, z.threads = before ++ th :: after → ∀ j < regsOf n, z.i.d + j ≠ 255 →
          (t.group w.core w.slot).rv (z.i.d + j) th =
            before.foldl step (l.data.readLE (pa % 128) n) / 2 ^ (32 * j) % 2 ^ 32) ∧
        (z.i.d = 255 → (t.group w.core w.slot).v = z.g.v) ∧
        (∀ q th, th < 64 → (q < z.i.d ∨ z.i.d + regsOf n ≤ q ∨ z.act.getLsbD th = false) →
          (t.group w.core w.slot).rv q th = z.g.rv q th) ∧ (t.core w.core).ops = k.ops
    let far : Instr → Nat → AOp → (Fmt → Bool) → Prop := fun c code op types =>
      let val2 := fun th => if op = .cas then z.g.rvk (z.i.c + f.nregs) th f.nregs else 0
      let one := op = .xchg ∨ f.isInt = true ∧ op ∈ [AOp.add, .min, .max, .and, .or, .xor]
      starts code op types → x.goesFar w.core z.i.loc pa = true ∨ (∀ p ∈ r, ∀ e, p.2.2 = .ok pa e → e.wt = true) →
      ∃ t m o, exec c s = .next t ∧ OnlyCore x t w.core ∧ t.net = x.net ++ [m] ∧
        m.ty = .atomFar ∧ m.dst = homeNode (t.home (t.coreCove w.core) (pa / 128)) ∧ m.src = w.core ∧ m.line = pa / 128 ∧
        m.op = op ∧ m.fmt = f ∧ m.offset = pa % 128 ∧ m.ret = (z.i.d != 255) ∧
        (one → m.ops = [((z.threads.drop 1).foldl (fun v th => atomApply op f v (val th) 0) (val z.first), 0)]) ∧
        (¬one → m.ops = z.threads.map (fun th => (val th, val2 th))) ∧
        (t.core w.core).ops = k.ops ++ [o] ∧ o.slot = w.slot ∧ o.kind = .far ∧ o.left = [pa] ∧
        (t.group w.core w.slot).v = z.g.v
    (near (.atomAdd w) 0x010 .add atomAddTypes ∧ far (.atomAdd w) 0x010 .add atomAddTypes) ∧
    (near (.atomMin w) 0x011 .min atomAddTypes ∧ far (.atomMin w) 0x011 .min atomAddTypes) ∧
    (near (.atomMax w) 0x012 .max atomAddTypes ∧ far (.atomMax w) 0x012 .max atomAddTypes) ∧
    (near (.atomAnd w) 0x013 .and intTypes ∧ far (.atomAnd w) 0x013 .and intTypes) ∧
    (near (.atomOr w) 0x014 .or intTypes ∧ far (.atomOr w) 0x014 .or intTypes) ∧
    (near (.atomXor w) 0x015 .xor intTypes ∧ far (.atomXor w) 0x015 .xor intTypes) ∧
    (near (.atomXchg w) 0x016 .xchg atomCasTypes ∧ far (.atomXchg w) 0x016 .xchg atomCasTypes) ∧
    (near (.atomCas w) 0x017 .cas atomCasTypes ∧ far (.atomCas w) 0x017 .cas atomCasTypes) ∧
    far (.atomWes w) 0x018 .wes atomWesTypes

/-- ld.sp reads and st.sp writes the block's scratchpad region in the same step, the highest thread last (R99, R221, R225; derived). -/
def Obligations.ScratchpadLoadsAndStores : Prop :=
  ∀ (w : IWord) (s u : State),
    let z := s.view w
    let n := z.i.width
    let k := u.core w.core
    let b := u.blockOf w.core w.slot
    (∀ th, z.act.getLsbD th = true → z.spOff th % n = 0 ∧ z.spOff th + n ≤ b.spLen) → k.busyWith w.slot = false →
    (let form := ldstForm z.i true 1 (z.i.ordOk [0] [] [0])
     s.Issues u w (1, 0x002) form →
     u.spMarkFaults w.core (z.threads.map (fun th => (b.spOff + z.spOff th, n))) = [] →
     ∃ t, exec (.ldSp w) s = .next t ∧ Issued u t w ∧
       Wrote (z.moved form) (t.group w.core w.slot) z (widthRegs z.i) (fun th => k.sp.readLE (b.spOff + z.spOff th) n)) ∧
    (let form := ldstForm z.i false 1 (z.i.ordOk [0] [] [0])
     s.Issues u w (1, 0x003) form →
     ∃ t, exec (.stSp w) s = .next t ∧ OnlyCore u t w.core ∧ t.net = u.net ∧
       t.group w.core w.slot = z.moved form ∧ (∀ g, g ≠ w.slot → t.group w.core g = u.group w.core g) ∧
       (∀ th a, z.act.getLsbD th = true → a < n →
         (∀ th', z.act.getLsbD th' = true → th < th' → ¬(z.spOff th' ≤ z.spOff th + a ∧ z.spOff th + a < z.spOff th' + n)) →
         (t.core w.core).sp.read (b.spOff + z.spOff th + a) =
           BitVec.ofNat 8 (z.g.rvk z.i.d th (widthRegs z.i) / 256 ^ a)) ∧
       (∀ a, (∀ th, z.act.getLsbD th = true → ¬(b.spOff + z.spOff th ≤ a ∧ a < b.spOff + z.spOff th + n)) →
         (t.core w.core).sp.read a = k.sp.read a))

/-- ld.shelf sends a SnoopRd and st.shelf an AtomFar WRITE to the home of the line, and the group goes on (R99, R194, R256, R285; derived). -/
def Obligations.ShelfScratchGoesPastTheL1 : Prop :=
  ∀ (w : IWord) (s u : State) (line : Nat),
    let z := s.view w
    let n := z.i.width
    let k := u.core w.core
    let at_ := fun th => shelfBase z.l.cove + z.ea n th
    let ldForm := ldstForm z.i true 2 (z.i.ordOk [0, 1] [2, 3] [0])
    let stForm := ldstForm z.i false 2 (z.i.ordOk [0, 2] [2, 3] [0])
    let touched : Nat → Bool := fun i =>
      z.threads.any (fun th => decide (32 * i < at_ th % 128 + n) && decide (at_ th % 128 < 32 * i + 32))
    k.clearFor w.slot → k.writesFree w.slot →
    (∀ th, z.act.getLsbD th = true → z.ea n th % n = 0 ∧ z.ea n th + n ≤ u.windowBytes z.l.cove ∧ at_ th / 128 = line ∧
      (at_ th % 128) + n ≤ 128) →
    (z.act ≠ 0 → z.i.order = 0 → s.Issues u w (1, 0x004) ldForm →
     ∃ t m o, exec (.ldShelf w) s = .next t ∧ OnlyCore u t w.core ∧ t.net = u.net ++ [m] ∧ m.ty = .snoopRd ∧
       m.dst = homeNode (t.home (t.coreCove w.core) line) ∧ m.src = w.core ∧ m.line = line ∧
       (∀ i < 4, bit m.mask i = touched i) ∧
       (t.core w.core).ops = k.ops ++ [o] ∧ o.slot = w.slot ∧ o.kind = .bypLoad ∧ o.dst = z.i.d ∧
       t.group w.core w.slot = { z.moved ldForm with
         busyV := z.g.busyV ++ ((List.range (widthRegs z.i)).map (fun j => z.i.d + j)).filter (fun q => q != 255) }) ∧
    (z.act ≠ 0 → z.i.order = 0 → s.Issues u w (1, 0x005) stForm →
     ∃ t m o, exec (.stShelf w) s = .next t ∧ OnlyCore u t w.core ∧ t.net = u.net ++ [m] ∧ m.ty = .atomFar ∧ m.op = .write ∧
       m.dst = homeNode (t.home (t.coreCove w.core) line) ∧ m.src = w.core ∧ m.line = line ∧
       (∀ i < 4, bit m.mask i = touched i) ∧
       (t.core w.core).ops = k.ops ++ [o] ∧ o.slot = w.slot ∧ o.kind = .bypStore ∧
       t.group w.core w.slot = z.moved stForm) ∧
    (z.act = 0 → s.Issues u w (1, 0x004) ldForm → exec (.ldShelf w) s = .next (u.advanced w z ldForm)) ∧
    (z.act = 0 → s.Issues u w (1, 0x005) stForm → exec (.stShelf w) s = .next (u.advanced w z stForm))

/-- ld.const reads through the constant cache; fence goes on once the group's accesses are performed; inv.ro empties caches (R82, R97, R99, R190, R195; derived). -/
def Obligations.ConstantLoadsFencesAndRoInvalidation : Prop :=
  ∀ (w : IWord) (s u : State),
    let z := s.view w
    let n := z.i.width
    (∀ o ∈ (u.core w.core).ops, o.slot ≠ w.slot) →
    (∀ (x : State) (vs : List (Nat × Nat × Bool × Bool)),
      let form := ldstForm z.i true 2 (z.i.ordOk [0] [] [0])
      let vas := (z.addrs n).map (fun p => (p.1, (z.l.const + p.2) % 2 ^ 64))
      s.Issues u w (1, 0x006) form → z.act ≠ 0 → (u.core w.core).replay = [] →
      (∀ th, z.act.getLsbD th = true → z.ea n th % n = 0 ∧ z.ea n th + n ≤ z.l.constBytes) →
      addrFaults (fun _ => true) (u.coreAddrs w.core z.g.quarter z.l.cove false vas).1 = [] →
      (u.constReads w.core z.g.quarter z.l.cove n vas).isSome = true →
      (u.advanced w z form).constReads w.core z.g.quarter z.l.cove n vas = some (vs, x) → (∀ p ∈ vs, p.2.2 = (false, false)) →
      ∃ t, exec (.ldConst w) s = .next t ∧ Issued x t w ∧
        Wrote (z.moved form) (t.group w.core w.slot) z (widthRegs z.i) (fun th => (mget (0, false, false) vs th).1)) ∧
    (let form : Form := {
       legal := z.i.guardOk true && !z.i.lg && z.i.t == 0 && z.i.order == 3 && z.i.loc == 0 && z.i.scale == 0
       ops := [⟨.zero, z.i.d, false⟩, ⟨.zero, z.i.a, false⟩, ⟨.zero, z.i.b, false⟩, ⟨.zero, z.i.c, false⟩] }
     s.Issues u w (1, 0x020) form → (∀ e ∈ (u.core w.core).elq, e.slot ≠ w.slot) →
     ∃ t, exec (.fence w) s = .next t ∧ Issued u t w ∧ t.group w.core w.slot = z.moved form) ∧
    (let form : Form := {
       legal := z.i.guardOk true && !z.i.lg && z.i.t == 0 && z.i.q == 0 && decide (z.i.c < 8)
       ops := [⟨.zero, z.i.d, false⟩, ⟨.zero, z.i.a, false⟩, ⟨.zero, z.i.b, false⟩, ⟨.raw, z.i.c, false⟩] }
     s.Issues u w (1, 0x021) form →
     exec (.invRo w) s = .next ((u.advanced w z form).modCore w.core (fun k => { k with
         icache := if z.i.c.testBit 0 then {} else k.icache
         ccache := if z.i.c.testBit 1 then {} else k.ccache
         dcache := if z.i.c.testBit 2 then {} else k.dcache
         elBuf := if z.i.c.testBit 2 then [] else k.elBuf
         elTab := if z.i.c.testBit 2 then [] else k.elTab })))

/-- cmp: the eight condition codes, NaN operands, the equal zeros, and the codes that are illegal (R96). -/
def Obligations.CmpConditionCodes : Prop :=
  ∀ (w : IWord) (s u : State),
    let r : AluRow := { row2 0x030 arithTypes with lay := .cmp, d := .p }
    let z := s.view w
    let f := r.ty z.i
    let form := r.form z.i f f true
    let x := fun th => f.decode (z.opA f (if z.i.scalar then z.first else th) % 2 ^ f.width)
    let y := fun th => f.decode (z.opB f (if z.i.scalar then z.first else th) % 2 ^ f.width)
    (s.Issues u w (r.code w) form →
      ∃ t, exec (.cmp w) s = .next t ∧
        ∀ th < 64, z.act.getLsbD th = true →
          (((t.group w.core w.slot).rp z.i.d).getLsbD th = true ↔ condition z.i.cc (x th) (y th))) ∧
    (8 ≤ z.i.cc ∨ 6 ≤ z.i.cc ∧ f.isFloat = false →
      s.mayIssue w.core w.slot = true → s.fetched w = some u → z.i.cl = (r.code w).1 → z.i.op = (r.code w).2 →
      z.g.scoreboard form = false → (u.core w.core).busyWith w.slot = false →
      exec (.cmp w) s = .next (u.takeFault w.core w.slot Flt.illegal 0))

/-- NaN, infinities, zero times infinity and the scale 0xFF in sums, floating and pinned (R47). -/
def Obligations.SpecialValuesCombine : Prop :=
  (∀ add : Wes → Wes → Wes, add = Wes.addFloat ∨ add = Wes.addPinned → ∀ a b : Wes,
    (a.special = .nan ∨ b.special = .nan → (add a b).special = .nan) ∧
    (a.special = .posInf → b.special = .negInf → (add a b).special = .nan) ∧
    (a.special = .negInf → b.special = .posInf → (add a b).special = .nan) ∧
    (∀ v, v = Special.posInf ∨ v = Special.negInf →
      (a.special = v → b.special = .finite ∨ b.special = v → (add a b).special = v) ∧
      (a.special = .finite → b.special = v → (add a b).special = v))) ∧
  (∀ p q : Bool, (FVal.zero p).mul (.inf q) = .nan ∧ (FVal.inf q).mul (.zero p) = .nan) ∧
  (∀ v, scaleBy 255 v = .nan) ∧ (Wes.ofVal .nan).special = .nan

/-- the window exponent of a floating sum is the running maximum and never decreases (R46). -/
def Obligations.FloatingWindowNeverFalls : Prop :=
  (∀ a b : Wes, a.counts = true → b.counts = true → a.w ≤ 32767 → b.w ≤ 32767 →
    let r := a.addFloat b
    let m := max a.w b.w
    m ≤ r.w ∧ r.w ≤ 32767 ∧ r.counts = true ∧
    ((⌊a.units m⌋ + ⌊b.units m⌋ : Int) < 2 ^ 256 → -(2 ^ 256) ≤ (⌊a.units m⌋ + ⌊b.units m⌋ : Int) →
      r.w = m ∧ r.f = ⌊a.units m⌋ + ⌊b.units m⌋)) ∧
  (∀ (a : Wes) (l : List Wes), a.counts = true → a.w ≤ 32767 → (∀ b ∈ l, b.counts = true ∧ b.w ≤ 32767) →
    (∀ b ∈ l, b.w ≤ (l.foldl Wes.addFloat a).w) ∧
    ∀ k, ((l.take k).foldl Wes.addFloat a).w ≤ (l.foldl Wes.addFloat a).w)

/-- a pinned sum depends only on the multiset of its contributions (R49). -/
def Obligations.PinnedSumsIgnoreOrder : Prop :=
  ∀ (p : Wes) (l : List Wes),
    let r := l.foldl Wes.addPinned p
    let fits := fun b : Wes => decide (|⌊b.units p.w⌋| < 2 ^ 256)
    let enters := fun b : Wes => b.special == .finite && ((!b.empty && b.f != 0) || b.sticky)
    (∀ l', l.Perm l' → l'.foldl Wes.addPinned p = r) ∧ r.pinned = p.pinned ∧
    (r.special = .nan → l ≠ [] → r = Wes.canonNaN p.pinned) ∧
    (r.special ≠ .nan → r.w = p.w ∧
      (2 ^ 288 : Int) ∣ r.f - (p.f + (l.map (fun b => if enters b && fits b then ⌊b.units p.w⌋ else 0)).sum) ∧
      r.sticky = (p.sticky || l.any (fun b => b.sticky || (enters b && decide ((⌊b.units p.w⌋ : ℚ) ≠ b.units p.w)))) ∧
      r.overflow = (p.overflow || l.any (fun b => b.overflow || (enters b && !fits b))))

/-- EVT_SEL, EVT_CLR, ERRCNT_CLR, LOCK and ERR_INJECT change exactly their fields of the common header (R9, R574, R576, R577, R578; derived). -/
def Obligations.HeaderCommandsWrite : Prop :=
  ∀ (w : RegW) (s : State) (cls inst : Nat),
    let count := fun n => fkey cls inst R.EVT_COUNT_n_COUNT (0x20 * n)
    let counts := [count 0, count 1, count 2, count 3]
    let errs := [fkey cls inst R.ERR_COUNT_TOTAL 0, fkey cls inst R.ERR_COUNT_UNRECORDED 0]
    let freeze := fkey cls inst R.UNIT_CTRL_EVT_FREEZE 0
    (∀ n < 4, s.Reaches w cls inst (0x080 + 0x20 * n) → ∃ t, exec (.evtSel w) s = .next t ∧
      t.fldN cls inst R.EVT_SEL_n_CODE (0x20 * n) = w.val % 256 ∧ t.fldN cls inst R.EVT_COUNT_n_COUNT (0x20 * n) = 0 ∧
      OnlyFields s t [fkey cls inst R.EVT_SEL_n_CODE (0x20 * n), count n]) ∧
    (s.Reaches w cls inst 0x010 → bit w.val R.UNIT_CTRL_EVT_CLR.lo = true → ∃ t, exec (.evtClr w) s = .next t ∧
      (∀ n < 4, t.fldN cls inst R.EVT_COUNT_n_COUNT (0x20 * n) = 0) ∧
      t.fld cls inst R.UNIT_CTRL_EVT_FREEZE = bits w.val R.UNIT_CTRL_EVT_FREEZE.hi R.UNIT_CTRL_EVT_FREEZE.lo ∧
      OnlyFields s t (freeze :: counts ++ if bit w.val R.UNIT_CTRL_ERRCNT_CLR.lo then errs else [])) ∧
    (s.Reaches w cls inst 0x010 → bit w.val R.UNIT_CTRL_ERRCNT_CLR.lo = true → ∃ t, exec (.errcntClr w) s = .next t ∧
      t.fld cls inst R.ERR_COUNT_TOTAL = 0 ∧ t.fld cls inst R.ERR_COUNT_UNRECORDED = 0 ∧
      OnlyFields s t (freeze :: errs ++ if bit w.val R.UNIT_CTRL_EVT_CLR.lo then counts else [])) ∧
    (s.Reaches w cls inst 0x048 → ∃ t, exec (.lock w) s = .next t ∧
      (∀ f, f = R.LOCK_CFG_LOCK ∨ f = R.LOCK_INJECT_LOCK →
        (fkey cls inst f 0 ∉ s.wl → t.fld cls inst f = bits w.val f.hi f.lo ∧ fkey cls inst f 0 ∈ t.wl) ∧
        (fkey cls inst f 0 ∈ s.wl → t.fld cls inst f = s.fld cls inst f)) ∧
      t = { s with regs := t.regs, wl := t.wl } ∧ SameFields s t [fkey cls inst R.LOCK_CFG_LOCK 0, fkey cls inst R.LOCK_INJECT_LOCK 0]) ∧
    (s.Reaches w cls inst 0x038 → s.fld cls inst R.LOCK_INJECT_LOCK ≠ 1 → ∃ t, exec (.errInject w) s = .next t ∧
      t.fld cls inst R.ERR_INJECT_ARM = bits w.val 8 8 ∧ t.fld cls inst R.ERR_INJECT_KIND = bits w.val 1 0 ∧
      OnlyFields s t [fkey cls inst R.ERR_INJECT_ARM 0, fkey cls inst R.ERR_INJECT_KIND 0])

/-- a register write: by access code, refused when not 4 or 8 aligned bytes, dropped before READY, without effect on a locked field (R6, R10, R11, R534, R575, R577; derived). -/
def Obligations.RegisterWritesByAccessCode : Prop :=
  ∀ (w : RegW) (s : State) (cls inst : Nat),
    (s.Reaches w cls inst 0x028 → ∃ t, exec (.registerWrite w) s = .next t ∧ t.fld cls inst R.ERR_ENABLE_EN = w.val % 64 ∧
      OnlyFields s t [fkey cls inst R.ERR_ENABLE_EN 0]) ∧
    (s.Reaches w cls inst 0x020 → ∃ t, exec (.registerWrite w) s = .next t ∧
      (∀ b < 6, t.fld cls inst (errFld b) = (if bit w.val (errFld b).lo then 0 else s.fld cls inst (errFld b) % 2)) ∧
      (t.errStatus cls inst = 0 → t.fld cls inst R.ERR_FIRST_VALID = 0) ∧
      (t.errStatus cls inst ≠ 0 → t.fld cls inst R.ERR_FIRST_VALID = s.fld cls inst R.ERR_FIRST_VALID) ∧
      OnlyFields s t (fkey cls inst R.ERR_FIRST_VALID 0 :: (List.range 6).map (fun b => fkey cls inst (errFld b) 0))) ∧
    (s.Reaches w cls inst 0x000 → exec (.registerWrite w) s = .next s) ∧
    (s.Reaches w clsCore inst 0x500 → s.fld clsCore inst R.LOCK_CFG_LOCK = 1 →
      exec (.registerWrite w) s = .next (s.count clsSys 0 Ev.SYS_BAR0_LOCKED_WRITE 1)) ∧
    (bar0Access w.off w.size = false → ∃ t, exec (.registerWrite w) s = .next t ∧
      t = { s with hs := { s.hs with out := t.hs.out } } ∧ t.hs.out = s.hs.out ++ [{ kind := outUnsupported, a := 0, b := w.off }]) ∧
    (bar0Access w.off w.size = true → s.ready = false → exec (.registerWrite w) s = .next s)

/-- PRED_CLEAR, RECONV_HWM_CLR, GHOST_HWM_CLR, HIST_CLR, PEAK_CLR, PWR_CAP_WRITE and L1_MAINT act on their unit alone (R85, R215, R242, R299, R494, R510; derived). -/
def Obligations.UnitClearCommands : Prop :=
  ∀ (w : RegW) (s : State) (inst k : Nat),
    (s.Reaches w clsCore inst 0x500 → s.fld clsCore inst R.LOCK_CFG_LOCK ≠ 1 → s.coreOfPage inst = some k →
      bit w.val 2 = true → ∃ t, exec (.predClear w) s = .next t ∧ t.core k = { s.core k with pred := [] } ∧
        (∀ c, c ≠ k → t.core c = s.core c) ∧ t.fld clsCore inst R.ATOM_CTL_PRED_MODE = w.val % 4 ∧
        t = { s with regs := t.regs, cores := t.cores } ∧ SameFields s t [fkey clsCore inst R.ATOM_CTL_PRED_MODE 0]) ∧
    (s.Reaches w clsCore inst 0x118 → s.coreOfPage inst = some k → s.corePage k = inst → bit w.val 8 = true →
      ∃ t, exec (.reconvHwmClr w) s = .next t ∧ t.kfld k R.RECONV_HWM_DEPTH_HWM = 0 ∧
        OnlyFields s t [fkey clsCore inst R.RECONV_HWM_DEPTH_HWM 0]) ∧
    (s.Reaches w clsSlice inst 0x218 → bit w.val 32 = true → ∃ t, exec (.ghostHwmClr w) s = .next t ∧
      t.slice inst = { s.slice inst with ghostHwm := (s.slice inst).ghosts.length } ∧
      (∀ h, h ≠ inst → t.slice h = s.slice h) ∧ t = { s with slices := t.slices }) ∧
    (s.Reaches w clsTide inst 0x120 → 1 ≤ inst → inst ≤ 8 → bit w.val 0 = true → ∃ t, exec (.histClr w) s = .next t ∧
      (∀ f, f = R.TD_SLIP_MAX_CYCLES ∨ f = R.TD_SLIP_TOTAL_CYCLES ∨ f = R.TD_SEND_TOTAL_CYCLES → t.fld clsTide inst f = 0) ∧
      (∀ b < 16, t.fldN clsTide inst R.TD_SLIP_HIST_n_COUNT (8 * b) = 0 ∧ t.fldN clsTide inst R.TD_SEND_HIST_n_COUNT (8 * b) = 0) ∧
      t = { s with regs := t.regs }) ∧
    (s.Reaches w clsPwr 0 0x128 → bit w.val 48 = true →
      exec (.peakClr w) s = .next { s with pw := { s.pw with peak := s.pw.ms.headD 0 } }) ∧
    (s.Reaches w clsPwr 0 0x100 → s.fld clsPwr 0 R.LOCK_CFG_LOCK ≠ 1 → ∃ t, exec (.pwrCapWrite w) s = .next t ∧
      t.fld clsPwr 0 R.PWR_CAP_CAP_W = w.val % 8192 ∧ t.fld clsPwr 0 R.PWR_CAP_WINDOW_S = bits w.val 21 16 ∧
      OnlyFields s t [fkey clsPwr 0 R.PWR_CAP_CAP_W 0, fkey clsPwr 0 R.PWR_CAP_WINDOW_S 0]) ∧
    (s.Reaches w clsCore inst 0x218 → s.coreOfPage inst = some k → s.corePage k = inst → bit w.val 3 = false →
      (∀ c, (c = .l1MaintWriteBack w ∧ w.val % 4 = 1) ∨ (c = .l1MaintEvict w ∧ w.val % 4 = 2) → (s.core k).blocks ≠ [] →
        ∃ t, exec c s = .next t ∧ t.kfld k R.L1_MAINT_REFUSED = 1 ∧ OnlyFields s t [fkey clsCore inst R.L1_MAINT_REFUSED 0]) ∧
      (∀ (line : Nat) (l : L1Line), (s.core k).blocks = [] → (s.core k).waiting = [] → (s.core k).l1 = [(line, l)] → l.st = .m → l.dirty ≠ 0 →
        (s.core k).lineMisses line = [] → (s.core k).asked line = false →
        (w.val % 4 = 1 → s.lineBusy line = false → (s.hline (s.home (s.coreCove k) line) line).present = false →
          s.linkLost (line * 128) = false → ∃ t, exec (.l1MaintWriteBack w) s = .next t ∧
          (t.core k).line line = { l with st := .e, dirty := 0 } ∧ t.net = s.net ∧ (∀ c, c ≠ k → t.core c = s.core c) ∧
          (∀ a, t.mem.read a = if a / 128 = line ∧ bit l.dirty (a % 128 / 32) = true then l.data.read (a % 128) else s.mem.read a)) ∧
        (w.val % 4 = 2 → ∃ t m, exec (.l1MaintEvict w) s = .next t ∧ (t.core k).line line = { l with st := .miP } ∧
          t.net = s.net ++ [m] ∧ m.ty = .putM ∧ m.src = k ∧ m.line = line ∧ m.mask = l.dirty ∧
          m.dst = homeNode (s.home (s.coreCove k) line) ∧ t.mem = s.mem ∧ (∀ c, c ≠ k → t.core c = s.core c))))

/-- QUEUE_ENABLE starts a queue afresh, QUEUE_RESUME lets a halted queue go on (R433, R437, R459; derived). -/
def Obligations.QueueAndCapCommands : Prop :=
  ∀ (w : RegW) (s : State) (inst i : Nat), i < 8 → s.Reaches w clsCmdq inst (0x110 + 0x20 * i) →
    let x := 2 * inst + i / 4
    let q := i % 4
    (bit w.val 63 = true → bit w.val 61 = false → s.qfld x q R.Q_CFG_ENABLE = 0 → s.qfld x q R.Q_SQ_BASE_SPACE < 2 → s.qfld x q R.Q_CQ_BASE_SPACE < 2 →
      ∃ t, exec (.queueEnable w) s = .next t ∧ t.qfld x q R.Q_CFG_ENABLE = 1 ∧ t.qfld x q R.Q_CFG_LOG2 = bits w.val 52 48 ∧
        t.queue x q = { s.queue x q with sqTail := 0, cqHead := 0, sqHead := 0, cqTail := 0, written := 0, phase := true } ∧
        t.hs.cmds = s.hs.cmds.filter (fun k => !(k.ctx == x && k.queue == q) || k.live) ∧
        (∀ y p, y ≠ x ∨ p ≠ q → t.queue y p = s.queue y p) ∧ t.mem = s.mem ∧ t.cores = s.cores) ∧
    (bit w.val 63 = true → bit w.val 61 = true → s.qfld x q R.Q_CFG_ENABLE = 1 → (s.queue x q).held = [] →
      ∃ t, exec (.queueResume w) s = .next t ∧ t.qfld x q R.Q_CFG_ENABLE = 1 ∧
        t.queue x q = { s.queue x q with halted := false, ringFault := false, held := [] } ∧
        (∀ y p, y ≠ x ∨ p ≠ q → t.queue y p = s.queue y p) ∧ t.hs.cmds = s.hs.cmds ∧ t.mem = s.mem ∧ t.cores = s.cores)

/-- CREATE, RESET, DESTROY, a write of COVE_CORES_n and CORE_LEAVE (R462, R463, R464, R465, R466; derived). -/
def Obligations.CoveCommands : Prop :=
  ∀ (w : RegW) (s : State) (c : Nat),
    (s.Reaches w clsCove c 0x100 → bits w.val 5 4 = 1 → (s.cove c).st = 0 →
      (s.createResult c = 0 → c < 64 → (∀ k ∈ s.coveCoreBits c, s.corePage k < 2048 ∧ (s.core k).heldLines = []) → ∃ t, exec (.coveCreate w) s = .next t ∧
        (t.cove c).st = 1 ∧ (t.cove c).clearing = s.coveChans c ∧
        (∀ ch ∈ s.coveChans c, (t.chan ch).owner = 1 ∧ (t.chan ch).cove = c ∧ (t.chan ch).clearing = true) ∧
        (∀ ch, ch ∉ s.coveChans c → t.chan ch = s.chan ch) ∧
        (∀ h ∈ s.coveSlices c, (t.slice h).role = 1 ∧ (t.slice h).cove = c ∧ (t.slice h).lines = []) ∧
        (∀ h, h ∉ s.coveSlices c → t.slice h = s.slice h) ∧
        (∀ k ∈ s.coveCoreBits c, t.kfld k R.CORE_MAP_COVE = c ∧ t.kfld k R.CORE_MAP_COVE_VALID = 1) ∧
        (∀ d, d ≠ c → t.cove d = s.cove d) ∧ t.mem = s.mem ∧ t.cores = s.cores) ∧
      (s.createResult c ≠ 0 → ∃ t, exec (.coveCreate w) s = .next t ∧ t.cove c = { s.cove c with result := s.createResult c } ∧
        (∀ d, d ≠ c → t.cove d = s.cove d) ∧ t = { s with hs := { s.hs with coves := t.hs.coves } })) ∧
    (s.Reaches w clsCove c 0x100 → bits w.val 5 4 = 2 → (s.cove c).st = 2 → c < 64 → (∀ p ∈ s.hs.ctxs, p.2.st = 0) →
      ∃ t, exec (.coveReset w) s = .next t ∧ (t.cove c).st = 2 ∧ (t.cove c).result = 0 ∧
        (∀ h ∈ s.coveSlices c, (t.slice h).ghosts = []) ∧
        (∀ a, t.mem.read a = if shelfBase c ≤ a ∧ a < shelfBase c + 2 ^ 32 then 0 else s.mem.read a) ∧
        (∀ d, d ≠ c → t.cove d = s.cove d) ∧ t.cores = s.cores) ∧
    (s.Reaches w clsCove c 0x100 → bits w.val 5 4 = 3 → (s.cove c).st = 2 → c < 64 → (∀ p ∈ s.hs.ctxs, p.2.st = 0) → ∃ t, exec (.coveDestroy w) s = .next t ∧
      (t.cove c).st = 0 ∧ (∀ p ∈ s.hb.chans, p.2.owner = 1 → p.2.cove = c → (t.chan p.1).owner = 0) ∧
      (∀ a, t.mem.read a = if shelfBase c ≤ a ∧ a < shelfBase c + 2 ^ 32 then 0 else s.mem.read a)) ∧
    (∀ n j : Nat, n < 16 → j < 64 → s.Reaches w clsCove c (0x2C0 + 8 * n) → c < 64 → (s.cove c).st = 2 →
      (∀ i < 64, w.val.testBit i = ((s.fldN clsCove c R.COVE_CORES_n_CORE (8 * n)).testBit i && i != j)) →
      (s.fldN clsCove c R.COVE_CORES_n_CORE (8 * n)).testBit j = true →
      ∃ t, exec (.coveCoresWrite w) s = .next t ∧ t.cove c = { s.cove c with leaving := sadd (64 * n + j) (s.cove c).leaving } ∧
        t.fldN clsCove c R.COVE_CORES_n_CORE (8 * n) = w.val ∧ (∀ d, d ≠ c → t.cove d = s.cove d) ∧
        t = { s with regs := t.regs, hs := { s.hs with coves := t.hs.coves } }) ∧
    (∀ (k : Nat) (v : Cove), s.hs.coves.find? (fun p => p.2.leaving.contains k) = some (c, v) → v = s.cove c → s.mayLeave k = true →
      (s.core k).l1 = [] → ∃ t, exec (.coreLeave k) s = .next t ∧ (t.cove c).leaving = sdel k v.leaving ∧
        t.kfld k R.CORE_MAP_COVE_VALID = 0 ∧ t.core k = { s.core k with tlb := [], utlb := [], walkCache := [], pred := [] } ∧
        (∀ i, i ≠ k → t.core i = s.core i) ∧ t.mem = s.mem)

/-- ALLOC, FREE, PREEMPT, RESUME and END of a context (R471, R472, R473, R485; derived). -/
def Obligations.ContextCommands : Prop :=
  ∀ (w : RegW) (s : State) (x : Nat), x < 4096 → s.Reaches w (ctxCls x) (x % 2048) 0x108 →
    (w.val % 8 = 1 → (s.ctx x).st = 0 → (s.activeCoveOf x).isSome = true → ∃ t, exec (.alloc w) s = .next t ∧ t.ctx x = { st := 1 } ∧
      (∀ q < 4, t.qfld x q R.Q_CFG_ENABLE = 0) ∧ t.xfld x R.LAST_ERROR_VALUE = 0 ∧ t.xfld x R.CTX_FAULT_VALID = 0 ∧
      (∀ y, y ≠ x → t.ctx y = s.ctx y) ∧ t.mem = s.mem ∧ t.cores = s.cores ∧ t.hs.cmds = s.hs.cmds) ∧
    (w.val % 8 = 1 → (s.ctx x).st ≠ 0 → ∃ t, exec (.alloc w) s = .next t ∧ t.xfld x R.CTX_STATE_CTL_REFUSED = 1 ∧
      OnlyFields s t [fkey (ctxCls x) (x % 2048) R.CTX_STATE_CTL_REFUSED 0]) ∧
    (w.val % 8 = 2 → (s.ctx x).st = 1 → (∀ k ∈ s.hs.cmds, k.ctx ≠ x) → (∀ c, (s.core c).ofCtx x = false) → s.ns.doms = [] → ∃ t, exec (.free w) s = .next t ∧ t.ctx x = {} ∧
      (∀ q < 4, t.qfld x q R.Q_CFG_ENABLE = 0) ∧ ((∀ y ∈ s.ctxsOf (s.coveOf x), y = x) → ∀ y, y ≠ x → t.ctx y = s.ctx y) ∧
      t.mem = s.mem ∧ t.hs.cmds = s.hs.cmds) ∧
    (w.val % 8 = 3 → (s.ctx x).st = 1 → (s.ctx x).restoring = false → ∃ t, exec (.preempt w) s = .next t ∧
      t.ctx x = { s.ctx x with st := 3, heldBySw := true } ∧ (∀ y, y ≠ x → t.ctx y = s.ctx y) ∧ t.mem = s.mem ∧ t.cores = s.cores) ∧
    (w.val % 8 = 4 → (s.ctx x).st = 3 → (s.ctx x).saving = false → (s.ctx x).restoring = false → (s.ctx x).images = [] → s.ns.doms = [] →
      (∀ k ∈ s.hs.cmds, k.ctx ≠ x) → ∃ t, exec (.resume w) s = .next t ∧ (t.ctx x).st = 1 ∧ (t.ctx x).heldBySw = false ∧
        (∀ y, y ≠ x → t.ctx y = s.ctx y) ∧ t.mem = s.mem ∧ t.cores = s.cores) ∧
    (w.val % 8 = 5 → (s.ctx x).st = 4 → (s.ctx x).saving = false → (s.ctx x).images = [] → s.ns.doms = [] →
      (∀ k ∈ s.hs.cmds, k.ctx ≠ x) → ∃ t, exec (.endCommand w) s = .next t ∧ (t.ctx x).st = 1 ∧
        t.xfld x R.CTX_FAULT_VALID = 0 ∧ ((∀ y ∈ s.ctxsOf (s.coveOf x), y = x) → ∀ y, y ≠ x → t.ctx y = s.ctx y) ∧
        t.mem = s.mem ∧ t.hs.cmds = s.hs.cmds)

/-- the SPDM requests outside a session: negotiation in order, certificates of slot 0, measurements by index (R3, R543, R544; derived). -/
def Obligations.AttestationNegotiation : Prop :=
  ∀ (s : State) (msg : List Byte) (i : Nat) (l : List Nat), s.spdmUp = true →
    let p := s.se.spdm
    let put := fun (q : Spdm) => ({ s with se := { s.se with spdm := q } } : State)
    let ans := fun (c : Instr) (x : State) (cmd err : Nat) (data : List Byte) =>
      ∃ t, exec c s = .next t ∧ Replied x t { kind := outSpdm, a := cmd, b := err, data := data } clsSec 0
    let bytes := fun (cmd n : Nat) => replyBytes cmd (argOf msg) n
    ans (.getVersion msg) (put { step := 1 }) Sp.version 0 (spdmVersions (argOf msg)) ∧
    (p.step = 1 → ans (.getCapabilities msg) (put { p with step := 2 }) Sp.capabilities 0 (spdmCapabilities (argOf msg))) ∧
    (p.step ≠ 1 → ans (.getCapabilities msg) s Sp.capabilities Er.unexpected []) ∧
    (p.step = 2 → ans (.negotiateAlgorithms msg) (put { p with step := 3 }) Sp.algorithms 0 (spdmAlgorithms (argOf msg))) ∧
    (p.step ≠ 2 → ans (.negotiateAlgorithms msg) s Sp.algorithms Er.unexpected []) ∧
    (p.step < 3 → ans (.getDigests msg) s Sp.digests Er.unexpected [] ∧ ans (.getMeasurements i false) s Sp.measurements Er.unexpected []) ∧
    (3 ≤ p.step →
      ans (.getDigests msg) s Sp.digests 0 (bytes Sp.digests 48) ∧
      ((msg.getD 2 0).toNat % 16 = 0 →
        ans (.getCertificate msg) s Sp.certificate 0 (bytes Sp.certificate 1024) ∧
        ans (.challenge msg) (put { p with challenged := true }) Sp.challenge 0 (bytes Sp.challenge 212)) ∧
      ((msg.getD 2 0).toNat % 16 ≠ 0 →
        ans (.getCertificate msg) s Sp.certificate Er.invalid [] ∧ ans (.challenge msg) s Sp.challenge Er.invalid []) ∧
      (s.measured i = none → ∀ raw, ans (.getMeasurements i raw) s Sp.measurements Er.invalid []) ∧
      (s.measured i = some l → s.ready = true → s.measuresFree i = false →
        ans (.getMeasurements i false) s Sp.measurements 0 (Config.measurement i l)) ∧
      (s.measured i = some l → s.ready = true → (i = 3 ∨ i = 6) → ans (.getMeasurements i true) s Sp.measurements 0 (l.flatMap (leBytes 8))) ∧
      (s.measured i = some l → s.ready = true → i ≠ 3 → i ≠ 6 → ans (.getMeasurements i true) s Sp.measurements Er.invalid []))

/-- sessions, KEY_IMPORT and GENERATE: who may load a key slot and what loading it changes (R543, R545, R546, R547; derived). -/
def Obligations.SessionsAndMemoryKeys : Prop :=
  (∀ (s : State) (n : Nat) (root body : List Byte) (m : Bool), s.spdmUp = true →
    let p := s.se.spdm
    let put := fun (q : Spdm) => ({ s with se := { s.se with spdm := q } } : State)
    let none_ : Spdm := { p with step := 3, session := 0, mutAuth := false, root := 0 }
    let ans := fun (c : Instr) (x : State) (cmd err : Nat) (data : List Byte) =>
      ∃ t, exec c s = .next t ∧ Replied x t { kind := outSpdm, a := cmd, b := err, data := data } clsSec 0
    (3 ≤ p.step → ∃ k, 1 ≤ k ∧ k < 2 ^ 32 ∧ ans (.keyExchange m root)
      { put { p with step := 4, session := k, mutAuth := m, root := leNat (Config.sha384 root) } with free := s.free + 1 } Sp.keyExchange 0 (leBytes 4 k)) ∧
    (p.step = 4 → ans (.finish true) (put { p with step := 5 }) Sp.finish 0 [] ∧ ans (.finish false) (put none_) Sp.finish Er.decrypt []) ∧
    (p.step = 5 → p.session = n →
      ans (.heartbeat n) s Sp.heartbeat 0 [] ∧ ans (.keyUpdate n) s Sp.keyUpdate 0 [] ∧ ans (.endSession n) (put none_) Sp.endSession 0 [] ∧
      (p.mutAuth = true → body.length = 65 →
        let k := (body.getD 0 0).toNat
        (s.importStatus body = 0 → ∃ t, exec (.keyImport n body) s = .next t ∧
          mget 0 t.hb.keyEpoch k = mget 0 s.hb.keyEpoch k + 1 ∧ mget 0 t.hb.keySrc k = 2 ∧
          (∀ j, j ≠ k → mget 0 t.hb.keyEpoch j = mget 0 s.hb.keyEpoch j ∧ mget 0 t.hb.keySrc j = mget 0 s.hb.keySrc j) ∧
          t.hs.out = s.hs.out ++ [{ kind := outSpdm, a := Sp.vendor, b := 0, data := leBytes 1 0 }] ∧ t.mem = s.mem ∧ t.se = s.se) ∧
        (s.importStatus body ≠ 0 → ans (.keyImport n body) s Sp.vendor 0 (leBytes 1 (s.importStatus body))))) ∧
    (¬(p.step = 5 ∧ p.session = n) →
      ans (.heartbeat n) s Sp.heartbeat Er.decrypt [] ∧ ans (.keyUpdate n) s Sp.keyUpdate Er.decrypt [] ∧
      ans (.endSession n) s Sp.endSession Er.decrypt [] ∧ ans (.keyImport n body) s Sp.vendor Er.decrypt [])) ∧
  (∀ (s : State) (w : RegW), s.Reaches w clsSec 0 0x118 → bits w.val 9 8 = 1 →
    let k := w.val % 128
    (k ≤ 64 → (s.cove k).st = 0 → ∃ t, exec (.generate w) s = .next t ∧
      mget 0 t.hb.keyEpoch k = mget 0 s.hb.keyEpoch k + 1 ∧ mget 0 t.hb.keySrc k = 1 ∧ t.fld clsSec 0 R.SEC_KEY_CTL_RESULT = 0 ∧
      (∀ j, j ≠ k → mget 0 t.hb.keyEpoch j = mget 0 s.hb.keyEpoch j ∧ mget 0 t.hb.keySrc j = mget 0 s.hb.keySrc j) ∧ t.mem = s.mem ∧ t.se = s.se) ∧
    (k ≤ 64 → (s.cove k).st ≠ 0 → ∃ t, exec (.generate w) s = .next t ∧ t.hb = s.hb ∧ t.fld clsSec 0 R.SEC_KEY_CTL_RESULT = 1) ∧
    (64 < k → ∃ t, exec (.generate w) s = .next t ∧ t.hb = s.hb ∧ t.fld clsSec 0 R.SEC_KEY_CTL_RESULT = 2))

/-- the PLDM update commands: the order of an update, the idle slot it writes, verification before activation (R535, R538, R540; derived). -/
def Obligations.FirmwareUpdateSequence : Prop :=
  ∀ (s : State) (n : Nat) (hdr : Slot) (v : Bool) (msg : List Byte), s.updUp = true →
    let e := s.se
    let say := fun (x : State) (code : Nat) (data : List Byte) => x.said { kind := outPldm, a := code, data := data }
    let k := s.idleSlot
    let empty := e.slots.set k { (e.slots.getD k {}) with valid := false }
    exec .queryDeviceIdentifiers s = .next (say s 0 (replyBytes 0x501 0 32)) ∧
    exec .getFirmwareParameters s = .next (say s 0 s.fwParams) ∧
    exec .getStatus s = .next (say s 0 (leBytes 1 e.update)) ∧
    exec (.mctpControlMessage 1 msg) s = .next (s.said { kind := outMctp, a := 1, data := replyBytes 0x600 (argOf msg) 8 }) ∧
    exec (.requestUpdate n) s = .next (if e.update = 0 then say { s with se := { e with update := 1, updSize := n, updGot := 0 } } 0 []
      else say s Up.already []) ∧
    exec .passComponentTable s = .next (if e.update = 0 then say s Up.notInMode [] else if e.update = 1
      then say { s with se := { e with update := 2 } } 0 [] else say s Up.badState []) ∧
    exec (.updateComponent hdr) s = .next (if e.update = 0 then say s Up.notInMode [] else if e.update = 2
      then say { s with se := { e with update := 3, updGot := 0, updHdr := hdr, slots := empty } } 0 [] else say s Up.badState []) ∧
    (e.update = 3 →
      (e.updGot + n < e.updSize → exec (.requestFirmwareData n v) s = .next { s with se := { e with updGot := e.updGot + n } }) ∧
      (e.updSize ≤ e.updGot + n → v = true → e.minSvn ≤ e.updHdr.svn → exec (.requestFirmwareData n v) s =
        .next (say { s with se := { e with updGot := e.updGot + n, update := 4, slots := e.slots.set k { e.updHdr with valid := true } } } 0 [])) ∧
      (e.updSize ≤ e.updGot + n → v = false ∨ e.updHdr.svn < e.minSvn → exec (.requestFirmwareData n v) s =
        .next (say { s with se := { e with updGot := 0, update := 2 } } 1 []))) ∧
    (e.update = 4 → exec .activateFirmware s = .next (say { s with se := { e with prefer := k, pendingImg := true, update := 0 } } 0 [])) ∧
    (e.update ≠ 0 → e.update ≠ 4 → exec .activateFirmware s = .next (say s Up.badState [])) ∧
    (e.update = 3 ∨ e.update = 4 → exec .cancelUpdateComponent s = .next (say { s with se := { e with update := 2, updGot := 0, slots := empty } } 0 [])) ∧
    (1 ≤ e.update → e.update ≤ 4 → exec .cancelUpdate s = .next (say { s with se := { e with update := 0, updGot := 0 } } 0 []))

/-- the vendor-defined requests: RESET, GET_CHALLENGE, SUBMIT_TOKEN, SUBMIT_PASSWORD, GET_STAGE, DBG_AUTH and the busy answer (R532, R549, R550, R551, R552; derived). -/
def Obligations.VendorMessages : Prop :=
  (∀ (s : State) (medium rq cmd : Nat) (body msg : List Byte), s.Serves medium rq cmd body msg →
    let tail := fun (cpl : Nat) (data : List Byte) => leBytes 1 cmd ++ leBytes 1 cpl ++ data
    let say := fun (cpl : Nat) (data : List Byte) => ({ kind := outVendor, a := medium, b := cpl
                                                        data := if medium = 2 then tail cpl data else vendorHead ++ leBytes 1 (rq % 32) ++ tail cpl data } : OutMsg)
    (cmd = 1 → medium ≠ 2 → ∃ t, exec (.reset medium true msg) s = .next t ∧ t.se.stage = 1 ∧ t.se.resets = s.se.resets + 1 ∧
      t.cores = [] ∧ t.hs.ctxs = [] ∧ t.host = s.host ∧ say Cpl.ok [] ∈ t.hs.out) ∧
    (cmd = 1 → exec (.reset medium false msg) s = .next (s.said (say Cpl.refused []))) ∧
    (cmd = 2 → ∃ (t : State) (n : List Byte), exec (.getChallenge medium msg) s = .next t ∧ n.length = 32 ∧
      Replied { s with se := { s.se with nonce := some (leNat n) }, free := s.free + 32 } t
        (say Cpl.ok (leBytes 8 s.se.serial ++ n ++ leBytes 1 s.se.fuses ++ leBytes 1 0xB0 ++ leBytes 2 s.runSlot.svn ++ leBytes 4 0)) clsSec 0) ∧
    (cmd = 3 → ∃ t, exec (.submitToken medium msg) s = .next t ∧ t.se.nonce = none ∧
      (s.tokenOk body = false → Replied { s with se := { s.se with nonce := none } } t (say Cpl.refused []) clsSec 0) ∧
      (s.tokenOk body = true → tokenType body = 2 → s.se.ledger.length < 128 → t.ra.retire = [] ∧ t.ra.retireGen = s.ra.retireGen + 1 ∧
        t.se.ledger.length = s.se.ledger.length + 1 ∧ t.hs.out = s.hs.out ++ [say Cpl.ok []] ∧ t.mem = s.mem ∧ t.regs = s.regs)) ∧
    (cmd = 4 → ∃ t, exec (.submitPassword medium msg) s = .next t ∧
      (s.se.pwUsed = true ∨ 3 ≤ s.se.wrong → t = s.said (say Cpl.lockedOut [])) ∧
      (s.se.pwUsed = false → s.se.wrong < 3 → Config.passwordOk body = false →
        Replied { s with se := { s.se with wrong := s.se.wrong + 1 } } t (say Cpl.refused []) clsSec 0)) ∧
    (cmd = 5 → exec (.getStage medium msg) s = .next (s.said (say Cpl.ok (leBytes 8 s.secStageWord)))) ∧
    (medium = 2 → rq = 0x80 →
      let m := leBytes 1 cmd ++ body
      (cmd = 1 → exec (.dbgAuth m) s = .next (s.said (say Cpl.refused []))) ∧ (cmd = 2 → exec (.dbgAuth m) s = exec (.getChallenge 2 msg) s) ∧
      (cmd = 3 → exec (.dbgAuth m) s = exec (.submitToken 2 msg) s) ∧ (cmd = 4 → exec (.dbgAuth m) s = exec (.submitPassword 2 msg) s) ∧
      (cmd = 5 → exec (.dbgAuth m) s = .next (s.said (say Cpl.ok (leBytes 8 s.secStageWord)))))) ∧
  (∀ (s : State) (medium : Nat) (msg : List Byte) (rest : List (Nat × List Byte)), s.se.busyWait = (medium, msg) :: rest → medium < 2 →
    exec (.secBusyTimeout medium) s = .next (({ s with se := { s.se with busyWait := rest } } : State).said
      { kind := outVendor, a := medium, b := Cpl.busy
        data := vendorHead ++ leBytes 1 ((msg.getD 5 0).toNat % 32) ++ (leBytes 1 (msg.getD 6 0).toNat ++ leBytes 1 Cpl.busy ++ []) }))

/-- the Tidemark recorder: closing an interval writes one valid record; readers change nothing; clears (R557, R560, R561, R564, R565, R567; derived). -/
def Obligations.TidemarkRecords : Prop :=
  (∀ (s : State) (n : Nat) (w : RegW), s.tm.running = true → s.tm.permNext = some n → s.tm.clearing = none → s.armed clsTmk 0 1 = false →
    (s.tm.cur.openUs + s.tm.cur.period * 60000000 ≤ s.us → ∃ t, exec .intervalClose s = .next t ∧ Closed s t n 1) ∧
    (s.us < s.tm.cur.openUs + s.tm.cur.period * 60000000 → exec .intervalClose s = .next s) ∧
    (s.Reaches w clsTmk 0 0x100 → s.fld clsTmk 0 R.LOCK_CFG_LOCK ≠ 1 → bit w.val 16 = true → ∃ t, exec (.closeNow w) s = .next t ∧
      Closed s t n 2 ∧ t.fld clsTmk 0 R.TMK_CFG_PERIOD_MIN = w.val % 2048)) ∧
  (∀ (s : State) (area slot : Nat), s.pldmUp = true →
    let say := fun (x : State) (code : Nat) (data : List Byte) => x.said { kind := outPldm, a := code, data := data }
    exec .getTidemarkInfo s = .next (say s 0 (leBytes 8 s.tmkStateWord ++ leBytes 8 s.tmkSeqWord)) ∧
    exec (.readTidemarkSlot area slot) s = .next (if 2 ≤ area ∨ (if area = 0 then 1024 else 1280) ≤ slot then say s 2 []
      else say s 0 (leBytes 1 (s.tm.areaState area slot) ++ s.tm.areaBytes area slot)) ∧
    exec (.readClearLedger slot) s = .next (if 64 ≤ slot then say s 2 [] else say s 0 (leBytes 1 (s.tm.areaState 2 slot) ++ s.tm.areaBytes 2 slot))) ∧
  (∀ (s : State) (n : Nat), s.tm.clearing = some n → s.tm.clearVia = viaPldm → s.tm.waitRec = [] → s.se.busyWait = [] →
    ∃ t, exec .clearEraseEnd s = .next t ∧ t.tm.circ = [] ∧ t.tm.nextCirc = 0 ∧ t.tm.clearing = none ∧
      t.tm.areaBytes 2 n = (s.tm.areaBytes 2 n).set 1 0 ∧ t.tm.perm = s.tm.perm ∧ t.tm.cur = s.tm.cur ∧
      t.hs.out = s.hs.out ++ [{ kind := outPldm, a := 0 }] ∧ t.mem = s.mem) ∧
  (∀ (s : State) (token : List Byte), s.pldmUp = true → s.se.scan = false → token.length = 160 → tokenType token = 3 → s.tm.clearing = none →
    ∃ t, exec (.submitTidemarkClear token) s = .next t ∧ t.se = { s.se with nonce := none } ∧
      (s.tokenOk token = false → t.tm = s.tm ∧ t.hs.out = s.hs.out ++ [{ kind := outPldm, a := 0x80 }]) ∧
      (s.tokenOk token = true → s.tm.ledger = [] → t.tm.clearing = some 0 ∧ (t.tm.ledger.map Prod.fst) = [0] ∧ t.hs = s.hs))

/-- what restarts the module and what that keeps; start-up advances one stage at a time (R528, R532, R533, R535, R548; derived). -/
def Obligations.ModuleResetsAndStages : Prop :=
  (∀ s : State,
    (∃ t, exec .powerOn s = .next t ∧ Restarted s t ∧ t.se.resets = s.se.resets + 1) ∧
    (∃ t, exec (.perst s.configPrimary) s = .next t ∧ Restarted s t ∧ t.se.resets = s.se.resets + 1) ∧
    (s.se.off = false → (∀ x, s.ra.watchdogUs = some x → x + 10 ^ 7 ≤ s.us) → ∃ t, exec .watchdog s = .next t ∧ Restarted s t ∧ t.ra.watchdogUs = some 0) ∧
    (∀ x, s.se.off = false → s.ra.watchdogUs = some x → s.us < x + 10 ^ 7 → ∃ t, exec .watchdog s = .next t ∧ t.ra.lost = true) ∧
    (s.se.off = false → ∃ t, exec .extest s = .next t ∧ Restarted s t ∧ t.se.scan = true) ∧
    (s.se.scan = true → ∃ t, exec .testLogicReset s = .next t ∧ Restarted s t ∧ t.se.scan = false) ∧
    (∀ port, port ≠ s.configPrimary → s.fld clsEdge port R.EDGE_STATE_ROLE = 1 → (s.edge port).up = false → ∃ t, exec (.perst port) s = .next t ∧
      t.edge port = {} ∧ t.fld clsEdge port R.EDGE_BAR4_BASE = 0 ∧ (∀ q, q ≠ port → t.edge q = s.edge q) ∧
      t = { s with regs := t.regs, hs := { s.hs with edges := t.hs.edges } })) ∧
  (∀ (s : State) (i : StageIn),
    let u := s.stageWork i false
    (s.starting = false → exec (.stageEnd i) s = .next s ∧ exec (.stageLimit i) s = .next s) ∧
    (s.starting = true → u.se.failed = true → exec (.stageEnd i) s = .next u) ∧
    (s.starting = true → u.se.failed = false → ∃ t, exec (.stageEnd i) s = .next t ∧ t.se.stage = s.se.stage + 1 ∧ t.mem = u.mem ∧ t.se.ldie = u.se.ldie) ∧
    (s.starting = true → s.se.stage = 1 → ∃ t, exec (.stageLimit i) s = .next t ∧ t.se.off = true ∧ t.se.powerOk = false ∧ t.se.failed = true ∧ t.mem = s.mem) ∧
    (s.starting = true → s.se.stage = 2 → ∃ t, exec (.stageLimit i) s = .next t ∧ t.se.recovery = true ∧ t.se.failed = true ∧ t.se.off = false) ∧
    (s.starting = true → s.se.stage = 6 → ∃ t, exec (.stageLimit i) s = .next t ∧ t.se.stage = 7 ∧ t.regs = s.regs))

/-- polls, milliseconds, clock changes, droop, temperature and input voltage act on the power controller (R492, R494, R495, R498, R499, R508; derived). -/
def Obligations.PowerController : Prop :=
  ∀ (s : State), s.se.off = false →
    let total := fun (r : List Nat) => r.foldl (fun a b => a + b) 0
    (∀ (r : List Nat) (vin : Nat) (rails : List (Nat × Nat)), r.length = 8 → 40000 ≤ vin → vin ≤ 62000 →
      ∃ t, exec (.pmbusPoll (r.map some) vin rails) s = .next t ∧ t.pw.polls = (r :: s.pw.polls).take 4 ∧ t.pw.vin = vin ∧
        t.pw.vinOutMs = 0 ∧ (∀ i < 8, mget 0 t.pw.silent i = 0) ∧ t.pw.ms = s.pw.ms ∧ t.mem = s.mem ∧ t.cores = s.cores ∧
        (4 * total r ≤ 5 * s.pw.capW → t = { s with pw := t.pw, tm := t.tm } ∧ t.pw.throttling = s.pw.throttling ∧ t.pw.level = s.pw.level) ∧
        (5 * s.pw.capW < 4 * total r → s.pw.hard = false → t.pw.hard = true ∧ t.pw.throttling = true ∧
          (s.pw.level < 168 → s.pw.level < t.pw.level))) ∧
    (s.pw.swell = none → (∀ q ∈ s.pw.temps, q.2 ≤ 110) → ∃ t, exec .powerMs s = .next t ∧
      let p := s.pw.msPower
      let cap := min 7200 (max 3000 (s.fld clsPwr 0 R.PWR_CAP_CAP_W))
      let target := if s.pw.vin ≠ 0 ∧ s.pw.vin < 40000 then min cap (s.pw.vin * 180 / 1000) else cap
      t.pw.capW = cap ∧ t.pw.capWin = min 60 (max 1 (s.fld clsPwr 0 R.PWR_CAP_WINDOW_S)) ∧
      t.pw.ms = (p :: s.pw.ms).take 60000 ∧ t.pw.peak = max s.pw.peak p ∧ t.mem = s.mem ∧ t.cores = s.cores ∧
      (p ≤ target → t.pw.excOn = false ∧ t.pw.excMs = 0 ∧ t.pw.hard = false) ∧
      (target < p → t.pw.excOn = true ∧ t.pw.excMs = s.pw.excMs + 1 ∧
        (20 ≤ s.pw.excMs + 1 → t.pw.throttling = true ∧ (s.pw.level < 168 → s.pw.level < t.pw.level)))) ∧
    (s.pw.throttling = false → ¬(s.pw.want4 = s.pw.clock4 ∧ s.pw.wantGate = s.pw.gate ∧ s.pw.wantPace = s.pw.pace) →
      ((∀ d ∈ s.ns.doms, d.2.st ≠ 3) → ∃ t, exec .clockChange s = .next t ∧
        t.pw = { s.pw with clock4 := s.pw.want4, gate := s.pw.wantGate, pace := s.pw.wantPace } ∧
        CountsOnly { s with pw := t.pw } t clsPwr 0) ∧
      (∀ d ∈ s.ns.doms, d.2.st = 3 → 1 ≤ d.2.window → (∀ e ∈ s.ns.doms, e.2.st = 3 → e.2.window ≤ d.2.window) →
        s.ns.tick % d.2.window ≠ 0 → exec .clockChange s = .next s)) ∧
    (∀ i : Nat, 1 ≤ i → i ≤ 96 →
      (i ∉ s.pw.droop → ∃ t, exec (.droop i) s = .next t ∧ (∀ j, j ∈ t.pw.droop ↔ j = i ∨ j ∈ s.pw.droop) ∧
        t.pw = { s.pw with droop := t.pw.droop } ∧ CountsOnly { s with pw := t.pw, tm := t.tm } t clsPwr i) ∧
      (∀ n, i ∈ s.pw.droop → max 1 (s.fld clsPwr i R.ISL_DROOP_HOLD_CYC) ≤ n → ∃ t, exec (.droopEnd i n) s = .next t ∧
        (∀ j, j ∈ t.pw.droop ↔ j ≠ i ∧ j ∈ s.pw.droop) ∧ t.pw = { s.pw with droop := t.pw.droop } ∧
        CountsOnly { s with pw := t.pw } t clsPwr i)) ∧
    (∀ die temp : Nat, die < 80 → ∃ t, exec (.thermal die temp) s = .next t ∧ mget 0 t.pw.temps die = min 255 temp ∧
      (∀ j, j ≠ die → mget 0 t.pw.temps j = mget 0 s.pw.temps j) ∧
      (temp ≤ 97 → t.pw.therm.any (fun x => x.1 == die) = false ∧ t = { s with pw := t.pw }) ∧
      (100 < temp → t.pw.therm.any (fun x => x.1 == die) = true) ∧
      (100 < temp → s.pw.therm.any (fun x => x.1 == die) = false → s.fld clsPwr 0 R.PWR_ERR_VALID = 0 →
        t.fld clsPwr 0 R.PWR_ERR_VALID = 1 ∧ t.fld clsPwr 0 R.PWR_ERR_KIND = 3 ∧ t.fld clsPwr 0 R.PWR_ERR_INFO = die)) ∧
    (∀ w : Swell, s.pw.swell = some w → w.remainUs = 0 →
      exec .swellEnd s = .next { s with pw := { s.pw with swell := none, breakMs := 0 } }) ∧
    (4 ≤ s.pw.vinOutMs → ∃ t, exec .vinShutdown s = .next t ∧ t.se.off = true ∧ t.pw.off = true ∧ t.ra.lost = true ∧
      t.tm.running = false ∧ t.tm.perm = s.tm.perm ∧ t.tm.circ = s.tm.circ)

/-- an idle core sleeps as deep as its next event allows; a wake begins its exit; the end of the exit wakes it (R503, R504, R506, R507; derived). -/
def Obligations.CoreSleepAndWake : Prop :=
  ∀ (s : State) (c : Nat),
    let thr : Nat → Nat := fun n => if n = 1 then 10 * s.fld clsPwr 0 R.PWR_SLEEP_THR_C1_THR else if n = 2 then 100 * s.fld clsPwr 0 R.PWR_SLEEP_THR_C2_THR
      else if n = 3 then 1000 * s.fld clsPwr 0 R.PWR_SLEEP_THR_C3_THR else 100000 * s.fld clsPwr 0 R.PWR_SLEEP_THR_D3_THR
    let beyond := fun (n ns : Nat) => 1 ≤ n ∧ n ≤ 4 ∧ n ≤ s.fld clsPwr 0 R.PWR_SLEEP_CTL_MAX_STATE ∧ thr n ≠ 0 ∧ thr n < ns
    let exiting := fun (t : State) => t.sleepOf c = { s.sleepOf c with exit := true } ∧ (∀ d, d ≠ c → t.sleepOf d = s.sleepOf d) ∧
      (mget 0 t.pw.d3 (s.dieOf c) = if mget 0 s.pw.d3 (s.dieOf c) = 1 then 2 else mget 0 s.pw.d3 (s.dieOf c))
    (∀ n ns : Nat, s.activeCore c = true → s.coreIdle c = true → s.eventNs c = none → s.sleepOf c = {} → n ≤ 3 → beyond n ns →
      (∀ m, n < m → ¬beyond m ns) →
      (n ≤ 2 → ∃ t, exec (.sleepEntry c (some ns)) s = .next t ∧ (t.sleepOf c).st = n ∧ (t.sleepOf c).exit = false ∧
        (t.sleepOf c).wakeAt = some (s.now + ns) ∧ (∀ d, d ≠ c → t.sleepOf d = s.sleepOf d) ∧
        CountsOnly { s with pw := t.pw } t clsPwr (1 + s.dieOf c)) ∧
      (n = 3 → s.coreQuiet c = true → (s.core c).heldLines ≠ [] → ∃ t, exec (.sleepEntry c (some ns)) s = .next t ∧ t.pw = s.pw ∧
        t.mem = s.mem ∧ (∀ d, d ≠ c → t.core d = s.core d) ∧ (t.core c).groups = (s.core c).groups ∧ (t.core c).sp = (s.core c).sp) ∧
      (n = 3 → s.coreQuiet c = true → (s.core c).heldLines = [] → ∃ t, exec (.sleepEntry c (some ns)) s = .next t ∧ (t.sleepOf c).st = 3 ∧ (t.sleepOf c).exit = false ∧
        (t.sleepOf c).wakeAt = some (s.now + ns) ∧ (t.core c).l1 = [] ∧ (t.core c).icache = {} ∧ (t.core c).ccache = {} ∧ (t.core c).dcache = {} ∧
        (t.core c).groups = (s.core c).groups ∧ (t.core c).sp = (s.core c).sp ∧ (∀ d, d ≠ c → t.sleepOf d = s.sleepOf d))) ∧
    ((s.sleepOf c).st ≠ 0 → (s.sleepOf c).exit = false →
      (∃ t, exec (.wake c) s = .next t ∧ exiting t ∧ CountsOnly { s with pw := t.pw } t clsPwr (1 + s.dieOf c)) ∧
      ((s.sleepOf c).planned = true → s.fld clsPwr 0 R.PWR_CTL_PREWAKE = 1 →
        ∃ t, exec (.prewake c) s = .next t ∧ exiting t ∧ t = { s with pw := t.pw })) ∧
    ((s.sleepOf c).exit = true → ∃ t, exec (.sleepExitEnd c) s = .next t ∧ t.sleepOf c = {} ∧ t = { s with pw := t.pw } ∧
      (mget 0 s.pw.d3 (s.dieOf c) ≠ 2 → ∀ d, d ≠ c → t.sleepOf d = s.sleepOf d) ∧
      (mget 0 s.pw.d3 (s.dieOf c) = 2 → mget 0 t.pw.d3 (s.dieOf c) = 0 ∧ ∀ d, d ≠ c →
        t.sleepOf d = if d / 16 = c / 16 ∧ (s.sleepOf d).st = 4 then { s.sleepOf d with st := 3 } else s.sleepOf d))

/-- UE_RETRY, SCRUB_READ, CLEARING_END, EXPANDER_LINK_FAILURE, BUCKET_LEAK and WALK (R313, R316, R317, R318, R320, R329, R463, R513; derived). -/
def Obligations.MemoryChannelEvents : Prop :=
  (∀ (s : State) (ch b : Nat), ch < 1024 → (s.chan ch).serving = true → b < 2 ^ 25 →
    let marks := fun (t : State) (pa : Nat) => ∀ a, t.poisoned a = (s.poisoned a || a / 32 == pa / 32 || a / 32 == (pa + 32) / 32)
    (∀ o, o ≤ 1 → ∃ t, exec (.ueRetry ch b o) s = .next t ∧ CountsOnly s t clsHbmc ch) ∧
    (∀ pa o, 2 ≤ o → s.chanPa ch (64 * b) = some pa → (s.poisoned pa && s.poisoned (pa + 32)) = false → ∃ t, exec (.ueRetry ch b o) s = .next t ∧
      marks t pa ∧ t.mem = s.mem ∧ t.cores = s.cores ∧ t.slices = s.slices ∧ (s.fld clsHbmc ch R.HBMC_UE_VALID = 0 →
        t.fld clsHbmc ch R.HBMC_UE_VALID = 1 ∧ t.fld clsHbmc ch R.HBMC_UE_BURST = b ∧ t.fld clsHbmc ch R.HBMC_UE_SECTORS = 3 ∧
        t.fld clsHbmc ch R.HBMC_UE_SCRUB = 0)) ∧
    (∀ pa o, 2 ≤ o → s.chanPa ch (64 * b) = some pa → (s.poisoned pa && s.poisoned (pa + 32)) = true → exec (.ueRetry ch b o) s = .next s) ∧
    (s.fld clsHbmc ch R.HBMC_SCRUB_PERIOD ≠ 0 → (s.chan ch).clearing = false → (s.chan ch).scrubPos = b →
      (∀ o, o = 0 ∧ s.fld clsHbmc ch R.ERR_INJECT_ARM = 0 ∨ o = 2 → ∃ t, exec (.scrubRead ch o) s = .next t ∧
        t.chan ch = { s.chan ch with scrubPos := (b + 1) % 2 ^ 25 } ∧ (∀ d, d ≠ ch → t.chan d = s.chan d) ∧
        (b + 1 ≠ 2 ^ 25 → CountsOnly { s with hb := t.hb } t clsHbmc ch) ∧ (b + 1 = 2 ^ 25 → t.fld clsHbmc ch R.HBMC_SCRUB_PASS_DONE = 1)) ∧
      (∃ t, exec (.scrubRead ch 1) s = .next t ∧ (t.chan ch).scrubPos = (b + 1) % 2 ^ 25 ∧ t.fld clsHbmc ch R.ERR_STATUS_CE = 1 ∧
        t.mem = s.mem ∧ t.poison = s.poison) ∧
      (∀ pa o, 3 ≤ o → s.chanPa ch (64 * b) = some pa → ∃ t, exec (.scrubRead ch o) s = .next t ∧
        (t.chan ch).scrubPos = (b + 1) % 2 ^ 25 ∧ marks t pa ∧ t.mem = s.mem))) ∧
  (∀ (s : State) (ch : Nat), (s.chan ch).clearing = true →
    let c := (s.chan ch).cove
    ∃ t, exec (.clearingEnd ch) s = .next t ∧ t.chan ch = { s.chan ch with clearing := false, doneMib := 2048 } ∧ (∀ d, d ≠ ch → t.chan d = s.chan d) ∧
      (t.cove c).clearing = (s.cove c).clearing.filter (fun d => d != ch) ∧ (∀ d, d ≠ c → t.cove d = s.cove d) ∧
      ((s.cove c).st = 1 → (∀ d ∈ (s.cove c).clearing, d = ch) → (t.cove c).st = 2 ∧
        (∀ a, t.mem.read a = if (s.framesOf c).1 * 2 ^ 31 ≤ a ∧ a < ((s.framesOf c).1 + (s.framesOf c).2) * 2 ^ 31 then 0 else s.mem.read a)) ∧
      (¬((s.cove c).st = 1 ∧ ∀ d ∈ (s.cove c).clearing, d = ch) → (t.cove c).st = (s.cove c).st ∧ t.mem = s.mem)) ∧
  (∀ (s : State) (slot port g : Nat), s.hb.expanders.find? (fun p => p.1 == slot) = some (slot, port, g) → slot ∉ s.hb.expFailed →
    ∃ t, exec (.expanderLinkFailure slot) s = .next t ∧ (∀ j, j ∈ t.hb.expFailed ↔ j = slot ∨ j ∈ s.hb.expFailed) ∧
      t.hb = { s.hb with expFailed := t.hb.expFailed } ∧ t.mem = s.mem ∧ t.cores = s.cores ∧
      (s.fld clsEdge port R.EDGE_ERR_VALID = 0 → t.fld clsEdge port R.EDGE_ERR_VALID = 1 ∧ t.fld clsEdge port R.EDGE_ERR_KIND = 3)) ∧
  (∀ (s : State) (cls inst : Nat), cls < 5 → (s.bucket cls inst).perm = false → ∃ t, exec (.bucketLeak cls inst) s = .next t ∧
    t.bucket cls inst = { level := (s.bucket cls inst).level - s.fldN clsRas 0 R.RAS_BKT_CFG_c_LEAK (8 * cls), perm := false } ∧
    (∀ d i, bucketKey d i ≠ bucketKey cls inst → t.bucket d i = s.bucket d i) ∧
    t = { s with ra := { s.ra with buckets := t.ra.buckets } }) ∧
  (∀ (s : State) (c va : Nat), s.kfld c R.CORE_MAP_COVE_VALID = 1 →
    let v := s.kfld c R.CORE_MAP_COVE
    (∀ p ∈ (s.core c).walkCache, p.2 = s.entryAt v p.1) →
    (∀ e, s.walk v va = .page e → ∃ t, exec (.walk c va) s = .next t ∧ Quiet s t ∧
      (t.core c).tlb = keepLast 1024 ((s.core c).tlb.filter (fun f => !f.hit va) ++ [e]) ∧
      (t.core c).utlb = (s.core c).utlb.filter (fun p => !p.2.hit va) ∧
      (∀ p ∈ s.upperEntries v va (s.entryAt v), p ∈ (t.core c).walkCache)) ∧
    (∀ f, s.walk v va = .fault f → ∃ t, exec (.walk c va) s = .next t ∧ Quiet s t ∧
      (t.core c).tlb = (s.core c).tlb ∧ (t.core c).utlb = (s.core c).utlb))

/-- D2D_FLIT, D2D_RETRAIN, PRIMARY_REWRITE and COMMONS_COMPARE (R513, R515, R520, R523, R524, R525; derived). -/
def Obligations.LaneGroupsAndCommonsCopies : Prop :=
  (∀ (s : State) (g : Nat), s.laneUp g = true → (s.lane g).training = false → ∀ (lanes : List Nat) (ok : Bool),
    ∃ t, exec (.d2dFlit g ok lanes) s = .next t ∧ t.mem = s.mem ∧ t.cores = s.cores ∧ (∀ h, h ≠ g → t.lane h = s.lane h) ∧
      (ok = true → t.lane g = { s.lane g with replays := 0 }) ∧
      (ok = false → (s.lane g).replays < 7 → t.lane g = { s.lane g with replays := (s.lane g).replays + 1 }) ∧
      (ok = false → 7 ≤ (s.lane g).replays → t.lane g = { s.lane g with replays := 0, training := true }) ∧
      (∀ l, lanes = [l] → l < 34 → (s.bucket 3 (laneInst g l)).perm = false →
        (t.bucket 3 (laneInst g l)).level = min ((s.bucket 3 (laneInst g l)).level + 1) (2 ^ 32 - 1))) ∧
  (∀ (s : State) (g : Nat) (ok : Bool), (s.lane g).training = true →
    let n := ((s.lane g).times.filter (fun x => decide (s.now < x + 10 ^ 9))).length
    (ok = true → n < 2 → ∃ t, exec (.d2dRetrain g ok) s = .next t ∧ (t.lane g).training = false ∧ (t.lane g).failed = (s.lane g).failed ∧
      (t.lane g).times.length = n + 1 ∧ (∀ h, h ≠ g → t.lane h = s.lane h) ∧ CountsOnly { s with ra := t.ra } t clsRas 0) ∧
    (ok = false ∨ 2 ≤ n →
      (80 ≤ g / 65536 → ∃ t, exec (.d2dRetrain g ok) s = .next t ∧ (t.lane g).failed = true ∧ t.ra.lost = true) ∧
      (∀ d, g / 65536 < 80 → s.logicalDie (g / 65536) = some d → ∃ t, exec (.d2dRetrain g ok) s = .next t ∧ (t.lane g).failed = true ∧
        g / 65536 ∈ t.ra.isolated ∧ (∀ i < 16, t.core (16 * d + i) = {}) ∧ (∀ q ∈ t.se.ldie, q.1 ≠ d)))) ∧
  (∀ (s : State) (tile : Nat) (readOk : Bool),
    let base := s.fld clsCove 64 R.COVE_FRAMES_FB * 2 ^ 31
    let n := (4096 * tile - base) / 4096
    let m := 4096 * tile + (s.coveChans 64).length * 2 ^ 30
    tile ∈ s.ra.rewriting → base ≤ 4096 * tile → s.isCommons (4096 * tile) = true → s.mirrored = true → s.tilePoisoned m = false →
    (∀ w, s.retained n = some w → crc32c (s.mem.readBytes m 4096) = w) → s.net = [] → s.slices = [] → s.cores = [] →
    ∃ t, exec (.primaryRewrite tile readOk) s = .next t ∧ tile ∉ t.ra.rewriting ∧
      (∀ a, t.mem.read a = if 4096 * tile ≤ a ∧ a < 4096 * tile + 4096 then s.mem.read (a - 4096 * tile + m) else s.mem.read a) ∧
      t.tilePoisoned (4096 * tile) = false ∧ (readOk = true → t.ra.badPrim = s.ra.badPrim) ∧
      (readOk = false → s.ra.badPrim.length < 64 → ∀ j, j ∈ t.ra.badPrim ↔ j = tile ∨ j ∈ s.ra.badPrim)) ∧
  (∀ (s : State) (tile : Nat),
    let p := (s.tileAt tile).1
    let m := (s.tileAt tile).2
    let a := s.mem.readBytes p 4096
    let b := s.mem.readBytes m 4096
    s.mirrored = true → tile < s.commonsTiles → s.fld clsRas 0 R.RAS_CSCRUB_PERIOD_H ≠ 0 → s.tileCovered tile = false →
    p / 4096 ∉ s.ra.rewriting → s.tileListed p = false →
    (∀ readOk, a = b → s.tilePoisoned p = false → s.tilePoisoned m = false → ∃ t, exec (.commonsCompare tile false false readOk) s = .next t ∧
      t = { s with regs := t.regs, ra := { s.ra with scrubPos := (tile + 1) % s.commonsTiles } }) ∧
    (s.tilePoisoned m = false → (∀ w, s.retained tile = some w → crc32c b = w) → ∃ t, exec (.commonsCompare tile true false true) s = .next t ∧
      t.tilePoisoned p = false ∧ (∀ x, t.mem.read x = if p ≤ x ∧ x < p + 4096 then s.mem.read (x - p + m) else s.mem.read x)) ∧
    (s.tilePoisoned p = false → (∀ w, s.retained tile = some w → crc32c a = w) → ∃ t, exec (.commonsCompare tile false true true) s = .next t ∧
      t.tilePoisoned m = false ∧ (∀ x, t.mem.read x = if m ≤ x ∧ x < m + 4096 then s.mem.read (x - m + p) else s.mem.read x)) ∧
    (∀ u v readOk, (u = true ∧ v = true) ∨ (u = false ∧ v = false ∧ s.tilePoisoned p = false ∧ s.tilePoisoned m = false ∧ a ≠ b ∧ s.retained tile = none) →
      ∃ t, exec (.commonsCompare tile u v readOk) s = .next t ∧ (t.tileListed p = true ∨ t.tilePoisoned p = true) ∧ t.mem = s.mem))

/-- BAR4 reads, writes and AtomicOps, translation invalidations and completions, CXL snoops (R213, R405, R428, R429, R431; derived). -/
def Obligations.HostMemoryAccess : Prop :=
  (∀ (s : State) (port : Nat) (vf : Option Nat) (off n rid a e : Nat), s.hostPortUp port = true →
    s.bar4Pa port vf off = some a → s.bar4Pa port vf (off + n - 1) = some e → s.bar4Mapped vf a = true → s.Uncached a n →
    (∃ t, exec (.bar4Read port vf off n rid) s = .next t ∧ Quiet s t ∧
      ∃ l, t.hs.out = s.hs.out ++ l ++ [{ kind := outBar4, a := rid, b := 0, data := s.mem.readBytes a n }]) ∧
    (s.isCommons a = false → s.isMgmt a = false →
      (∀ data : List Byte, data.length = n → ∃ t, exec (.bar4Write port vf off data rid) s = .next t ∧
        (∀ x, t.mem.read x = if a ≤ x ∧ x < a + n then data.getD (x - a) 0 else s.mem.read x) ∧
        t = { s with mem := t.mem, regs := t.regs, poison := t.poison }) ∧
      (∀ (op : AOp) (v w : Nat), n = 4 ∨ n = 8 → off % n = 0 →
        let old := s.mem.readLE a n
        ∀ new : Nat, (op = .add ∧ new = (old + v) % 256 ^ n) ∨ (op = .xchg ∧ new = v % 256 ^ n) ∨
          (op = .cas ∧ new = if old = v % 256 ^ n then w % 256 ^ n else old) →
        ∃ t, exec (.bar4AtomicOp port vf off op n v w rid) s = .next t ∧ t.mem.readLE a n = new ∧
          (∀ x, ¬(a ≤ x ∧ x < a + n) → t.mem.read x = s.mem.read x) ∧
          t.hs = (s.said { kind := outBar4, a := rid, b := 0, data := s.mem.readBytes a n }).hs ∧ t.cores = s.cores ∧ t.slices = s.slices))) ∧
  (∀ (s : State) (port : Nat) (vf : Option Nat) (off n rid : Nat), s.hostPortUp port = true → 1 ≤ n → n ≤ 4096 → s.bar4Pa port vf off = none →
    ∃ t, exec (.bar4Read port vf off n rid) s = .next t ∧ CountsOnly (s.said { kind := outUnsupported, a := rid, b := off }) t clsEdge port) ∧
  (∀ (s : State) (port c addr n : Nat), s.hostPortUp port = true → (s.edge port).invals = [] →
    let hit := fun (k : Nat) => k / 2 ^ 52 = c ∧ addr / 4096 ≤ k % 2 ^ 52 ∧ k % 2 ^ 52 * 4096 < addr + n
    let used := fun (r : HostAcc) => r.port = port ∧ r.bytes ≠ 0 ∧ s.coreCove r.core = c ∧ addr < r.addr + r.bytes ∧ r.addr < addr + n
    ∃ t, exec (.atsInvalidateRequest port c addr n) s = .next t ∧ t = { s with regs := t.regs, hs := { s.hs with edges := t.hs.edges, out := t.hs.out } } ∧
      (∀ x, x ∈ (t.edge port).atc ↔ x ∈ (s.edge port).atc ∧ ¬hit x.1) ∧ (∀ q, q ≠ port → t.edge q = s.edge q) ∧
      ((∀ r ∈ s.hs.accs, ¬used r) → (t.edge port).invals = [] ∧ t.hs.out = s.hs.out ++ [{ kind := outAts, a := addr, b := c }]) ∧
      ((∃ r ∈ s.hs.accs, used r) → (t.edge port).invals = [(c, addr, n)] ∧ t.hs.out = s.hs.out)) ∧
  (∀ (s : State) (port q k : Nat) (acc : HostAcc) (data : List Byte) (poison granted : Bool), s.hostPortUp port = true → k < 2 ^ 60 →
    s.hs.accs.find? (fun r => r.port == port && r.tag == (q + 1) * 2 ^ 60 + k) = some acc → acc.bytes = 0 →
    ∃ t, exec (.hostCompletion port ((q + 1) * 2 ^ 60 + k) data poison granted) s = .next t ∧
      (k, boolNat granted) ∈ (t.edge q).atc ∧ (∀ x ∈ (t.edge q).atc, x.1 = k → x.2 = boolNat granted) ∧ (t.edge q).atc.length ≤ max 4096 (s.edge q).atc.length ∧
      (∀ p, p ≠ q → t.edge p = s.edge p) ∧ (∀ r ∈ t.hs.accs, r ∈ s.hs.accs ∧ ¬(r.port = port ∧ r.tag = (q + 1) * 2 ^ 60 + k)) ∧
      t = { s with hs := { s.hs with edges := t.hs.edges, accs := t.hs.accs } }) ∧
  (∀ (s : State) (port line : Nat), (s.edge port).up = true → (s.edge port).cxl = true → s.hs.cmds = [] →
    ∃ t, exec (.cxlSnoop port line) s = .next t ∧ t.edge port = { s.edge port with owned := (s.edge port).owned.filter (fun l => l != line) } ∧
      (∀ q, q ≠ port → t.edge q = s.edge q) ∧ CountsOnly { s with hs := { s.hs with edges := t.hs.edges } } t clsEdge port)

/-- links of the edge ports, function level reset, interrupts, configuration requests, occupancy figures (R3, R334, R427, R430, R456, R457, R458, R580; derived). -/
def Obligations.LinksFunctionsAndInterrupts : Prop :=
  (∀ (s : State) (port speed width : Nat) (flit cxl : Bool), port < 8 → s.se.off = false → s.se.recovery = false →
    s.fld clsEdge port R.EDGE_STATE_ROLE = 1 ∨ s.fld clsEdge port R.EDGE_STATE_ROLE = 2 → 1 ≤ speed → speed ≤ 6 → width ≤ 4 →
    ∃ t, exec (.linkUp port speed width flit cxl) s = .next t ∧
      t.edge port = { s.edge port with up := true, flit := flit, cxl := cxl, speed := speed, width := width } ∧
      (∀ q, q ≠ port → t.edge q = s.edge q) ∧ t = { s with hs := { s.hs with edges := t.hs.edges } }) ∧
  (∀ (s : State) (port : Nat), s.hostPortUp port = true → (∀ r ∈ s.hs.accs, r.port ≠ port) →
    (∀ k ∈ s.hs.cmds, k.a.space ≠ 2 ∧ k.b.space ≠ 2 ∧ k.c.space ≠ 2) → ∃ t, exec (.hostLinkDown port) s = .next t ∧
      t.edge port = { s.edge port with up := false, atc := [], invals := [] } ∧ (∀ q, q ≠ port → t.edge q = s.edge q) ∧
      (s.fld clsEdge port R.EDGE_ERR_VALID = 0 → t.fld clsEdge port R.EDGE_ERR_VALID = 1 ∧ t.fld clsEdge port R.EDGE_ERR_KIND = 3) ∧
      t = { s with regs := t.regs, hs := { s.hs with edges := t.hs.edges } }) ∧
  (∀ (s : State) (c : Nat), s.vfOn c = true → (s.cove c).st = 2 → c < 64 → (∀ p ∈ s.hs.ctxs, p.2.st = 0) →
    ∃ t, exec (.functionLevelReset c) s = .next t ∧ (t.cove c).st = 2 ∧ (t.cove c).poolUsed = 0 ∧ (∀ h ∈ s.coveSlices c, (t.slice h).ghosts = []) ∧
      (∀ a, t.mem.read a = if shelfBase c ≤ a ∧ a < shelfBase c + 2 ^ 32 then 0 else s.mem.read a) ∧
      (∀ d, d ≠ c → t.cove d = s.cove d) ∧ t.cores = s.cores) ∧
  (∀ (s : State) (x q : Nat),
    let v := s.qfld x q R.Q_CFG_VECTOR
    (s.queue x q).armed = true → (s.queue x q).counted ≠ 0 → s.qfld x q R.Q_CFG_COAL_US ≠ 0 →
    ∃ t, exec (.coalUs x q) s = .next t ∧ t.queue x q = { s.queue x q with counted := 0, armed := false } ∧
      (∀ y p, y ≠ x ∨ p ≠ q → t.queue y p = s.queue y p) ∧ t.mem = s.mem ∧ t.cores = s.cores ∧
      (s.fnOf x = none → v % 32 = 0 ∨ s.vfOn (v / 32) = false → v ∉ s.hs.masked → t.hs.out = s.hs.out ++ [{ kind := outMsix, a := v }]) ∧
      (s.fnOf x = none → v % 32 = 0 ∨ s.vfOn (v / 32) = false → v ∈ s.hs.masked → t.hs.out = s.hs.out ∧ v ∈ t.hs.msixPend)) ∧
  (∀ (s : State) (vf : Option Nat) (v : Nat),
    let k := maskKey vf v
    k ∈ s.hs.masked → ∃ t, exec (.vectorUnmask vf v) s = .next t ∧ (∀ j, j ∈ t.hs.masked ↔ j ≠ k ∧ j ∈ s.hs.masked) ∧
      t = { s with
        regs := t.regs, hs := { s.hs with masked := t.hs.masked, msixPend := t.hs.msixPend, pendFrom := t.hs.pendFrom, out := t.hs.out } } ∧
      (mget 0 s.hs.pendFrom k = 0 → t.regs = s.regs) ∧
      (k ∉ s.hs.msixPend → t.hs.out = s.hs.out) ∧
      (k ∈ s.hs.msixPend → vf = none → v % 32 = 0 → t.hs.out = s.hs.out ++ [{ kind := outMsix, a := v }]) ∧
      (∀ c, k ∈ s.hs.msixPend → vf = some c → t.hs.out = s.hs.out ++ [{ kind := outMsix, a := 32 * c + 1 + v, b := c + 1 }])) ∧
  (∀ (s : State) (port a b : Nat), s.hostPortUp port = true → s.primary = some port →
    let r := fun (req : Nat) => s.said { kind := outConfig, a := port, b := req, data := [] }
    (a ≤ 64 → exec (.configurationRequest port 0 a b) s = .next { r 0 with hs := { (r 0).hs with vfs := a } }) ∧
    (a < 64 → ∃ t, exec (.configurationRequest port 1 a b) s = .next t ∧ t.cove a = { s.cove a with ats := b != 0 } ∧ (∀ d, d ≠ a → t.cove d = s.cove d) ∧
      t = { r 1 with hs := { (r 1).hs with coves := t.hs.coves } }) ∧
    (28 ≤ a → a ≤ 41 → exec (.configurationRequest port 2 a b) s = .next { r 2 with hs := { (r 2).hs with bar4Log := a } }) ∧
    (28 ≤ a → a ≤ 36 → exec (.configurationRequest port 3 a b) s = .next { r 3 with hs := { (r 3).hs with vfBar4Log := a } }) ∧
    exec (.configurationRequest port 6 a b) s =
      .next (s.said { kind := outConfig, a := port, b := 6, data := [if a ∈ extCapabilities true then 1 else 0] }) ∧
    (1 ≤ a → a ≤ 64 → b < 31 → ∃ t, exec (.configurationRequest port 4 a b) s = .next t ∧
      (∀ j, j ∈ t.hs.masked ↔ j = maskKey (some (a - 1)) b ∨ j ∈ s.hs.masked) ∧ t = { r 4 with hs := { (r 4).hs with masked := t.hs.masked } })) ∧
  (∀ (s : State) (occ : List (Nat × Nat)), s.ready = true →
    let fig := fun (r : Nat) => match occ.find? (fun p => p.1 == r) with | some p => p.2 % 2 ^ 56 | none => 0
    ∃ t, exec (.occUpdates occ) s = .next t ∧ t.occGen = s.occGen + 1 ∧ (∀ i < 32, mget 0 t.occ i = fig (portRouter i)) ∧
      (∀ r < 256, t.fld clsNoc r R.NOC_LINK_OCC_N = fig r % 256 ∧ t.fld clsNoc r R.NOC_LINK_OCC_E = fig r / 2 ^ 8 % 256 ∧
        t.fld clsNoc r R.NOC_LINK_OCC_S = fig r / 2 ^ 16 % 256 ∧ t.fld clsNoc r R.NOC_LINK_OCC_W = fig r / 2 ^ 24 % 256 ∧
        t.fld clsNoc r R.NOC_LINK_OCC_CORE = fig r / 2 ^ 32 % 256 ∧ t.fld clsNoc r R.NOC_LINK_OCC_SLICE = fig r / 2 ^ 40 % 256 ∧
        t.fld clsNoc r R.NOC_LINK_OCC_IO = fig r / 2 ^ 48 % 256) ∧
      t = { s with regs := t.regs, occ := t.occ, occGen := t.occGen })

/-- SAVE_END, RESTORE, HORIZON, QUANTUM_BOUNDARY and SLOWDOWN_INTERVAL (R474, R475, R478, R479, R480, R483, R486; derived). -/
def Obligations.ContextTimers : Prop :=
  (∀ (s : State) (x : Nat), x < 4096 → (s.ctx x).saving = true → s.holdingDom x = none → s.ctxQuiet x = true →
    (s.ctx x).eligible = false → (∀ c, ∀ e ∈ (s.core c).elq, e.slot ∉ (s.core c).slotsOf x) →
    ∃ t, exec (.saveEnd x) s = .next t ∧ (∀ c, (t.core c).ofCtx x = false) ∧
      (∀ c, (s.core c).ofCtx x = false → (s.core c).settleLand = s.core c → t.core c = s.core c) ∧
      (∀ c, (s.core c).ofCtx x = true → ∃ i ∈ (t.ctx x).images, i.core = c ∧ i.body.blocks = (s.core c).blocks.filter (fun p => p.2.launch.ctx == x) ∧
        i.body.groups = (s.core c).groups.filter (fun p => ((s.core c).slotsOf x).contains p.1) ∧
        i.body.waiting = (s.core c).waiting.filter (fun w => w.launch.ctx == x)) ∧
      (t.ctx x).st = (if (s.ctx x).st = 4 then 4 else 3) ∧ (t.ctx x).saving = false ∧ (t.ctx x).stopping = false ∧ (t.ctx x).bySw = false ∧
      (t.ctx x).heldBySw = (s.ctx x).bySw ∧ ((∀ y ∈ s.ctxsOf (s.coveOf x), y = x) → ∀ y, y ≠ x → t.ctx y = s.ctx y) ∧
      (∀ k ∈ t.hs.cmds, k.ctx = x → k.live = true → k.stops = true → k.st ≠ .running)) ∧
  (∀ (s : State) (x : Nat) (i : Image), x < 4096 → (s.ctx x).eligible = true → (s.ctx x).st = 3 → (s.ctx x).images = [i] → (s.ctx x).shelf = [] →
    i.body.blocks ≠ [] → s.takesImage x i.core = true →
    s.splitLines (i.core, i) = [] → s.maintBusy i.core = false → s.xfld x R.CTX_FAULT_VALID = 0 → (∀ k ∈ s.hs.cmds, k.opcode ≠ 0x1B) →
    ∃ t, exec (.restore x 0 []) s = .next t ∧ (t.core i.core).blocks = i.body.blocks ∧ (t.core i.core).groups = i.body.groups ∧
      (t.core i.core).waiting = i.body.waiting.foldl (fun q w => s.joinPend w q) (s.core i.core).waiting ∧ (t.core i.core).sp = i.body.sp ∧ (t.core i.core).split = i.body.split ∧
      (t.core i.core).land = i.body.land ∧ (t.ctx x).images = [] ∧ (t.ctx x).eligible = false ∧
      (t.ctx x).st = (if s.runningOf x = [] then 1 else 2) ∧ (∀ y, y ≠ x → t.ctx y = s.ctx y) ∧
      (∀ k ∈ t.hs.cmds, k.ctx = x → k.st ≠ .stopped)) ∧
  (∀ (s : State) (x : Nat), x < 4096 → (s.ctx x).st ≠ 0 → (s.ctx x).waiting = true → (s.ctx x).urgent = false → s.isWaiting x = true →
    let n := s.xfld x R.CTX_CFG_HORIZON_MS
    (s.ctx x).waitFrom + (if n = 0 then 50 else min 1000 n) * 10 ^ 6 < s.now → ∃ t, exec (.horizon x) s = .next t ∧
      t.ctx x = { s.ctx x with urgent := true } ∧ (∀ y, y ≠ x → t.ctx y = s.ctx y) ∧
      CountsOnly { s with hs := { s.hs with ctxs := t.hs.ctxs } } t (ctxCls x) (x % 2048)) ∧
  (∀ (s : State) (c us : Nat) (g : Charge), c < 64 → (s.cove c).st = 2 → g.ctx < 4096 → g.ctx ∈ s.ctxsOf c →
    (s.cove c).sinceHalf + us < s.halfLifeUs → ∃ t, exec (.quantumBoundary c us [g]) s = .next t ∧
      t.xfld g.ctx R.CTX_ACCT_CORE_US = (s.xfld g.ctx R.CTX_ACCT_CORE_US + g.coreUs) % 2 ^ 64 ∧
      t.xfld g.ctx R.CTX_ACCT_ENGINE_US = (s.xfld g.ctx R.CTX_ACCT_ENGINE_US + g.engineUs) % 2 ^ 64 ∧
      (t.ctx g.ctx).usage = (s.ctx g.ctx).usage + g.coreUs + g.engineUs ∧ (t.cove c).coreUs = (s.cove c).coreUs + g.coreUs ∧
      (t.cove c).sinceHalf = (s.cove c).sinceHalf + us ∧ (∀ y, y ≠ g.ctx → (t.ctx y).usage = (s.ctx y).usage) ∧ t.mem = s.mem ∧ t.cores = s.cores) ∧
  (∀ (s : State) (w : Slow), w.cove < 64 → (s.cove w.cove).st = 2 →
    let i := w.mesh + w.commons + w.engine + w.tideway + w.edge
    ∃ t, exec (.slowdownInterval [w]) s = .next t ∧
      let f := t.fld clsCove w.cove R.COVE_SLOWDOWN_FACTOR
      (i = 0 → f = 256) ∧ (0 < i → w.t ≤ i → f = 0xFFFF) ∧
      (0 < i → i < w.t → (f = 0xFFFF ∧ 2 * 0xFFFF * (w.t - i) ≤ 2 * (256 * w.t) + (w.t - i)) ∨
        (f < 0xFFFF ∧ 2 * f * (w.t - i) ≤ 2 * (256 * w.t) + (w.t - i) ∧ 2 * (256 * w.t) + (w.t - i) < (2 * f + 2) * (w.t - i))) ∧
      (∀ p, p = (R.COVE_SLOWDOWN_MESH, w.mesh) ∨ p = (R.COVE_SLOWDOWN_COMMONS, w.commons) ∨ p = (R.COVE_SLOWDOWN_TIDEWAY, w.tideway) ∨
        p = (R.COVE_SLOWDOWN_ENGINE, w.engine) ∨ p = (R.COVE_SLOWDOWN_EDGE, w.edge) →
        let v := t.fld clsCove w.cove p.1
        (i = 0 → v = 0) ∧ (0 < i → 2 * v * i ≤ 2 * (255 * p.2) + i ∧ 2 * (255 * p.2) + i < (2 * v + 2) * i)) ∧
      t = { s with regs := t.regs })

/-- SYNC_SEND, SYNC, HOLDOVER and UNALIGNED: which master a module follows, and the states of its alignment (R362, R363, R412, R413; derived). -/
def Obligations.TideCounterAndSync : Prop :=
  (∀ s : State, s.ns.tick % 64 = 0 → s.ns.lastSync ≠ some s.ns.tick → s.ready = true →
    (s.ns.align = 4 ∨ (s.ns.align = 0 ∧ s.isMaster = false) →
      exec .syncSend s = .next { s with ns := { s.ns with lastSync := some s.ns.tick, missed := s.ns.missed + 1 } }) ∧
    (∀ (p : Nat) (q : Twp), s.ns.align ≠ 4 → s.isMaster = true → s.followed = none → s.ns.ports.filter (fun x => x.1 == p) = [(p, q)] → q.st = 7 →
      ∃ t m, exec .syncSend s = .next t ∧ (t.port p).waitSync = q.waitSync ++ [m] ∧ bits m.w0 63 60 = 1 ∧ bits m.w0 59 54 = 0 ∧
        bits m.w0 53 39 = s.myCoord ∧ m.w1 = s.ns.tick ∧ t.ns.lastSync = some s.ns.tick ∧ t.ns.missed = s.ns.missed + 1 ∧
        t.ns.tick = s.ns.tick ∧ t.ns.doms = s.ns.doms ∧ t.mem = s.mem ∧ t.cores = s.cores)) ∧
  (∀ s : State, s.ns.align = 2 → 2 ≤ s.ns.missed → exec .holdover s = .next { s with ns := { s.ns with align := 3, missed := 0, good := 0 } }) ∧
  (∀ s : State, s.ns.align = 2 → s.ns.missed < 2 → exec .holdover s = .next s) ∧
  (∀ s : State,
    let n := s.fld clsTide 0 R.TIDE_SYNC_CFG_HOLDOVER_LIMIT
    s.ns.align = 3 → ((if n = 0 then 65536 else n) ≤ s.ns.missed → exec .unaligned s = .next { s with ns := { s.ns with align := 4, missed := 0 } }) ∧
      (s.ns.missed < (if n = 0 then 65536 else n) → exec .unaligned s = .next s)) ∧
  (∀ (s u : State) (p : Nat) (arrive : Int) (m : SyncMsg), s.popSync p 1 = some (m, u) → s.isMaster = false → (∀ h ∈ s.ns.heard, h.1 = p) →
    (s.port p).trained = true →
    let off : Int := arrive * 500 / 64 - (m.w1 * 128000 : Nat) - (s.port p).lat
    let c : Int := (s.ns.tick * 256 + s.ns.phase : Nat) - (off + 250) / 500
    ∃ t, exec (.sync p arrive) s = .next t ∧ t.ns.upstream = p ∧ t.ns.hops = bits m.w0 59 54 + 1 ∧ t.ns.master = bits m.w0 53 39 ∧ t.ns.missed = 0 ∧
      (t.port p).rxSync = (s.port p).rxSync.tail ∧ t.ns.doms = s.ns.doms ∧ t.mem = s.mem ∧ t.cores = s.cores ∧
      (m.replay = true → t.ns.tick = s.ns.tick ∧ t.ns.phase = s.ns.phase ∧ t.ns.offset = s.ns.offset) ∧
      (m.replay = false → t.ns.offset = off) ∧
      (s.ns.align = 0 ∨ s.ns.align = 3 ∨ s.ns.align = 4 → t.ns.align = 1 ∧ (m.replay = false → s.tideBusy = false → 0 ≤ c → c < 2 ^ 72 →
        ((t.ns.tick * 256 + t.ns.phase : Nat) : Int) = c)) ∧
      (s.ns.align = 2 → m.replay = false → t.ns.tick = s.ns.tick ∧ t.ns.align = (if 1000 < off.natAbs then 1 else 2)))

/-- a domain at its epoch, at a hold boundary, at a resume tick, in a stall, and the checks, holds and aborts of its neighbours (R367, R382, R383, R385, R386, R387, R388, R390; derived). -/
def Obligations.TideDomainsInTime : Prop :=
  ∀ (s : State) (slot : Nat),
    let d := s.dom slot
    let others := fun (t : State) => ∀ e, e ≠ slot → t.dom e = s.dom e
    let ended := fun (t : State) => (t.dom slot).st = 1 ∧ (t.dom slot).reserved = false ∧ (t.dom slot).cmd = none ∧ (t.dom slot).holdAt = none ∧ others t ∧
      ∀ c, ∀ b ∈ (t.core c).blocks, b.2.launch.tide ≠ some slot
    let unfinished : Prop := ∀ x q i k, d.cmd = some (x, q, i) → s.cmdAt x q i = some k → k.blocksLeft ≠ 0
    (d.st = 2 → d.checked = false → 2 ≤ d.nmod → -(d.window : Int) ≤ s.progTick d → s.progTick d < 0 →
      ∃ t, exec (.startCheckSend slot) s = .next t ∧ t.dom slot = { d with checked := true } ∧ others t ∧ t.mem = s.mem ∧ t.cores = s.cores) ∧
    (d.st = 2 → 0 ≤ s.progTick d → d.holdAt ≠ some 0 →
      (d.nmod < 2 ∨ (∀ x ∈ d.neigh.map portSide, ∃ c ∈ d.checks, portSide c.1 = x ∧ c.2 = true) → unfinished →
        ∃ t, exec (.epochReached slot) s = .next t ∧ t.dom slot = { d with st := 3 } ∧ others t ∧ t = { s with ns := t.ns, tm := t.tm }) ∧
      (2 ≤ d.nmod → (∃ x ∈ d.neigh.map portSide, ∀ c ∈ d.checks, portSide c.1 = x → c.2 = false) →
        ∃ t, exec (.epochReached slot) s = .next t ∧ ended t)) ∧
    (∀ b : Int, d.holdAt = some b → d.st = 2 ∨ d.st = 3 → b ≤ s.progTick d → ∃ t, exec (.holdBoundary slot) s = .next t ∧
      t.dom slot = { d with st := 4, boundary := some b.toNat } ∧ others t ∧ t.ctx d.ctx = { s.ctx d.ctx with stopping := true } ∧
      (∀ x, x ≠ d.ctx → t.ctx x = s.ctx x) ∧ t.mem = s.mem ∧ t.cores = s.cores) ∧
    (d.st = 6 → d.resumeAt ≤ s.ns.tick →
      ((s.ctx d.ctx).restoring = true → ∃ t, exec (.resumeTick slot) s = .next t ∧ t.dom slot = { d with late := true } ∧ others t ∧ t = { s with ns := t.ns }) ∧
      ((s.ctx d.ctx).restoring = false → unfinished → ∃ t, exec (.resumeTick slot) s = .next t ∧
        t.dom slot = { d with st := 3, late := false, holdAt := none, faultHold := false } ∧ others t ∧ t.mem = s.mem ∧ t.cores = s.cores)) ∧
    (∀ (n : Nat) (b : Table) (w : Int), d.tables[n]? = some b → b.waitFrom = some w → d.st = 3 → w + (d.waitLimit * d.window : Nat) ≤ s.progTick d →
      ∃ t, exec (.creditStall slot n) s = .next t ∧ ended t) ∧
    (∀ (c g n : Nat) (since : Int), (s.group c g).occupied = true → (s.launchOf c g).tide = some slot → (s.group c g).since = some since →
      (s.group c g).hold = .waitLand n → d.st = 3 → since + (d.waitLimit * d.window : Nat) ≤ s.progTick d → (s.launchOf c g).ctx < 4096 →
      ∃ t, exec (.tideStall c g) s = .next t ∧ ended t ∧ (t.ctx (s.launchOf c g).ctx).st = 4) ∧
    (∀ (u : State) (p : Nat) (m : SyncMsg), s.popSync p 4 = some (m, u) → s.ns.doms.find? (fun e => e.2.st == 2 && e.2.domainId == bits m.w0 47 32) = some (slot, d) →
      (d.hash = bits m.w0 31 0 → d.epoch = (m.w1 : Int) → ∃ t, exec (.startCheck p) s = .next t ∧
        t.dom slot = { d with checks := d.checks ++ [(p, true)] } ∧ others t ∧ t = { u with ns := { u.ns with doms := t.ns.doms } }) ∧
      (¬(d.hash = bits m.w0 31 0 ∧ d.epoch = (m.w1 : Int)) → ∃ t, exec (.startCheck p) s = .next t ∧ ended t)) ∧
    (∀ (u : State) (p : Nat) (m : SyncMsg), s.popSync p 2 = some (m, u) →
      s.ns.doms.find? (fun e => (e.2.st == 2 || e.2.st == 3) && e.2.domainId == bits m.w0 47 32 && e.2.hash == bits m.w0 31 0) = some (slot, d) →
      let named : Int := bits m.w1 31 0
      let b : Int := if named < s.progTick d then max 0 ((s.progTick d / (d.window : Int) + 1) * d.window) else named
      ∃ t, exec (.hold p) s = .next t ∧ others t ∧ t.mem = s.mem ∧ t.cores = s.cores ∧
        (d.holdAt = none → t.dom slot = { d with holdAt := some b }) ∧ (∀ h, d.holdAt = some h → t.dom slot = { d with holdAt := some (min h b) })) ∧
    (∀ (u : State) (p : Nat) (m : SyncMsg), s.popSync p 3 = some (m, u) →
      s.ns.doms.find? (fun e => e.2.st != 0 && e.2.domainId == bits m.w0 47 32 && e.2.hash == bits m.w0 31 0) = some (slot, d) → 2 ≤ d.st →
      ∃ t, exec (.abort p) s = .next t ∧ ended t)

/-- ENTRY_ISSUE, SEAL_CHECK, LANDING, CREDIT, LAND and MARK: an entry from its list to the slots of its cores (R340, R341, R344, R345, R373, R374, R376, R414; derived). -/
def Obligations.TileEntriesAndLandings : Prop :=
  (∀ (s : State) (src : Src) (b : Table) (bs : List Byte) (pa : Nat), s.table? src = some b → b.src = src → b.kind = 0 → s.mayStream b = true →
    s.bufRead b.cove b.space (b.va + 32 * b.next) 32 = .ok bs false →
    let v := leNat bs
    let va := bits v 56 5 * 32
    let tick := bits v 159 128
    let n := 32 * (bits v 102 96 + 1)
    let cores := b.msets.getD (bits v 111 104) []
    let slots := landSlots (bits v 119 112) (bits v 207 192) n
    let need := cores.flatMap (fun c => slots.map (fun k => ({ owner := 0x600 + b.target, core := c, slot := k } : Credit)))
    tileBad b v = none → s.locate b.cove 0 va false = .dev pa → coherent (region pa) = true →
    (∀ d k, src = .dom d k → (tick : Int) ≤ s.progTick (s.dom d)) → s.engineLoad b.target < s.engineLimit b.target → b.spent = [] →
    (((∀ c ∈ need, c ∈ s.ns.credits) → ∃ t f b', exec (.entryIssue src) s = .next t ∧ t.ns.flights = s.ns.flights ++ [f] ∧
      f.src = src ∧ f.num = b.next ∧ f.pa = pa ∧ f.cores = cores ∧
      (∀ c, t.ns.credits.count c = s.ns.credits.count c - need.count c) ∧ t.table? src = some b' ∧ b'.next = b.next + 1 ∧ b'.waitFrom = none ∧
      b'.issued = b.issued ++ [{ num := b.next, setf := bit v 121, cores := cores, slots := slots }] ∧ t.mem = s.mem ∧ t.cores = s.cores ∧ t.hs = s.hs) ∧
     ((∃ c ∈ need, c ∉ s.ns.credits) → b.waitFrom = none → ∃ t b', exec (.entryIssue src) s = .next t ∧ t.ns.flights = s.ns.flights ∧
      t.ns.credits = s.ns.credits ∧ t.table? src = some b' ∧ b'.next = b.next ∧ b'.waitFrom.isSome = true ∧ t = { s with ns := t.ns }))) ∧
  (∀ (s : State) (src : Src) (num : Nat) (b : Table) (f : Flight) (parts : List (List Byte)), s.table? src = some b →
    s.ns.flights.find? (fun g => g.src == src && g.num == num) = some f → s.tileListed f.pa = false → f.pa / 4096 ∉ s.ra.badPrim →
    let v := f.words.getD 1 0
    let n := 32 * (bits v 38 32 + 1)
    (cut f.pa n).map (fun p => s.paRead b.cove p.1 p.2) = parts.map (fun x => .ok x false) →
    let sent := fun (t : State) (bs : List Byte) (poison : Bool) => t.ns.flights = s.ns.flights.filter (fun g => !(g.src == src && g.num == num)) ∧
      ∃ ms : List LandMsg, t.ns.landings = s.ns.landings ++ ms ∧ ms.map LandMsg.core = f.cores ∧ ∀ m ∈ ms, m.data = bs ∧ m.poison = poison ∧
        m.slot = bits v 55 48 ∧ m.setf = bit v 57 ∧ m.mark = false ∧ m.src = b.src ∧ m.num = f.num ∧ m.node = 0x600 + b.target
    (crc32c parts.flatten = v % 2 ^ 32 → ∃ t, exec (.sealCheck src num) s = .next t ∧ sent t parts.flatten false ∧ Quiet s { t with ns := s.ns }) ∧
    (crc32c parts.flatten ≠ v % 2 ^ 32 → s.mirrorOf f.pa = none → s.ns.badTiles = [] → ∃ t, exec (.sealCheck src num) s = .next t ∧
      sent t parts.flatten true ∧ t.tileListed f.pa = true ∧ Quiet s { t with ns := s.ns })) ∧
  (∀ (s : State) (c slot : Nat) (m : LandMsg), s.ns.landings.filter (fun m => m.core == c && m.slot == slot) = [m] →
    let k := s.core c
    let base := k.landBase + 2048 * slot + 32 * m.off
    let ns := if m.mark then [slot] else landSlots slot m.off m.data.length
    (∀ n ∈ ns, n < k.landCount) →
    ((∀ n ∈ ns, (k.slot n).st ≠ 2 ∧ slotOwner c (k.slot n).owner = m.node) →
      (s.table? m.src = none → ∃ t, exec (.landing c slot) s = .next t ∧ t.ns.landings = s.ns.landings.erase m ∧
        (∀ a, (t.core c).sp.read a = if base ≤ a ∧ a < base + m.data.length then m.data.getD (a - base) 0 else k.sp.read a) ∧
        (∀ n ∈ ns, ((t.core c).slot n).st = (if m.mark then 2 else 1) ∧ ((t.core c).slot n).poison = ((k.slot n).poison || m.poison)) ∧
        (∀ n, n ∉ ns → (t.core c).slot n = k.slot n) ∧ (∀ d, d ≠ c → t.core d = s.core d) ∧ t.mem = s.mem ∧ t.hs = s.hs) ∧
      (∀ b, s.table? m.src = some b → b.src = m.src → m.mark = false → b.landed = [] → b.issued = [{ num := m.num, setf := true, cores := [c], slots := ns }] →
        b.ended = 0 → b.next < b.count → b.delivered + 1 < b.count → ∃ t b', exec (.landing c slot) s = .next t ∧
        (∀ n ∈ ns, ((t.core c).slot n).st = 2) ∧ (∀ a, (t.core c).sp.read a = if base ≤ a ∧ a < base + m.data.length then m.data.getD (a - base) 0 else k.sp.read a) ∧
        t.table? m.src = some b' ∧ b'.delivered = b.delivered + 1 ∧ b'.issued = [] ∧ t.mem = s.mem ∧ t.hs = s.hs)) ∧
    ((∃ n ∈ ns, (k.slot n).st = 2) → s.table? m.src = none → ∃ t, exec (.landing c slot) s = .next t ∧ t.ns.landings = s.ns.landings.erase m ∧
      t.cores = s.cores ∧ t.fld clsTide (match m.dom with | some d => d + 1 | none => 0) R.ERR_STATUS_PROTOCOL = 1 ∧ t.mem = s.mem)) ∧
  (∀ (s : State) (o c slot : Nat),
    let r : Credit := { owner := o, core := c, slot := slot }
    r ∈ s.ns.flying →
    (isPortNode o = false → ∃ t, exec (.credit o c slot) s = .next t ∧
      t = { s with regs := t.regs, ns := { s.ns with flying := s.ns.flying.erase r, credits := s.ns.credits ++ [r] } }) ∧
    (isPortNode o = true → ∃ t, exec (.credit o c slot) s = .next t ∧ t.ns.flying = s.ns.flying.erase r ∧ t.ns.credits = s.ns.credits ∧
      (t.port (o - 0x630)).creditsOut = (s.port (o - 0x630)).creditsOut ++ [2 ^ 63 + c % 1024 * 2 ^ 48 + slot % 256 * 2 ^ 40])) ∧
  (∀ (s u v : State) (p : Nat) (m : TwMsg), s.popMsg p 1 = some (m, u) →
    let l := u.remoteLand p m false
    let ns := landSlots l.slot l.off l.data.length
    u.landAt l = (v, true) →
    (l.setf = false → ∃ t, exec (.land p) s = .next t ∧ t.cores = v.cores ∧ (∀ n ∈ ns, (l.core, n) ∈ (t.port p).fill) ∧ t.mem = s.mem) ∧
    (l.setf = true → ∃ t, exec (.land p) s = .next t ∧ (∀ n ∈ ns, ((t.core l.core).slot n).st = 2) ∧ (t.core l.core).sp = (v.core l.core).sp ∧ t.mem = s.mem)) ∧
  (∀ (s u v : State) (p : Nat) (m : TwMsg), s.popMsg p 2 = some (m, u) →
    let l := u.remoteLand p m true
    u.landAt l = (v, true) → ∃ t, exec (.mark p) s = .next t ∧ ((t.core l.core).slot l.slot).st = 2 ∧ (t.core l.core).sp = (v.core l.core).sp ∧ t.mem = s.mem)

/-- the entries of link tables, and a reduction in the network from its start to its combined chunks (R332, R348, R349, R350, R351, R352, R370, R416, R417; derived). -/
def Obligations.LinkTablesAndNetworkReductions : Prop :=
  (∀ (s : State) (slot n : Nat) (b : Table) (v : Nat) (prog : Int), s.linkHead slot n = .entry b v prog →
    s.table? (.dom slot n) = some b → b.src = .dom slot n →
    let core := bits v 121 112
    let stepped := fun (t : State) => ∃ b', t.table? (.dom slot n) = some b' ∧ b'.next = b.next + 1 ∧ b'.waitFrom = none
    (∀ (bs : List Byte) (p : Bool), bits v 111 109 = 0 → 24 ≤ b.target → b.spent = [] → s.bufRead b.cove (boolNat (bit v 57)) (bits v 56 0) (32 * (bits v 102 96 + 1)) = .ok bs p →
      let need := (landSlots (bits v 135 128) (bits v 151 136) (32 * (bits v 102 96 + 1))).map (fun k => ({ owner := b.node, core := core, slot := k } : Credit))
      ((∀ c ∈ need, c ∈ s.ns.credits) → ∃ t m, exec (.linkCopy slot n) s = .next t ∧ t.ns.landings = s.ns.landings ++ [m] ∧ m.core = core ∧
        m.slot = bits v 135 128 ∧ m.off = bits v 151 136 ∧ m.data = bs ∧ m.poison = p ∧ m.setf = bit v 122 ∧ m.mark = false ∧ m.node = b.node ∧
        m.num = b.next ∧ stepped t ∧ (∀ c, t.ns.credits.count c = s.ns.credits.count c - need.count c) ∧ Quiet s { t with ns := s.ns }) ∧
      ((∃ c ∈ need, c ∉ s.ns.credits) → b.waitFrom = none → ∃ t b', exec (.linkCopy slot n) s = .next t ∧ t.ns.credits = s.ns.credits ∧ t.ns.landings = s.ns.landings ∧
        t.table? (.dom slot n) = some b' ∧ b'.next = b.next ∧ b'.waitFrom = some prog)) ∧
    (bits v 111 109 = 3 → 24 ≤ b.target → b.delivered = b.next → ({ owner := b.node, core := core, slot := bits v 135 128 } : Credit) ∈ s.ns.credits →
      ∃ t m, exec (.linkMark slot n) s = .next t ∧ t.ns.landings = s.ns.landings ++ [m] ∧ m.core = core ∧ m.slot = bits v 135 128 ∧ m.mark = true ∧
        m.data = [] ∧ m.node = b.node ∧ stepped t ∧ t.ns.credits = s.ns.credits.erase { owner := b.node, core := core, slot := bits v 135 128 } ∧ t.mem = s.mem) ∧
    (∀ bs, s.bufRead b.cove 0 (bits v 248 192) 64 = .ok bs false →
      let d := leNat bs
      (bits v 111 109 = 2 → bits d 63 32 ≠ 0 → bits d 63 32 ≠ 2 ^ 32 - 1 → s.redBad b.cove d = none → ∃ t r, exec (.netred slot n) s = .next t ∧
        t.ns.reds = s.ns.reds ++ [r] ∧ r.src = b.src ∧ r.num = b.next ∧ r.words = d ∧ r.alloc = false ∧ r.cove = b.cove ∧ stepped t ∧ t = { s with ns := t.ns }) ∧
      (bits v 111 109 = 2 → bits d 63 32 = 0 → b.ended = 0 → b.delivered + 1 < b.count → ∃ t b', exec (.netred slot n) s = .next t ∧ t.table? (.dom slot n) = some b' ∧
        b'.next = b.next + 1 ∧ b'.delivered = b.delivered + 1 ∧ t = { s with ns := t.ns }) ∧
      (∀ bs', bits v 111 109 = 1 → s.ns.torus = none → s.redFirst (bits v 95 64) b.target = true → bits d 63 32 ≠ 0 → bits d 63 32 ≠ 2 ^ 32 - 1 → s.torBad d = none →
        s.ns.readies = [] → (let f := (Fmt.ofCode (bits d 15 12)).getD .fp32; s.bufRead b.cove (boolNat (bit v 57)) (bits v 56 0) (packedBytes f (bits d 63 32))) = .ok bs' false →
        ∃ t r, exec (.linkRed slot n) s = .next t ∧ t.ns.torus = some r ∧ r.words = d ∧ r.src = b.src ∧ r.raw.length = bits d 63 32 ∧ r.poison = [] ∧
          r.left = r.chunks 0 + r.chunks 1 ∧ r.dim = (dimsOf d).headD 0 ∧ r.pass = (if bit d 11 then 1 else 0) ∧ stepped t ∧
          t.fld clsTwp 24 R.TORUS_STATE_RID = bits d 79 64 ∧ Quiet s { t with ns := s.ns }))) ∧
  (∀ (s : State) (r : NetRed) (bs : List Byte) (l : List (Nat × Bool × Nat)), s.ns.reds.find? (fun r => !r.alloc && s.redMay r) = some r →
    s.red? r.src r.num = some r → s.bufRead r.cove 0 (bits r.words 248 192) (16 * bits r.words 74 64) = .ok bs false → parseSrcs bs (bits r.words 74 64) 0 = (none, l) →
    r.root < 256 →
    let r' := { r with srcs := l }
    (∀ q ∈ r'.tree, r'.need q ≤ 256) →
    ((∀ q ∈ r'.tree, s.fld clsNoc q R.NOC_RED_STATE_SLOTS_USED + r'.need q ≤ 256) → ∃ t, exec (.redAllocation r.src r.num) s = .next t ∧
      t.red? r.src r.num = some { r' with alloc := true } ∧
      (∀ q ∈ r'.tree, t.fld clsNoc q R.NOC_RED_STATE_SLOTS_USED = s.fld clsNoc q R.NOC_RED_STATE_SLOTS_USED + r'.need q) ∧ t = { s with regs := t.regs, ns := { s.ns with reds := t.ns.reds } }) ∧
    ((∃ q ∈ r'.tree, 256 < s.fld clsNoc q R.NOC_RED_STATE_SLOTS_USED + r'.need q) → exec (.redAllocation r.src r.num) s = .next s)) ∧
  (∀ (s : State) (src : Src) (num q j : Nat) (r : NetRed) (l : List Oper), s.red? src num = some r → r.alloc = true → q ∈ r.tree → q ≠ r.root → j < r.nchunks →
    (q, j) ∉ r.gone → r.inputs q = [] → s.fld clsNoc q R.ERR_INJECT_ARM = 0 → s.readOpers r j (r.locals q) = .ok l →
    (r.parts.filter (fun x => x.router == nextHop r.root q && x.low == r.low q)).length < r.window →
    ∃ t r', exec (.chunkCombine src num q j) s = .next t ∧ t.red? src num = some r' ∧ (q, j) ∈ r'.gone ∧
      ({ router := nextHop r.root q, chunk := j, low := r.low q, vals := (sumOpers l).1, poison := (sumOpers l).2 } : Part) ∈ r'.parts ∧
      r'.words = r.words ∧ Quiet s { t with ns := s.ns }) ∧
  (∀ (s : State) (r : TorRed), s.ns.torus = some r →
    (∀ d n, r.src = .dom d n → (s.dom d).st = 3 → (s.dom d).limit ≤ (s.ns.tick : Int) - r.since → ∃ t, exec (.redStall r.src) s = .next t ∧ t.ns.torus = none ∧ (t.dom d).st = 1) ∧
    (∀ x q i, r.src = .cmd x q i → r.since + 7812500 ≤ s.ns.tick → ∃ t, exec (.redStall r.src) s = .next t ∧ t.ns.torus = none ∧ t.cmdAt x q i = none)) ∧
  (∀ (s : State) (i : Nat), i < 32 → ∃ t, exec (.syncResend (portRouter i)) s = .next t ∧ CountsOnly s t clsNoc (portRouter i))

/-- RED_READY, RED_CHUNK, PEER_WRITE, PEER_ACK and PEER_WRITE_WAIT (R404, R405, R417, R418, R419, R421; derived). -/
def Obligations.TorusAndPeerMessages : Prop :=
  (∀ (s u : State) (p : Nat) (m : TwMsg), s.popMsg p 3 = some (m, u) → s.ns.torus = none →
    let key := bits m.w0 47 32 * 2 ^ 32 + bits m.w0 31 30 * 2 ^ 30 + bits m.w0 29 29 * 2 ^ 29
    ∃ t, exec (.redReady p) s = .next t ∧ (∀ h, (p, key, h) ∈ t.ns.readies ↔ h = m.w1 % 2 ^ 32) ∧
      (∀ x, ¬(x.1 = p ∧ x.2.1 = key) → (x ∈ t.ns.readies ↔ x ∈ s.ns.readies)) ∧ t = { u with ns := { u.ns with readies := t.ns.readies } }) ∧
  (∀ (s u : State) (p : Nat) (m : TwMsg), s.popMsg p 4 = some (m, u) → s.ns.torus = none →
    ∃ t, exec (.redChunk p) s = .next t ∧ t.fld clsTwp p R.ERR_STATUS_PROTOCOL = 1 ∧ t.ns = u.ns ∧ t.mem = s.mem) ∧
  (∀ (s u : State) (p : Nat) (m : TwMsg) (r : TorRed), s.popMsg p 4 = some (m, u) → s.ns.torus = some r → r.pass = 1 →
    bits m.w0 47 32 * 2 ^ 32 + bits m.w0 31 30 * 2 ^ 30 + bits m.w0 29 29 * 2 ^ 29 = r.key →
    let dir := bits m.w0 28 28
    let j := bits m.w1 31 0
    let low := bits m.w0 14 0
    let d := s.sizeOf r.dim
    let a := r.first dir j
    let n := r.count dir j
    let vs := (List.range n).map (fun i => leNat ((m.body.drop (40 * i)).take 40))
    let seg := segOf (r.chunks dir) d j
    let near := (s.ringPos r.dim dir + 1) % d = seg
    j < r.chunks dir → bits m.w0 20 16 + 1 = n → partnerPort p = outPort r.dim dir j → m.body.length = 40 * n → a + n ≤ r.vals.length → 2 ≤ r.left →
    ∃ t r', exec (.redChunk p) s = .next t ∧ t.ns.torus = some r' ∧ r'.words = r.words ∧ r'.vals.length = r.vals.length ∧
      (∀ i, ¬(a ≤ i ∧ i < a + n) → r'.vals.getD i 0 = r.vals.getD i 0) ∧
      (bits m.w0 27 27 = 1 → r'.left = r.left - 1 ∧ ∀ i < n, r'.vals.getD (a + i) 0 = vs.getD i 0) ∧
      (bits m.w0 27 27 = 0 → r'.left = (if near then r.left - 1 else r.left) ∧ ∀ i < n, r'.vals.getD (a + i) 0 =
        (let x := Wes.decode (vs.getD i 0); let y := Wes.decode (r.vals.getD (a + i) 0); if low < r.rank then (pinSum x y).encode else (pinSum y x).encode)) ∧
      t.mem = s.mem ∧ t.cores = s.cores) ∧
  (∀ (s u : State) (p : Nat) (m : TwMsg), s.popMsg p 5 = some (m, u) →
    let stripe := p % 12 / 3
    (∀ h, s.peerHop (bits m.w0 46 32) = some h → (u.port (hopPort h stripe)).st ≠ 6 → ∃ t, exec (.peerWrite p) s = .next t ∧
      t.ns.peerWait = s.ns.peerWait ++ [(hopPort h stripe, m)] ∧ t.mem = s.mem ∧ t.cores = s.cores) ∧
    (∀ (v : State) (h : Nat × Bool), s.peerHop (bits m.w0 46 32) = none → (s.cove (bits m.w0 57 52)).st = 2 → s.fld clsCove (bits m.w0 57 52) R.COVE_CFG_PEER_ACCEPT = 1 →
      u.bufWrite (bits m.w0 57 52) 0 (bits m.w1 56 0) m.body false = .ok v → s.peerHop (bits m.w0 14 0) = some h → (v.port (hopPort h stripe)).st ≠ 6 →
      ∃ t, exec (.peerWrite p) s = .next t ∧ t.mem = v.mem ∧ t.slices = v.slices ∧ t.cores = v.cores ∧
        t.ns.peerWait = v.ns.peerWait ++ [(hopPort h stripe, peerAckMsg 0 (bits m.w0 14 0) (bits m.w0 31 24))])) ∧
  (∀ (s u : State) (p : Nat) (m : TwMsg) (e : Peer) (k : Cmd), s.popMsg p 6 = some (m, u) → s.peerHop (bits m.w0 46 32) = none →
    s.ns.peers.find? (fun x => x.txn == bits m.w0 31 24) = some e → s.cmdAt e.cmd.1 e.cmd.2.1 e.cmd.2.2 = some k →
    (bits m.w0 55 48 = 0 → k.pos < k.peerTotal → ∃ t, exec (.peerAck p) s = .next t ∧
      t.cmdAt e.cmd.1 e.cmd.2.1 e.cmd.2.2 = some { k with acks := k.acks + 1, result := k.result + 1 } ∧
      (∀ x ∈ t.ns.peers, x.txn ≠ bits m.w0 31 24) ∧ t.mem = s.mem) ∧
    (bits m.w0 55 48 = Sta.permission → ∃ t, exec (.peerAck p) s = .next t ∧ t.cmdAt e.cmd.1 e.cmd.2.1 e.cmd.2.2 = none ∧ (∀ x ∈ t.ns.peers, x.txn ≠ bits m.w0 31 24))) ∧
  (∀ (s : State) (p : Nat) (m : TwMsg) (h : Nat × Bool), (s.port p).st ≠ 6 → s.ns.peerWait = [(p, m)] → mtype m = 5 → s.peerHop (bits m.w0 14 0) = some h →
    (s.port (hopPort h (p % 12 / 3))).st ≠ 6 → ∃ t, exec (.peerWriteWait p) s = .next t ∧
      t.ns.peerWait = [(hopPort h (p % 12 / 3), peerAckMsg Sta.aborted (bits m.w0 14 0) (bits m.w0 31 24))] ∧ t = { s with ns := t.ns })

/-- a Tideway port from DETECT to ACTIVE and to DOWN, one command a state (Table 14-4) (R400, R401, R406, R407, R411, R415, R422, R424; derived). -/
def Obligations.TidewayTraining : Prop :=
  ∀ (s : State) (p : Nat),
    let q := s.port p
    let others := fun (t : State) => ∀ o, o ≠ p → t.port o = s.port o
    let down := fun (c : Instr) (why : Nat) => ∃ t, exec c s = .next t ∧ (t.port p).st = 8 ∧ (t.port p).down = why ∧ (t.port p).width = 0 ∧
      (t.port p).kept = [] ∧ (∀ r ∈ t.ns.credits, r.owner ≠ 0x630 + p) ∧ others t ∧ t.mem = s.mem ∧ t.cores = s.cores
    let moved := fun (c : Instr) (x : Twp) => ∃ t, exec c s = .next t ∧ t.port p = x ∧ others t ∧ t = { s with ns := { s.ns with ports := t.ns.ports } }
    (∀ c : Cable, q.st = 1 ∨ (q.st = 8 ∧ q.down = 1) → s.portOn p = true →
      (c.answers = true → c.watts ≤ 16 → moved (.detect p c)
        { q with st := 2, down := 0, hasCable := true, cable := c.value / 2 ^ 16 * 2 ^ 16 + c.watts * 2 ^ 8 + 1 }) ∧
      (c.answers = false ∨ 16 < c.watts → down (.detect p c) 2)) ∧
    (q.st ≠ 0 → down (.noCable p) 1) ∧
    (q.st = 2 → moved (.equalize p) { q with st := 3 }) ∧
    (∀ errs : List Nat, q.st = 3 →
      let bad := (List.range 9).filter (fun l => decide (1 < errs.getD l 0) || (s.retiredLanes p).contains l)
      let next := if q.keep then 5 else 4
      (bad = [] → moved (.align p errs) { q with st := next, badLanes := [], spared := 8, width := 2 }) ∧
      (∀ l, bad = [l] → ∃ t, exec (.align p errs) s = .next t ∧ t.port p = { q with st := next, badLanes := [l], spared := l, width := 2 } ∧ others t) ∧
      (∀ l rest, bad = l :: rest → rest ≠ [] → bad.length ≤ 5 → s.fld clsTwp p R.TWP_CFG_DEGRADE_OK = 1 →
        ∃ t, exec (.align p errs) s = .next t ∧ t.port p = { q with st := next, badLanes := bad, spared := l, width := 1 } ∧ others t) ∧
      (2 ≤ bad.length → 5 < bad.length ∨ s.fld clsTwp p R.TWP_CFG_DEGRADE_OK ≠ 1 → down (.align p errs) 9)) ∧
    (∀ id : Ident, q.st = 4 →
      let right : Prop := id.port = partnerPort p ∧ id.coord = s.neighbour p ∧ id.sizes = coord15 (s.sizeReg 0 - 1) (s.sizeReg 1 - 1) (s.sizeReg 2 - 1)
      (right → moved (.identify p id) { q with st := 5, serial := id.serial % 2 ^ 32, coord := id.coord, pport := id.port }) ∧
      (¬right → down (.identify p id) 6)) ∧
    (∀ (ps : Int) (margins : Nat), q.st = 5 → q.keep = false → ∃ t, exec (.latency p ps margins) s = .next t ∧ (t.port p).st = 6 ∧
      (t.port p).lat = ps + sext 8 (s.fld clsTwp p R.TWP_CFG_ASYM_TRIM) ∧ (t.port p).lanes = margins % 2 ^ 63 ∧ (t.port p).width = q.width ∧
      (t.port p).ackseq = 4095 ∧ others t ∧ t.mem = s.mem ∧ t.cores = s.cores) ∧
    (q.st = 7 ∨ (q.keep = true ∧ 1 ≤ q.st ∧ q.st ≤ 5) → down (.trainingLimit p) 8) ∧
    (q.keep = false → 1 ≤ q.st → q.st ≤ 5 → down (.trainingLimit p) (q.st + 2)) ∧
    (q.st = 6 ∨ q.st = 7 → down (.partnerLost p) 10) ∧
    (q.st = 8 → ∃ t, exec (.downRetry p) s = .next t ∧ (t.port p).st = (if s.portOn p then 1 else 0) ∧ (t.port p).kept = [] ∧ (t.port p).width = 0 ∧
      (s.sizeReg (portDim p) ≤ 32 → t.coordOf (portDim p) = s.coordReg (portDim p)) ∧ others t ∧ t = { s with ns := t.ns }) ∧
    (∀ w : RegW, p < 24 → s.Reaches w clsTwp p 0x100 → s.fld clsTwp p R.LOCK_CFG_LOCK ≠ 1 → bit w.val 2 = true → ∃ t, exec (.forceRetrain w) s = .next t ∧
      (t.port p).st = (if bit w.val 0 = true ∧ 1 < s.sizeReg (portDim p) then 1 else 0) ∧ (t.port p).kept = [] ∧ (t.port p).width = 0 ∧
      t.fld clsTwp p R.TWP_CFG_ENABLE = w.val % 2 ∧ t.fld clsTwp p R.TWP_CFG_DEGRADE_OK = bits w.val 1 1 ∧ others t ∧ t = { s with regs := t.regs, ns := t.ns })

/-- FRAME, REPLAY_TIMEOUT and RECOVER: what an arriving frame delivers, what is sent again, how a lane test ends (R403, R404, R405, R408, R409, R410; derived). -/
def Obligations.TidewayFramesAndReplay : Prop :=
  (∀ (s : State) (p : Nat) (bytes : List Byte), (s.port p).st = 6 → bytes.length = 1088 → s.fld clsTwp p R.ERR_INJECT_ARM = 0 →
    let q := s.port p
    let good := crc64 (bytes.take 1080) = leNat (bytes.drop 1080)
    let w := fun i => leNat ((bytes.drop (1024 + 8 * i)).take 8)
    let kind := bits (w 0) 37 36
    let inOrder := bits (w 0) 63 52 = (q.ackseq + 1) % 4096
    let refused := ∃ t, exec (.frame p bytes) s = .next t ∧ (t.port p).ackseq = q.ackseq ∧ (t.port p).rx = q.rx ∧ (t.port p).rxSync = q.rxSync ∧
      (t.port p).nakWait = true ∧ (∃ new, (t.port p).kept = q.kept ++ new) ∧ t.mem = s.mem ∧ t.cores = s.cores ∧ t.ns.credits = s.ns.credits
    (¬good → refused) ∧ (good → kind ≠ 2 → kind ≠ 3 → ¬inOrder → refused) ∧
    (good → kind ≠ 2 → kind ≠ 3 → inOrder → q.nakWait = false ∨ bit (w 0) 38 = true → bit (w 0) 39 = false → ∃ t, exec (.frame p bytes) s = .next t ∧
      (t.port p).ackseq = bits (w 0) 63 52 ∧ (t.port p).acked = bits (w 0) 51 40 ∧ (t.port p).nakWait = false ∧
      (∀ l k r, q.kept = l ++ k :: r → (∀ x ∈ l, x.fseq ≠ bits (w 0) 51 40) → k.fseq = bits (w 0) 51 40 → ∃ new, (t.port p).kept = r ++ new) ∧
      (t.port p).rxSync = q.rxSync ++ (if bits (w 2) 63 60 = 0 then [] else [{ w0 := w 2, w1 := w 3, replay := bit (w 0) 38 }]) ∧
      t.ns.credits = s.ns.credits ++ ([w 4, w 5, w 6].filter (fun c => bit c 63)).map (fun c => { owner := 0x630 + p, core := bits c 57 48, slot := bits c 47 40 }) ∧
      (bits (w 1) 47 0 = 0 → (t.port p).rx = q.rx) ∧
      (∀ v, 1 ≤ v → v ≤ 3 → bits (w 1) 47 0 = v → (∀ x ∈ q.asm, x.1 ≠ v) →
        let m : TwMsg := { w0 := leNat (bytes.take 8), w1 := leNat ((bytes.drop 8).take 8), body := (bytes.drop 16).take (bodyBytes (leNat (bytes.take 8))) }
        msgSegs m.w0 = 1 → msgOk v m = true → (t.port p).rx = q.rx ++ [m]) ∧
      t.mem = s.mem ∧ t.cores = s.cores)) ∧
  (∀ (s : State) (p : Nat) (k : Kept) (l : List Kept), (s.port p).st = 6 → (s.port p).kept = k :: l →
    let n := s.fld clsTwp p R.TWP_CFG_REPLAY_BUDGET
    let budget := if n = 0 then 256 else n
    let recent := ((s.port p).recovers.filter (fun u => decide (s.now < u + 10 ^ 9))).length
    (k.replays < budget → ∃ t fs, exec (.replayTimeout p) s = .next t ∧ t.hs.out = s.hs.out ++ fs ∧ (∀ f ∈ fs, f.kind = outFrame ∧ f.a = p) ∧
      fs.map (fun f => f.data) = frameBytes k (s.port p).ackseq (s.port p).nak true :: l.map (fun x => frameBytes x (s.port p).ackseq false true) ∧ (t.port p).st = 6 ∧
      (t.port p).kept = (k :: l).map (fun k => { k with replays := k.replays + 1 }) ∧ t.mem = s.mem ∧ t.cores = s.cores) ∧
    (budget ≤ k.replays → recent < 2 → ∃ t, exec (.replayTimeout p) s = .next t ∧ (t.port p).st = 7 ∧ (t.port p).kept = k :: l ∧ t.mem = s.mem) ∧
    (budget ≤ k.replays → 2 ≤ recent → ∃ t, exec (.replayTimeout p) s = .next t ∧ (t.port p).st = 8 ∧ (t.port p).down = 8 ∧ t.mem = s.mem)) ∧
  (∀ (s : State) (p : Nat) (errs : List Nat), (s.port p).st = 7 → (s.port p).badLanes = [] →
    let failed := (List.range 9).filter (fun l => decide (100 < errs.getD l 0))
    (failed = [] → (s.port p).forced = false → ∃ t, exec (.recover p errs) s = .next t ∧ t.port p = { s.port p with st := 2, keep := true } ∧
      (∀ o, o ≠ p → t.port o = s.port o) ∧ t = { s with ns := { s.ns with ports := t.ns.ports } }) ∧
    (∀ l, failed = [l] → ∃ t, exec (.recover p errs) s = .next t ∧ (t.port p).st = 6 ∧ (t.port p).spared = l ∧ (t.port p).badLanes = [l] ∧ (t.port p).width = 2 ∧
      (s.ra.retire.length < 256 → retireEntry 4 p l ∈ t.ra.retire) ∧ t.mem = s.mem ∧ t.cores = s.cores) ∧
    (2 ≤ failed.length → s.fld clsTwp p R.TWP_CFG_DEGRADE_OK ≠ 1 → ∃ t, exec (.recover p errs) s = .next t ∧ (t.port p).st = 8 ∧ (t.port p).down = 9))

/-- mx.begin to mx.load: what each issues, and what MX_EXECUTE_END does for each kind of queued instruction (R107, R121, R126, R127, R130, R131, R132, R136, R138, R139, R140, R142; derived). -/
def Obligations.MatrixInstructionsRun : Prop :=
  (∀ (w : IWord) (s u : State),
    let z := s.view w
    let noFields : List Opnd := [⟨.zero, z.i.d, false⟩, ⟨.zero, z.i.a, false⟩, ⟨.zero, z.i.b, false⟩, ⟨.zero, z.i.c, false⟩]
    let accept := fun (form : Form) (k : MxKind) (rd wr : List (Nat × Nat)) => (u.advanced w z form).mxAccept z k rd wr
    let b := u.blockOf w.core w.slot
    (let form := plainForm z.i (z.i.t == 0 && z.i.q == 0) noFields
     s.Issues u w (2, 0x000) form → z.g.region = none → ∃ t, exec (.mxBegin w) s = .next t ∧ Issued u t w ∧
       t.group w.core w.slot = { z.moved form with region := some z.g.m0 }) ∧
    (z.g.region = some z.g.m0 →
      (let form := plainForm z.i (z.i.t == 0 && z.i.q == 0) noFields
       s.Issues u w (2, 0x001) form → (∀ e ∈ (u.core w.core).mxq, e.slot ≠ w.slot) → ∃ t, exec (.mxEnd w) s = .next t ∧ Issued u t w ∧
         t.group w.core w.slot = { z.moved form with region := none }) ∧
      (∀ mw : MmaW, z.i.mma = some mw →
        let n := if bit z.i.c 6 then 2 else 1
        let form := plainForm z.i (!bit z.i.c 7 && (match z.i.mma with
            | none => false
            | some v => (!v.sc || v.grp.scalable) && (if v.grp == .fp64 then modeQual z.i else z.i.q == 0)))
          [⟨.acc, z.i.d, true⟩, ⟨.s n, z.i.a, false⟩, ⟨.s n, z.i.b, false⟩, ⟨.raw, z.i.c, false⟩]
        let ps := mw.parts z
        s.Issues u w (2, 0x010) form → z.l.tileClass z.i.d ≠ 0 → z.l.tileOwner z.i.d = z.g.gid →
        classAccepts (z.l.tileClass z.i.d) mw.grp mw.sc = true → partFaults u z ps = [] → (u.core w.core).landed (partSlots ps) = true →
        mxHold u z (partRanges ps) [] = .none →
        exec (.mma w) s = .next (accept form (.mma mw.ta mw.tb z.i.d (operandLoc mw.la (z.g.rs z.i.a)) (operandLoc mw.lb (z.g.rs z.i.b)) mw.la mw.lb
          (if mw.sc then some (operandLoc mw.la (z.g.rs (z.i.a + 1))) else none) (if mw.sc then some (operandLoc mw.lb (z.g.rs (z.i.b + 1))) else none)
          (rmodeOf z.l z.i.q) (satmOf z.l z.i.q)) (partRanges ps) [])) ∧
      (∀ f : Fmt, z.i.ty = some f →
        let form := plainForm z.i (modeQual z.i && (match z.i.ty with
            | some f => drainTypes f && !(bits z.i.q 2 1 == 2 && f.isInt)
            | none => false))
          [⟨.s 1, z.i.d, false⟩, ⟨.acc, z.i.a, false⟩, ⟨.zero, z.i.b, false⟩, ⟨.zero, z.i.c, false⟩]
        s.Issues u w (2, 0x020) form → z.l.tileClass z.i.a ≠ 0 → z.l.tileOwner z.i.a = z.g.gid → z.drainRange.1 + z.drainRange.2 ≤ b.spLen →
        mxHold u z [] [z.drainRange] = .none →
        exec (.mxDrain w) s = .next (accept form (.drain z.i.a (z.g.rs z.i.d / 128 * 128) f (rmodeOf z.l z.i.q) (satmFor z.l z.i.q f)) [] [z.drainRange])) ∧
      (z.l.tileClass z.i.d ≠ 0 → z.l.tileOwner z.i.d = z.g.gid →
        (let form := plainForm z.i (z.i.t == 0 && z.i.q == 0)
           [⟨.acc, z.i.d, true⟩, ⟨.zero, z.i.a, false⟩, ⟨.zero, z.i.b, false⟩, ⟨.zero, z.i.c, false⟩]
         s.Issues u w (2, 0x021) form → mxHold u z [] [] = .none → exec (.mxZero w) s = .next (accept form (.zero z.i.d) [] [])) ∧
        (let form := plainForm z.i (z.i.t == 0 && z.i.q == 0 && z.i.c == 0)
           [⟨.acc, z.i.d, false⟩, ⟨.s 1, z.i.a, false⟩, ⟨.zero, z.i.b, false⟩, ⟨.raw, z.i.c, false⟩]
         s.Issues u w (2, 0x022) form → z.imageRange.1 + z.imageRange.2 ≤ b.spLen → mxHold u z [] [z.imageRange] = .none →
         exec (.mxSave w) s = .next (accept form (.save z.i.d (z.g.rs z.i.a / 128 * 128)) [] [z.imageRange])) ∧
        (let form := plainForm z.i (z.i.t == 0 && z.i.q == 0 && z.i.c == 1)
           [⟨.acc, z.i.d, true⟩, ⟨.s 1, z.i.a, false⟩, ⟨.zero, z.i.b, false⟩, ⟨.raw, z.i.c, false⟩]
         s.Issues u w (2, 0x022) form → z.imageRange.1 + z.imageRange.2 ≤ b.spLen →
         u.spMarkFaults w.core [(b.spOff + z.imageRange.1, z.imageRange.2)] = [] → mxHold u z [z.imageRange] [] = .none →
         exec (.mxLoad w) s = .next (accept form (.load z.i.d (z.g.rs z.i.a / 128 * 128)) [z.imageRange] []))))) ∧
  (∀ (s : State) (c : Nat) (e : MxEntry) (rest : List MxEntry), (s.core c).mxq = e :: rest → s.fld clsCore (s.corePage c) R.ERR_INJECT_ARM = 0 →
    let k := s.core c
    let b := k.block e.blk
    let cls := fun t => b.launch.tileClass t
    let el := fun (x : State) (t i : Nat) => (tileArr (cls t) (((x.core c).block e.blk).tile t)).getD i 0
    let frame := fun (x : State) => exec (.mxExecuteEnd c) s = .next x ∧ (x.core c).mxq = rest ∧ (x.core c).groups = k.groups ∧ x.mem = s.mem ∧ (∀ d, d ≠ c → x.core d = s.core d)
    let onTile := fun (x : State) (t : Nat) => (x.core c).sp = k.sp ∧ (∀ u, u ≠ t → ((x.core c).block e.blk).tile u = b.tile u)
    let written := fun (x : State) (off : Nat) (out : List Byte) =>
      ∀ a, (x.core c).sp.read a = if b.spOff + off ≤ a ∧ a < b.spOff + off + out.length then out.getD (a - (b.spOff + off)) 0 else k.sp.read a
    (∀ ta tb t a o la lb sca scb rm sm g, e.kind = .mma ta tb t a o la lb sca scb rm sm → mxPair ta tb = some g → classRows (cls t) = g.rows →
      let size := g.rows * g.k
      let A := operandVals ta g.k g.rows (s.mxBytes c e.blk la a (size * ta.width / 8)) (sca.map (fun x => s.mxBytes c e.blk la x (size / 32)))
      let B := operandVals tb g.k g.rows (s.mxBytes c e.blk lb o (size * tb.width / 8)) (scb.map (fun x => s.mxBytes c e.blk lb x (size / 32)))
      ∃ x, frame x ∧ onTile x t ∧ ∀ i < g.rows * g.rows, el x t i = (mmaElem (cls t) rm sm (el s t i)
        ((List.range g.k).map (fun j => FVal.mul (A.getD (i / g.rows * g.k + j) .nan) (B.getD (i % g.rows * g.k + j) .nan)))).1) ∧
    (∀ t off dst rm sm, e.kind = .drain t off dst rm sm → ∃ x, frame x ∧ (x.core c).blocks = k.blocks ∧
      written x off (((tileArr (cls t) (b.tile t)).toList.map (fun v => (drainElem (cls t) dst rm sm v).bits)).flatMap (leBytes (dst.width / 8)))) ∧
    (∀ t off, e.kind = .save t off → ∃ x, frame x ∧ (x.core c).blocks = k.blocks ∧
      written x off ((tileArr (cls t) (b.tile t)).toList.flatMap (leBytes (classBytes (cls t))))) ∧
    (∀ t, e.kind = .zero t → ∃ x, frame x ∧ onTile x t ∧ ∀ i < classRows (cls t) * classRows (cls t), el x t i = classInit (cls t)) ∧
    (∀ t off, e.kind = .load t off → ∃ x, frame x ∧ onTile x t ∧ ∀ i < classRows (cls t) * classRows (cls t),
      el x t i = loadImage (cls t) (leNat (k.sp.readBytes (b.spOff + off + i * classBytes (cls t)) (classBytes (cls t))))))

/-- el.run to el.wait: what each issues, and what EL_FINISH does for each kind of queued instruction (R108, R151, R153, R154, R156, R159, R168, R169, R170, R172, R173, R174; derived). -/
def Obligations.ElementEngineRuns : Prop :=
  (∀ (w : IWord) (s u : State),
    let z := s.view w
    let n := z.g.rs z.i.b
    let f := (z.i.ty).getD .int8
    let accept := fun (x : State) (k : ElKind) (desc : List (Nat × List Byte)) (g : List Access) (rd wr : List (Nat × Nat)) (busy : List Nat) =>
      x.elAccept z k desc g rd wr busy
    (∀ (p p' : Prog) (tabs tabs' : List (Nat × List Byte)) (v x : State),
      let form := plainForm z.i (z.i.t == 0 && z.i.q == 0) [⟨.s 1, z.i.d, false⟩, ⟨.s 6, z.i.a, false⟩, ⟨.raw, z.i.b, false⟩, ⟨.raw, z.i.c, false⟩]
      let m := z.g.rs z.i.d
      s.Issues u w (3, 0x000) form → u.checkRun z = .ok p tabs v → (v.core w.core).landed (partSlots (p.slotParts m z.streams)) = true →
      elHold v z (p.rdRanges m z.streams) (p.wrRanges m z.streams) = .none → (u.advanced w z form).checkRun z = .ok p' tabs' x →
      exec (.elRun w) s = .next (if m = 0 then x.kcount w.core Ev.CORE_EL_RUN 1
        else accept x (.run m z.streams (if p'.gathers.isEmpty then 0 else z.g.rs2 z.i.b) z.i.c) ((0, p'.b) :: tabs')
          (p'.gathers.flatMap (fun k => accesses (x.coreAddrs w.core z.g.quarter z.l.cove false (x.gatherVas z p' m k) false).1 ((p'.sc k).fmt.width / 8)))
          (p'.rdRanges m z.streams) (p'.wrRanges m z.streams) [])) ∧
    (elRangeFaults u z z.compactRd z.compactWr = [] → elHold u z z.compactRd z.compactWr = .none →
      let bytes := wholeBytes f n
      (∀ q, q = (Instr.elCompress w, 0x001, false) ∨ q = (Instr.elExpand w, 0x002, true) →
        let form := plainForm z.i (if q.2.2 then z.i.q == 0 && compactType z.i.t && decide (z.i.c < 2) else z.i.q == 0 && compactType z.i.t)
          [⟨.s 1, z.i.d, true⟩, ⟨.s 3, z.i.a, false⟩, ⟨.s 1, z.i.b, false⟩, ⟨if q.2.2 then .raw else .zero, z.i.c, false⟩]
        s.Issues u w (3, q.2.1) form → overlaps (z.three 2) bytes (z.three 1) ((n + 7) / 8) = false →
        (overlaps (z.three 2) bytes (z.three 0) bytes = false ∨ (q.2.2 = false ∧ z.three 0 = z.three 2)) →
        (n = 0 → ∃ t, exec q.1 s = .next t ∧ Issued u t w ∧ t.group w.core w.slot = (z.moved form).ws z.i.d 0) ∧
        (n ≠ 0 → exec q.1 s = .next (accept (u.advanced w z form)
          (if q.2.2 then .expand f n (z.three 0) (z.three 1) (z.three 2) z.i.d (bit z.i.c 0) else .compress f n (z.three 0) (z.three 1) (z.three 2) z.i.d)
          [] [] z.compactRd z.compactWr [z.i.d])))) ∧
    (let form := plainForm z.i (z.i.q == 0 && thirteen z.i.t && thirteen (z.i.c % 16) && decide (z.i.c < 64) &&
         !(bit z.i.c 5 && f == .wes) && (!bit z.i.c 4 || scalable f))
       [⟨.s 1, z.i.d, false⟩, ⟨.s 3, z.i.a, false⟩, ⟨.s 1, z.i.b, false⟩, ⟨.raw, z.i.c, false⟩]
     let m := z.three 2
     s.Issues u w (3, 0x003) form → (bit z.i.c 4 = true → rowLen m n % 32 = 0) →
     (∀ p ∈ z.reduceRd, ∀ q ∈ z.reduceWr, overlaps q.1 q.2 p.1 p.2 = false) → elRangeFaults u z z.reduceRd z.reduceWr = [] →
     elHold u z z.reduceRd z.reduceWr = .none →
     exec (.elReduce w) s = .next (if m = 0 then (u.advanced w z form).kcount w.core Ev.CORE_EL_REDUCE 1
       else accept (u.advanced w z form) (.reduce f ((Fmt.ofCode (z.i.c % 16)).getD .int8) m (rowLen m n) (z.three 0) (z.three 1) (z.g.rs z.i.d)
         (bit z.i.c 4) (bit z.i.c 5)) [] [] z.reduceRd z.reduceWr [])) ∧
    (∀ (bs bs' : List Byte) (v x : State),
     let form := plainForm z.i (z.i.q == 0 && fmt32 z.i.t) [⟨.s 1, z.i.d, false⟩, ⟨.s 1, z.i.a, false⟩, ⟨.s 1, z.i.b, false⟩, ⟨.raw, z.i.c, false⟩]
     let r := z.lutRd ⟨bs⟩
     s.Issues u w (3, 0x004) form → u.loadTab w.core z.g.quarter z.l z.i.c = .ok bs v → (u.advanced w z form).loadTab w.core z.g.quarter z.l z.i.c = .ok bs' x →
     (∀ p ∈ r, ∀ q ∈ z.lutWr, overlaps q.1 q.2 p.1 p.2 = false) → elRangeFaults v z r z.lutWr = [] → elHold u z r z.lutWr = .none →
     exec (.elLut w) s = .next (if n = 0 then x.kcount w.core Ev.CORE_EL_LUT 1
       else accept x (.lut f n (z.g.rs z.i.a) (z.g.rs z.i.d) z.i.c) [(1 + z.i.c, bs')] [] (z.lutRd ⟨bs'⟩) z.lutWr [])) ∧
    (let form := plainForm z.i (z.i.t == 0 && z.i.q == 0) [⟨.zero, z.i.d, false⟩, ⟨.zero, z.i.a, false⟩, ⟨.zero, z.i.b, false⟩, ⟨.zero, z.i.c, false⟩]
     s.Issues u w (3, 0x005) form → (∀ e ∈ (u.core w.core).elq, e.slot ≠ w.slot) →
     exec (.elWait w) s = .next (u.advanced w z form))) ∧
  (∀ (s : State) (c : Nat) (e : ElEntry) (rest : List ElEntry), (s.core c).elq = e :: rest → s.fld clsCore (s.corePage c) R.ERR_INJECT_ARM = 0 → e.gather = [] →
    let k := s.core c
    let b := k.block e.blk
    let l := b.launch
    let frame := fun (x : State) => exec (.elFinish c) s = .next x ∧ (x.core c).elq = rest ∧ x.mem = s.mem ∧ (∀ d, d ≠ c → x.core d = s.core d)
    let sameGroups := fun (x : State) => (x.core c).groups = k.groups
    let written := fun (x : State) (off : Nat) (out : List Byte) =>
      ∀ a, (x.core c).sp.read a = if b.spOff + off ≤ a ∧ a < b.spOff + off + out.length then out.getD (a - (b.spOff + off)) 0 else k.sp.read a
    let set := fun (m i : Nat) => bit (k.sp.read (b.spOff + m + i / 8)).toNat (i % 8)
    let counted := fun (x : State) (r v : Nat) => x.group c e.slot = { (s.group c e.slot).ws r v with busyS := (s.group c e.slot).busyS.filter (fun y => y != r) } ∧
      (∀ g, g ≠ e.slot → x.group c g = s.group c g)
    (∀ f n src mask dst r, e.kind = .compress f n src mask dst r →
      let kept := (List.range n).filter (set mask)
      ∃ x, frame x ∧ counted x r kept.length ∧
        written x dst (kept.flatMap (fun i => k.sp.readBytes (b.spOff + src + i * (f.width / 8)) (f.width / 8)))) ∧
    (∀ f n src mask dst r fill, e.kind = .expand f n src mask dst r fill →
      let wd := f.width / 8
      ∃ x, frame x ∧ counted x r ((List.range n).filter (set mask)).length ∧
        (∀ i < n, ∀ j < wd, (x.core c).sp.read (b.spOff + dst + i * wd + j) =
          (if set mask i = true then k.sp.read (b.spOff + src + ((List.range i).filter (set mask)).length * wd + j)
           else if fill = true then 0 else k.sp.read (b.spOff + dst + i * wd + j))) ∧
        (∀ a, ¬(b.spOff + dst ≤ a ∧ a < b.spOff + dst + n * wd) → (x.core c).sp.read a = k.sp.read a)) ∧
    (∀ f df n row src sc dst scaled square, e.kind = .reduce f df n row src sc dst scaled square → f ≠ .wes →
      let bs := (k.sp.readBytes (b.spOff + src) (packedBytes f n)).toArray
      let term := fun i => (let v := f.decode (elemAt bs f.width i)
        let v := if scaled then scaleBy (k.sp.read (b.spOff + sc + i / 32)).toNat v else v
        Wes.ofVal (if square then FVal.mul v v else v))
      let sums := (List.range ((n + row - 1) / row)).map (fun r => reduceRow (((List.range row).filter (fun j => row * r + j < n)).map (fun j => term (row * r + j))))
      ∃ x, frame x ∧ sameGroups x ∧ written x dst (packVals df.width (sums.map (fun a =>
        if df = .wes then ({ a with pinned := false }).encode else (a.round df l.rm (if df.isInt then .sat else l.sat)).bits)))) ∧
    (∀ f n src dst t, e.kind = .lut f n src dst t →
      let tab : Tab := ⟨(lruGet e.desc (1 + t)).getD []⟩
      let wd := if tab.idx4 then 4 else 8
      let bs := (k.sp.readBytes (b.spOff + src) ((n * wd + 7) / 8)).toArray
      ∃ x, frame x ∧ sameGroups x ∧ written x dst (packVals f.width ((List.range n).map (fun i => tab.entry (elemAt bs wd i) % 2 ^ f.width)))) ∧
    (∀ n ws gb pr, e.kind = .run n ws gb pr →
      let p : Prog := ⟨(lruGet e.desc 0).getD []⟩
      let arr := fun j => s.streamArr c e p n ws (Array.replicate (4 * n) 0) (min j 3)
      let tab := fun i => (⟨(lruGet e.desc (1 + i)).getD []⟩ : Tab)
      let start := fun i => ((List.range 16).map (fun j => if j < 4 then p.inVal (p.outRm l) (p.outSm l .fp32) n arr j i else 0)).toArray
      let er := ((List.range n).map (fun i => ((p.uops.map uopOf).foldl (EReg.step l tab) { r := start i }).r)).toArray
      (p.sc 4).used = true → (p.sc 4).scaled = false → (p.sc 5).used = false →
      ∃ x, frame x ∧ sameGroups x ∧ written x (off32 (ws.getD 4 0)) (p.output l n er 0).1))

/-- GETS to INVACK, MEMORY_DATA and EBB_ACTION at the home of a line nothing is under way for: what is sent, the directory after it (R205, R249, R250, R257, R260, R265, R266, R270, R274, R275, R289; derived). -/
def Obligations.HomeServesRequests : Prop :=
  (∀ (s : State) (h : Nat) (m : Msg), m ∈ s.net → m.dst = 0x400 + h → h < 0x200 →
    let x := s.hline h m.line
    let d := x.dir
    let net := s.net.erase m
    let reply := fun (ty : MTy) (mask aux flags : Nat) => ({ ty := ty, dst := m.req, src := homeNode h, req := m.req, txn := m.txn, mask := mask, aux := aux, flags := flags, commons := m.commons, cove := m.cove, line := m.line, poison := x.poison &&& mask, data := (secsOfMask mask).flatMap (fun i => x.data.readBytes (32 * i) 32) } : Msg)
    let toCore := fun (ty : MTy) (k mask flags : Nat) => ({ ty := ty, dst := k, src := homeNode h, req := m.req, txn := m.txn, mask := mask, flags := flags, commons := m.commons, cove := m.cove, line := m.line } : Msg)
    let ack : Msg := { ty := .putAck, dst := m.src, src := m.dst, req := m.src, commons := m.commons, cove := m.cove, line := m.line }
    let after := fun (c : Instr) (t : State) (out : List Msg) => exec c s = .next t ∧ t.net = net ++ out ∧ (∀ k, k ≠ h → t.slice k = s.slice k) ∧
      t.cores = s.cores ∧ t.mem = s.mem
    let idle : Prop := (s.slice h).txn m.line = none ∧ (s.slice h).lineWaits m.line = false ∧ (∀ q ∈ (s.slice h).queue, q.line ≠ m.line) ∧
      (∀ w o, region (m.line * 128) ≠ .shelf w o) ∧ (s.isMgmt (m.line * 128) = false ∨ s.commonsC ≠ 0) ∧ x.present = true ∧
      (s.slice h).ghost m.line = none ∧ s.fld clsSlice h R.ERR_INJECT_ARM = 0 ∧ s.fld clsHome h R.ERR_INJECT_ARM = 0 ∧ (s.slice h).txns.length < 48
    let holds := fun (need : Nat) => need &&& (15 - x.valid) = 0
    idle →
    (m.ty = .getS → holds m.mask →
      (d.st = .i →
        (m.has Msg.fSONLY = true ∨ m.commons = true ∨ s.fld clsHome h R.HOME_CFG_NO_E_GRANT = 1 → ∃ t, after (.getS m) t [reply .data m.mask 1 0] ∧
          t.hline h m.line = { x with dir := ({ st := .s, ptr := [m.src] } : Dir), ref := true }) ∧
        (m.has Msg.fSONLY = false → m.commons = false → s.fld clsHome h R.HOME_CFG_NO_E_GRANT ≠ 1 → ∃ t, after (.getS m) t [reply .dataExcl m.mask 3 0] ∧
          t.hline h m.line = { x with dir := d.toEM m.src, ref := true })) ∧
      (d.st = .s → m.has Msg.fHELD = false → ∃ t, after (.getS m) t [reply .data m.mask 1 0] ∧
        t.hline h m.line = { x with dir := d.add (s.ptrLimit h) m.src, ref := true }) ∧
      (d.st = .em ∨ d.st = .o → d.owner ≠ m.src → m.has Msg.fHELD = false → ∃ t e,
        after (.getS m) t [toCore .fwdGetS d.owner m.mask 0, reply .data m.mask 1 (2 ^ Msg.fFWD)] ∧ t.hline h m.line = x ∧
        (t.slice h).txn m.line = some e ∧ e.kind = .fwdGetS ∧ e.owner = some d.owner ∧ e.msg = some m)) ∧
    (m.ty = .getM → holds m.mask →
      (d.st = .i → ∃ t, after (.getM m) t [reply .dataExcl m.mask 4 0] ∧ t.hline h m.line = { x with dir := d.toEM m.src, ref := true }) ∧
      (d.st = .em → d.owner ≠ m.src → ∃ t e,
        after (.getM m) t [toCore .fwdGetM d.owner m.mask 0, reply .dataExcl m.mask 4 (2 ^ Msg.fFWD + 2 ^ Msg.fCONT)] ∧
        (t.slice h).txn m.line = some e ∧ e.kind = .fwdGetM ∧ e.owner = some d.owner ∧ e.granted = true)) ∧
    (m.ty = .upg → m.src ∈ d.ptr → d.st = .s → holds m.aux →
      let others := (s.sharersOf d m.cove m.commons).filter (fun k => k != m.src)
      (others = [] → ∃ t, after (.upg m) t [reply .dataExcl m.aux 4 0] ∧ t.hline h m.line = { x with dir := d.toEM m.src, ref := true }) ∧
      (others ≠ [] → ∃ t e, after (.upg m) t (others.map (fun k => toCore .inv k 0 0)) ∧ (t.slice h).txn m.line = some e ∧ e.kind = .invGrant ∧
        e.sharers = others ∧ e.msg = some m)) ∧
    (m.ty = .snoopRd → m.has Msg.fOUTER = false → holds m.mask → d.st = .i ∨ d.st = .s → ∃ t, after (.snoopRd m) t [reply .data m.mask 0 0] ∧ t.hline h m.line = x) ∧
    (m.ty = .atomFar → m.op ≠ .write → d.st = .i → outerTier (m.line * 128) = false → holds (needOf m d) →
      let n := atomBytes m.op m.fmt
      let r := atomSeq m.op m.fmt (x.data.readLE m.offset n) (m.ops.zipIdx.map (fun p => (p.2, p.1.1, p.1.2)))
      ∃ t a, after (.atomFar m) t [a] ∧ a.ty = .atomResp ∧ a.dst = m.req ∧ a.txn = m.txn ∧ a.line = m.line ∧
        a.ops = (if m.ret then r.2.map (fun p => (p.2, 0)) else []) ∧ (t.hline h m.line).data = x.data.writeLE m.offset n r.1 ∧ (t.hline h m.line).dir = d) ∧
    (∀ q, q = (MTy.putM, Instr.putM m) ∨ q = (MTy.putO, Instr.putO m) ∨ q = (MTy.putE, Instr.putE m) → m.ty = q.1 → m.has Msg.fEBB = false → d.isOwner m.src = true →
      ∃ t, after q.2 t [ack] ∧ t.hline h m.line = { x.absorb m m.mask with dir := d.ownerGone }) ∧
    (m.ty = .putS → m.has Msg.fEBB = false → d.isOwner m.src = false → d.isSharer m.src = true → ∃ t, after (.putS m) t [ack] ∧
      t.hline h m.line = { x with dir := if (d.del m.src).st = .s ∧ (d.del m.src).noSharer = true then {} else d.del m.src })) ∧
  (∀ (s : State) (h : Nat) (m q : Msg) (e : HTxn), m ∈ s.net → m.dst = 0x400 + h → h < 0x200 → m.ty = .invAck → (s.slice h).txn m.line = some e → e.line = m.line →
    e.kind = .invGrant → e.msg = some q → q.line = m.line → e.sharers = [m.src] → e.owner = none → e.puts = [] → e.ahead = none → e.aheadWait = [] → e.held = none →
    m.mask = 0 → m.has Msg.fPUT = false → (s.slice h).queue = [] →
    let x := s.hline h m.line
    ∃ t a, exec (.invAck m) s = .next t ∧ t.net = s.net.erase m ++ [a] ∧ a.ty = .dataExcl ∧ a.dst = q.req ∧ a.txn = q.txn ∧ a.mask = e.kept ∧ a.aux = 4 ∧
      a.data = (secsOfMask e.kept).flatMap (fun i => x.data.readBytes (32 * i) 32) ∧ (t.slice h).txn m.line = none ∧
      t.hline h m.line = { x with dir := x.dir.toEM q.src } ∧ t.cores = s.cores ∧ t.mem = s.mem) ∧
  (∀ (s : State) (h line : Nat),
    let x := s.hline h line
    (∀ (e : HTxn) (q : Msg), (s.slice h).txn line = some e → e.line = line → e.kind = .mem → e.aheadWait = [] → e.msg = some q → q.line = line → q.ty = .getS → q.has Msg.fSONLY = true →
      e.kept = q.mask &&& (15 - x.valid) → q.mask < 16 → x.present = true → x.valid < 16 → x.dir.st = .i → (s.slice h).ghost line = none → (s.slice h).queue = [] →
      (∀ o a ch off, s.chanOf o a = some (ch, off) → ch < 1024) →
      (∀ w o, region (line * 128) ≠ .shelf w o) → (s.isMgmt (line * 128) = false ∨ s.commonsC ≠ 0) →
      s.fld clsSlice h R.ERR_INJECT_ARM = 0 → s.fld clsHome h R.ERR_INJECT_ARM = 0 →
      ∃ t a, exec (.memoryData h line) s = .next t ∧ t.net = s.net ++ [a] ∧ a.ty = .data ∧ a.dst = q.req ∧ a.txn = q.txn ∧ a.mask = q.mask ∧ a.aux = 1 ∧
        (t.slice h).txn line = none ∧ (t.hline h line).dir = ({ st := .s, ptr := [q.src] } : Dir) ∧ (∀ i < 4, bit q.mask i = true → bit (t.hline h line).valid i = true) ∧
        a.data = (secsOfMask q.mask).flatMap (fun i => (t.hline h line).data.readBytes (32 * i) 32)) ∧
    (∀ v, (s.slice h).ebbs.find? (fun e => e.1 == line) = some (line, v) → (s.slice h).txn line = none → (s.slice h).txns.length < 48 → (s.slice h).queue = [] →
      x.dir.st = .i → x.moored = false → (s.slice h).ghost line = none →
      (v < 4096 → x.dirty = 0 → s.fld clsSlice h R.GHOST_CFG_STRICT ≠ 1 → ∃ t, exec (.ebbAction h line) s = .next t ∧ t.hline h line = {} ∧
        (t.slice h).ebbs = (s.slice h).ebbs.erase (line, v) ∧ (t.slice h).ghosts = (s.slice h).ghosts ∧ t.net = s.net ∧ t.cores = s.cores ∧ t.mem = s.mem) ∧
      (4096 ≤ v ∨ x.dirty ≠ 0 → (s.slice h).ghosts.length < 4096 → ∃ t, exec (.ebbAction h line) s = .next t ∧ t.hline h line = {} ∧
        (t.slice h).ebbs = (s.slice h).ebbs.erase (line, v) ∧ (t.slice h).ghosts = minsert line (v % 4096) (s.slice h).ghosts ∧ t.net = s.net ∧ t.cores = s.cores ∧
        t.mem = s.mem)))

/-- FWDGETS to ATOMRESP, SECTOR_FILL and REPLAY_QUEUE_SERVE at a core's L1: the line, the answers, the waiting instruction (R209, R230, R231, R232, R259, R260, R262, R263, R268, R271, R278; derived). -/
def Obligations.L1AnswersMessages : Prop :=
  (∀ (s : State) (c : Nat) (m : Msg), m ∈ s.net → m.dst = c → c < 1024 →
    let k := s.core c
    let l := k.line m.line
    let net := s.net.erase m
    let bytes := fun (mask : Nat) => (secsOfMask mask).flatMap (fun i => l.data.readBytes (32 * i) 32)
    let owned := fun (mask dirty : Nat) => ({ ty := .data, dst := m.req, src := c, req := m.req, txn := m.txn, mask := mask, flags := 2 ^ Msg.fFROMOWNER, commons := m.commons, cove := m.cove, line := m.line, dirty := dirty, poison := l.poison &&& mask, tag := l.tag, data := bytes mask } : Msg)
    let ack := fun (kept mask : Nat) => ({ ty := .invAck, dst := m.src, src := c, req := m.req, txn := m.txn, mask := mask, aux := kept, commons := m.commons, cove := m.cove, line := m.line, dirty := l.dirty &&& mask, poison := l.poison &&& mask, data := bytes mask } : Msg)
    let after := fun (i : Instr) (t : State) (out : List Msg) => exec i s = .next t ∧ t.net = net ++ out ∧ (∀ d, d ≠ c → t.core d = s.core d) ∧ t.mem = s.mem ∧ t.slices = s.slices
    (k.lineMisses m.line = [] →
      (m.ty = .fwdGetS → m.has Msg.fSNP = false →
        (l.st = .m ∨ l.st = .o → ∃ t, after (.fwdGetS m) t [owned (l.valid &&& m.mask) 0, ack 3 0] ∧ (t.core c).line m.line = { l with st := .o }) ∧
        (l.st = .e → ∃ t, after (.fwdGetS m) t [owned (l.valid &&& m.mask) 0, ack 1 0] ∧ (t.core c).line m.line = { l with st := .s })) ∧
      (m.ty = .fwdGetM → l.st = .m ∨ l.st = .o ∨ l.st = .e → ∃ t, after (.fwdGetM m) t [owned l.valid (l.dirty &&& l.valid), ack 0 0] ∧
        (t.core c).line m.line = l.gone) ∧
      (m.ty = .inv →
        (l.st = .s → m.has Msg.fOWNER = false → ∃ t a, after (.inv m) t [a] ∧ a.ty = .invAck ∧ a.dst = m.src ∧ a.aux = 0 ∧ a.mask = 0 ∧ (t.core c).line m.line = l.gone) ∧
        (l.st = .m → m.has Msg.fOWNER = true → ∃ t, after (.inv m) t [ack 0 l.dirty] ∧ (t.core c).line m.line = l.gone))) ∧
    (∀ (r : L1Req) (q : MissReg) (i : Nat), k.reqs.find? (fun r => r.txn == m.txn && r.line == m.line) = some r → r.txn = m.txn → r.line = m.line → r.ty = .getS → r.stale = false →
      l.st = .isD → m.has Msg.fFROMOWNER = false → m.has Msg.fFWD = false → i < 4 → m.mask = 2 ^ i → bit r.mask i = true → k.missOf (4 * m.line + i) = some q →
      q.sector = 4 * m.line + i → q.gotOwner = false →
      let ready : MissReg := { q with got := some (m.data.take 32), poison := bit m.poison i, dirty := false, ready := true, once := false, ghost := false }
      (m.ty = .data → m.aux = 1 → m.has Msg.fGHOST = false → ∃ t, after (.data m) t [] ∧ ((t.core c).line m.line) = { l with st := .s } ∧
        (t.core c).missOf (4 * m.line + i) = some ready ∧ (t.core c).reqs = k.reqs.filter (fun q => q.txn != m.txn)) ∧
      (m.ty = .dataExcl → m.aux = 3 ∨ m.aux = 4 → ∃ t, after (.dataExcl m) t [] ∧ ((t.core c).line m.line) = { l with st := if m.aux = 4 then .m else .e } ∧
        (t.core c).missOf (4 * m.line + i) = some ready ∧ (t.core c).reqs = k.reqs.filter (fun q => q.txn != m.txn))) ∧
    (m.ty = .putAck → putPending l.st = true → l.ebbBy = false → ∃ t, after (.putAck m) t [] ∧ (t.core c).line m.line = {} ∧
      (∀ j, j ≠ m.line → (t.core c).line j = k.line j)) ∧
    (m.ty = .nack → (∃ r ∈ k.reqs, r.txn = m.txn ∧ r.line = m.line) → ∃ t, after (.nack m) t [] ∧ (t.core c).reqs =
      k.reqs.map (fun r => if r.txn = m.txn ∧ r.line = m.line then { r with nacked := true, nacks := r.nacks + 1 } else r)) ∧
    (∀ (r : L1Req) (o : MemOp) (th old x : Nat), m.ty = .atomResp → k.reqs.find? (fun r => r.txn == m.txn && r.line == m.line) = some r → k.ops = [o] → r.op = o.id →
      o.kind = .far → o.left = [r.line * 128 + r.msg.offset] → o.started = true → o.predicted = false → o.slot < 32 → o.dst < 255 → o.bytes = 4 → o.olds = [] →
      m.commons = false → r.threads = [th] → th < 64 → m.ops = [(old, x)] →
      ∃ t, after (.atomResp m) t [] ∧ (t.core c).ops = [] ∧ (t.core c).reqs = k.reqs.filter (fun q => q.txn != r.txn) ∧ (t.group c o.slot).rv o.dst th = old % 2 ^ 32 ∧
        o.dst ∉ (t.group c o.slot).busyV)) ∧
  (∀ (s : State) (c txn : Nat) (r : L1Req), (s.core c).reqs.find? (fun r => r.txn == txn && r.nacked) = some r →
    ∃ t, exec (.nackResend c txn) s = .next t ∧ t.net = s.net ++ [if 8 ≤ r.nacks then { r.msg with flags := r.msg.flags ||| 2 ^ Msg.fPRIO } else r.msg] ∧
      (t.core c).reqs = (s.core c).reqs.map (fun q => if q.txn = txn then { q with nacked := false } else q) ∧ (∀ d, d ≠ c → t.core d = s.core d) ∧ t.mem = s.mem) ∧
  (∀ (s : State) (c : Nat) (o : MemOp),
    let k := s.core c
    let ended := fun (i : Instr) (t : State) (o' : MemOp) => exec i s = .next t ∧ (t.core c).ops = [] ∧
      (t.core c).groups = (({ k with ops := [o'] } : Core).finish o' (o.acc.map (fun a => (a.thread, o'.loaded a)))).groups ∧
      (∀ d, d ≠ c → t.core d = s.core d) ∧ t.mem = s.mem ∧ t.slices = s.slices
    k.ops = [o] → o.kind = .load → o.started = true → o.ebb = false → s.fld clsCore (s.corePage c) R.ERR_INJECT_ARM = 0 →
    (∀ (q : MissReg) (bs : List Byte), k.missOf q.sector = some q → q.ready = true → q.once = false → q.bufMask = 0 → q.waiters = [o.id] → q.got = some bs → bs.length = 32 →
      o.left = [q.sector] →
      let l := k.line (q.sector / 4)
      let i := q.sector % 4
      l.deferred = none → l.ebbBy = false → k.maint = 0 →
      ∃ t, ended (.sectorFill c q.sector) t { o with got := o.got ++ [(q.sector, bs)], left := [], poison := o.poison || q.poison } ∧
        (t.core c).missOf q.sector = none ∧ bit ((t.core c).line (q.sector / 4)).valid i = true ∧
        (∀ j < 128, ((t.core c).line (q.sector / 4)).data.read j = if 32 * i ≤ j ∧ j < 32 * i + 32 then bs.getD (j - 32 * i) 0 else l.data.read j)) ∧
    (∀ (r : Replay) (rest : List Replay), k.replay = r :: rest → r.op = o.id → (∀ x ∈ o.left, x / 4 = r.line) →
      let l := k.line r.line
      let secs := (o.left.map (fun x => x % 4))
      stable l.st = true → k.lineMisses r.line = [] → (∀ i ∈ secs, bit l.valid i = true) →
      ∃ t, ended (.replayQueueServe c) t (secs.foldl (fun o i => o.deliver (4 * r.line + i) (l.data.readBytes (32 * i) 32) (bit l.poison i) false) o) ∧
        (t.core c).replay = rest))

/-- Doorbells, fetch, NOP, LAUNCH, block start, split change, semaphores, HINT, DISTANCES and XLATE_INVAL take effect and end with one record (R433, R434, R436, R444, R599, R219, R64, R450, R314, R500, R439; derived). -/
def Obligations.QueueCommandsFetchLaunchAndSync : Prop :=
  (∀ (s : State) (vf : Option Nat) (off val x : Nat), off < 2 ^ 24 → off % 8 = 0 → off % 4096 / 8 < 4 → s.doorbellCtx vf (off / 4096) = some x →
    let q := off % 4096 / 8
    let n := s.ringSize x q
    s.doorbellOpen vf x q = true → (bit val 32 = true → bits val 15 0 < n) → (bit val 33 = true → bits val 31 16 < n) →
    ∃ t, exec (.doorbell vf off 8 val) s = .next t ∧
      t.queue x q = { s.queue x q with
        sqTail := if bit val 32 then bits val 15 0 else (s.queue x q).sqTail
        cqHead := if bit val 33 then bits val 31 16 else (s.queue x q).cqHead } ∧
      (∀ y p, (y, p) ≠ (x, q) → t.queue y p = s.queue y p) ∧ t.hs.cmds = s.hs.cmds ∧ t.cores = s.cores ∧ t.mem = s.mem ∧ t.host = s.host) ∧
  (∀ (s : State) (x q : Nat) (bs : List Byte),
    let u := s.queue x q
    let k : Cmd := { ctx := x, queue := q, idx := u.sqHead, desc := bs, seq := s.hs.nextSeq }
    s.mayFetch x q = true → u.sqHead ≠ u.sqTail → u.sqTail = (u.sqHead + 1) % s.ringSize x q → s.cqFree x q = true →
    s.bufRead ((s.ctxCove x).getD 0) (if s.qfld x q R.Q_SQ_BASE_SPACE = 1 then 2 else 0) (s.qfld x q R.Q_SQ_BASE_BASE * 4096 + 64 * u.sqHead) 64 = .ok bs false →
    controlOpcode k.opcode = true ∨ (s.ctx x).heldBack = false → knownOpcode k.opcode = true →
    ∃ t, exec (.sqFetch x q) s = .next t ∧ t.hs.cmds = s.hs.cmds ++ [k] ∧ t.hs.nextSeq = s.hs.nextSeq + 1 ∧
      t.queue x q = { u with sqHead := u.sqTail } ∧ (∀ y p, (y, p) ≠ (x, q) → t.queue y p = s.queue y p) ∧ t.cores = s.cores ∧ t.mem = s.mem) ∧
  (∀ (s : State) (x q i : Nat) (k : Cmd) (l : List Buf),
    (s.turn x q i 0x00 = .first k → s.validate k {} = .ok l → ∃ t, exec (.nop x q i) s = .next t ∧ State.Ended s t x q i) ∧
    (s.turn x q i 0x14 = .first k → s.validate k {} = .ok l → ∃ t, exec (.xlateInval x q i) s = .next t ∧
      t.cmdAt x q i = some { k.withBufs l with st := .running, order := s.hs.nextStart } ∧
      ∀ c ∈ s.coveCores (s.coveOf k.ctx), (t.core c).tlb = [] ∧ (t.core c).utlb = [] ∧ (t.core c).walkCache = []) ∧
    (s.turn x q i 0x14 = .again k → s.xlateBusy (s.coveOf k.ctx) = false → s.mayRun = true → ∃ t, exec (.xlateInval x q i) s = .next t ∧ State.Ended s t x q i) ∧
    (s.turn x q i 0x24 = .first k → s.validate k (hintBody k) = .ok l → k.byte 8 = 1 → ∃ t, exec (.hint x q i) s = .next t ∧ State.Ended s t x q i ∧
      t.pw.idleHint = mset 0 s.pw.idleHint (s.coveOf x) (s.now + 1000 * k.num 12 4)) ∧
    (∀ s', s.turn x q i 0x28 = .first k → s.validate k (distBody k) = .ok l →
      s.bufWrite (s.coveOf x) (k.withBufs l).a.space (k.withBufs l).a.start (s.distBytes (min tableBytes (k.num 16 4))) false = .ok s' →
      exec (.distances x q i) s = .next (s'.runNow (k.withBufs l) tableBytes) ∧ State.Ended s (s'.runNow (k.withBufs l) tableBytes) x q i)) ∧
  (∀ (s : State) (x q i : Nat) (k : Cmd) (l : List Buf) (bs : List Byte),
    let cove := s.coveOf k.ctx
    let own := s.coveCoreBits cove
    let n := own.length
    let r := recordLaunch (leNat bs) k.ctx cove k.seq k.rm k.sm
    s.turn x q i 0x01 = .first k → s.validate k (recordBody 128) = .ok l → s.readRec cove (k.withBufs l).a.space (k.withBufs l).a.start 128 = .ok bs →
    bits (leNat bs) 632 576 = 0 → r.slotTab = 0 → launchAllOnes (leNat bs) = none → r.zero = false → own ≠ [] → own.any s.coreReserved = false →
    launchBad (leNat bs) r = none →
    ∃ t, exec (.launch x q i) s = .next t ∧
      t.cmdAt x q i = some { k.withBufs l with st := .running, order := s.hs.nextStart, blocksLeft := r.blocks } ∧
      (∀ j, j < n → 0 < (r.blocks + n - 1 - j) / n → (t.core (own.getD j 0)).waiting = (s.core (own.getD j 0)).waiting ++
        [{ launch := { r with cores := own }, next := j, left := (r.blocks + n - 1 - j) / n, stride := n }]) ∧
      (∀ c, c ∉ own → t.core c = s.core c) ∧ (∀ c, (t.core c).groups = (s.core c).groups) ∧ t.mem = s.mem ∧ t.host = s.host ∧ t.regs = s.regs) ∧
  (∀ (s : State) (c : Nat) (w : Pend) (rest : List Pend) (qs : List Nat) (o : Nat),
    let b := (s.core c).freeBlock
    let l := w.launch
    (s.core c).waiting = w :: rest → s.maintBusy c = false → s.mayPlace l = true → s.reservedFor c l.tide = false → (mget ({} : Sleep) s.pw.sleep c).st = 0 →
    (s.core c).fits l = some (qs, o) →
    ∃ t, exec (.blockStart c) s = .next t ∧
      (t.core c).waiting = (if w.left ≤ 1 then rest else { w with next := w.next + w.stride, left := w.left - 1 } :: rest) ∧
      ((t.core c).block b).launch = l ∧ ((t.core c).block b).index = w.next ∧ ((t.core c).block b).spOff = o ∧
      (∀ a, o ≤ a → a < o + up4k l.spBytes → (t.core c).sp.read a = 0) ∧
      (∀ j, j < l.groups → ∃ g, ((s.core c).group g).occupied = false ∧ (t.core c).group g = {
        occupied := true, blk := b, gid := j, quarter := qs.getD j 0, age := (s.core c).placed + j, pc := l.code, live := firstThreads (l.threads - 64 * j)
        m := mset 0 [] 0 (firstThreads (l.threads - 64 * j)) }) ∧
      (∀ g, ((s.core c).group g).occupied = true → (t.core c).group g = (s.core c).group g) ∧
      (∀ d, d ≠ c → t.core d = s.core d) ∧ t.mem = s.mem ∧ t.host = s.host) ∧
  (∀ (s : State) (c : Nat) (w : Pend) (rest : List Pend), (s.core c).waiting = w :: rest → (s.core c).blocks = [] → (s.core c).split ≠ w.launch.split →
    s.maintBusy c = false → s.reservedFor c w.launch.tide = false → (s.core c).passing w.launch.split = [] →
    ∃ t, exec (.splitChange c) s = .next t ∧ t.core c = { s.core c with split := w.launch.split, sp := [], spPoison := [], spGhost := [] } ∧
      (∀ d, d ≠ c → t.core d = s.core d) ∧ t.mem = s.mem ∧ t.host = s.host ∧ t.net = s.net) ∧
  (∀ (s : State) (x q i : Nat) (k : Cmd) (l : List Buf),
    let n := k.semNum
    k.semMem = false →
    (s.turn x q i 0x20 = .first k → s.validate k (semBody k s false) = .ok l →
      let v := (if bits (k.byte 8) 2 1 = 0 then k.num 24 8 else s.sem n + k.num 24 8) % 2 ^ 64
      ∃ t, exec (.semSignal x q i) s = .next t ∧ t.sem n = v ∧ (∀ m, m ≠ n → t.sem m = s.sem m) ∧ t.cmdAt x q i = none ∧
        ∀ j ∈ s.hs.cmds, j.waitsOn n = true → j.semHolds v = true → s.mayWork j = true → t.cmdAt j.ctx j.queue j.idx = none) ∧
    (s.turn x q i 0x21 = .first k → s.validate k (semBody k s true) = .ok l →
      (k.semHolds (s.sem n) = true → ∃ t, exec (.semWait x q i) s = .next t ∧ State.Ended s t x q i ∧ t.sem n = s.sem n) ∧
      (k.semHolds (s.sem n) = false → s.semWaiters n < 64 → k.pos = 0 → ∃ t, exec (.semWait x q i) s = .next t ∧ t.hs.sems = s.hs.sems ∧
        t.cmdAt x q i = some { k.withBufs l with st := .waiting, order := s.hs.nextStart, since := s.now, pos := 1 })) ∧
    (s.turn x q i 0x21 = .again k → k.st = .waiting → s.mayWork k = true → k.semHolds (s.sem n) = true →
      ∃ t, exec (.semWait x q i) s = .next t ∧ State.Ended s t x q i)) ∧
  (∀ (s : State) (x q i : Nat) (k : Cmd), s.cmdAt x q i = some k → k.opcode = 0x21 → k.st = .waiting → s.mayWork k = true →
    (k.num 32 4 ≠ 0 → k.since + 1000 * k.num 32 4 ≤ s.now → exec (.semWaitTimeout x q i) s = .next (s.fail k Sta.deadline Rsn.timeout 0) ∧
      State.Ended s (s.fail k Sta.deadline Rsn.timeout 0) x q i) ∧
    (∀ bs, k.semMem = true → k.a.space = 2 → s.hostCxl (s.coveOf x) = false → s.semRead k = .ok bs false → k.semHolds (leNat bs) = true →
      exec (.semPoll x q i) s = .next (s.finish k (leNat bs)) ∧ State.Ended s (s.finish k (leNat bs)) x q i))

/-- COPY, FILL, PEER_COPY, SPINDLE_STREAM, the reductions, SHELF_CARVE, MOOR, UNMOOR, EBB and the commons commands start, work and end (R445, R446, R447, R448, R449, R450, R282, R287, R288, R289, R436, R439; derived). -/
def Obligations.DataAndMemoryCommandsRun : Prop :=
  (∀ (s : State) (x q i : Nat) (k : Cmd) (l : List Buf),
    let b := k.withBufs l
    let s1 := s.startCmd b .running
    let k1 : Cmd := { b with st := .running, order := s.hs.nextStart }
    let c := s.coveOf k.ctx
    let begun := fun (t : State) => t.cmdAt x q i = some k1 ∧ (t.ctx x).st = (if (s.ctx x).st = 1 then 2 else (s.ctx x).st) ∧ t.cores = s.cores ∧
      t.mem = s.mem ∧ t.host = s.host ∧ t.regs = s.regs
    (s.turn x q i 0x02 = .first k → s.validate k (copyBody k) = .ok l → ∃ t, exec (.copy x q i) s = .next t ∧ begun t) ∧
    (s.turn x q i 0x03 = .first k → s.validate k (fillBody k) = .ok l → ∃ t, exec (.fill x q i) s = .next t ∧ begun t) ∧
    (s.turn x q i 0x04 = .first k → s.validate k (s.peerBody k) = .ok l → ∃ t, exec (.peerCopy x q i) s = .next t ∧ begun t) ∧
    (s.turn x q i 0x15 = .first k → s.validate k (commonsBody k) = .ok l → (s.cove 64).st = 2 → k.num 16 8 % 2 ^ 48 + 4096 * k.num 24 4 ≤ s.commonsBytes →
      ∃ t, exec (.commonsLoad x q i) s = .next t ∧ begun t) ∧
    (s.turn x q i 0x16 = .first k → s.validate k (commonsBody k) = .ok l → (s.cove 64).st = 2 → k.num 16 8 % 2 ^ 48 + 4096 * k.num 24 4 ≤ s.commonsBytes →
      ∃ t, exec (.commonsRepair x q i) s = .next t ∧ begun t) ∧
    (∀ ls, s.turn x q i 0x13 = .first k → s.validate k (rangeBody k s) = .ok l → s.rangeLines c b.a (k.num 16 4) false true = .ok ls →
      ∃ t, exec (.ebb x q i) s = .next t ∧ begun t) ∧
    (∀ bs, s.turn x q i 0x08 = .first k → s.validate k (spindleBody k) = .ok l → s.streamTurn b = true →
      s1.readRec c b.b.space b.b.start (128 * k.byte 28) = .ok bs → s1.setBad c (parseSets bs (k.byte 28)) = none →
      ∃ t, exec (.spindleStream x q i) s = .next t ∧ t.cmdAt x q i = some { k1 with nodes := k.nodes ++ [0x600 + k.byte 29] } ∧
        t.ns.streams = s.ns.streams ++ [{ src := .cmd x q i, kind := 0, target := k.byte 29, cove := c, space := b.a.space, va := b.a.start, count := k.num 24 4, msets := parseSets bs (k.byte 28) }] ∧
        t.cores = s.cores ∧ t.mem = s.mem) ∧
    (∀ bs, s.turn x q i 0x09 = .first k → s.validate k (recordBody 64) = .ok l → s.readRec c b.a.space b.a.start 64 = .ok bs →
      bits (leNat bs) 63 32 ≠ 2 ^ 32 - 1 → bits (leNat bs) 63 32 ≠ 0 → s.redBad c (leNat bs) = none →
      ∃ t r, exec (.reduce x q i) s = .next t ∧ begun t ∧ t.ns.reds = s.ns.reds ++ [r] ∧ r.src = .cmd x q i ∧ r.words = leNat bs ∧ r.cove = c ∧ r.ctx = x ∧ r.srcs = []) ∧
    (∀ bs s', s.turn x q i 0x0A = .first k → s.validate k torusBody = .ok l → s.readRec c b.a.space b.a.start 64 = .ok bs →
      let v := leNat bs
      bits v 63 32 ≠ 2 ^ 32 - 1 → bits v 63 32 ≠ 0 →
      bytesOf b.b.fmt b.b.off + bytesOf ((Fmt.ofCode (bits v 15 12)).getD .int8) (bits v 63 32) ≤ b.b.bound → s.torBad v = none → s.ns.torus = none →
      let s2 := s.startCmd { b with record := v } .running
      s2.torStart (torOf (.cmd x q i) 0 c v b.b.start b.b.space k.rm k.sm (s2.torPort v) s2.myCoord) = .ok s' →
      exec (.torusReduce x q i) s = .next s') ∧
    (∀ s', s.turn x q i 0x10 = .first k → s.validate k (carveBody k) = .ok l → s.shelfInUse c = false →
      (∀ h ∈ s.coveSlices c, ∀ t ∈ (s.slice h).sets, k.byte 8 % 16 + (s.slice h).mooredIn t ≤ 12) → s1.carveTo c (k.byte 8 % 16) = some s' →
      ∃ t, exec (.shelfCarve x q i) s = .next t ∧ State.Ended s t x q i ∧ (t.cove c).carve = k.byte 8 % 16) ∧
    (∀ ls s', s.turn x q i 0x11 = .first k → s.validate k (rangeBody k s) = .ok l → s.rangeLines c b.a (k.num 16 4) (s.fnOf k.ctx).isNone false = .ok ls →
      s.moorBudget c ls c = true → s.moorBudget c ls 64 = true → s.moorFullSlices c ls = [] →
      ls.foldl (fun (r : Option State) p => match r with | none => none | some u => u.moorLine c p) (some s1) = some s' →
      exec (.moor x q i) s = .next (s'.finish { b with st := .running } 0) ∧ State.Ended s (s'.finish { b with st := .running } 0) x q i ∧
      (∀ p, ls = [p] → (s.hline (s.home c p) p).present = true → (s.hline (s.home c p) p).moored = false →
        (s'.hline (s.home c p) p).moored = true ∧ (s'.cove (s.moorOwner c p)).moored = (s.cove (s.moorOwner c p)).moored + 1)) ∧
    (∀ ls, s.turn x q i 0x12 = .first k → s.validate k (rangeBody k s) = .ok l → s.rangeLines c b.a (k.num 16 4) (s.fnOf k.ctx).isNone false = .ok ls →
      let s' := ls.foldl (fun (u : State) p => u.unmoorLine (u.coveOf k.ctx) p) s1
      exec (.unmoor x q i) s = .next (s'.finish { b with st := .running } 0) ∧ State.Ended s (s'.finish { b with st := .running } 0) x q i ∧
      (∀ p, ls = [p] → (s.hline (s.home c p) p).moored = true → s'.hline (s.home c p) p = { s.hline (s.home c p) p with moored := false } ∧
        (s'.cove (s.moorOwner c p)).moored = (s.cove (s.moorOwner c p)).moored - 1))) ∧
  (∀ (s : State) (x q i : Nat) (k : Cmd), s.mayWork k = true →
    let c := s.coveOf k.ctx
    (∀ (es : List (Nat × Bool)) (s' : State), s.turn x q i 0x02 = .again k →
      let n := k.b.granule k.pos (k.num 24 4 - k.pos)
      let die := s.copyDie c (some (k.a.space, k.a.at k.pos)) k.b.space (k.b.at k.pos)
      let rs := es.map (fun e => copyConvert k.a.fmt k.b.fmt k.rm k.sm e.1)
      let wide := (rs.filter Rounded.wide).length != 0
      let k' : Cmd := { k with pos := k.pos + n, inexact := k.inexact || wide, poisoned := k.poisoned || es.any Prod.snd }.onEngine die
      s.readElems c k.a k.pos n = .ok es →
      (s.noteBuf (0x610 + die) c k.a.space (k.a.at k.pos) (k.a.span k.pos n)).writeElems c k.b k.pos ((rs.map Rounded.bits).zip (es.map Prod.snd)) = .ok (.ok s') →
      ∃ t, exec (.copy x q i) s = .next t ∧
        (k.pos + n < k.num 24 4 → t.cmdAt x q i = some k' ∧ t.mem = s'.mem ∧ t.host = s'.host ∧ t.cores = s'.cores) ∧
        (k.num 24 4 ≤ k.pos + n → State.Ended s t x q i)) ∧
    (∀ s', s.turn x q i 0x03 = .again k →
      let n := k.a.granule k.pos (k.num 16 4 - k.pos)
      let k' : Cmd := { k with pos := k.pos + n }.onEngine (s.copyDie c none k.a.space (k.a.at k.pos))
      s.writeElems c k.a k.pos (List.replicate n (k.num 24 40 % 2 ^ k.a.fmt.width, false)) = .ok (.ok s') →
      ∃ t, exec (.fill x q i) s = .next t ∧
        (k.pos + n < k.num 16 4 → t.cmdAt x q i = some k' ∧ t.mem = s'.mem ∧ t.host = s'.host ∧ t.cores = s'.cores) ∧
        (k.num 16 4 ≤ k.pos + n → State.Ended s t x q i)) ∧
    (∀ (bs : List Byte) (p : Bool) (txn d : Nat) (plus : Bool), s.turn x q i 0x04 = .again k → k.pos < k.peerTotal →
      let a := k.a.start + k.pos
      let n := peerPart a (k.peerTotal - k.pos)
      let dst := k.num 28 2 % 2 ^ 15
      let die := s.copyDie c (some (k.a.space, a)) 2 0
      let h : Nat × Bool := (d, plus)
      let port := hopPort h (s.originStripe h)
      let m := peerWriteMsg (k.byte 30) dst txn ((n + 31) / 32 * 32) s.myCoord (sx57 (k.num 16 8) + k.pos) (bs ++ (s.drawBytes ((32 - n % 32) % 32)).1)
      s.bufRead c k.a.space a n = .ok bs p → s.freeTxn = some txn → s.peerHop dst = some h →
      ∃ u : State, exec (.peerCopy x q i) s = .next (u.sendPeer port m) ∧
        u.cmdAt x q i = some ({ k with pos := k.pos + n, poisoned := k.poisoned || p }.onEngine die) ∧ u.ns.nextTxn = (txn + 1) % 256 ∧
        u.ns.peers = s.ns.peers ++ [{ txn := txn, cmd := (x, q, i) }] ∧ u.ns.peerWait = s.ns.peerWait ∧ u.ns.ports = s.ns.ports) ∧
    (∀ e, s.turn x q i 0x13 = .again k → s.walk c (sx57 (k.a.start + 128 * k.pos)) = .page e →
      let line := (e.pa + (k.a.start + 128 * k.pos) % 2 ^ e.shift) / 128
      let k' : Cmd := { k with pos := k.pos + 1 }.onEngine (s.home c line / 32)
      s.lineBusy line = false → ∃ t, exec (.ebb x q i) s = .next t ∧
        (k.pos + 1 < k.num 16 4 → t = (s.ebbEngine c line).setCmd k' ∧ t.cmdAt x q i = some k') ∧
        (k.num 16 4 ≤ k.pos + 1 → t = (s.ebbEngine c line).finish k' 0 ∧ State.Ended s t x q i)) ∧
    (∀ (op : Nat) (w bs : List Byte) (s' : State), (op = 0x15 ∨ op = 0x16) → s.turn x q i op = .again k →
      let off := k.num 16 8 % 2 ^ 48 + 4096 * k.pos
      let die := (s.paChan (s.fld clsCove 64 R.COVE_FRAMES_FB * 2 ^ 31 + off)).getD 0 / 64
      let k' : Cmd := { k with pos := k.pos + 1 }.onEngine die
      s.bufRead c k.b.space (k.b.start + 4 * k.pos) 4 = .ok w false → s.bufRead c k.a.space (k.a.start + 4096 * k.pos) 4096 = .ok bs false →
      crc32c bs = leNat w →
      ((s.noteBuf (0x610 + die) c k.b.space (k.b.start + 4 * k.pos) 4).noteBuf (0x610 + die) c k.a.space (k.a.start + 4096 * k.pos) 4096).storeTile c off bs (leNat w) = some s' →
      ∃ t, exec (if op = 0x15 then .commonsLoad x q i else .commonsRepair x q i) s = .next t ∧
        (k.pos + 1 < k.num 24 4 → t = s'.setCmd k' ∧ t.cmdAt x q i = some k') ∧ (k.num 24 4 ≤ k.pos + 1 → State.Ended s t x q i)))

/-- TIDE_LOAD, TIDE_START, TIDE_HOLD, TIDE_RESUME and TIDE_ABORT: the slot, the cores, the context and the command after each (R367, R371, R376, R382, R384, R385, R387, R390, R451; derived). -/
def Obligations.TideCommandsTurnTheirSlot : Prop :=
  ∀ (s : State) (x q i : Nat) (k : Cmd) (l : List Buf),
    let b := k.withBufs l
    let k1 : Cmd := { b with st := .running, order := s.hs.nextStart }
    let slot := k.byte 16 % 8
    let at8 := k.byte 8 % 8
    let d := s.dom at8
    (∀ m, s.turn x q i 0x18 = .first k → s.validate k (loadBody s k) = .ok l → (s.dom slot).st < 2 → (s.dom slot).cmd = none → s.loadImage b slot = .ok m →
      (∀ c ∈ m.cores, c ∈ s.coveCoreBits m.cove) → s.coresTaken slot m.cores = false →
      (s.coresBusy m.cores = false → ∃ t, exec (.tideLoad x q i) s = .next t ∧ State.Ended s t x q i ∧
        t.dom slot = { m with reserved := true, cmd := none } ∧ (∀ n, n ≠ slot → t.dom n = s.dom n)) ∧
      (s.coresBusy m.cores = true → ∃ t, exec (.tideLoad x q i) s = .next t ∧ t.cmdAt x q i = some { k1 with st := .waiting } ∧
        t.dom slot = { m with reserved := true, cmd := some (x, q, i) } ∧ (∀ n, n ≠ slot → t.dom n = s.dom n) ∧ t.cores = s.cores ∧ t.mem = s.mem)) ∧
    (∀ t0, s.turn x q i 0x19 = .first k → s.validate k (startBody s k) = .ok l → t0 = k.num 16 8 → t0 % d.window = 0 → d.st = 1 → d.cmd = none →
      d.nmod < 2 ∨ s.ns.align = alAligned → s.coresTaken at8 d.cores = false → s.coresBusy d.cores = false → s.ahead d t0 = true →
      ∃ t, exec (.tideStart x q i) s = .next t ∧ t.cmdAt x q i = some { k1 with blocksLeft := (d.launches.map Launch.blocks).sum } ∧
        t.dom at8 = { d with
          st := 2, cmd := some (x, q, i), epoch := (t0 : Int), tables := d.tables.map Table.fresh, boundary := none, holdAt := none, faultHold := false
          checks := [], checked := false, late := false, reserved := true } ∧
        (∀ n, n ≠ at8 → t.dom n = s.dom n) ∧
        (∀ c, (t.core c).groups = (s.core c).groups ∧ (t.core c).blocks = (s.core c).blocks ∧ (s.core c).waiting <+: (t.core c).waiting) ∧
        (∀ r ∈ d.launches, ∀ j, j < r.cores.length → 0 < (r.blocks + r.cores.length - 1 - j) / r.cores.length →
          ∃ w ∈ (t.core (r.cores.getD j 0)).waiting, w.launch = r ∧ w.next = j ∧ w.stride = r.cores.length ∧ w.left = (r.blocks + r.cores.length - 1 - j) / r.cores.length) ∧
        t.mem = s.mem ∧ t.ns.tick = s.ns.tick) ∧
    (s.turn x q i 0x1A = .first k → s.validate k (holdBody s k) = .ok l → (s.ctx x).open = true → d.st = 2 ∨ d.st = 3 → d.holdAt = none →
      ∃ t, exec (.tideHold x q i) s = .next t ∧ t.cmdAt x q i = some k1 ∧ t.dom at8 = { d with holdAt := some (s.holdPoint d) } ∧ (t.ctx x).bySw = true ∧
        (∀ n, n ≠ at8 → t.dom n = s.dom n) ∧ t.cores = s.cores ∧ t.mem = s.mem) ∧
    (s.turn x q i 0x1B = .first k → s.validate k (resumeBody s k) = .ok l → k.num 16 8 % d.window = 0 → d.boundary.getD 0 ≤ k.num 24 4 →
      (s.ctx x).st = 3 → d.st = 5 → s.ahead d (k.num 16 8) = true →
      ∃ t, exec (.tideResume x q i) s = .next t ∧ t.cmdAt x q i = some k1 ∧
        t.dom at8 = { d with st := 6, epoch := (k.num 16 8 : Int) - (k.num 24 4 : Int), resumeAt := (k.num 16 8 : Int), late := false } ∧
        t.ctx x = { s.ctx x with restoring := true, heldBySw := false, bySw := false } ∧ (∀ n, n ≠ at8 → t.dom n = s.dom n) ∧ t.cores = s.cores ∧ t.mem = s.mem) ∧
    (s.turn x q i 0x1C = .first k → s.validate k (holdBody s k) = .ok l →
      (d.st = 1 → s.loadedCmd at8 = none → ∃ t, exec (.tideAbort x q i) s = .next t ∧ State.Ended s t x q i ∧ t.dom at8 = {} ∧ (∀ n, n ≠ at8 → t.dom n = s.dom n)) ∧
      (2 ≤ d.st → ∃ t, exec (.tideAbort x q i) s = .next t ∧ t.cmdAt x q i = none ∧ (t.dom at8).st = 1 ∧ (t.dom at8).cmd = none ∧ (t.dom at8).reserved = false ∧
        (t.dom at8).launches = d.launches ∧ (∀ f ∈ t.ns.flights, f.src.inDom at8 = false) ∧
        (∀ r ∈ t.ns.reds, r.src.inDom at8 = false)))
end

