-- ==== Sys2Proof/Laws/Maps.lean ====
section
/-! SUPPORT. Sparse maps and byte memories: what a write reads as, and that every operation keeps the canonical form. -/

namespace Sys2Proof.Machine

set_option Elab.async false

variable {α : Type} {d : α}

theorem mem_minsert {k : Nat} {v : α} {p : Nat × α} {m : List (Nat × α)} (h : p ∈ minsert k v m) : p = (k, v) ∨ p ∈ m := by
  induction m with
  | nil => simpa [minsert] using h
  | cons q m ih => grind [minsert]

theorem mget_merase_self (m : List (Nat × α)) (k : Nat) : mget d (merase m k) k = d := by
  induction m with
  | nil => rfl
  | cons p m ih => grind [merase, mget]

theorem mget_merase_ne (m : List (Nat × α)) {j k : Nat} (h : j ≠ k) : mget d (merase m k) j = mget d m j := by
  induction m with
  | nil => rfl
  | cons p m ih => grind [merase, mget]

theorem mget_minsert_self (m : List (Nat × α)) (k : Nat) (v : α) (h : ∀ p ∈ m, p.1 ≠ k) : mget d (minsert k v m) k = v := by
  induction m with
  | nil => simp [minsert, mget]
  | cons p m ih => grind [minsert, mget]

theorem mget_minsert_ne (m : List (Nat × α)) {j k : Nat} (v : α) (h : j ≠ k) : mget d (minsert k v m) j = mget d m j := by
  induction m with
  | nil => simp [minsert, mget, Ne.symm h]
  | cons p m ih => grind [minsert, mget]

variable [DecidableEq α]

/-- A write is read back. -/
@[simp] theorem mget_mset_self (m : List (Nat × α)) (k : Nat) (v : α) : mget d (mset d m k v) k = v := by
  unfold mset
  split
  · next h => rw [mget_merase_self, h]
  · exact mget_minsert_self _ _ _ (by simp [merase])

/-- A write leaves every other key alone. -/
theorem mget_mset_ne (m : List (Nat × α)) {j k : Nat} (v : α) (h : j ≠ k) : mget d (mset d m k v) j = mget d m j := by
  unfold mset
  split
  · exact mget_merase_ne m h
  · rw [mget_minsert_ne _ _ h, mget_merase_ne m h]

theorem mwf_filter {m : List (Nat × α)} (f : Nat × α → Bool) (h : mwf d m = true) : mwf d (m.filter f) = true := by
  simp only [mwf, Bool.and_eq_true, decide_eq_true_eq, List.all_eq_true] at *
  exact ⟨h.1.filter _, fun p hp => h.2 p (List.mem_filter.1 hp).1⟩

theorem mwf_minsert {m : List (Nat × α)} {k : Nat} {v : α} (h : mwf d m = true) (hv : v ≠ d) (hk : ∀ p ∈ m, p.1 ≠ k) :
    mwf d (minsert k v m) = true := by
  simp only [mwf, Bool.and_eq_true, decide_eq_true_eq, List.all_eq_true] at *
  refine ⟨?_, fun p hp => ?_⟩
  · induction m with
    | nil => simp [minsert]
    | cons q m ih =>
      simp only [minsert]
      have h1 := List.pairwise_cons.1 h.1
      split
      · next hl =>
        refine List.pairwise_cons.2 ⟨fun b hb => ?_, h.1⟩
        rcases List.mem_cons.1 hb with rfl | hb
        · exact hl
        · exact Nat.lt_trans hl (h1.1 b hb)
      · next hl =>
        refine List.pairwise_cons.2 ⟨fun b hb => ?_,
          ih (fun p hp => hk p (List.mem_cons_of_mem _ hp)) ⟨h1.2, fun p hp => h.2 p (List.mem_cons_of_mem _ hp)⟩⟩
        rcases mem_minsert hb with rfl | hb
        · have := hk q (List.mem_cons_self ..); simp only; omega
        · exact h1.1 b hb
  · rcases mem_minsert hp with rfl | hp
    · exact hv
    · exact h.2 p hp

/-- Writing keeps the canonical form. -/
theorem mwf_mset {m : List (Nat × α)} (k : Nat) (v : α) (h : mwf d m = true) : mwf d (mset d m k v) = true := by
  unfold mset
  split
  · exact mwf_filter _ h
  · next hv => exact mwf_minsert (mwf_filter _ h) hv (by simp [merase])

/-! ### Byte memories -/

@[simp] theorem Mem.read_write_self (m : Mem) (x : Nat) (b : Byte) : (m.write x b).read x = b := mget_mset_self _ _ _
theorem Mem.read_write_ne (m : Mem) {x y : Nat} (b : Byte) (h : y ≠ x) : (m.write x b).read y = m.read y := mget_mset_ne _ _ h
theorem Mem.wf_write {m : Mem} (x : Nat) (b : Byte) (h : m.wf = true) : (m.write x b).wf = true := mwf_mset _ _ h
theorem Mem.wf_filter {m : Mem} (f : Host.Cell → Bool) (h : m.wf = true) : Mem.wf (m.filter f) = true := mwf_filter _ h
theorem Mem.wf_mdrop {m : Mem} (f : Nat → Bool) (h : m.wf = true) : Mem.wf (mdrop m f) = true := mwf_filter _ h
theorem Mem.wf_clear {m : Mem} (x n : Nat) (h : m.wf = true) : (m.clear x n).wf = true := mwf_filter _ h

theorem Mem.wf_writeBytes {m : Mem} (x : Nat) (bs : List Byte) (h : m.wf = true) : (m.writeBytes x bs).wf = true := by
  induction bs generalizing m x with
  | nil => exact h
  | cons b bs ih => exact ih _ (Mem.wf_write _ _ h)

theorem Mem.wf_writeLE {m : Mem} (x n v : Nat) (h : m.wf = true) : (m.writeLE x n v).wf = true := by
  induction n generalizing m x v with
  | zero => exact h
  | succ n ih => exact ih _ _ (Mem.wf_write _ _ h)

theorem Mem.wf_foldl {β : Type} {f : Mem → β → Mem} (hf : ∀ m x, Mem.wf m = true → (f m x).wf = true) (l : List β) {m : Mem}
    (h : m.wf = true) : (l.foldl f m).wf = true := by
  induction l generalizing m with
  | nil => exact h
  | cons x l ih => exact ih (hf _ _ h)

/-- Bytes outside a run of written bytes read as before. -/
theorem Mem.read_writeBytes_ne (m : Mem) (x y : Nat) (bs : List Byte) (h : y < x ∨ x + bs.length ≤ y) :
    (m.writeBytes x bs).read y = m.read y := by
  induction bs generalizing m x with
  | nil => rfl
  | cons b bs ih =>
    simp only [List.length_cons] at h
    rw [Mem.writeBytes, ih _ _ (by omega), Mem.read_write_ne _ _ (by omega)]

theorem Mem.read_writeLE_ne (m : Mem) (x y n v : Nat) (h : y < x ∨ x + n ≤ y) : (m.writeLE x n v).read y = m.read y := by
  induction n generalizing m x v with
  | zero => rfl
  | succ n ih => rw [Mem.writeLE, ih _ _ _ (by omega), Mem.read_write_ne _ _ (by omega)]

/-- The memories of the state after reset are in canonical form. -/
theorem reset_memoryWf : State.reset.mem.wf = true ∧ State.reset.host.wf = true := by decide

end Sys2Proof.Machine
end

