-- ==== Sys2Proof/Laws/Issue.lean ====
section
/-! SUPPORT. The issue of an instruction: what fetching leaves alone, and the state at which a meaning's effect starts. -/

namespace Sys2Proof.Machine

set_option Elab.async false

/-! ### Reads after updates -/

theorem State.core_setCore (s : State) (c : Nat) (k : Core) : (s.setCore c k).core c = k := mget_mset_self _ _ _
theorem State.core_setCore_ne (s : State) {c d : Nat} (k : Core) (h : d ≠ c) : (s.setCore c k).core d = s.core d := mget_mset_ne _ _ h
theorem State.core_modCore (s : State) (c : Nat) (f : Core → Core) : (s.modCore c f).core c = f (s.core c) := mget_mset_self _ _ _
theorem State.core_modCore_ne (s : State) {c d : Nat} (f : Core → Core) (h : d ≠ c) : (s.modCore c f).core d = s.core d :=
  mget_mset_ne _ _ h
theorem Core.group_setGroup (k : Core) (g : Nat) (x : Group) : (k.setGroup g x).group g = x := mget_mset_self _ _ _
theorem Core.group_setGroup_ne (k : Core) {g i : Nat} (x : Group) (h : i ≠ g) : (k.setGroup g x).group i = k.group i :=
  mget_mset_ne _ _ h
theorem State.group_modGroup (s : State) (c g : Nat) (f : Group → Group) : (s.modGroup c g f).group c g = f (s.group c g) := by
  simp only [State.group, State.modGroup, State.core_modCore, Core.modGroup, Core.group_setGroup]
theorem State.group_modGroup_ne (s : State) (c : Nat) {g i : Nat} (f : Group → Group) (h : i ≠ g) :
    (s.modGroup c g f).group c i = s.group c i := by
  simp only [State.group, State.modGroup, State.core_modCore, Core.modGroup, Core.group_setGroup_ne _ _ h]

/-- Only event counters of one page change. -/
structure Counted (s t : State) (cls inst : Nat) : Prop where
  rest : t = { s with regs := t.regs }
  regs : ∀ d k, (∀ n < 4, k ≠ fkey cls inst R.EVT_COUNT_n_COUNT (0x20 * n)) → mget d t.regs k = mget d s.regs k

theorem Counted.refl (s : State) (cls inst : Nat) : Counted s s cls inst := ⟨rfl, fun _ _ _ => rfl⟩

theorem Counted.trans {s t u : State} {cls inst : Nat} (h : Counted s t cls inst) (k : Counted t u cls inst) : Counted s u cls inst := by
  refine ⟨?_, fun d n hn => (k.regs d n hn).trans (h.regs d n hn)⟩
  rw [k.rest, h.rest]

theorem mget_mset_default {α : Type} [DecidableEq α] (d e : α) (m : List (Nat × α)) {j k : Nat} (v : α) (h : j ≠ k) :
    mget d (mset e m k v) j = mget d m j := by
  unfold mset
  split
  · exact mget_merase_ne m h
  · rw [mget_minsert_ne _ _ h, mget_merase_ne m h]

theorem countOne_counted (cls inst code n : Nat) {k : Nat} (hk : k < 4) (s : State) : Counted s (countOne cls inst code n k s) cls inst := by
  unfold countOne
  split
  · exact ⟨rfl, fun d j hj => mget_mset_default _ _ _ _ (hj k hk)⟩
  · exact Counted.refl _ _ _

theorem State.count_counted (s : State) (cls inst code n : Nat) : Counted s (s.count cls inst code n) cls inst := by
  unfold State.count
  split
  · exact Counted.refl _ _ _
  · exact (((countOne_counted _ _ _ _ (by omega) _).trans (countOne_counted _ _ _ _ (by omega) _)).trans
      (countOne_counted _ _ _ _ (by omega) _)).trans (countOne_counted _ _ _ _ (by omega) _)

theorem Counted.core {s t : State} {cls inst : Nat} (h : Counted s t cls inst) (c : Nat) : t.core c = s.core c := by
  rw [h.rest]; rfl

/-! ### What fetching leaves alone -/

theorem Issued.refl (s : State) (w : IWord) : Issued s s w := ⟨rfl, fun _ _ _ => rfl, fun _ _ => rfl, rfl, fun _ _ => rfl⟩

theorem Issued.page {s t : State} {w : IWord} (h : Issued s t w) (c : Nat) : t.corePage c = s.corePage c := by
  have e : t.se = s.se := by rw [h.rest]
  simp only [State.corePage, e]

theorem Issued.trans {s t u : State} {w : IWord} (h : Issued s t w) (k : Issued t u w) : Issued s u w := by
  refine ⟨?_, fun d n hn => ?_, fun c hc => (k.others c hc).trans (h.others c hc), ?_, fun g hg => (k.groups g hg).trans (h.groups g hg)⟩
  · rw [k.rest, h.rest]
  · rw [k.regs d n (by rw [h.page]; exact hn), h.regs d n hn]
  · rw [k.core, h.core]

theorem State.modGroup_issued (s : State) (w : IWord) (f : Group → Group) : Issued s (s.modGroup w.core w.slot f) w := by
  refine ⟨rfl, fun _ _ _ => rfl, fun c hc => State.core_modCore_ne _ _ hc, ?_, fun g hg => State.group_modGroup_ne _ _ _ hg⟩
  simp only [State.modGroup, State.core_modCore]; rfl

theorem State.kcount_issued (s : State) (w : IWord) (code n : Nat) : Issued s (s.kcount w.core code n) w := by
  have h := State.count_counted s clsCore (s.corePage w.core) code n
  refine ⟨?_, h.regs, fun c _ => h.core c, ?_, fun g _ => ?_⟩
  · rw [State.kcount, h.rest]
  · rw [State.kcount, h.core]
  · simp only [State.group, State.kcount, h.core]

theorem State.draw_issued (s : State) (w : IWord) (n : Nat) : Issued s (s.draw n).2 w :=
  ⟨rfl, fun _ _ _ => rfl, fun _ _ => rfl, rfl, fun _ _ => rfl⟩

theorem Quiet.refl (s : State) : Quiet s s := ⟨fun _ => rfl, rfl, rfl, rfl, rfl, rfl⟩

theorem Quiet.trans {s t u : State} (h : Quiet s t) (k : Quiet t u) : Quiet s u :=
  ⟨fun c => by rw [k.cores c, h.cores c], k.host.trans h.host, k.se.trans h.se, k.pw.trans h.pw, k.ns.trans h.ns,
    k.pending.trans h.pending⟩

/-- Nothing that `Quiet` speaks of differs. -/
theorem Quiet.of_eq {a s t : State} (h : Quiet a s) (hc : t.cores = s.cores) (hh : t.host = s.host) (he : t.se = s.se)
    (hp : t.pw = s.pw) (hn : t.ns = s.ns) (hq : t.pending = s.pending) : Quiet a t :=
  h.trans ⟨fun c => by simp only [State.core, hc], hh, he, hp, hn, hq⟩

theorem quiet_foldl {α : Type} {a : State} {f : State → α → State} (hf : ∀ s x, Quiet a s → Quiet a (f s x)) (l : List α)
    {s : State} (h : Quiet a s) : Quiet a (l.foldl f s) := by
  induction l generalizing s with
  | nil => exact h
  | cons x l ih => exact ih (hf _ _ h)

theorem quiet_ite {a s t : State} {c : Prop} [Decidable c] (h : Quiet a s) (k : Quiet a t) : Quiet a (if c then s else t) := by
  split <;> assumption

/-- A core whose L1 lines, translations and read-only lines change. -/
theorem State.modCore_quiet {a s : State} {c : Nat} {f : Core → Core} (hf : ∀ k, f k = { k with
    l1 := (f k).l1, tlb := (f k).tlb, utlb := (f k).utlb, walkCache := (f k).walkCache
    icache := (f k).icache, ccache := (f k).ccache, dcache := (f k).dcache }) (h : Quiet a s) : Quiet a (s.modCore c f) := by
  refine h.trans ⟨fun d => ?_, rfl, rfl, rfl, rfl, rfl⟩
  by_cases e : d = c
  · subst e; rw [State.core_modCore]; exact hf _
  · rw [State.core_modCore_ne _ _ e]

theorem State.setFldN_quiet {a s : State} {cls inst : Nat} {f : Fld} {d v : Nat} (h : Quiet a s) : Quiet a (s.setFldN cls inst f d v) :=
  h.of_eq rfl rfl rfl rfl rfl rfl
theorem State.setFld_quiet {a s : State} {cls inst : Nat} {f : Fld} {v : Nat} (h : Quiet a s) : Quiet a (s.setFld cls inst f v) :=
  State.setFldN_quiet h
theorem State.setFlds_quiet {a s : State} {cls inst : Nat} {l : List (Fld × Nat)} (h : Quiet a s) : Quiet a (s.setFlds cls inst l) :=
  quiet_foldl (fun _ _ h => State.setFld_quiet h) _ h
theorem State.count_quiet {a s : State} {cls inst code n : Nat} (h : Quiet a s) : Quiet a (s.count cls inst code n) := by
  have e := (State.count_counted s cls inst code n).rest
  rw [e]
  exact h.of_eq rfl rfl rfl rfl rfl rfl
theorem State.setSlice_quiet {a s : State} {n : Nat} {x : Slice} (h : Quiet a s) : Quiet a (s.setSlice n x) := h.of_eq rfl rfl rfl rfl rfl rfl
theorem State.modSlice_quiet {a s : State} {n : Nat} {f : Slice → Slice} (h : Quiet a s) : Quiet a (s.modSlice n f) := State.setSlice_quiet h
theorem State.setHline_quiet {a s : State} {n l : Nat} {x : SLine} (h : Quiet a s) : Quiet a (s.setHline n l x) := State.setSlice_quiet h
theorem State.draw_quiet {a s : State} {n : Nat} (h : Quiet a s) : Quiet a (s.draw n).2 := h.of_eq rfl rfl rfl rfl rfl rfl
theorem State.setPoison_quiet {a s : State} {p : Nat} {b : Bool} (h : Quiet a s) : Quiet a (s.setPoison p b) := h.of_eq rfl rfl rfl rfl rfl rfl
theorem State.emit_quiet {a s : State} {m : OutMsg} (h : Quiet a s) : Quiet a (s.emit m) := h.of_eq rfl rfl rfl rfl rfl rfl
theorem State.tmk_quiet {a s : State} {f : TmkOpen → TmkOpen} (h : Quiet a s) : Quiet a (s.tmk f) := by
  unfold State.tmk
  split
  · exact h.of_eq rfl rfl rfl rfl rfl rfl
  · exact h

theorem State.errBit_quiet {a s : State} {cls inst b : Nat} (h : Quiet a s) : Quiet a (s.errBit cls inst b) := by
  unfold State.errBit
  exact State.setFld_quiet (quiet_ite (State.setFlds_quiet h) h)
theorem State.raise_quiet {a s : State} {cls inst b : Nat} {r : Bool} (h : Quiet a s) : Quiet a (s.raise cls inst b r) := by
  unfold State.raise
  have k : Quiet a _ := State.setFld_quiet (cls := cls) (inst := inst) (f := R.ERR_COUNT_TOTAL)
    (v := satAdd 32 ((s.errBit cls inst b).fld cls inst R.ERR_COUNT_TOTAL) 1) (State.errBit_quiet (cls := cls) (inst := inst) (b := b) h)
  exact quiet_ite k (State.setFld_quiet (State.errBit_quiet k))
theorem State.takeInjection_quiet {a s t : State} {cls inst k : Nat} (e : s.takeInjection cls inst k = some t) (h : Quiet a s) : Quiet a t := by
  unfold State.takeInjection at e
  split at e
  · cases e; exact State.errBit_quiet (State.setFld_quiet h)
  · cases e

theorem State.raiseVector_quiet {a s : State} {fn : Option Nat} {v : Nat} (h : Quiet a s) : Quiet a (s.raiseVector fn v) := by
  unfold State.raiseVector
  split
  · exact quiet_ite h (quiet_ite (h.of_eq rfl rfl rfl rfl rfl rfl) (State.emit_quiet h))
  · exact quiet_ite (h.of_eq rfl rfl rfl rfl rfl rfl) (State.emit_quiet h)

theorem State.rasRecord_quiet {a s : State} {e : RasEv} {l : Nat} (h : Quiet a s) : Quiet a (s.rasRecord e l) := by
  unfold State.rasRecord
  extract_lets s1 ws full s2 r s3 s4
  have h1 : Quiet a s1 := State.tmk_quiet h
  have h2 : Quiet a s2 := quiet_ite (State.count_quiet h1) h1
  have h3 : Quiet a s3 := h2.of_eq rfl rfl rfl rfl rfl rfl
  have h4 : Quiet a s4 := State.emit_quiet (State.count_quiet h3)
  exact quiet_ite h1 (quiet_ite h1 (quiet_ite (State.raiseVector_quiet h4) h4))

theorem State.hbmCe_quiet {a s : State} {ch b : Nat} (h : Quiet a s) : Quiet a (s.hbmCe ch b true) := by
  unfold State.hbmCe State.rasEvent
  simp only [Bool.true_or, if_true]
  exact State.rasRecord_quiet (State.raise_quiet (State.count_quiet h))

/-- What an engine's read of memory proper leaves alone. -/
theorem State.memCheck_quiet {a s : State} {line need : Nat} (h : Quiet a s) : Quiet a (s.memCheck line need false) := by
  unfold State.memCheck
  refine quiet_foldl (fun s i h => ?_) _ h
  extract_lets pa
  refine quiet_ite h ?_
  split
  · split
    · exact h
    · next ch off _ =>
      extract_lets s1 s2 s3
      have h1 : Quiet a s1 := State.count_quiet h
      have h2 : Quiet a s2 := by
        simp only [s2, Bool.false_eq_true, if_false]
        split
        · next k => exact State.hbmCe_quiet (State.takeInjection_quiet k h1)
        · exact h1
      have h3 : Quiet a s3 := State.count_quiet h2
      exact quiet_ite (State.count_quiet h3) h3
  · exact h

theorem State.fetch_quiet {a s : State} {x line need : Nat} (h : Quiet a s) : Quiet a (s.fetch x line need false) :=
  State.setHline_quiet (State.memCheck_quiet h)

theorem State.memPut_quiet {a s : State} {pa : Nat} {bs : List Byte} {p : Bool} (h : Quiet a s) : Quiet a (s.memPut pa bs p) := by
  unfold State.memPut
  extract_lets n s1
  have h1 : Quiet a s1 := h.of_eq rfl rfl rfl rfl rfl rfl
  refine quiet_ite h (quiet_foldl (fun s i h => ?_) _ h1)
  exact quiet_ite h (quiet_ite (State.setPoison_quiet h) (quiet_ite (State.setPoison_quiet h) h))

theorem State.countWrites_quiet {a s : State} {line f p : Nat} (h : Quiet a s) : Quiet a (s.countWrites line f p) := by
  unfold State.countWrites
  refine quiet_foldl (fun s i h => ?_) _ h
  extract_lets f
  refine quiet_ite h ?_
  split
  · exact State.count_quiet (State.count_quiet h)
  · exact h

theorem State.sectorDown_quiet {a s : State} {c line sec : Nat} {d : Mem} {p : Bool} (h : Quiet a s) :
    Quiet a (s.sectorDown c line sec d p) := by
  unfold State.sectorDown
  exact quiet_ite (State.modSlice_quiet h) (State.memPut_quiet (State.countWrites_quiet h))

theorem State.recallLine_quiet {a s : State} {c line : Nat} (h : Quiet a s) : Quiet a (s.recallLine c line) := by
  unfold State.recallLine
  extract_lets s1 x y
  have h1 : Quiet a s1 := by
    refine quiet_foldl (fun s p h => ?_) _ h
    extract_lets l s2
    have h2 : Quiet a s2 := quiet_foldl (fun s i h => quiet_ite (State.sectorDown_quiet h) h) _ h
    exact quiet_ite h (State.modCore_quiet (fun _ => rfl) h2)
  exact quiet_ite (State.modSlice_quiet h1) h1

theorem State.writeDown_quiet {a s : State} {x line : Nat} (h : Quiet a s) : Quiet a (s.writeDown x line) := by
  unfold State.writeDown
  exact State.setHline_quiet (State.countWrites_quiet (quiet_foldl (fun s i h => State.memPut_quiet h) _ h))

theorem State.countInvs_quiet {a s : State} {c x line : Nat} (h : Quiet a s) : Quiet a (s.countInvs c x line) :=
  State.count_quiet (State.count_quiet h)

theorem State.dropLine_quiet {a s : State} {c x line : Nat} (h : Quiet a s) : Quiet a (s.dropLine c x line) := by
  unfold State.dropLine
  exact State.setHline_quiet (State.writeDown_quiet (State.recallLine_quiet (quiet_ite h (State.count_quiet (State.countInvs_quiet h)))))

theorem State.claimWay_quiet {a s : State} {x way : Nat} {m : Msg} (h : Quiet a s) : Quiet a (s.claimWay x m way) := by
  unfold State.claimWay
  exact quiet_ite (State.count_quiet (State.modSlice_quiet (State.modSlice_quiet h))) (State.modSlice_quiet h)

theorem State.findWay_quiet {a s : State} {x line : Nat} (h : Quiet a s) : Quiet a (s.findWay x line).2 := by
  unfold State.findWay
  dsimp only
  split
  · exact h
  · split
    · exact State.setSlice_quiet h
    · split
      · exact State.setSlice_quiet h
      · exact h

theorem State.makeRoom_quiet {a s : State} {x : Nat} {m : Msg} (h : Quiet a s) : Quiet a (s.makeRoom x m) := by
  have k := State.findWay_quiet (x := x) (line := m.line) h
  unfold State.makeRoom
  split
  · next e => rw [e] at k; exact State.claimWay_quiet k
  · next e => rw [e] at k; exact quiet_ite k (State.claimWay_quiet (State.dropLine_quiet k))
  · next e => rw [e] at k; exact quiet_ite k (State.claimWay_quiet (State.dropLine_quiet k))
  · next e => rw [e] at k; exact k

theorem State.reread_quiet {a s : State} {x line src : Nat} {b : Bool} (h : Quiet a s) : Quiet a (s.reread x line src b) := by
  unfold State.reread
  exact quiet_ite (State.count_quiet h) (State.setFlds_quiet (State.count_quiet h))

/-- What a read of an agent without an L1 leaves alone. -/
theorem State.snoopAt_quiet {a s : State} {node c line mask : Nat} {al : Bool} (h : Quiet a s) : Quiet a (s.snoopAt node c line mask al) := by
  unfold State.snoopAt
  extract_lets x s1 y st s2 gh s3 s4
  have h1 : Quiet a s1 := State.count_quiet (State.count_quiet h)
  have h2 : Quiet a s2 := State.count_quiet h1
  have h3 : Quiet a s3 := quiet_ite (State.reread_quiet h2) h2
  have h4 : Quiet a s4 := State.makeRoom_quiet h3
  exact quiet_ite (State.fetch_quiet (State.setHline_quiet (State.count_quiet h1))) (quiet_ite h3 (quiet_ite (quiet_ite h3
    (State.memCheck_quiet h3)) (quiet_ite (State.fetch_quiet h4) (State.memCheck_quiet h4))))

theorem State.noteRead_quiet {a s : State} {node c pa n : Nat} {al : Bool} (h : Quiet a s) : Quiet a (s.noteRead node c pa n al) := by
  unfold State.noteRead
  split
  · exact State.count_quiet h
  · exact quiet_ite (State.snoopAt_quiet h) h

theorem State.walkCore_quiet {a s : State} {core cove va : Nat} (h : Quiet a s) : Quiet a (s.walkCore core cove va).2 := by
  unfold State.walkCore
  extract_lets held rd w v r path s1 up s2
  have hr : Quiet a r.2 := by
    simp only [r]
    split
    · exact h
    · exact State.draw_quiet h
  have h1 : Quiet a s1 := quiet_foldl (fun s x h => quiet_ite (State.count_quiet (State.count_quiet h)) (State.noteRead_quiet h)) _ hr
  have h2 : Quiet a s2 := State.modCore_quiet (fun _ => rfl) h1
  split <;> exact h2

theorem Core.tlbFind_same {k j : Core} {q va : Nat} {e : TlbEnt} (h : k.tlbFind q va = some (e, j)) :
    j = { k with tlb := j.tlb, utlb := j.utlb } := by
  unfold Core.tlbFind at h
  split at h
  · cases h; rfl
  · obtain ⟨f, -, hf⟩ := Option.map_eq_some_iff.1 h
    cases hf; rfl

theorem State.setCore_quiet {a s : State} {c : Nat} {k : Core} (hk : k = { s.core c with tlb := k.tlb, utlb := k.utlb }) (h : Quiet a s) :
    Quiet a (s.setCore c k) := by
  refine h.trans ⟨fun d => ?_, rfl, rfl, rfl, rfl, rfl⟩
  by_cases e : d = c
  · subst e; rw [State.core_setCore, hk]
  · rw [State.core_setCore_ne _ _ e]

theorem State.tlbPut_quiet {a s : State} {core q va : Nat} {e : TlbEnt} (h : Quiet a s) :
    Quiet a (s.modCore core (fun k => k.tlbPut q va e)) := by
  refine State.modCore_quiet (fun k => ?_) h
  cases k
  simp only [Core.tlbPut, Core.utlbPut]

theorem State.coreXlate_quiet {a s : State} {core q cove va : Nat} (h : Quiet a s) : Quiet a (s.coreXlate core q cove va).2 := by
  unfold State.coreXlate
  split
  · next e k hf =>
    have hk := Core.tlbFind_same hf
    extract_lets w
    split
    · exact State.setCore_quiet hk h
    · have hd : Quiet a (s.draw 2).2 := State.draw_quiet h
      have hc : (s.draw 2).2.core core = s.core core := rfl
      generalize s.draw 2 = r at hd hc ⊢
      obtain ⟨d, u⟩ := r
      dsimp only at hd hc ⊢
      split
      · exact State.setCore_quiet (by rw [hc]; exact hk) hd
      · clear_value w
        cases w with
        | page f => exact State.tlbPut_quiet hd
        | fault l =>
          dsimp only
          apply State.modCore_quiet (h := hd)
          intro k
          rfl
  · have k := State.walkCore_quiet (core := core) (cove := cove) (va := va) h
    generalize s.walkCore core cove va = r at k ⊢
    split
    · dsimp only at k ⊢
      exact State.tlbPut_quiet k
    · exact k

theorem State.coreAddr_quiet {a s : State} {core q cove va : Nat} {wr d : Bool} (h : Quiet a s) :
    Quiet a (s.coreAddr core q cove va wr d).2 := by
  have k := State.coreXlate_quiet (core := core) (q := q) (cove := cove) (va := va) h
  unfold State.coreAddr
  split
  · exact h
  · split
    · next e => rw [e] at k; exact k
    · next e =>
      rw [e] at k
      dsimp only
      split
      · exact k
      · split
        · split <;> exact k
        · exact k

theorem State.roPut_quiet {a s : State} {core line : Nat} {w : Ro} {bs : List Byte} {p r : Bool} (h : Quiet a s) :
    Quiet a (s.roPut core line w bs p r) := by
  unfold State.roPut
  exact State.modCore_quiet (fun k => by cases w <;> rfl) h

theorem State.roPrefetch_quiet {a s : State} {core cove line n : Nat} (h : Quiet a s) : Quiet a (s.roPrefetch core cove line n) := by
  induction n with
  | zero => exact h
  | succ n ih =>
    unfold State.roPrefetch
    extract_lets s1 next
    split
    · exact ih
    · split
      · exact State.roPut_quiet (State.noteRead_quiet ih)
      · exact ih

theorem State.roFill_quiet {a s t : State} {core cove line : Nat} {w : Ro} {l : List Byte} {p g : Bool}
    (e : s.roFill core cove line w = .line l p g t) (h : Quiet a s) : Quiet a t := by
  unfold State.roFill at e
  split at e
  · obtain ⟨-, -, -, rfl⟩ := RoRes.line.inj e
    have k : ∀ bs p n, Quiet a (((s.noteRead core cove (line * w.bytes) w.bytes).roPut core line w bs p true).kcount core w.miss n) :=
      fun bs p n => State.count_quiet (State.roPut_quiet (State.noteRead_quiet h))
    exact quiet_ite (State.roPrefetch_quiet (k _ _ _)) (k _ _ _)
  · obtain ⟨-, -, -, rfl⟩ := RoRes.line.inj e
    exact State.noteRead_quiet h
  · cases e

theorem State.roLine_quiet {a s t : State} {core cove pa : Nat} {w : Ro} {l : List Byte} {p g : Bool}
    (e : s.roLine core cove pa w = .line l p g t) (h : Quiet a s) : Quiet a t := by
  unfold State.roLine at e
  extract_lets line at e
  split at e
  · exact State.roFill_quiet e h
  · extract_lets held at e
    have hh : ∀ u, Quiet a u → held u = .line l p g t → Quiet a t := fun u hu k => by
      obtain ⟨-, -, -, rfl⟩ := RoRes.line.inj k
      exact State.modCore_quiet (fun k => by cases w <;> rfl) hu
    split at e
    · split at e
      · exact hh _ h e
      · have hd : Quiet a (s.draw 2).2 := State.draw_quiet h
        generalize s.draw 2 = r at hd e
        obtain ⟨d, u⟩ := r
        dsimp only at hd e
        split at e
        · exact hh _ hd e
        · exact State.roFill_quiet e hd
    · exact hh _ h e

theorem State.fetchWord_quiet {a s t : State} {core q cove pc v : Nat} (e : s.fetchWord core q cove pc = .word v t) (h : Quiet a s) :
    Quiet a t := by
  have k := State.coreAddr_quiet (core := core) (q := q) (cove := cove) (va := pc) (wr := false) (d := true) h
  unfold State.fetchWord at e
  split at e
  · cases e
  · next x =>
    rw [x] at k
    split at e
    · next y => cases e; exact State.roLine_quiet y k
    · cases e

theorem Quiet.group {s t : State} (h : Quiet s t) (c g : Nat) : t.group c g = s.group c g := by
  have e := congrArg Core.groups (h.cores c)
  simp only [State.group, Core.group, e]
theorem Quiet.launch {s t : State} (h : Quiet s t) (c g : Nat) : t.launchOf c g = s.launchOf c g := by
  have e := congrArg Core.blocks (h.cores c)
  simp only [State.launchOf, State.blockOf, Core.block, h.group, e]
theorem Quiet.page {s t : State} (h : Quiet s t) (c : Nat) : t.corePage c = s.corePage c := by simp only [State.corePage, h.se]

/-- What fetching leaves alone: it is quiet but for the paths that the group has switched. -/
theorem State.fetched_quiet {s u : State} {w : IWord} (h : s.fetched w = some u) :
    Quiet (s.modGroup w.core w.slot (fun _ => s.atIssue w)) u := by
  unfold State.fetched at h
  extract_lets r s1 cove at h
  have h1 : Quiet (s.modGroup w.core w.slot (fun _ => s.atIssue w)) s1 := State.count_quiet (Quiet.refl _)
  clear_value s1
  split at h
  · next e =>
    have k := State.fetchWord_quiet e h1
    split at h
    · cases h
    · split at h
      · cases h; exact k
      · split at h
        · next e2 =>
          split at h
          · cases h; exact State.fetchWord_quiet e2 k
          · cases h
        · cases h
  · cases h

theorem State.fetched_group {s u : State} {w : IWord} (h : s.fetched w = some u) : u.group w.core w.slot = s.atIssue w := by
  rw [(State.fetched_quiet h).group, State.group_modGroup]

/-! ### The effect -/

theorem Group.switch_blk {g h : Group} {b : Bool} (e : g.switch = some (h, b)) : h.blk = g.blk := by
  unfold Group.switch at e
  split at e
  · cases e
  · split at e
    · split at e <;> cases e <;> rfl
    · cases e

theorem Group.settle_blk (n : Nat) (g : Group) : (Group.settle n g).1.blk = g.blk := by
  induction n generalizing g with
  | zero => rfl
  | succ n ih =>
    unfold Group.settle
    split
    · rfl
    · next e => exact (ih _).trans (Group.switch_blk e)

theorem State.fetched_launch {s u : State} {w : IWord} (h : s.fetched w = some u) :
    u.launchOf w.core w.slot = s.launchOf w.core w.slot := by
  have hb : (s.atIssue w).blk = (s.group w.core w.slot).blk := Group.settle_blk _ _
  have hc := (State.fetched_quiet h).cores w.core
  have hx : (u.core w.core).blocks = (s.core w.core).blocks := by
    refine (congrArg Core.blocks hc).trans ?_
    show ((s.modGroup w.core w.slot _).core w.core).blocks = _
    rw [State.modGroup, State.core_modCore]; rfl
  simp only [State.launchOf, State.blockOf, Core.block, State.fetched_group h, hb, hx]

/-- An instruction that issues, and neither faults nor is held, has its effect. -/
theorem State.issue_next {s u x : State} {w : IWord} {op : Nat × Nat} {f : Form} {m : Meaning} (h : s.Issues u w op f)
    (hf : m.form (s.view w) = f) (hk : m.check u (s.view w) = ([], x)) (hx : m.faults u (s.view w) = [])
    (hh : m.hold x (s.view w) = .none) (hg : x.group w.core w.slot = s.atIssue w) :
    s.issue w op m = m.effect (x.advanced w (s.view w) f) (s.view w) := by
  have hu := State.fetched_group h.fetch
  have hc : u.regCheck w.core f ((s.atIssue w).active (insOf w)) ((insOf w).cl == 1) = ([], u) := by
    have ha : ∀ k, u.armed clsCore (u.corePage w.core) k = false := fun k => by simp [State.armed, h.sound]
    unfold State.regCheck
    simp [ha]
  have key : u.issueAt w op m = m.effect (x.advanced w (s.view w) f) (s.view w) := by
    have hz : (⟨w.core, w.slot, s.atIssue w, u.launchOf w.core w.slot, insOf w,
        (s.atIssue w).active (insOf w)⟩ : Iss) = s.view w := by
      rw [State.fetched_launch h.fetch]; rfl
    unfold State.issueAt
    simp only [hz, hf, hu]
    rw [if_neg (by have := h.opcode; omega)]
    have hr' : (s.atIssue w).scoreboard f = false := h.ready
    simp only [hr', Bool.false_eq_true, if_false, h.clean, List.any_nil, hc, List.nil_append, hx, hk, lowestFault, hh]
    have hs : x.modGroup w.core w.slot (fun g =>
        { (if (s.view w).act = 0 then g else g.clearMarks ((f.ops.filter (fun o => o.wr)).flatMap Opnd.vregs)) with
          pc := nextPc g.pc (insOf w).size, hold := .none, since := none, memSeq := g.memSeq + boolNat ((insOf w).cl == 1)
          hinted := if g.hinted = 2 then 0 else g.hinted }) = x.advanced w (s.view w) f := by
      unfold State.advanced State.modGroup State.modCore Core.modGroup
      simp only [show (x.core w.core).group w.slot = (s.view w).g from hg]
      rfl
    exact congrArg (fun q => m.effect q (s.view w)) hs
  unfold State.issue
  have hm := h.may
  simp only [hm, Bool.not_true, Bool.false_eq_true, if_false]
  have e := h.fetch
  unfold State.fetched at e
  revert e
  extract_lets r s1 cove
  intro e
  split at e
  · next v t k =>
    rw [k]
    split at e
    · cases e
    · next hv =>
      simp only [hv, if_false]
      split at e
      · next hl => cases e; simp only [hl, if_true]; exact key
      · next hl =>
        simp only [hl]
        split at e
        · next v2 t2 k2 =>
          rw [k2]
          split at e
          · next hv2 => cases e; simp only [hv2, ne_eq, not_true, if_false]; exact key
          · cases e
        · cases e
  · cases e

end Sys2Proof.Machine
end

