-- ==== Sys2Proof/Laws/Keeps.lean ====
section
/-! SUPPORT. `Keeps` for record updates and folds. -/

namespace Sys2Proof.Machine

set_option Elab.async false

theorem Keeps.refl (a : State) : Keeps a a :=
  ⟨rfl, id, id, Nat.le_refl _, Nat.le_refl _, List.prefix_refl _, Nat.le_refl _⟩

theorem keeps_mk {a s : State} {regs wl cores slices net mem poison host hs ns hb pw ra tm occ og mg mu now}
    (h : Keeps a s) (hm : s.mem.wf = true → mem.wf = true) (hh : s.host.wf = true → host.wf = true) :
    Keeps a ⟨regs, wl, cores, slices, net, mem, poison, host, hs, ns, hb, pw, ra, s.se, tm, occ, og, mg, mu, now, s.free, s.pending⟩ :=
  ⟨h.queue, fun e => hm (h.mem e), fun e => hh (h.host e), h.svn, h.fuses, h.ledger, h.draws⟩

theorem keeps_se {a s : State} {regs wl cores slices net poison hs ns hb pw ra tm occ og mg mu now} {se : SecSt} (h : Keeps a s)
    (h1 : s.se.minSvn ≤ se.minSvn) (h2 : se.fuses ≤ s.se.fuses) (h3 : s.se.ledger <+: se.ledger) :
    Keeps a ⟨regs, wl, cores, slices, net, s.mem, poison, s.host, hs, ns, hb, pw, ra, se, tm, occ, og, mg, mu, now, s.free, s.pending⟩ :=
  ⟨h.queue, h.mem, h.host, Nat.le_trans h.svn h1, Nat.le_trans h2 h.fuses, h.ledger.trans h3, h.draws⟩

theorem keeps_all {a s : State} {regs wl cores slices net mem poison host hs ns hb pw ra tm occ og mg mu now fr} {se : SecSt}
    (h : Keeps a s) (hm : s.mem.wf = true → mem.wf = true) (hh : s.host.wf = true → host.wf = true)
    (h1 : s.se.minSvn ≤ se.minSvn) (h2 : se.fuses ≤ s.se.fuses) (h3 : s.se.ledger <+: se.ledger) (h4 : s.free ≤ fr) :
    Keeps a ⟨regs, wl, cores, slices, net, mem, poison, host, hs, ns, hb, pw, ra, se, tm, occ, og, mg, mu, now, fr, s.pending⟩ :=
  ⟨h.queue, fun e => hm (h.mem e), fun e => hh (h.host e), Nat.le_trans h.svn h1, Nat.le_trans h2 h.fuses, h.ledger.trans h3,
    Nat.le_trans h.draws h4⟩

theorem keeps_draws {a s : State} {regs wl cores slices net poison hs ns hb pw ra tm occ og mg mu now} {n : Nat}
    (h : Keeps a s) :
    Keeps a ⟨regs, wl, cores, slices, net, s.mem, poison, s.host, hs, ns, hb, pw, ra, s.se, tm, occ, og, mg, mu, now, s.free + n, s.pending⟩ :=
  ⟨h.queue, h.mem, h.host, h.svn, h.fuses, h.ledger, Nat.le_add_right_of_le h.draws⟩

theorem keeps_free {a s : State} {n : Nat} (h : Keeps a s) (hn : a.free ≤ n) : Keeps a { s with free := n } :=
  ⟨h.queue, h.mem, h.host, h.svn, h.fuses, h.ledger, hn⟩

theorem keeps_foldl {α : Type} {a : State} {f : State → α → State} (hf : ∀ s x, Keeps a s → Keeps a (f s x)) (l : List α)
    {s : State} (h : Keeps a s) : Keeps a (l.foldl f s) := by
  induction l generalizing s with
  | nil => exact h
  | cons x l ih => exact ih (hf _ _ h)

theorem keeps_getD {a d : State} {o : Option State} (h : ∀ t, o = some t → Keeps a t) (hd : Keeps a d) : Keeps a (o.getD d) := by
  cases o with
  | none => exact hd
  | some t => exact h t rfl

theorem keeps_ite {a s t : State} {c : Prop} [Decidable c] (h : Keeps a s) (k : Keeps a t) : Keeps a (if c then s else t) := by
  split <;> assumption

/-- A fold that stops when a step cannot be taken. -/
theorem keeps_foldl_option {α : Type} {a t : State} {f : Option State → α → Option State} (hn : ∀ x, f none x = none)
    (hf : ∀ s t x, f (some s) x = some t → Keeps a s → Keeps a t) (l : List α) {s : State} (e : l.foldl f (some s) = some t)
    (h : Keeps a s) : Keeps a t := by
  induction l generalizing s with
  | nil => cases e; exact h
  | cons x l ih =>
    rw [List.foldl_cons] at e
    cases k : f (some s) x with
    | none =>
      rw [k] at e
      have hl : ∀ l : List α, l.foldl f none = none := fun l => by
        induction l with
        | nil => rfl
        | cons y l ih => rw [List.foldl_cons, hn, ih]
      rw [hl] at e; cases e
    | some u => rw [k] at e; exact ih e (hf _ _ _ k h)

/-- A fold over pairs whose second part is the state. -/
theorem keeps_foldl_snd {α β : Type} {a : State} {f : β × State → α → β × State}
    (hf : ∀ p x, Keeps a p.2 → Keeps a (f p x).2) (l : List α) {p : β × State} (h : Keeps a p.2) : Keeps a (l.foldl f p).2 := by
  induction l generalizing p with
  | nil => exact h
  | cons x l ih => exact ih (hf _ _ h)

theorem keeps_foldl_fst {α β : Type} {a : State} {f : State × β → α → State × β}
    (hf : ∀ p x, Keeps a p.1 → Keeps a (f p x).1) (l : List α) {p : State × β} (h : Keeps a p.1) : Keeps a (l.foldl f p).1 := by
  induction l generalizing p with
  | nil => exact h
  | cons x l ih => exact ih (hf _ _ h)

/-- A meaning keeps what commands keep when its check, its note of a hold and its effect do. -/
def Meaning.keeps (m : Meaning) : Prop :=
  ∀ a s z, Keeps a s → Keeps a (m.check s z).2 ∧ Keeps a (m.held s z) ∧ Keeps a (m.effect s z)

end Sys2Proof.Machine
end

