-- ==== Sys2Proof/Laws/Keeps1.lean ====
section
/-! SUPPORT. What the operations and commands of these files keep (`Keeps`): Ops, Ras, Coh, Cmds, Landing, MatrixUnit, Sched, Stop, Operands, Flags, Alu, L1. -/

namespace Sys2Proof.Machine

set_option Elab.async false

/-! ### Ops -/

theorem State.setFldN_keeps {a s : State} {x1_cls : Nat} {x2_inst : Nat} {x3_f : Fld} {x4_d : Nat} {x5_v : Nat} (h : Keeps a s) : Keeps a (State.setFldN s x1_cls x2_inst x3_f x4_d x5_v) := by
  unfold State.setFldN
  grind [keeps_mk, keeps_foldl]

theorem State.setFld_keeps {a s : State} {x1_cls : Nat} {x2_inst : Nat} {x3_f : Fld} {x4_v : Nat} (h : Keeps a s) : Keeps a (State.setFld s x1_cls x2_inst x3_f x4_v) := by
  unfold State.setFld
  grind [State.setFldN_keeps, keeps_mk, keeps_foldl]

theorem State.setFlds_keeps {a s : State} {x1_cls : Nat} {x2_inst : Nat} {x3_l : List (Fld × Nat)} (h : Keeps a s) : Keeps a (State.setFlds s x1_cls x2_inst x3_l) := by
  unfold State.setFlds
  grind [State.setFld_keeps, keeps_mk, keeps_foldl]

theorem State.setX_keeps {a s : State} {x1_n : Nat} {x2_f : Fld} {x3_v : Nat} (h : Keeps a s) : Keeps a (State.setX s x1_n x2_f x3_v) := by
  unfold State.setX
  grind [State.setFld_keeps, keeps_mk, keeps_foldl]

theorem State.setK_keeps {a s : State} {x1_c : Nat} {x2_f : Fld} {x3_v : Nat} (h : Keeps a s) : Keeps a (State.setK s x1_c x2_f x3_v) := by
  unfold State.setK
  grind [State.setFld_keeps, keeps_mk, keeps_foldl]

theorem countOne_keeps {a s : State} {x0_cls : Nat} {x1_inst : Nat} {x2_code : Nat} {x3_n : Nat} {x4_k : Nat} (h : Keeps a s) : Keeps a (countOne x0_cls x1_inst x2_code x3_n x4_k s) := by
  unfold countOne
  grind [State.setFldN_keeps, keeps_mk, keeps_foldl]

theorem State.count_keeps {a s : State} {x1_cls : Nat} {x2_inst : Nat} {x3_code : Nat} {x4_n : Nat} (h : Keeps a s) : Keeps a (State.count s x1_cls x2_inst x3_code x4_n) := by
  unfold State.count
  grind [countOne_keeps, keeps_mk, keeps_foldl]

theorem State.kcount_keeps {a s : State} {x1_c : Nat} {x2_code : Nat} {x3_n : Nat} (h : Keeps a s) : Keeps a (State.kcount s x1_c x2_code x3_n) := by
  unfold State.kcount
  grind [State.count_keeps, keeps_mk, keeps_foldl]

theorem State.xcount_keeps {a s : State} {x1_x : Nat} {x2_code : Nat} {x3_n : Nat} (h : Keeps a s) : Keeps a (State.xcount s x1_x x2_code x3_n) := by
  unfold State.xcount
  grind [State.count_keeps, keeps_mk, keeps_foldl]

theorem State.errBit_keeps {a s : State} {x1_cls : Nat} {x2_inst : Nat} {x3_b : Nat} (h : Keeps a s) : Keeps a (State.errBit s x1_cls x2_inst x3_b) := by
  unfold State.errBit
  grind [State.setFlds_keeps, State.setFld_keeps, keeps_mk, keeps_foldl]

theorem State.raise_keeps {a s : State} {x1_cls : Nat} {x2_inst : Nat} {x3_b : Nat} {x4_recorded : Bool} (h : Keeps a s) : Keeps a (State.raise s x1_cls x2_inst x3_b x4_recorded) := by
  unfold State.raise
  grind [State.errBit_keeps, State.setFld_keeps, keeps_mk, keeps_foldl]

theorem State.record_keeps {a s : State} {x1_cls : Nat} {x2_inst : Nat} {x3_b : Nat} {x4_v : Fld} {x5_l : List (Fld × Nat)} (h : Keeps a s) : Keeps a (State.record s x1_cls x2_inst x3_b x4_v x5_l) := by
  unfold State.record
  grind [State.raise_keeps, State.setFld_keeps, State.setFlds_keeps, keeps_mk, keeps_foldl]

theorem State.disarm_keeps {a s : State} {x1_cls : Nat} {x2_inst : Nat} (h : Keeps a s) : Keeps a (State.disarm s x1_cls x2_inst) := by
  unfold State.disarm
  grind [State.errBit_keeps, State.setFld_keeps, keeps_mk, keeps_foldl]

theorem State.takeInjection_keeps {a s t : State} {x1_cls : Nat} {x2_inst : Nat} {x3_kind : Nat} (e : State.takeInjection s x1_cls x2_inst x3_kind = some t) (h : Keeps a s) : Keeps a t := by
  unfold State.takeInjection at e
  grind [State.disarm_keeps, keeps_mk, keeps_foldl]

theorem State.setCore_keeps {a s : State} {x1_c : Nat} {x2_k : Core} (h : Keeps a s) : Keeps a (State.setCore s x1_c x2_k) := by
  unfold State.setCore
  grind [keeps_mk, keeps_foldl]

theorem State.modCore_keeps {a s : State} {x1_c : Nat} {x2_f : Core → Core} (h : Keeps a s) : Keeps a (State.modCore s x1_c x2_f) := by
  unfold State.modCore
  grind [State.setCore_keeps, keeps_mk, keeps_foldl]

theorem State.setSlice_keeps {a s : State} {x1_n : Nat} {x2_x : Slice} (h : Keeps a s) : Keeps a (State.setSlice s x1_n x2_x) := by
  unfold State.setSlice
  grind [keeps_mk, keeps_foldl]

theorem State.modSlice_keeps {a s : State} {x1_n : Nat} {x2_f : Slice → Slice} (h : Keeps a s) : Keeps a (State.modSlice s x1_n x2_f) := by
  unfold State.modSlice
  grind [State.setSlice_keeps, keeps_mk, keeps_foldl]

theorem State.setCtx_keeps {a s : State} {x1_n : Nat} {x2_x : Ctx} (h : Keeps a s) : Keeps a (State.setCtx s x1_n x2_x) := by
  unfold State.setCtx
  grind [keeps_mk, keeps_foldl]

theorem State.modCtx_keeps {a s : State} {x1_n : Nat} {x2_f : Ctx → Ctx} (h : Keeps a s) : Keeps a (State.modCtx s x1_n x2_f) := by
  unfold State.modCtx
  grind [State.setCtx_keeps, keeps_mk, keeps_foldl]

theorem State.modQueue_keeps {a s : State} {x1_n : Nat} {x2_q : Nat} {x3_f : Queue → Queue} (h : Keeps a s) : Keeps a (State.modQueue s x1_n x2_q x3_f) := by
  unfold State.modQueue
  grind [State.modCtx_keeps, keeps_mk, keeps_foldl]

theorem State.modCove_keeps {a s : State} {x1_c : Nat} {x2_f : Cove → Cove} (h : Keeps a s) : Keeps a (State.modCove s x1_c x2_f) := by
  unfold State.modCove
  grind [keeps_mk, keeps_foldl]

theorem State.modEdge_keeps {a s : State} {x1_p : Nat} {x2_f : Edge → Edge} (h : Keeps a s) : Keeps a (State.modEdge s x1_p x2_f) := by
  unfold State.modEdge
  grind [keeps_mk, keeps_foldl]

theorem State.modDom_keeps {a s : State} {x1_d : Nat} {x2_f : Dom → Dom} (h : Keeps a s) : Keeps a (State.modDom s x1_d x2_f) := by
  unfold State.modDom
  grind [keeps_mk, keeps_foldl]

theorem State.modPort_keeps {a s : State} {x1_p : Nat} {x2_f : Twp → Twp} (h : Keeps a s) : Keeps a (State.modPort s x1_p x2_f) := by
  unfold State.modPort
  grind [keeps_mk, keeps_foldl]

theorem State.modChan_keeps {a s : State} {x1_c : Nat} {x2_f : Chan → Chan} (h : Keeps a s) : Keeps a (State.modChan s x1_c x2_f) := by
  unfold State.modChan
  grind [keeps_mk, keeps_foldl]

theorem State.modGroup_keeps {a s : State} {x1_c : Nat} {x2_g : Nat} {x3_f : Group → Group} (h : Keeps a s) : Keeps a (State.modGroup s x1_c x2_g x3_f) := by
  unfold State.modGroup
  grind [State.modCore_keeps, keeps_mk, keeps_foldl]

theorem State.draw_keeps {a s : State} {x1_n : Nat} (h : Keeps a s) : Keeps a (State.draw s x1_n).2 := by
  unfold State.draw
  exact keeps_draws h

theorem State.drawBytes_keeps {a s : State} {x1_n : Nat} (h : Keeps a s) : Keeps a (State.drawBytes s x1_n).2 := by
  unfold State.drawBytes
  exact keeps_draws h

theorem State.emit_keeps {a s : State} {x1_m : OutMsg} (h : Keeps a s) : Keeps a (State.emit s x1_m) := by
  unfold State.emit
  grind [keeps_mk, keeps_foldl]

theorem State.setPoison_keeps {a s : State} {x1_pa : Nat} {x2_b : Bool} (h : Keeps a s) : Keeps a (State.setPoison s x1_pa x2_b) := by
  unfold State.setPoison
  grind [keeps_mk, keeps_foldl]

theorem State.setPw_keeps {a s : State} {x1_f : PwrSt → PwrSt} (h : Keeps a s) : Keeps a (State.setPw s x1_f) := by
  unfold State.setPw
  grind [keeps_mk, keeps_foldl]

/-! ### Ras -/

theorem State.raiseVector_keeps {a s : State} {x1_fn : Option Nat} {x2_v : Nat} (h : Keeps a s) : Keeps a (State.raiseVector s x1_fn x2_v) := by
  unfold State.raiseVector
  grind [State.emit_keeps, keeps_mk, keeps_foldl]

theorem State.tmk_keeps {a s : State} {x1_f : TmkOpen → TmkOpen} (h : Keeps a s) : Keeps a (State.tmk s x1_f) := by
  unfold State.tmk
  grind [keeps_mk, keeps_foldl]

theorem State.rasRecord_keeps {a s : State} {x1_e : RasEv} {x2_level : Nat} (h : Keeps a s) : Keeps a (State.rasRecord s x1_e x2_level) := by
  unfold State.rasRecord
  grind [State.tmk_keeps, State.count_keeps, State.emit_keeps, State.raiseVector_keeps, keeps_mk, keeps_foldl]

theorem State.mapChange_keeps {a s : State}  (h : Keeps a s) : Keeps a (State.mapChange s) := by
  unfold State.mapChange
  grind [State.emit_keeps, State.count_keeps, State.setFld_keeps, keeps_mk, keeps_foldl]

theorem State.withdrawFrame_keeps {a s : State}  (h : Keeps a s) : Keeps a (State.withdrawFrame s) := by
  unfold State.withdrawFrame
  grind [keeps_mk, keeps_foldl]

theorem State.mapOut_keeps {a s : State} {x1_ch : Nat} (h : Keeps a s) : Keeps a (State.mapOut s x1_ch) := by
  unfold State.mapOut
  grind [State.mapChange_keeps, State.withdrawFrame_keeps, State.modChan_keeps, keeps_mk, keeps_foldl]

theorem State.retireAdd_keeps {a s : State} {x1_e : Nat} (h : Keeps a s) : Keeps a (State.retireAdd s x1_e).1 := by
  unfold State.retireAdd
  grind [keeps_mk, keeps_foldl]

theorem State.setBucket_keeps {a s : State} {x1_cls : Nat} {x2_inst : Nat} {x3_b : Bucket} (h : Keeps a s) : Keeps a (State.setBucket s x1_cls x2_inst x3_b) := by
  unfold State.setBucket
  grind [keeps_mk, keeps_foldl]

theorem State.declareSource_keeps {a s : State} {x1_e : RasEv} (h : Keeps a s) : Keeps a (State.declareSource s x1_e) := by
  unfold State.declareSource
  grind [State.count_keeps, State.modPort_keeps, State.setBucket_keeps, State.retireAdd_keeps, State.rasRecord_keeps, State.mapOut_keeps, keeps_mk, keeps_foldl]

theorem State.checkBucket_keeps {a s : State} {x1_e : RasEv} (h : Keeps a s) : Keeps a (State.checkBucket s x1_e) := by
  unfold State.checkBucket
  grind [State.declareSource_keeps, keeps_mk, keeps_foldl]

theorem State.rasEvent_keeps {a s : State} {x1_e : RasEv} {x2_injected : Bool} (h : Keeps a s) : Keeps a (State.rasEvent s x1_e x2_injected) := by
  unfold State.rasEvent
  grind [State.rasRecord_keeps, State.tmk_keeps, State.setBucket_keeps, State.checkBucket_keeps, keeps_mk, keeps_foldl]

theorem State.coreUncorr_keeps {a s : State} {x1_c : Nat} {x2_errOff : Nat} {x3_injected : Bool} (h : Keeps a s) : Keeps a (State.coreUncorr s x1_c x2_errOff x3_injected) := by
  unfold State.coreUncorr
  grind [State.rasEvent_keeps, keeps_mk, keeps_foldl]

theorem State.coreCorrected_keeps {a s : State} {x1_c : Nat} {x2_injected : Bool} (h : Keeps a s) : Keeps a (State.coreCorrected s x1_c x2_injected) := by
  unfold State.coreCorrected
  grind [State.rasEvent_keeps, keeps_mk, keeps_foldl]

/-! ### Coh -/

theorem State.hbmCe_keeps {a s : State} {x1_ch : Nat} {x2_burst : Nat} {x3_injected : Bool} (h : Keeps a s) : Keeps a (State.hbmCe s x1_ch x2_burst x3_injected) := by
  unfold State.hbmCe
  grind [State.rasEvent_keeps, State.raise_keeps, State.count_keeps, keeps_mk, keeps_foldl]

theorem State.hbmRetryOk_keeps {a s : State} {x1_ch : Nat} (h : Keeps a s) : Keeps a (State.hbmRetryOk s x1_ch) := by
  unfold State.hbmRetryOk
  grind [State.count_keeps, keeps_mk, keeps_foldl]

theorem State.hbmUe_keeps {a s : State} {x1_ch : Nat} {x2_burst : Nat} {x3_scrub : Bool} {x4_injected : Bool} (h : Keeps a s) : Keeps a (State.hbmUe s x1_ch x2_burst x3_scrub x4_injected) := by
  unfold State.hbmUe
  (repeat' first | split | refine keeps_foldl (fun s x h => ?_) _ ?_) <;> grind [State.setPoison_keeps, State.draw_keeps, State.record_keeps, State.count_keeps, State.rasEvent_keeps, keeps_mk, keeps_foldl]

theorem State.countWrites_keeps {a s : State} {x1_line : Nat} {x2_full : Nat} {x3_part : Nat} (h : Keeps a s) : Keeps a (State.countWrites s x1_line x2_full x3_part) := by
  unfold State.countWrites
  grind [State.count_keeps, keeps_mk, keeps_foldl]

theorem State.memPut_keeps {a s : State} {x1_pa : Nat} {x2_bs : List Byte} {x3_poison : Bool} (h : Keeps a s) : Keeps a (State.memPut s x1_pa x2_bs x3_poison) := by
  unfold State.memPut
  grind [State.setPoison_keeps, Mem.wf_write, Mem.wf_writeBytes, Mem.wf_writeLE, Mem.wf_mdrop, Mem.wf_clear, Mem.wf_filter, Mem.wf_foldl, keeps_mk, keeps_foldl]

theorem State.sectorDown_keeps {a s : State} {x1_c : Nat} {x2_line : Nat} {x3_sec : Nat} {x4_data : Mem} {x5_poison : Bool} (h : Keeps a s) : Keeps a (State.sectorDown s x1_c x2_line x3_sec x4_data x5_poison) := by
  unfold State.sectorDown
  grind [State.modSlice_keeps, State.memPut_keeps, State.countWrites_keeps, keeps_mk, keeps_foldl]

theorem State.recallLine_keeps {a s : State} {x1_c : Nat} {x2_line : Nat} (h : Keeps a s) : Keeps a (State.recallLine s x1_c x2_line) := by
  unfold State.recallLine
  grind [State.sectorDown_keeps, State.modCore_keeps, State.modSlice_keeps, keeps_mk, keeps_foldl]

theorem State.ghostWrite_keeps {a s : State} {x1_c : Nat} {x2_line : Nat} (h : Keeps a s) : Keeps a (State.ghostWrite s x1_c x2_line) := by
  unfold State.ghostWrite
  grind [State.modSlice_keeps, State.count_keeps, State.memPut_keeps, State.countWrites_keeps, keeps_mk, keeps_foldl]

theorem State.setHline_keeps {a s : State} {x1_h : Nat} {x2_l : Nat} {x3_x : SLine} (h : Keeps a s) : Keeps a (State.setHline s x1_h x2_l x3_x) := by
  unfold State.setHline
  grind [State.modSlice_keeps, keeps_mk, keeps_foldl]

theorem State.hcount_keeps {a s : State} {x1_h : Nat} {x2_code : Nat} {x3_n : Nat} (h : Keeps a s) : Keeps a (State.hcount s x1_h x2_code x3_n) := by
  unfold State.hcount
  grind [State.count_keeps, keeps_mk, keeps_foldl]

theorem State.scount_keeps {a s : State} {x1_h : Nat} {x2_code : Nat} {x3_n : Nat} (h : Keeps a s) : Keeps a (State.scount s x1_h x2_code x3_n) := by
  unfold State.scount
  grind [State.count_keeps, keeps_mk, keeps_foldl]

theorem State.memCheck_keeps {a s : State} {x1_line : Nat} {x2_need : Nat} {x3_ue : Bool} (h : Keeps a s) : Keeps a (State.memCheck s x1_line x2_need x3_ue) := by
  unfold State.memCheck
  grind (splits := 40) (gen := 20) (ematch := 20) [State.count_keeps, State.takeInjection_keeps, State.hbmUe_keeps, State.hbmCe_keeps, keeps_mk, keeps_foldl]

theorem State.fetch_keeps {a s : State} {x1_h : Nat} {x2_line : Nat} {x3_need : Nat} {x4_ue : Bool} (h : Keeps a s) : Keeps a (State.fetch s x1_h x2_line x3_need x4_ue) := by
  unfold State.fetch
  grind [State.memCheck_keeps, State.setHline_keeps, keeps_mk, keeps_foldl]

theorem State.writeDown_keeps {a s : State} {x1_h : Nat} {x2_line : Nat} (h : Keeps a s) : Keeps a (State.writeDown s x1_h x2_line) := by
  unfold State.writeDown
  grind [State.memPut_keeps, State.setHline_keeps, State.countWrites_keeps, keeps_mk, keeps_foldl]

theorem State.findWay_keeps {a s : State} {x1_h : Nat} {x2_line : Nat} (h : Keeps a s) : Keeps a (State.findWay s x1_h x2_line).2 := by
  unfold State.findWay
  grind [State.setSlice_keeps, keeps_mk, keeps_foldl]

theorem State.claimWay_keeps {a s : State} {x1_h : Nat} {x2_m : Msg} {x3_way : Nat} (h : Keeps a s) : Keeps a (State.claimWay s x1_h x2_m x3_way) := by
  unfold State.claimWay
  grind [State.modSlice_keeps, State.scount_keeps, keeps_mk, keeps_foldl]

theorem State.accepted_keeps {a s : State} {x1_h : Nat} {x2_code : Nat} (h : Keeps a s) : Keeps a (State.accepted s x1_h x2_code) := by
  unfold State.accepted
  grind [State.hcount_keeps, keeps_mk, keeps_foldl]

theorem State.countInvs_keeps {a s : State} {x1_c : Nat} {x2_h : Nat} {x3_line : Nat} (h : Keeps a s) : Keeps a (State.countInvs s x1_c x2_h x3_line) := by
  unfold State.countInvs
  grind [State.hcount_keeps, keeps_mk, keeps_foldl]

theorem State.linePut_keeps {a s : State} {x1_c : Nat} {x2_pa : Nat} {x3_bs : List Byte} {x4_poison : Bool} (h : Keeps a s) : Keeps a (State.linePut s x1_c x2_pa x3_bs x4_poison) := by
  unfold State.linePut
  refine keeps_foldl (fun s x h => ?_) _ (State.countWrites_keeps (State.ghostWrite_keeps (State.recallLine_keeps (State.hcount_keeps
    (State.countInvs_keeps (State.accepted_keeps h))))))
  dsimp only
  split
  · exact h
  · exact keeps_ite (State.modSlice_keeps (keeps_ite (State.memPut_keeps h) h)) (keeps_ite (State.memPut_keeps h) h)

theorem State.paWrite_keeps {a s t : State} {x1_c : Nat} {x2_pa : Nat} {x3_bs : List Byte} {x4_poison : Bool}  (e : State.paWrite s x1_c x2_pa x3_bs x4_poison = .ok t) (h : Keeps a s) : Keeps a t := by
  unfold State.paWrite at e
  grind [State.memPut_keeps, State.linePut_keeps, Mem.wf_write, Mem.wf_writeBytes, Mem.wf_writeLE, Mem.wf_mdrop, Mem.wf_clear, Mem.wf_filter, Mem.wf_foldl, keeps_mk, keeps_foldl]

theorem State.reread_keeps {a s : State} {x1_h : Nat} {x2_line : Nat} {x3_src : Nat} {x4_strict : Bool} (h : Keeps a s) : Keeps a (State.reread s x1_h x2_line x3_src x4_strict) := by
  unfold State.reread
  grind [State.scount_keeps, State.setFlds_keeps, keeps_mk, keeps_foldl]

theorem State.dropLine_keeps {a s : State} {x1_c : Nat} {x2_h : Nat} {x3_line : Nat} (h : Keeps a s) : Keeps a (State.dropLine s x1_c x2_h x3_line) := by
  unfold State.dropLine
  grind [State.hcount_keeps, State.countInvs_keeps, State.setHline_keeps, State.writeDown_keeps, State.recallLine_keeps, keeps_mk, keeps_foldl]

theorem State.makeRoom_keeps {a s : State} {x1_h : Nat} {x2_m : Msg} (h : Keeps a s) : Keeps a (State.makeRoom s x1_h x2_m) := by
  unfold State.makeRoom
  grind [State.findWay_keeps, State.claimWay_keeps, State.dropLine_keeps, keeps_mk, keeps_foldl]

theorem State.snoopAt_keeps {a s : State} {x1_node : Nat} {x2_c : Nat} {x3_line : Nat} {x4_mask : Nat} {x5_alloc : Bool} (h : Keeps a s) : Keeps a (State.snoopAt s x1_node x2_c x3_line x4_mask x5_alloc) := by
  unfold State.snoopAt
  grind [State.accepted_keeps, State.fetch_keeps, State.setHline_keeps, State.hcount_keeps, State.reread_keeps, State.memCheck_keeps, State.makeRoom_keeps, keeps_mk, keeps_foldl]

theorem State.noteRead_keeps {a s : State} {x1_node : Nat} {x2_c : Nat} {x3_pa : Nat} {x4_n : Nat} {x5_alloc : optParam Bool true} (h : Keeps a s) : Keeps a (State.noteRead s x1_node x2_c x3_pa x4_n x5_alloc) := by
  unfold State.noteRead
  grind [State.scount_keeps, State.snoopAt_keeps, keeps_mk, keeps_foldl]

theorem State.noteBuf_keeps {a s : State} {x1_node : Nat} {x2_c : Nat} {x3_space : Nat} {x4_a : Nat} {x5_n : Nat} (h : Keeps a s) : Keeps a (State.noteBuf s x1_node x2_c x3_space x4_a x5_n) := by
  unfold State.noteBuf
  grind [State.noteRead_keeps, keeps_mk, keeps_foldl]

theorem State.pieceWrite_keeps {a s t : State} {x1_c : Nat} {x2_space : Nat} {x3_a : Nat} {x4_bs : List Byte} {x5_poison : Bool}  (e : State.pieceWrite s x1_c x2_space x3_a x4_bs x5_poison = .ok t) (h : Keeps a s) : Keeps a t := by
  unfold State.pieceWrite at e
  grind [State.paWrite_keeps, Mem.wf_write, Mem.wf_writeBytes, Mem.wf_writeLE, Mem.wf_mdrop, Mem.wf_clear, Mem.wf_filter, Mem.wf_foldl, keeps_mk, keeps_foldl]

theorem State.rangeWrite_keeps {a s t : State} {x1_c : Nat} {x2_space : Nat} {x3_bs : List Byte} {x4_poison : Bool} {x5_a : List (Nat × Nat)} {x6_a : Nat}  (e : State.rangeWrite s x1_c x2_space x3_bs x4_poison x5_a x6_a = .ok t) (h : Keeps a s) : Keeps a t := by
  revert e
  induction x5_a generalizing s x6_a with
  | nil => intro e; cases e; exact h
  | cons p l ih => intro e; unfold State.rangeWrite at e; grind [State.pieceWrite_keeps]

theorem State.bufWrite_keeps {a s t : State} {x1_c : Nat} {x2_space : Nat} {x3_a : Nat} {x4_bs : List Byte} {x5_poison : Bool}  (e : State.bufWrite s x1_c x2_space x3_a x4_bs x5_poison = .ok t) (h : Keeps a s) : Keeps a t := by
  unfold State.bufWrite at e
  grind [State.rangeWrite_keeps, keeps_mk, keeps_foldl]

/-! ### Cmds -/

theorem State.setQ_keeps {a s : State} {x1_x : Nat} {x2_q : Nat} {x3_f : Fld} {x4_v : Nat} (h : Keeps a s) : Keeps a (State.setQ s x1_x x2_q x3_f x4_v) := by
  unfold State.setQ
  grind [State.setFldN_keeps, keeps_mk, keeps_foldl]

theorem State.qcount_keeps {a s : State} {x1_x : Nat} {x2_code : Nat} {x3_n : Nat} (h : Keeps a s) : Keeps a (State.qcount s x1_x x2_code x3_n) := by
  unfold State.qcount
  grind [State.count_keeps, keeps_mk, keeps_foldl]

theorem State.setCmd_keeps {a s : State} {x1_k : Cmd} (h : Keeps a s) : Keeps a (State.setCmd s x1_k) := by
  unfold State.setCmd
  grind [keeps_mk, keeps_foldl]

theorem State.dropCmd_keeps {a s : State} {x1_x : Nat} {x2_q : Nat} {x3_i : Nat} (h : Keeps a s) : Keeps a (State.dropCmd s x1_x x2_q x3_i) := by
  unfold State.dropCmd
  grind [keeps_mk, keeps_foldl]

theorem State.faultVector_keeps {a s : State} {x1_x : Nat} (h : Keeps a s) : Keeps a (State.faultVector s x1_x) := by
  unfold State.faultVector
  grind [State.raiseVector_keeps, keeps_mk, keeps_foldl]

theorem State.queueIntr_keeps {a s : State} {x1_x : Nat} {x2_q : Nat} (h : Keeps a s) : Keeps a (State.queueIntr s x1_x x2_q) := by
  unfold State.queueIntr
  grind [State.raiseVector_keeps, State.qcount_keeps, State.modQueue_keeps, keeps_mk, keeps_foldl]

theorem State.countIntr_keeps {a s : State} {x1_x : Nat} {x2_q : Nat} (h : Keeps a s) : Keeps a (State.countIntr s x1_x x2_q) := by
  unfold State.countIntr
  grind [State.modQueue_keeps, State.queueIntr_keeps, keeps_mk, keeps_foldl]

theorem State.haltQueue_keeps {a s : State} {x1_x : Nat} {x2_q : Nat} {x3_ring : Bool} (h : Keeps a s) : Keeps a (State.haltQueue s x1_x x2_q x3_ring) := by
  unfold State.haltQueue
  grind [State.qcount_keeps, State.modQueue_keeps, keeps_mk, keeps_foldl]

theorem State.putRecord_keeps {a s t : State} {x1_x : Nat} {x2_q : Nat} {x3_n : Nat} {x4_bs : List Byte}  (e : State.putRecord s x1_x x2_q x3_n x4_bs = .ok t) (h : Keeps a s) : Keeps a t := by
  unfold State.putRecord at e
  grind [State.bufWrite_keeps, keeps_mk, keeps_foldl]

theorem State.flushHeld_keeps {a s : State} {x1_x : Nat} {x2_q : Nat} {x3_a : List (List Byte × Nat)} (h : Keeps a s) : Keeps a (State.flushHeld s x1_x x2_q x3_a) := by
  induction x3_a generalizing s with
  | nil => exact State.modQueue_keeps h
  | cons p l ih => unfold State.flushHeld; grind [State.modQueue_keeps, State.putRecord_keeps, State.haltQueue_keeps, State.faultVector_keeps]

theorem State.addRecord_keeps {a s : State} {x1_x : Nat} {x2_q : Nat} {x3_tag : Nat} {x4_idx : Nat} {x5_status : Nat} {x6_flags : Nat} {x7_result : Nat} {x8_coreUs : Nat} {x9_reason : Nat} (h : Keeps a s) : Keeps a (State.addRecord s x1_x x2_q x3_tag x4_idx x5_status x6_flags x7_result x8_coreUs x9_reason) := by
  unfold State.addRecord
  grind [State.modQueue_keeps, State.qcount_keeps, State.flushHeld_keeps, keeps_mk, keeps_foldl]

theorem State.endGhosts_keeps {a s : State} {x1_c : Nat} {x2_nodes : List Nat} (h : Keeps a s) : Keeps a (State.endGhosts s x1_c x2_nodes) := by
  unfold State.endGhosts
  grind [State.count_keeps, State.modSlice_keeps, keeps_mk, keeps_foldl]

theorem State.releasePool_keeps {a s : State} {x1_x : Nat} (h : Keeps a s) : Keeps a (State.releasePool s x1_x) := by
  unfold State.releasePool
  grind [State.modCtx_keeps, State.modCove_keeps, keeps_mk, keeps_foldl]

theorem State.settleCtx_keeps {a s : State} {x1_x : Nat} (h : Keeps a s) : Keeps a (State.settleCtx s x1_x) := by
  unfold State.settleCtx
  grind [State.modCtx_keeps, State.releasePool_keeps, keeps_mk, keeps_foldl]

theorem State.complete_keeps {a s : State} {x1_k : Cmd} {x2_status : Nat} {x3_reason : Nat} {x4_detail : Nat} {x5_noop : Bool} (h : Keeps a s) : Keeps a (State.complete s x1_k x2_status x3_reason x4_detail x5_noop) := by
  unfold State.complete
  grind (splits := 40) (gen := 20) (ematch := 20) [State.endGhosts_keeps, State.dropCmd_keeps, State.setX_keeps, State.addRecord_keeps, State.qcount_keeps, State.haltQueue_keeps, State.countIntr_keeps, State.settleCtx_keeps, keeps_mk, keeps_foldl]

theorem State.finish_keeps {a s : State} {x1_k : Cmd} {x2_result : Nat} (h : Keeps a s) : Keeps a (State.finish s x1_k x2_result) := by
  unfold State.finish
  grind [State.complete_keeps, keeps_mk, keeps_foldl]

theorem State.fail_keeps {a s : State} {x1_k : Cmd} {x2_status : Nat} {x3_reason : Nat} {x4_detail : Nat} (h : Keeps a s) : Keeps a (State.fail s x1_k x2_status x3_reason x4_detail) := by
  unfold State.fail
  grind [State.complete_keeps, keeps_mk, keeps_foldl]

theorem State.failRead_keeps {a s : State} {x1_k : Cmd} {x2_r : Rd} (h : Keeps a s) : Keeps a (State.failRead s x1_k x2_r) := by
  unfold State.failRead
  grind [State.fail_keeps, keeps_mk, keeps_foldl]

theorem State.failReadAt_keeps {a s : State} {x1_node : Nat} {x2_c : Nat} {x3_space : Nat} {x4_a : Nat} {x5_n : Nat} {x6_k : Cmd} {x7_r : Rd} (h : Keeps a s) : Keeps a (State.failReadAt s x1_node x2_c x3_space x4_a x5_n x6_k x7_r) := by
  unfold State.failReadAt
  grind [State.failRead_keeps, State.noteBuf_keeps, keeps_mk, keeps_foldl]

theorem State.noteWide_keeps {a s : State} {x1_c : Nat} {x2_l : Launch} {x3_nan : Nat} {x4_wide : Nat} (h : Keeps a s) : Keeps a (State.noteWide s x1_c x2_l x3_nan x4_wide) := by
  unfold State.noteWide
  (repeat' first | split | refine keeps_foldl (fun s x h => ?_) _ ?_) <;> grind [State.kcount_keeps, State.setCmd_keeps, keeps_mk, keeps_foldl]

/-! ### Landing -/

theorem State.l1ErrRecord_keeps {a s : State} {x1_c : Nat} {x2_source : Nat} {x3_addr : Nat} (h : Keeps a s) : Keeps a (State.l1ErrRecord s x1_c x2_source x3_addr) := by
  unfold State.l1ErrRecord
  grind [State.record_keeps, keeps_mk, keeps_foldl]

theorem State.sendCredit_keeps {a s : State} {x1_c : Nat} {x2_n : Nat} (h : Keeps a s) : Keeps a (State.sendCredit s x1_c x2_n) := by
  unfold State.sendCredit
  grind [keeps_mk, keeps_foldl]

theorem State.slotRead_keeps {a s : State} {x1_c : Nat} {x2_n : Nat} (h : Keeps a s) : Keeps a (State.slotRead s x1_c x2_n) := by
  unfold State.slotRead
  grind [State.sendCredit_keeps, State.modCore_keeps, keeps_mk, keeps_foldl]

theorem State.slotsRead_keeps {a s : State} {x1_c : Nat} {x2_l : List Nat} (h : Keeps a s) : Keeps a (State.slotsRead s x1_c x2_l) := by
  unfold State.slotsRead
  grind [State.slotRead_keeps, keeps_mk, keeps_foldl]

theorem State.beginWait_keeps {a s : State} {x1_c : Nat} {x2_tide : Option Nat} {x3_l : List Nat} (h : Keeps a s) : Keeps a (State.beginWait s x1_c x2_tide x3_l) := by
  unfold State.beginWait
  grind [State.modCore_keeps, keeps_mk, keeps_foldl]

/-! ### MatrixUnit -/

theorem State.setTile_keeps {a s : State} {x1_c : Nat} {x2_blk : Nat} {x3_t : Nat} {x4_l : List (Nat × Nat)} (h : Keeps a s) : Keeps a (State.setTile s x1_c x2_blk x3_t x4_l) := by
  unfold State.setTile
  grind [State.modCore_keeps, keeps_mk, keeps_foldl]

theorem State.runMma_keeps {a s : State} {x1_c : Nat} {x2_e : MxEntry} {x3_w : MmaW} {x4_t : Nat} {x5_a : Nat} {x6_b : Nat} {x7_sca : Option Nat} {x8_scb : Option Nat} {x9_rm : RMode} {x10_sm : SatMode} (h : Keeps a s) : Keeps a (State.runMma s x1_c x2_e x3_w x4_t x5_a x6_b x7_sca x8_scb x9_rm x10_sm) := by
  unfold State.runMma
  grind [State.setTile_keeps, State.kcount_keeps, State.slotsRead_keeps, keeps_mk, keeps_foldl]

theorem State.runMx_keeps {a s : State} {x1_c : Nat} {x2_e : MxEntry} (h : Keeps a s) : Keeps a (State.runMx s x1_c x2_e) := by
  unfold State.runMx
  grind [State.kcount_keeps, State.runMma_keeps, State.modCore_keeps, State.noteWide_keeps, State.setTile_keeps, keeps_mk, keeps_foldl]

theorem State.finishMx_keeps {a s : State} {x1_c : Nat} (h : Keeps a s) : Keeps a (State.finishMx s x1_c) := by
  unfold State.finishMx
  grind [State.runMx_keeps, State.modCore_keeps, keeps_mk, keeps_foldl]

/-! ### Sched -/

theorem State.reserve_keeps {a s : State} {x1_x : Nat} (h : Keeps a s) : Keeps a (State.reserve s x1_x).1 := by
  unfold State.reserve
  grind [State.xcount_keeps, State.modCtx_keeps, State.modCove_keeps, keeps_mk, keeps_foldl]

theorem State.beginSave_keeps {a s : State} {x1_x : Nat} (h : Keeps a s) : Keeps a (State.beginSave s x1_x) := by
  unfold State.beginSave
  grind [State.reserve_keeps, State.modCtx_keeps, keeps_mk, keeps_foldl]

theorem State.noteWaits_keeps {a s : State} {x1_c : Nat} (h : Keeps a s) : Keeps a (State.noteWaits s x1_c) := by
  unfold State.noteWaits
  grind [State.modCtx_keeps, keeps_mk, keeps_foldl]

theorem State.schedule_keeps {a s : State} {x1_c : Nat} (h : Keeps a s) : Keeps a (State.schedule s x1_c) := by
  unfold State.schedule
  grind [State.beginSave_keeps, State.xcount_keeps, keeps_mk, keeps_foldl]

theorem State.coresFreed_keeps {a s : State} {x1_c : Nat} (h : Keeps a s) : Keeps a (State.coresFreed s x1_c) := by
  unfold State.coresFreed
  grind [State.schedule_keeps, State.noteWaits_keeps, keeps_mk, keeps_foldl]

/-! ### Stop -/

theorem State.dropCredits_keeps {a s : State} {x1_c : Nat} (h : Keeps a s) : Keeps a (State.dropCredits s x1_c) := by
  unfold State.dropCredits
  grind [keeps_mk, keeps_foldl]

theorem State.evictAll_keeps {a s : State} {x1_f : Launch → Bool} (h : Keeps a s) : Keeps a (State.evictAll s x1_f) := by
  unfold State.evictAll
  grind [State.finishMx_keeps, State.setCore_keeps, State.dropCredits_keeps, keeps_mk, keeps_foldl]

theorem State.sendSync_keeps {a s : State} {x1_m : SyncMsg} {x2_except : Option Nat} (h : Keeps a s) : Keeps a (State.sendSync s x1_m x2_except) := by
  unfold State.sendSync
  grind [State.modPort_keeps, keeps_mk, keeps_foldl]

theorem State.clearDomWork_keeps {a s : State} {x1_slot : Nat} (h : Keeps a s) : Keeps a (State.clearDomWork s x1_slot) := by
  unfold State.clearDomWork
  grind [keeps_mk, keeps_foldl]

theorem State.abortDom_keeps {a s : State} {x1_slot : Nat} {x2_status : Nat} {x3_reason : Nat} {x4_detail : Nat} {x5_except : Option Nat} (h : Keeps a s) : Keeps a (State.abortDom s x1_slot x2_status x3_reason x4_detail x5_except) := by
  unfold State.abortDom
  dsimp only
  repeat' first | assumption | split | apply State.modDom_keeps | apply State.count_keeps | apply State.sendSync_keeps | apply State.clearDomWork_keeps | apply State.evictAll_keeps | apply State.modCtx_keeps | apply State.dropCredits_keeps | apply State.fail_keeps | apply State.coresFreed_keeps | (refine keeps_foldl (fun s x h => ?_) _ ?_)
  all_goals grind [State.modDom_keeps, State.count_keeps, State.sendSync_keeps, State.clearDomWork_keeps, State.evictAll_keeps, State.modCtx_keeps, State.dropCredits_keeps, State.fail_keeps, State.coresFreed_keeps, keeps_mk, keeps_foldl]

theorem State.startHold_keeps {a s : State} {x1_slot : Nat} (h : Keeps a s) : Keeps a (State.startHold s x1_slot) := by
  unfold State.startHold
  grind [State.sendSync_keeps, State.modDom_keeps, keeps_mk, keeps_foldl]

theorem State.walkFault_keeps {a s : State} {x1_cove : Nat} {x2_va : Nat} (h : Keeps a s) : Keeps a (State.walkFault s x1_cove x2_va) := by
  unfold State.walkFault
  grind [State.count_keeps, keeps_mk, keeps_foldl]

theorem State.takeFaultAt_keeps {a s : State} {x1_c : Nat} {x2_g : Nat} {x3_pc : Nat} {x4_code : Nat} {x5_addr : Nat} (h : Keeps a s) : Keeps a (State.takeFaultAt s x1_c x2_g x3_pc x4_code x5_addr) := by
  unfold State.takeFaultAt
  grind (splits := 40) (gen := 20) (ematch := 20) [State.record_keeps, State.kcount_keeps, State.walkFault_keeps, State.modCtx_keeps, State.setX_keeps, State.faultVector_keeps, State.startHold_keeps, State.modDom_keeps, State.abortDom_keeps, State.setCmd_keeps, State.evictAll_keeps, State.fail_keeps, State.coresFreed_keeps, keeps_mk, keeps_foldl]

theorem State.takeFault_keeps {a s : State} {x1_c : Nat} {x2_g : Nat} {x3_code : Nat} {x4_addr : Nat} (h : Keeps a s) : Keeps a (State.takeFault s x1_c x2_g x3_code x4_addr) := by
  unfold State.takeFault
  grind [State.takeFaultAt_keeps, keeps_mk, keeps_foldl]

/-! ### Operands -/

theorem State.walkCore_keeps {a s : State} {x1_core : Nat} {x2_cove : Nat} {x3_va : Nat} (h : Keeps a s) : Keeps a (State.walkCore s x1_core x2_cove x3_va).2 := by
  unfold State.walkCore
  grind [State.draw_keeps, State.accepted_keeps, State.noteRead_keeps, State.modCore_keeps, keeps_mk, keeps_foldl]

theorem State.coreXlate_keeps {a s : State} {x1_core : Nat} {x2_q : Nat} {x3_cove : Nat} {x4_va : Nat} (h : Keeps a s) : Keeps a (State.coreXlate s x1_core x2_q x3_cove x4_va).2 := by
  unfold State.coreXlate
  grind [State.setCore_keeps, State.draw_keeps, State.modCore_keeps, State.walkCore_keeps, keeps_mk, keeps_foldl]

theorem State.coreAddr_keeps {a s : State} {x1_core : Nat} {x2_q : Nat} {x3_cove : Nat} {x4_va : Nat} {x5_wr : Bool} {x6_direct : optParam Bool true} (h : Keeps a s) : Keeps a (State.coreAddr s x1_core x2_q x3_cove x4_va x5_wr x6_direct).2 := by
  unfold State.coreAddr
  grind [State.coreXlate_keeps, keeps_mk, keeps_foldl]

theorem State.roPut_keeps {a s : State} {x1_core : Nat} {x2_line : Nat} {x3_w : Ro} {x4_bs : List Byte} {x5_poison : Bool} {x6_ref : Bool} (h : Keeps a s) : Keeps a (State.roPut s x1_core x2_line x3_w x4_bs x5_poison x6_ref) := by
  unfold State.roPut
  grind [State.modCore_keeps, keeps_mk, keeps_foldl]

theorem State.roPrefetch_keeps {a s : State} {x1_core : Nat} {x2_cove : Nat} {x3_line : Nat} {x4_a : Nat} (h : Keeps a s) : Keeps a (State.roPrefetch s x1_core x2_cove x3_line x4_a) := by
  induction x4_a with
  | zero => exact h
  | succ n ih => unfold State.roPrefetch; grind [State.roPut_keeps, State.noteRead_keeps]

theorem State.roFill_keeps {a s t : State} {x1_core : Nat} {x2_cove : Nat} {x3_line : Nat} {x4_w : Ro} {v : List Byte} {w x : Bool} (e : State.roFill s x1_core x2_cove x3_line x4_w = .line v w x t) (h : Keeps a s) : Keeps a t := by
  unfold State.roFill at e
  grind [State.kcount_keeps, State.roPut_keeps, State.noteRead_keeps, State.roPrefetch_keeps, keeps_mk, keeps_foldl]

theorem State.roLine_keeps {a s t : State} {x1_core : Nat} {x2_cove : Nat} {x3_pa : Nat} {x4_w : Ro} {v : List Byte} {w x : Bool} (e : State.roLine s x1_core x2_cove x3_pa x4_w = .line v w x t) (h : Keeps a s) : Keeps a t := by
  unfold State.roLine at e
  grind [State.roFill_keeps, State.modCore_keeps, State.draw_keeps, keeps_mk, keeps_foldl]

theorem State.fetchWord_keeps {a s t : State} {x1_core : Nat} {x2_q : Nat} {x3_cove : Nat} {x4_pc : Nat} {v : Nat} (e : State.fetchWord s x1_core x2_q x3_cove x4_pc = .word v t) (h : Keeps a s) : Keeps a t := by
  unfold State.fetchWord at e
  grind [State.coreAddr_keeps, State.roLine_keeps, keeps_mk, keeps_foldl]

theorem State.fetchWord_keeps2 {a s t : State} {x1_core : Nat} {x2_q : Nat} {x3_cove : Nat} {x4_pc : Nat} {v : Nat} (e : State.fetchWord s x1_core x2_q x3_cove x4_pc = .fault v t) (h : Keeps a s) : Keeps a t := by
  unfold State.fetchWord at e
  grind [State.coreAddr_keeps, State.roLine_keeps, keeps_mk, keeps_foldl]

theorem State.fetchWord_keeps3 {a s t : State} {x1_core : Nat} {x2_q : Nat} {x3_cove : Nat} {x4_pc : Nat}  (e : State.fetchWord s x1_core x2_q x3_cove x4_pc = .wait t) (h : Keeps a s) : Keeps a t := by
  unfold State.fetchWord at e
  grind [State.coreAddr_keeps, State.roLine_keeps, keeps_mk, keeps_foldl]

/-! ### Flags -/

theorem State.holdGroup_keeps {a s : State} {x1_c : Nat} {x2_g : Nat} {x3_h : Hold} (h : Keeps a s) : Keeps a (State.holdGroup s x1_c x2_g x3_h) := by
  unfold State.holdGroup
  grind [State.modGroup_keeps, keeps_mk, keeps_foldl]

theorem State.regCheck_keeps {a s : State} {x1_c : Nat} {x2_f : Form} {x3_act : W64} {x4_mem : Bool} (h : Keeps a s) : Keeps a (State.regCheck s x1_c x2_f x3_act x4_mem).2 := by
  unfold State.regCheck
  grind [State.draw_keeps, State.coreUncorr_keeps, State.disarm_keeps, State.coreCorrected_keeps, State.errBit_keeps, keeps_mk, keeps_foldl]

theorem State.hostWait_keeps {a s : State} {x1_c : Nat} {x2_g : Nat} {x3_va : Nat} (h : Keeps a s) : Keeps a (State.hostWait s x1_c x2_g x3_va) := by
  unfold State.hostWait
  grind [State.holdGroup_keeps, State.emit_keeps, State.count_keeps, keeps_mk, keeps_foldl]

theorem State.faultOrWait_keeps {a s : State} {x1_c : Nat} {x2_g : Nat} {x3_code : Nat} {x4_addr : Nat} (h : Keeps a s) : Keeps a (State.faultOrWait s x1_c x2_g x3_code x4_addr) := by
  unfold State.faultOrWait
  grind [State.hostWait_keeps, State.modEdge_keeps, State.takeFault_keeps, keeps_mk, keeps_foldl]

theorem State.issueAt_keeps {a s : State} {w : IWord} {op : Nat × Nat} {m : Meaning} (hm : m.keeps) (h : Keeps a s) : Keeps a (s.issueAt w op m) := by
  unfold State.issueAt
  grind [State.holdGroup_keeps, State.regCheck_keeps, State.faultOrWait_keeps, State.modGroup_keeps, Meaning.keeps, keeps_mk, keeps_foldl]

theorem State.issue_keeps {a s : State} {w : IWord} {op : Nat × Nat} {m : Meaning} (hm : m.keeps) (h : Keeps a s) : Keeps a (s.issue w op m) := by
  unfold State.issue
  grind [State.kcount_keeps, State.modCore_keeps, State.fetchWord_keeps, State.fetchWord_keeps2, State.fetchWord_keeps3, State.holdGroup_keeps, State.faultOrWait_keeps, State.issueAt_keeps, keeps_mk, keeps_foldl]

/-! ### Alu -/

theorem State.writeD_keeps {a s : State} {x1_z : Iss} {x2_f : Fmt} {x3_val : Nat → Nat} (h : Keeps a s) : Keeps a (State.writeD s x1_z x2_f x3_val) := by
  unfold State.writeD
  grind [State.modGroup_keeps, keeps_mk, keeps_foldl]

theorem State.alu_keeps {a s t : State} {w : IWord} {r : AluRow} {m : Meaning} (hm : m.keeps) (e : s.alu w r m = .next t) (h : Keeps a s) : Keeps a t := by
  unfold State.alu at e
  grind [State.issue_keeps, keeps_mk, keeps_foldl]

theorem valueMeaning_keeps (r : AluRow) (fresh : Bool) (op : Launch → Ins → Fmt → Nat → Nat → Nat → Nat → Nat) :
    (valueMeaning r fresh op).keeps := by
  refine fun a s z h => ⟨h, h, ?_⟩
  simp only [valueMeaning]
  split
  · exact keeps_free (State.writeD_keeps h) (Nat.le_add_right_of_le h.draws)
  · exact State.writeD_keeps h

theorem maskMeaning_keeps (r : AluRow) (op : Iss → W64) : (maskMeaning r op).keeps := by
  exact fun a s z h => ⟨h, h, State.modGroup_keeps h⟩

theorem execNopInstruction_keeps {a s t : State} {x0_i : IWord} (e : execNopInstruction x0_i s = .next t) (h : Keeps a s) : Keeps a t := by
  unfold execNopInstruction State.alu at e
  cases e
  refine State.issue_keeps (fun a s z h => ⟨?_, ?_, ?_⟩) h <;> grind [keeps_mk, keeps_foldl]

theorem execMov_keeps {a s t : State} {x0_i : IWord} (e : execMov x0_i s = .next t) (h : Keeps a s) : Keeps a t := State.alu_keeps (valueMeaning_keeps _ _ _) e h

theorem execMovSv_keeps {a s t : State} {x0_i : IWord} (e : execMovSv x0_i s = .next t) (h : Keeps a s) : Keeps a t := by
  refine State.alu_keeps (fun a s z h => ⟨h, h, ?_⟩) e h
  dsimp only
  split
  · exact keeps_draws (State.writeD_keeps h)
  · exact State.writeD_keeps h

theorem execSel_keeps {a s t : State} {x0_i : IWord} (e : execSel x0_i s = .next t) (h : Keeps a s) : Keeps a t := by
  unfold execSel State.alu at e
  cases e
  refine State.issue_keeps (fun a s z h => ⟨?_, ?_, ?_⟩) h <;> grind [State.writeD_keeps, keeps_mk, keeps_foldl]

theorem execAdd_keeps {a s t : State} {x0_i : IWord} (e : execAdd x0_i s = .next t) (h : Keeps a s) : Keeps a t := State.alu_keeps (valueMeaning_keeps _ _ _) e h

theorem execSub_keeps {a s t : State} {x0_i : IWord} (e : execSub x0_i s = .next t) (h : Keeps a s) : Keeps a t := State.alu_keeps (valueMeaning_keeps _ _ _) e h

theorem execMul_keeps {a s t : State} {x0_i : IWord} (e : execMul x0_i s = .next t) (h : Keeps a s) : Keeps a t := State.alu_keeps (valueMeaning_keeps _ _ _) e h

theorem execMulhi_keeps {a s t : State} {x0_i : IWord} (e : execMulhi x0_i s = .next t) (h : Keeps a s) : Keeps a t := State.alu_keeps (valueMeaning_keeps _ _ _) e h

theorem execFma_keeps {a s t : State} {x0_i : IWord} (e : execFma x0_i s = .next t) (h : Keeps a s) : Keeps a t := State.alu_keeps (valueMeaning_keeps _ _ _) e h

theorem execMin_keeps {a s t : State} {x0_i : IWord} (e : execMin x0_i s = .next t) (h : Keeps a s) : Keeps a t := State.alu_keeps (valueMeaning_keeps _ _ _) e h

theorem execMax_keeps {a s t : State} {x0_i : IWord} (e : execMax x0_i s = .next t) (h : Keeps a s) : Keeps a t := State.alu_keeps (valueMeaning_keeps _ _ _) e h

theorem execAbs_keeps {a s t : State} {x0_i : IWord} (e : execAbs x0_i s = .next t) (h : Keeps a s) : Keeps a t := State.alu_keeps (valueMeaning_keeps _ _ _) e h

theorem execNeg_keeps {a s t : State} {x0_i : IWord} (e : execNeg x0_i s = .next t) (h : Keeps a s) : Keeps a t := State.alu_keeps (valueMeaning_keeps _ _ _) e h

theorem execAnd_keeps {a s t : State} {x0_i : IWord} (e : execAnd x0_i s = .next t) (h : Keeps a s) : Keeps a t := State.alu_keeps (valueMeaning_keeps _ _ _) e h

theorem execOr_keeps {a s t : State} {x0_i : IWord} (e : execOr x0_i s = .next t) (h : Keeps a s) : Keeps a t := State.alu_keeps (valueMeaning_keeps _ _ _) e h

theorem execXor_keeps {a s t : State} {x0_i : IWord} (e : execXor x0_i s = .next t) (h : Keeps a s) : Keeps a t := State.alu_keeps (valueMeaning_keeps _ _ _) e h

theorem execNot_keeps {a s t : State} {x0_i : IWord} (e : execNot x0_i s = .next t) (h : Keeps a s) : Keeps a t := State.alu_keeps (valueMeaning_keeps _ _ _) e h

theorem execShl_keeps {a s t : State} {x0_i : IWord} (e : execShl x0_i s = .next t) (h : Keeps a s) : Keeps a t := State.alu_keeps (valueMeaning_keeps _ _ _) e h

theorem execShr_keeps {a s t : State} {x0_i : IWord} (e : execShr x0_i s = .next t) (h : Keeps a s) : Keeps a t := State.alu_keeps (valueMeaning_keeps _ _ _) e h

theorem execSar_keeps {a s t : State} {x0_i : IWord} (e : execSar x0_i s = .next t) (h : Keeps a s) : Keeps a t := State.alu_keeps (valueMeaning_keeps _ _ _) e h

theorem execPopc_keeps {a s t : State} {x0_i : IWord} (e : execPopc x0_i s = .next t) (h : Keeps a s) : Keeps a t := State.alu_keeps (valueMeaning_keeps _ _ _) e h

theorem execClz_keeps {a s t : State} {x0_i : IWord} (e : execClz x0_i s = .next t) (h : Keeps a s) : Keeps a t := State.alu_keeps (valueMeaning_keeps _ _ _) e h

theorem execBrev_keeps {a s t : State} {x0_i : IWord} (e : execBrev x0_i s = .next t) (h : Keeps a s) : Keeps a t := State.alu_keeps (valueMeaning_keeps _ _ _) e h

theorem execCmp_keeps {a s t : State} {x0_i : IWord} (e : execCmp x0_i s = .next t) (h : Keeps a s) : Keeps a t := by
  unfold execCmp State.alu at e
  cases e
  refine State.issue_keeps (fun a s z h => ⟨?_, ?_, ?_⟩) h <;> grind [State.modGroup_keeps, keeps_mk, keeps_foldl]

theorem execCvt_keeps {a s t : State} {x0_i : IWord} (e : execCvt x0_i s = .next t) (h : Keeps a s) : Keeps a t := by
  unfold execCvt State.alu at e
  cases e
  refine State.issue_keeps (fun a s z h => ⟨?_, ?_, ?_⟩) h <;> grind [State.writeD_keeps, State.noteWide_keeps, keeps_mk, keeps_foldl]

theorem execShfl_keeps {a s t : State} {x0_i : IWord} (e : execShfl x0_i s = .next t) (h : Keeps a s) : Keeps a t := by
  unfold execShfl State.alu at e
  cases e
  refine State.issue_keeps (fun a s z h => ⟨?_, ?_, ?_⟩) h <;> grind [State.writeD_keeps, keeps_mk, keeps_foldl]

theorem execVote_keeps {a s t : State} {x0_i : IWord} (e : execVote x0_i s = .next t) (h : Keeps a s) : Keeps a t := by
  unfold execVote State.alu at e
  cases e
  refine State.issue_keeps (fun a s z h => ⟨?_, ?_, ?_⟩) h <;> grind [State.modGroup_keeps, keeps_mk, keeps_foldl]

theorem execMand_keeps {a s t : State} {x0_i : IWord} (e : execMand x0_i s = .next t) (h : Keeps a s) : Keeps a t := State.alu_keeps (maskMeaning_keeps _ _) e h

theorem execMor_keeps {a s t : State} {x0_i : IWord} (e : execMor x0_i s = .next t) (h : Keeps a s) : Keeps a t := State.alu_keeps (maskMeaning_keeps _ _) e h

theorem execMxor_keeps {a s t : State} {x0_i : IWord} (e : execMxor x0_i s = .next t) (h : Keeps a s) : Keeps a t := State.alu_keeps (maskMeaning_keeps _ _) e h

theorem execMnot_keeps {a s t : State} {x0_i : IWord} (e : execMnot x0_i s = .next t) (h : Keeps a s) : Keeps a t := State.alu_keeps (maskMeaning_keeps _ _) e h

theorem execMovPm_keeps {a s t : State} {x0_i : IWord} (e : execMovPm x0_i s = .next t) (h : Keeps a s) : Keeps a t := State.alu_keeps (maskMeaning_keeps _ _) e h

theorem execMovMp_keeps {a s t : State} {x0_i : IWord} (e : execMovMp x0_i s = .next t) (h : Keeps a s) : Keeps a t := by
  unfold execMovMp State.alu at e
  cases e
  refine State.issue_keeps (fun a s z h => ⟨?_, ?_, ?_⟩) h <;> grind [State.modGroup_keeps, keeps_mk, keeps_foldl]

theorem execPopcM_keeps {a s t : State} {x0_i : IWord} (e : execPopcM x0_i s = .next t) (h : Keeps a s) : Keeps a t := by
  unfold execPopcM State.alu at e
  cases e
  refine State.issue_keeps (fun a s z h => ⟨?_, ?_, ?_⟩) h <;> grind [State.modGroup_keeps, keeps_mk, keeps_foldl]

/-! ### L1 -/

theorem State.send_keeps {a s : State} {x1_m : Msg} (h : Keeps a s) : Keeps a (State.send s x1_m) := by
  unfold State.send
  grind [keeps_mk, keeps_foldl]

theorem State.request_keeps {a s : State} {x1_c : Nat} {x2_cove : Nat} {x3_line : Nat} {x4_ty : MTy} {x5_mask : Nat} {x6_aux : Nat} {x7_flags : Nat} {x8_f : Msg → Msg} {x9_op : Nat} {x10_threads : List Nat} (h : Keeps a s) : Keeps a (State.request s x1_c x2_cove x3_line x4_ty x5_mask x6_aux x7_flags x8_f x9_op x10_threads) := by
  unfold State.request
  grind [State.send_keeps, State.setCore_keeps, keeps_mk, keeps_foldl]

theorem State.put_keeps {a s : State} {x1_c : Nat} {x2_cove : Nat} {x3_line : Nat} {x4_ty : MTy} {x5_mask : Nat} {x6_flags : Nat} {x7_data : Mem} {x8_poison : Nat} (h : Keeps a s) : Keeps a (State.put s x1_c x2_cove x3_line x4_ty x5_mask x6_flags x7_data x8_poison) := by
  unfold State.put
  grind [State.send_keeps, keeps_mk, keeps_foldl]

theorem State.evictLine_keeps {a s : State} {x1_c : Nat} {x2_line : Nat} (h : Keeps a s) : Keeps a (State.evictLine s x1_c x2_line) := by
  unfold State.evictLine
  grind [State.modCore_keeps, State.kcount_keeps, State.put_keeps, keeps_mk, keeps_foldl]

theorem State.evictLines_keeps {a s : State} {x1_c : Nat} {x2_ls : List Nat} (h : Keeps a s) : Keeps a (State.evictLines s x1_c x2_ls) := by
  unfold State.evictLines
  grind [State.kcount_keeps, State.evictLine_keeps, keeps_mk, keeps_foldl]

theorem State.cleanLine_keeps {a s : State} {x1_k : Nat} {x2_line : Nat} (h : Keeps a s) : Keeps a (State.cleanLine s x1_k x2_line) := by
  unfold State.cleanLine
  grind [State.sectorDown_keeps, State.modCore_keeps, State.setHline_keeps, keeps_mk, keeps_foldl]

theorem State.maintLine_keeps {a s : State} {x1_c : Nat} {x2_line : Nat} (h : Keeps a s) : Keeps a (State.maintLine s x1_c x2_line) := by
  unfold State.maintLine
  grind [State.cleanLine_keeps, State.evictLines_keeps, keeps_mk, keeps_foldl]

theorem State.maintAll_keeps {a s : State} {x1_c : Nat} (h : Keeps a s) : Keeps a (State.maintAll s x1_c) := by
  unfold State.maintAll
  grind [State.maintLine_keeps, keeps_mk, keeps_foldl]

theorem State.ebbLine_keeps {a s : State} {x1_c : Nat} {x2_line : Nat} (h : Keeps a s) : Keeps a (State.ebbLine s x1_c x2_line) := by
  unfold State.ebbLine
  grind [State.kcount_keeps, State.modCore_keeps, State.put_keeps, keeps_mk, keeps_foldl]

theorem State.scopeCheck_keeps {a s : State} {x1_c : Nat} {x2_o : MemOp} (h : Keeps a s) : Keeps a (State.scopeCheck s x1_c x2_o) := by
  unfold State.scopeCheck
  grind [State.kcount_keeps, State.setFlds_keeps, keeps_mk, keeps_foldl]

theorem State.endOp_keeps {a s : State} {x1_c : Nat} {x2_o : MemOp} (h : Keeps a s) : Keeps a (State.endOp s x1_c x2_o) := by
  unfold State.endOp
  grind [State.scopeCheck_keeps, State.modCore_keeps, State.ebbLine_keeps, State.kcount_keeps, keeps_mk, keeps_foldl]

theorem State.checkOp_keeps {a s : State} {x1_c : Nat} {x2_id : Nat} (h : Keeps a s) : Keeps a (State.checkOp s x1_c x2_id) := by
  unfold State.checkOp
  grind [State.endOp_keeps, keeps_mk, keeps_foldl]

theorem State.pickVictim_keeps {a s t : State} {x1_c : Nat} {x2_line : Nat} {v : Nat} (e : State.pickVictim s x1_c x2_line = some (v, t)) (h : Keeps a s) : Keeps a t := by
  unfold State.pickVictim at e
  grind [State.setCore_keeps, keeps_mk, keeps_foldl]

theorem State.joinMiss_keeps {a s t : State} {x1_c : Nat} {x2_m : MissReg} {x3_id : Nat} (e : State.joinMiss s x1_c x2_m x3_id = some t) (h : Keeps a s) : Keeps a t := by
  unfold State.joinMiss at e
  grind [State.kcount_keeps, State.modCore_keeps, keeps_mk, keeps_foldl]

theorem State.joinEach_keeps {a s : State} {x1_c : Nat} {x2_line : Nat} {x3_id : Nat} {x4_a : List Nat} (h : Keeps a s) : Keeps a (State.joinEach s x1_c x2_line x3_id x4_a).2 := by
  induction x4_a generalizing s with
  | nil => exact h
  | cons i l ih => unfold State.joinEach; grind [State.joinMiss_keeps]

theorem State.allocMiss_keeps {a s : State} {x1_c : Nat} {x2_line : Nat} {x3_l : List Nat} {x4_ids : List Nat} {x5_fetch : Nat → Bool} (h : Keeps a s) : Keeps a (State.allocMiss s x1_c x2_line x3_l x4_ids x5_fetch) := by
  unfold State.allocMiss
  grind [State.modCore_keeps, keeps_mk, keeps_foldl]

theorem State.touch_keeps {a s : State} {x1_c : Nat} {x2_line : Nat} (h : Keeps a s) : Keeps a (State.touch s x1_c x2_line) := by
  unfold State.touch
  grind [State.modCore_keeps, keeps_mk, keeps_foldl]

theorem State.allocLine_keeps {a s t : State} {x1_c : Nat} {x2_line : Nat} {x3_st : LSt} {v : State} (e : State.allocLine s x1_c x2_line x3_st = (some t, v)) (h : Keeps a s) : Keeps a t := by
  unfold State.allocLine at e
  grind [State.modCore_keeps, State.pickVictim_keeps, State.evictLine_keeps, keeps_mk, keeps_foldl]

theorem State.allocLine_keeps2 {a s t : State} {x1_c : Nat} {x2_line : Nat} {x3_st : LSt} {v : Option State} (e : State.allocLine s x1_c x2_line x3_st = (v, t)) (h : Keeps a s) : Keeps a t := by
  unfold State.allocLine at e
  grind [State.modCore_keeps, State.pickVictim_keeps, State.evictLine_keeps, keeps_mk, keeps_foldl]

theorem State.hitSecs_keeps {a s : State} {x1_c : Nat} {x2_o : MemOp} {x3_line : Nat} {x4_hit : List Nat} (h : Keeps a s) : Keeps a (State.hitSecs s x1_c x2_o x3_line x4_hit) := by
  unfold State.hitSecs
  grind [State.modCore_keeps, State.touch_keeps, keeps_mk, keeps_foldl]

theorem State.l1Load_keeps {a s : State} {x1_c : Nat} {x2_o : MemOp} {x3_line : Nat} (h : Keeps a s) : Keeps a (State.l1Load s x1_c x2_o x3_line).1 := by
  unfold State.l1Load
  grind (splits := 40) (gen := 20) (ematch := 20) [State.allocLine_keeps, State.allocLine_keeps2, State.allocMiss_keeps, State.request_keeps, State.joinEach_keeps, State.hitSecs_keeps, keeps_mk, keeps_foldl]

theorem State.storeHit_keeps {a s : State} {x1_c : Nat} {x2_o : MemOp} {x3_line : Nat} {x4_secs : List Nat} {x5_bs : List (Nat × Byte)} (h : Keeps a s) : Keeps a (State.storeHit s x1_c x2_o x3_line x4_secs x5_bs) := by
  unfold State.storeHit
  grind [State.modCore_keeps, keeps_mk, keeps_foldl]

theorem State.nearExec_keeps {a s : State} {x1_c : Nat} {x2_o : MemOp} {x3_line : Nat} {x4_sec : Nat} (h : Keeps a s) : Keeps a (State.nearExec s x1_c x2_o x3_line x4_sec) := by
  unfold State.nearExec
  grind [State.modCore_keeps, keeps_mk, keeps_foldl]

theorem State.countStore_keeps {a s : State} {x1_c : Nat} {x2_near : Bool} {x3_part : Nat → Bool} {x4_l : List Nat} (h : Keeps a s) : Keeps a (State.countStore s x1_c x2_near x3_part x4_l) := by
  unfold State.countStore
  grind [State.kcount_keeps, keeps_mk, keeps_foldl]

theorem State.l1Store_keeps {a s : State} {x1_c : Nat} {x2_o : MemOp} {x3_line : Nat} (h : Keeps a s) : Keeps a (State.l1Store s x1_c x2_o x3_line).1 := by
  unfold State.l1Store
  grind (splits := 40) (gen := 20) (ematch := 20) [State.modCore_keeps, State.allocLine_keeps, State.allocLine_keeps2, State.allocMiss_keeps, State.request_keeps, State.countStore_keeps, State.joinEach_keeps, State.kcount_keeps, State.nearExec_keeps, State.storeHit_keeps, keeps_mk, keeps_foldl]

theorem State.l1Event_keeps {a s : State} {x1_c : Nat} {x2_lost : Bool} (h : Keeps a s) : Keeps a (State.l1Event s x1_c x2_lost) := by
  unfold State.l1Event
  grind [State.rasEvent_keeps, keeps_mk, keeps_foldl]

theorem State.l1Corrected_keeps {a s : State} {x1_c : Nat} (h : Keeps a s) : Keeps a (State.l1Corrected s x1_c) := by
  unfold State.l1Corrected
  grind [State.coreCorrected_keeps, State.kcount_keeps, State.errBit_keeps, State.disarm_keeps, keeps_mk, keeps_foldl]

theorem State.l1Uncorr_keeps {a s : State} {x1_c : Nat} {x2_line : Nat} {x3_sec : Nat} (h : Keeps a s) : Keeps a (State.l1Uncorr s x1_c x2_line x3_sec) := by
  unfold State.l1Uncorr
  grind [State.draw_keeps, State.disarm_keeps, State.l1Event_keeps, State.l1ErrRecord_keeps, State.modCore_keeps, State.kcount_keeps, State.evictLine_keeps, keeps_mk, keeps_foldl]

theorem State.enterLine_keeps {a s : State} {x1_c : Nat} {x2_id : Nat} {x3_line : Nat} (h : Keeps a s) : Keeps a (State.enterLine s x1_c x2_id x3_line).1 := by
  unfold State.enterLine
  grind [State.l1Uncorr_keeps, State.l1Corrected_keeps, State.l1Load_keeps, State.l1Store_keeps, keeps_mk, keeps_foldl]

theorem State.countLook_keeps {a s : State} {x1_c : Nat} {x2_hit : Nat} {x3_miss : Nat} {x4_look : Look} (h : Keeps a s) : Keeps a (State.countLook s x1_c x2_hit x3_miss x4_look) := by
  unfold State.countLook
  grind [State.kcount_keeps, keeps_mk, keeps_foldl]

theorem State.lookups_keeps {a s : State} {x1_c : Nat} {x2_id : Nat} {x3_lines : List Nat} (h : Keeps a s) : Keeps a (State.lookups s x1_c x2_id x3_lines) := by
  unfold State.lookups
  grind [State.modCore_keeps, State.enterLine_keeps, State.countLook_keeps, keeps_mk, keeps_foldl]

theorem State.startL1_keeps {a s : State} {x1_c : Nat} {x2_o : MemOp} (h : Keeps a s) : Keeps a (State.startL1 s x1_c x2_o) := by
  unfold State.startL1
  grind [State.modCore_keeps, State.checkOp_keeps, State.lookups_keeps, keeps_mk, keeps_foldl]

theorem State.startSnoop_keeps {a s : State} {x1_c : Nat} {x2_o : MemOp} (h : Keeps a s) : Keeps a (State.startSnoop s x1_c x2_o) := by
  unfold State.startSnoop
  grind [State.modCore_keeps, State.request_keeps, keeps_mk, keeps_foldl]

theorem State.startWrite_keeps {a s : State} {x1_c : Nat} {x2_o : MemOp} (h : Keeps a s) : Keeps a (State.startWrite s x1_c x2_o) := by
  unfold State.startWrite
  grind [State.modCore_keeps, State.request_keeps, keeps_mk, keeps_foldl]

theorem State.startFar_keeps {a s : State} {x1_c : Nat} {x2_o : MemOp} (h : Keeps a s) : Keeps a (State.startFar s x1_c x2_o) := by
  unfold State.startFar
  grind [State.modCore_keeps, State.request_keeps, keeps_mk, keeps_foldl]

theorem State.hostDead_keeps {a s : State} {x1_c : Nat} {x2_id : Nat} (h : Keeps a s) : Keeps a (State.hostDead s x1_c x2_id) := by
  unfold State.hostDead
  split
  · exact h
  · exact State.checkOp_keeps (State.modCore_keeps (keeps_foldl_snd (fun p x h => by exact State.drawBytes_keeps h) _ h))

theorem State.ownLine_keeps {a s : State} {x1_p : Nat} {x2_o : MemOp} {x3_a : Nat} (h : Keeps a s) : Keeps a (State.ownLine s x1_p x2_o x3_a) := by
  unfold State.ownLine
  grind [State.modEdge_keeps, keeps_mk, keeps_foldl]

theorem State.startHost_keeps {a s : State} {x1_c : Nat} {x2_o : MemOp} (h : Keeps a s) : Keeps a (State.startHost s x1_c x2_o) := by
  unfold State.startHost
  grind [State.record_keeps, State.modCore_keeps, State.hostDead_keeps, State.emit_keeps, State.ownLine_keeps, Mem.wf_writeLE, keeps_mk, keeps_foldl]

theorem State.serve_keeps {a s : State} {x1_c : Nat} (h : Keeps a s) : Keeps a (State.serve s x1_c) := by
  unfold State.serve
  grind [State.checkOp_keeps, State.lookups_keeps, State.startL1_keeps, State.startSnoop_keeps, State.startWrite_keeps, State.startFar_keeps, State.startHost_keeps, keeps_mk, keeps_foldl]

end Sys2Proof.Machine
end

