-- ==== Sys2Proof/Laws/Keeps2.lean ====
section
/-! SUPPORT. What the operations and commands of these files keep (`Keeps`): Memory, Matrix, Block, Branch, Spindle, Tideway, Element, Reduce, Tide, Torus. -/

namespace Sys2Proof.Machine

set_option Elab.async false

/-! ### Memory -/

theorem State.coreAddrs_keeps {a s : State} {x1_core : Nat} {x2_q : Nat} {x3_cove : Nat} {x4_wr : Bool} {x5_l : List (Nat × Nat)} {x6_direct : optParam Bool true} (h : Keeps a s) : Keeps a (State.coreAddrs s x1_core x2_q x3_cove x4_wr x5_l x6_direct).2 := by
  induction x5_l generalizing s with
  | nil => exact h
  | cons p l ih => unfold State.coreAddrs; exact ih (State.coreAddr_keeps h)

theorem State.addOp_keeps {a s : State} {x1_c : Nat} {x2_o : MemOp} {x3_dst : List Nat} (h : Keeps a s) : Keeps a (State.addOp s x1_c x2_o x3_dst) := by
  unfold State.addOp
  grind [State.serve_keeps, State.setCore_keeps, keeps_mk, keeps_foldl]

theorem State.addParts_keeps {a s : State} {x1_c : Nat} {x2_o : MemOp} {x3_dst : List Nat} {x4_a : List (OpKind × Nat × List Access)} (h : Keeps a s) : Keeps a (State.addParts s x1_c x2_o x3_dst x4_a) := by
  induction x4_a generalizing s with
  | nil => exact h
  | cons p l ih =>
    obtain ⟨k, n, acc⟩ := p
    cases l with
    | nil => exact State.addOp_keeps h
    | cons q l => exact ih (State.addOp_keeps h)

theorem State.countAcc_keeps {a s : State} {x1_c : Nat} {x2_l1 : List Access} {x3_past : List Access} (h : Keeps a s) : Keeps a (State.countAcc s x1_c x2_l1 x3_past) := by
  unfold State.countAcc
  grind [State.kcount_keeps, keeps_mk, keeps_foldl]

theorem execLd_keeps {a s t : State} {x0_i : IWord} (e : execLd x0_i s = .next t) (h : Keeps a s) : Keeps a t := by
  unfold execLd  at e
  cases e
  refine State.issue_keeps (fun a s z h => ⟨?_, ?_, ?_⟩) h <;> grind [State.coreAddrs_keeps, State.addParts_keeps, State.countAcc_keeps, State.kcount_keeps, keeps_mk, keeps_foldl]

theorem execSt_keeps {a s t : State} {x0_i : IWord} (e : execSt x0_i s = .next t) (h : Keeps a s) : Keeps a t := by
  unfold execSt  at e
  cases e
  refine State.issue_keeps (fun a s z h => ⟨?_, ?_, ?_⟩) h <;> grind [State.coreAddrs_keeps, State.addParts_keeps, State.countAcc_keeps, keeps_mk, keeps_foldl]

theorem State.countSp_keeps {a s : State} {x1_z : Iss} (h : Keeps a s) : Keeps a (State.countSp s x1_z) := by
  unfold State.countSp
  grind [State.kcount_keeps, keeps_mk, keeps_foldl]

theorem State.spCheck_keeps {a s : State} {x1_z : Iss} (h : Keeps a s) : Keeps a (State.spCheck s x1_z).2 := by
  unfold State.spCheck
  grind [State.coreUncorr_keeps, State.l1ErrRecord_keeps, State.disarm_keeps, State.coreCorrected_keeps, State.kcount_keeps, State.errBit_keeps, keeps_mk, keeps_foldl]

theorem execLdSp_keeps {a s t : State} {x0_i : IWord} (e : execLdSp x0_i s = .next t) (h : Keeps a s) : Keeps a t := by
  unfold execLdSp  at e
  cases e
  refine State.issue_keeps (fun a s z h => ⟨?_, ?_, ?_⟩) h <;> grind [State.spCheck_keeps, State.modCore_keeps, State.countSp_keeps, keeps_mk, keeps_foldl]

theorem execStSp_keeps {a s t : State} {x0_i : IWord} (e : execStSp x0_i s = .next t) (h : Keeps a s) : Keeps a t := by
  unfold execStSp  at e
  cases e
  refine State.issue_keeps (fun a s z h => ⟨?_, ?_, ?_⟩) h <;> grind [State.modCore_keeps, State.countSp_keeps, keeps_mk, keeps_foldl]

theorem execLdShelf_keeps {a s t : State} {x0_i : IWord} (e : execLdShelf x0_i s = .next t) (h : Keeps a s) : Keeps a t := by
  unfold execLdShelf  at e
  cases e
  refine State.issue_keeps (fun a s z h => ⟨?_, ?_, ?_⟩) h <;> grind [State.addOp_keeps, keeps_mk, keeps_foldl]

theorem execStShelf_keeps {a s t : State} {x0_i : IWord} (e : execStShelf x0_i s = .next t) (h : Keeps a s) : Keeps a t := by
  unfold execStShelf  at e
  cases e
  refine State.issue_keeps (fun a s z h => ⟨?_, ?_, ?_⟩) h <;> grind [State.addOp_keeps, keeps_mk, keeps_foldl]

theorem State.constRead_keeps {a s t : State} {x1_core : Nat} {x2_q : Nat} {x3_cove : Nat} {x4_va : Nat} {x5_n : Nat} {v : Nat × Bool × Bool} (e : State.constRead s x1_core x2_q x3_cove x4_va x5_n = some (v, t)) (h : Keeps a s) : Keeps a t := by
  unfold State.constRead at e
  grind [State.coreAddr_keeps, State.roLine_keeps, keeps_mk, keeps_foldl]

theorem State.constReads_keeps {a s t : State} {x1_core : Nat} {x2_q : Nat} {x3_cove : Nat} {x4_n : Nat} {x5_a : List (Nat × Nat)} {v : List (Nat × Nat × Bool × Bool)} (e : State.constReads s x1_core x2_q x3_cove x4_n x5_a = some (v, t)) (h : Keeps a s) : Keeps a t := by
  induction x5_a generalizing s t v with
  | nil => cases e; exact h
  | cons p l ih => unfold State.constReads at e; grind [State.constRead_keeps]

theorem execLdConst_keeps {a s t : State} {x0_i : IWord} (e : execLdConst x0_i s = .next t) (h : Keeps a s) : Keeps a t := by
  unfold execLdConst  at e
  cases e
  refine State.issue_keeps (fun a s z h => ⟨?_, ?_, ?_⟩) h <;> grind [State.coreAddrs_keeps, State.constReads_keeps, State.modGroup_keeps, State.kcount_keeps, keeps_mk, keeps_foldl]

theorem State.countAtom_keeps {a s : State} {x1_c : Nat} {x2_as : List Access} {x3_place : Access → OpKind} (h : Keeps a s) : Keeps a (State.countAtom s x1_c x2_as x3_place) := by
  unfold State.countAtom
  grind [State.kcount_keeps, State.countAcc_keeps, keeps_mk, keeps_foldl]

theorem State.atomic_keeps {a s : State} {x1_i : IWord} {x2_code : Nat} {x3_op : AOp} {x4_types : Fmt → Bool} (h : Keeps a s) : Keeps a (State.atomic s x1_i x2_code x3_op x4_types) := by
  unfold State.atomic
  exact State.issue_keeps (fun a s z h => ⟨h, h, State.addParts_keeps (State.countAtom_keeps (State.coreAddrs_keeps h))⟩) h

theorem execAtomAdd_keeps {a s t : State} {x0_i : IWord} (e : execAtomAdd x0_i s = .next t) (h : Keeps a s) : Keeps a t := by
  unfold execAtomAdd at e
  grind [State.atomic_keeps, keeps_mk, keeps_foldl]

theorem execAtomMin_keeps {a s t : State} {x0_i : IWord} (e : execAtomMin x0_i s = .next t) (h : Keeps a s) : Keeps a t := by
  unfold execAtomMin at e
  grind [State.atomic_keeps, keeps_mk, keeps_foldl]

theorem execAtomMax_keeps {a s t : State} {x0_i : IWord} (e : execAtomMax x0_i s = .next t) (h : Keeps a s) : Keeps a t := by
  unfold execAtomMax at e
  grind [State.atomic_keeps, keeps_mk, keeps_foldl]

theorem execAtomAnd_keeps {a s t : State} {x0_i : IWord} (e : execAtomAnd x0_i s = .next t) (h : Keeps a s) : Keeps a t := by
  unfold execAtomAnd at e
  grind [State.atomic_keeps, keeps_mk, keeps_foldl]

theorem execAtomOr_keeps {a s t : State} {x0_i : IWord} (e : execAtomOr x0_i s = .next t) (h : Keeps a s) : Keeps a t := by
  unfold execAtomOr at e
  grind [State.atomic_keeps, keeps_mk, keeps_foldl]

theorem execAtomXor_keeps {a s t : State} {x0_i : IWord} (e : execAtomXor x0_i s = .next t) (h : Keeps a s) : Keeps a t := by
  unfold execAtomXor at e
  grind [State.atomic_keeps, keeps_mk, keeps_foldl]

theorem execAtomXchg_keeps {a s t : State} {x0_i : IWord} (e : execAtomXchg x0_i s = .next t) (h : Keeps a s) : Keeps a t := by
  unfold execAtomXchg at e
  grind [State.atomic_keeps, keeps_mk, keeps_foldl]

theorem execAtomCas_keeps {a s t : State} {x0_i : IWord} (e : execAtomCas x0_i s = .next t) (h : Keeps a s) : Keeps a t := by
  unfold execAtomCas at e
  grind [State.atomic_keeps, keeps_mk, keeps_foldl]

theorem execAtomWes_keeps {a s t : State} {x0_i : IWord} (e : execAtomWes x0_i s = .next t) (h : Keeps a s) : Keeps a t := by
  unfold execAtomWes at e
  grind [State.atomic_keeps, keeps_mk, keeps_foldl]

theorem execFence_keeps {a s t : State} {x0_i : IWord} (e : execFence x0_i s = .next t) (h : Keeps a s) : Keeps a t := by
  unfold execFence  at e
  cases e
  refine State.issue_keeps (fun a s z h => ⟨?_, ?_, ?_⟩) h <;> grind [keeps_mk, keeps_foldl]

theorem execInvRo_keeps {a s t : State} {x0_i : IWord} (e : execInvRo x0_i s = .next t) (h : Keeps a s) : Keeps a t := by
  unfold execInvRo  at e
  cases e
  refine State.issue_keeps (fun a s z h => ⟨?_, ?_, ?_⟩) h <;> grind [State.modCore_keeps, keeps_mk, keeps_foldl]

/-! ### Matrix -/

theorem mxFull_keeps {a s : State} {x1_z : Iss} {x2_rd : List (Nat × Nat)} {x3_wr : List (Nat × Nat)} (h : Keeps a s) : Keeps a (mxFull s x1_z x2_rd x3_wr) := by
  unfold mxFull
  grind [State.kcount_keeps, keeps_mk, keeps_foldl]

theorem State.mxAccept_keeps {a s : State} {x1_z : Iss} {x2_k : MxKind} {x3_rd : List (Nat × Nat)} {x4_wr : List (Nat × Nat)} (h : Keeps a s) : Keeps a (State.mxAccept s x1_z x2_k x3_rd x4_wr) := by
  unfold State.mxAccept
  grind [State.modCore_keeps, keeps_mk, keeps_foldl]

theorem saveMeaning_keeps (load : Bool) : (saveMeaning load).keeps := by
  refine fun a s z h => ⟨?_, ?_, ?_⟩ <;> simp only [saveMeaning] <;> grind [mxFull_keeps, State.mxAccept_keeps]

theorem execMxBegin_keeps {a s t : State} {x0_i : IWord} (e : execMxBegin x0_i s = .next t) (h : Keeps a s) : Keeps a t := by
  unfold execMxBegin  at e
  cases e
  refine State.issue_keeps (fun a s z h => ⟨?_, ?_, ?_⟩) h <;> grind [State.modGroup_keeps, keeps_mk, keeps_foldl]

theorem execMxEnd_keeps {a s t : State} {x0_i : IWord} (e : execMxEnd x0_i s = .next t) (h : Keeps a s) : Keeps a t := by
  unfold execMxEnd  at e
  cases e
  refine State.issue_keeps (fun a s z h => ⟨?_, ?_, ?_⟩) h <;> grind [State.modGroup_keeps, keeps_mk, keeps_foldl]

theorem execMma_keeps {a s t : State} {x0_i : IWord} (e : execMma x0_i s = .next t) (h : Keeps a s) : Keeps a t := by
  unfold execMma  at e
  cases e
  refine State.issue_keeps (fun a s z h => ⟨?_, ?_, ?_⟩) h <;> grind [mxFull_keeps, State.beginWait_keeps, State.mxAccept_keeps, keeps_mk, keeps_foldl]

theorem execMxDrain_keeps {a s t : State} {x0_i : IWord} (e : execMxDrain x0_i s = .next t) (h : Keeps a s) : Keeps a t := by
  unfold execMxDrain  at e
  cases e
  refine State.issue_keeps (fun a s z h => ⟨?_, ?_, ?_⟩) h <;> grind [mxFull_keeps, State.mxAccept_keeps, keeps_mk, keeps_foldl]

theorem execMxZero_keeps {a s t : State} {x0_i : IWord} (e : execMxZero x0_i s = .next t) (h : Keeps a s) : Keeps a t := by
  unfold execMxZero  at e
  cases e
  refine State.issue_keeps (fun a s z h => ⟨?_, ?_, ?_⟩) h <;> grind [mxFull_keeps, State.mxAccept_keeps, keeps_mk, keeps_foldl]

theorem execMxSave_keeps {a s t : State} {x0_i : IWord} (e : execMxSave x0_i s = .next t) (h : Keeps a s) : Keeps a t := by
  unfold execMxSave at e
  cases e
  grind [State.issue_keeps, saveMeaning_keeps]

theorem execMxLoad_keeps {a s t : State} {x0_i : IWord} (e : execMxLoad x0_i s = .next t) (h : Keeps a s) : Keeps a t := by
  unfold execMxLoad at e
  cases e
  grind [State.issue_keeps, saveMeaning_keeps]

theorem execMxExecuteEnd_keeps {a s t : State} {x0_core : Nat} (e : execMxExecuteEnd x0_core s = .next t) (h : Keeps a s) : Keeps a t := by
  unfold execMxExecuteEnd at e
  grind (splits := 40) (gen := 20) (ematch := 20) [State.modCore_keeps, State.draw_keeps, State.disarm_keeps, State.takeFaultAt_keeps, State.coreUncorr_keeps, State.l1ErrRecord_keeps, State.record_keeps, State.kcount_keeps, State.runMx_keeps, keeps_mk, keeps_foldl]

/-! ### Block -/

theorem State.tideDone_keeps {a s : State} {x1_slot : Nat} (h : Keeps a s) : Keeps a (State.tideDone s x1_slot) := by
  unfold State.tideDone
  grind [State.modCtx_keeps, State.modDom_keeps, State.finish_keeps, State.fail_keeps, keeps_mk, keeps_foldl]

theorem State.launchBlockDone_keeps {a s : State} {x1_l : Launch} (h : Keeps a s) : Keeps a (State.launchBlockDone s x1_l) := by
  unfold State.launchBlockDone
  grind [State.finish_keeps, State.setCmd_keeps, State.tideDone_keeps, keeps_mk, keeps_foldl]

theorem State.endBlock_keeps {a s : State} {x1_c : Nat} {x2_b : Nat} (h : Keeps a s) : Keeps a (State.endBlock s x1_c x2_b) := by
  unfold State.endBlock
  grind [State.launchBlockDone_keeps, State.setCore_keeps, State.dropCredits_keeps, State.coresFreed_keeps, keeps_mk, keeps_foldl]

theorem State.endGroup_keeps {a s : State} {x1_c : Nat} {x2_g : Nat} (h : Keeps a s) : Keeps a (State.endGroup s x1_c x2_g) := by
  unfold State.endGroup
  grind [State.modCore_keeps, State.endBlock_keeps, keeps_mk, keeps_foldl]

theorem State.setupSlots_keeps {a s : State} {x1_c : Nat} {x2_l : Launch} (h : Keeps a s) : Keeps a (State.setupSlots s x1_c x2_l) := by
  unfold State.setupSlots
  grind [State.modCore_keeps, State.sendCredit_keeps, keeps_mk, keeps_foldl]

theorem State.placeBlock_keeps {a s : State} {x1_c : Nat} {x2_w : Pend} {x3_rest : List Pend} {x4_qs : List Nat} {x5_o : Nat} (h : Keeps a s) : Keeps a (State.placeBlock s x1_c x2_w x3_rest x4_qs x5_o) := by
  unfold State.placeBlock
  grind [State.setCore_keeps, State.setupSlots_keeps, State.kcount_keeps, State.setCmd_keeps, keeps_mk, keeps_foldl]

theorem execBlockStart_keeps {a s t : State} {x0_core : Nat} (e : execBlockStart x0_core s = .next t) (h : Keeps a s) : Keeps a t := by
  unfold execBlockStart at e
  grind [State.maintAll_keeps, State.placeBlock_keeps, keeps_mk, keeps_foldl]

theorem execSplitChange_keeps {a s t : State} {x0_core : Nat} (e : execSplitChange x0_core s = .next t) (h : Keeps a s) : Keeps a t := by
  unfold execSplitChange at e
  grind [State.evictLines_keeps, State.modCore_keeps, keeps_mk, keeps_foldl]

theorem State.enqueueLaunch_keeps {a s : State} {x1_l : Launch} (h : Keeps a s) : Keeps a (State.enqueueLaunch s x1_l) := by
  unfold State.enqueueLaunch
  grind [State.modCore_keeps, keeps_mk, keeps_foldl]

/-! ### Branch -/

theorem State.diverge_keeps {a s : State} {x1_c : Nat} {x2_g : Nat} {x3_x : Group} (h : Keeps a s) : Keeps a (State.diverge s x1_c x2_g x3_x) := by
  unfold State.diverge
  grind [State.kcount_keeps, State.setCore_keeps, State.setK_keeps, keeps_mk, keeps_foldl]

theorem State.jump_keeps {a s : State} {x1_z : Iss} {x2_t : Nat} (h : Keeps a s) : Keeps a (State.jump s x1_z x2_t) := by
  unfold State.jump
  grind [State.modGroup_keeps, keeps_mk, keeps_foldl]

theorem execBra_keeps {a s t : State} {x0_i : IWord} (e : execBra x0_i s = .next t) (h : Keeps a s) : Keeps a t := by
  unfold execBra  at e
  cases e
  refine State.issue_keeps (fun a s z h => ⟨?_, ?_, ?_⟩) h <;> grind [State.jump_keeps, State.diverge_keeps, keeps_mk, keeps_foldl]

theorem execBrx_keeps {a s t : State} {x0_i : IWord} (e : execBrx x0_i s = .next t) (h : Keeps a s) : Keeps a t := by
  unfold execBrx  at e
  cases e
  refine State.issue_keeps (fun a s z h => ⟨?_, ?_, ?_⟩) h <;> grind [State.diverge_keeps, State.jump_keeps, keeps_mk, keeps_foldl]

theorem execCall_keeps {a s t : State} {x0_i : IWord} (e : execCall x0_i s = .next t) (h : Keeps a s) : Keeps a t := by
  unfold execCall  at e
  cases e
  refine State.issue_keeps (fun a s z h => ⟨?_, ?_, ?_⟩) h <;> grind [State.jump_keeps, State.modGroup_keeps, keeps_mk, keeps_foldl]

theorem execRet_keeps {a s t : State} {x0_i : IWord} (e : execRet x0_i s = .next t) (h : Keeps a s) : Keeps a t := by
  unfold execRet  at e
  cases e
  refine State.issue_keeps (fun a s z h => ⟨?_, ?_, ?_⟩) h <;> grind [State.jump_keeps, keeps_mk, keeps_foldl]

theorem execExit_keeps {a s t : State} {x0_i : IWord} (e : execExit x0_i s = .next t) (h : Keeps a s) : Keeps a t := by
  unfold execExit  at e
  cases e
  refine State.issue_keeps (fun a s z h => ⟨?_, ?_, ?_⟩) h <;> grind [State.kcount_keeps, State.modGroup_keeps, State.endGroup_keeps, keeps_mk, keeps_foldl]

theorem execBarBlk_keeps {a s t : State} {x0_i : IWord} (e : execBarBlk x0_i s = .next t) (h : Keeps a s) : Keeps a t := by
  unfold execBarBlk  at e
  cases e
  refine State.issue_keeps (fun a s z h => ⟨?_, ?_, ?_⟩) h <;> grind [State.modCore_keeps, keeps_mk, keeps_foldl]

theorem execWaitLand_keeps {a s t : State} {x0_i : IWord} (e : execWaitLand x0_i s = .next t) (h : Keeps a s) : Keeps a t := by
  unfold execWaitLand  at e
  cases e
  refine State.issue_keeps (fun a s z h => ⟨?_, ?_, ?_⟩) h <;> grind [State.beginWait_keeps, State.modGroup_keeps, keeps_mk, keeps_foldl]

theorem execSleepHint_keeps {a s t : State} {x0_i : IWord} (e : execSleepHint x0_i s = .next t) (h : Keeps a s) : Keeps a t := by
  unfold execSleepHint  at e
  cases e
  refine State.issue_keeps (fun a s z h => ⟨?_, ?_, ?_⟩) h <;> grind [State.modGroup_keeps, State.setPw_keeps, keeps_mk, keeps_foldl]

theorem execBrk_keeps {a s t : State} {x0_i : IWord} (e : execBrk x0_i s = .next t) (h : Keeps a s) : Keeps a t := by
  unfold execBrk  at e
  cases e
  refine State.issue_keeps (fun a s z h => ⟨?_, ?_, ?_⟩) h <;> grind [keeps_mk, keeps_foldl]

/-! ### Spindle -/

theorem State.waitSlip_keeps {a s : State} {x1_d : Nat} {x2_c : Nat} {x3_slot : Nat} {x4_cycles : Nat} (h : Keeps a s) : Keeps a (State.waitSlip s x1_d x2_c x3_slot x4_cycles) := by
  unfold State.waitSlip
  grind [State.setFldN_keeps, State.count_keeps, State.setFld_keeps, State.tmk_keeps, State.setFlds_keeps, keeps_mk, keeps_foldl]

theorem State.sendSlip_keeps {a s : State} {x1_d : Nat} {x2_cycles : Nat} (h : Keeps a s) : Keeps a (State.sendSlip s x1_d x2_cycles) := by
  unfold State.sendSlip
  grind [State.setFldN_keeps, State.count_keeps, State.setFld_keeps, keeps_mk, keeps_foldl]

theorem State.slotFull_keeps {a s : State} {x1_c : Nat} {x2_n : Nat} (h : Keeps a s) : Keeps a (State.slotFull s x1_c x2_n) := by
  unfold State.slotFull
  grind [State.modCore_keeps, State.waitSlip_keeps, keeps_mk, keeps_foldl]

theorem State.landError_keeps {a s : State} {x1_dom : Option Nat} (h : Keeps a s) : Keeps a (State.landError s x1_dom) := by
  unfold State.landError
  grind [State.count_keeps, State.raise_keeps, keeps_mk, keeps_foldl]

theorem State.landAt_keeps {a s : State} {x1_m : LandMsg} (h : Keeps a s) : Keeps a (State.landAt s x1_m).1 := by
  unfold State.landAt
  grind [State.landError_keeps, State.setCore_keeps, keeps_mk, keeps_foldl]

theorem State.setTable_keeps {a s : State} {x1_t : Table} (h : Keeps a s) : Keeps a (State.setTable s x1_t) := by
  unfold State.setTable
  grind [State.modDom_keeps, keeps_mk, keeps_foldl]

theorem State.tableCheck_keeps {a s : State} {x1_src : Src} (h : Keeps a s) : Keeps a (State.tableCheck s x1_src) := by
  unfold State.tableCheck
  grind [State.complete_keeps, State.abortDom_keeps, State.tideDone_keeps, keeps_mk, keeps_foldl]

theorem State.endTable_keeps {a s : State} {x1_t : Table} {x2_num : Nat} {x3_status : Nat} {x4_reason : Nat} {x5_detail : Nat} (h : Keeps a s) : Keeps a (State.endTable s x1_t x2_num x3_status x4_reason x5_detail) := by
  unfold State.endTable
  grind [State.tableCheck_keeps, State.setTable_keeps, keeps_mk, keeps_foldl]

theorem State.takeCredits_keeps {a s t : State} {x1_l : List Credit} (e : State.takeCredits s x1_l = some t) (h : Keeps a s) : Keeps a t := by
  unfold State.takeCredits at e
  grind [keeps_mk, keeps_foldl]

theorem State.holdTable_keeps {a s : State} {x1_t : Table} {x2_p : ℤ} (h : Keeps a s) : Keeps a (State.holdTable s x1_t x2_p) := by
  unfold State.holdTable
  grind [State.setTable_keeps, keeps_mk, keeps_foldl]

theorem execEntryIssue_keeps {a s t : State} {x0_src : Src} (e : execEntryIssue x0_src s = .next t) (h : Keeps a s) : Keeps a t := by
  unfold execEntryIssue at e
  dsimp only at e
  (repeat' split at e) <;> (repeat' first | refine keeps_foldl (fun s x h => ?_) _ ?_ | split) <;> grind [State.endTable_keeps, State.holdTable_keeps, State.takeCredits_keeps, State.sendSlip_keeps, State.setTable_keeps, keeps_mk, keeps_foldl]

theorem State.listTile_keeps {a s : State} {x1_pa : Nat} (h : Keeps a s) : Keeps a (State.listTile s x1_pa).1 := by
  unfold State.listTile
  grind [keeps_mk, keeps_foldl]

theorem State.sealRecord_keeps {a s : State} {x1_die : Nat} {x2_pa : Nat} {x3_outcome : Nat} {x4_ue : Bool} {x5_cove : Nat} (h : Keeps a s) : Keeps a (State.sealRecord s x1_die x2_pa x3_outcome x4_ue x5_cove) := by
  unfold State.sealRecord
  grind [State.record_keeps, State.rasEvent_keeps, keeps_mk, keeps_foldl]

theorem State.sendEntry_keeps {a s : State} {x1_t : Table} {x2_f : Flight} {x3_bs : List Byte} {x4_poison : Bool} (h : Keeps a s) : Keeps a (State.sendEntry s x1_t x2_f x3_bs x4_poison) := by
  unfold State.sendEntry
  grind [State.count_keeps, State.setTable_keeps, keeps_mk, keeps_foldl]

theorem State.sealFail_keeps {a s : State} {x1_t : Table} {x2_f : Flight} {x3_bs : List Byte} {x4_ue : Bool} {x5_sealWord : Nat} (h : Keeps a s) : Keeps a (State.sealFail s x1_t x2_f x3_bs x4_ue x5_sealWord) := by
  unfold State.sealFail
  grind [State.count_keeps, State.sealRecord_keeps, State.sendEntry_keeps, State.listTile_keeps, keeps_mk, keeps_foldl]

theorem execSealCheck_keeps {a s t : State} {x0_src : Src} {x1_num : Nat} (e : execSealCheck x0_src x1_num s = .next t) (h : Keeps a s) : Keeps a t := by
  unfold execSealCheck at e
  grind [State.drawBytes_keeps, State.sendEntry_keeps, State.count_keeps, State.listTile_keeps, State.sealRecord_keeps, State.endTable_keeps, State.noteRead_keeps, State.sealFail_keeps, keeps_mk, keeps_foldl]

theorem State.flagCore_keeps {a s : State} {x1_t : Table} {x2_e : Fill} {x3_c : Nat} (h : Keeps a s) : Keeps a (State.flagCore s x1_t x2_e x3_c) := by
  unfold State.flagCore
  grind [State.slotFull_keeps, keeps_mk, keeps_foldl]

theorem State.noteLanded_keeps {a s : State} {x1_src : Src} {x2_num : Nat} {x3_c : Nat} (h : Keeps a s) : Keeps a (State.noteLanded s x1_src x2_num x3_c) := by
  unfold State.noteLanded
  grind [State.flagCore_keeps, State.count_keeps, State.tableCheck_keeps, State.setTable_keeps, keeps_mk, keeps_foldl]

theorem execLanding_keeps {a s t : State} {x0_core : Nat} {x1_slot : Nat} (e : execLanding x0_core x1_slot s = .next t) (h : Keeps a s) : Keeps a t := by
  unfold execLanding at e
  grind [State.draw_keeps, State.landAt_keeps, State.slotFull_keeps, State.noteLanded_keeps, keeps_mk, keeps_foldl]

theorem execCredit_keeps {a s t : State} {x0_owner : Nat} {x1_core : Nat} {x2_slot : Nat} (e : execCredit x0_owner x1_core x2_slot s = .next t) (h : Keeps a s) : Keeps a t := by
  unfold execCredit at e
  grind [State.count_keeps, State.modPort_keeps, keeps_mk, keeps_foldl]

/-! ### Tideway -/

theorem State.takeGeo_keeps {a s : State} {x1_d : Nat} (h : Keeps a s) : Keeps a (State.takeGeo s x1_d) := by
  unfold State.takeGeo
  grind [keeps_mk, keeps_foldl]

theorem State.portErr_keeps {a s : State} {x1_p : Nat} {x2_kind : Nat} {x3_lane : Nat} {x4_fseq : Nat} (h : Keeps a s) : Keeps a (State.portErr s x1_p x2_kind x3_lane x4_fseq) := by
  unfold State.portErr
  grind [State.record_keeps, keeps_mk, keeps_foldl]

theorem State.portEvent_keeps {a s : State} {x1_p : Nat} {x2_sev : Nat} {x3_kind : Nat} {x4_weight : Nat} {x5_injected : Bool} (h : Keeps a s) : Keeps a (State.portEvent s x1_p x2_sev x3_kind x4_weight x5_injected) := by
  unfold State.portEvent
  grind [State.rasEvent_keeps, keeps_mk, keeps_foldl]

theorem State.dropPortCredits_keeps {a s : State} {x1_p : Nat} (h : Keeps a s) : Keeps a (State.dropPortCredits s x1_p) := by
  unfold State.dropPortCredits
  grind [keeps_mk, keeps_foldl]

theorem State.portDown_keeps {a s : State} {x1_p : Nat} {x2_reason : Nat} (h : Keeps a s) : Keeps a (State.portDown s x1_p x2_reason) := by
  unfold State.portDown
  grind [State.dropPortCredits_keeps, State.modPort_keeps, State.portErr_keeps, State.portEvent_keeps, State.tmk_keeps, keeps_mk, keeps_foldl]

theorem State.startTraining_keeps {a s : State} {x1_p : Nat} (h : Keeps a s) : Keeps a (State.startTraining s x1_p) := by
  unfold State.startTraining
  grind [State.takeGeo_keeps, State.dropPortCredits_keeps, State.modPort_keeps, keeps_mk, keeps_foldl]

theorem State.transmit_keeps {a s : State} {x1_p : Nat} {x2_k : Kept} {x3_replay : Bool} (h : Keeps a s) : Keeps a (State.transmit s x1_p x2_k x3_replay) := by
  unfold State.transmit
  grind [State.count_keeps, State.modPort_keeps, State.emit_keeps, keeps_mk, keeps_foldl]

theorem State.pumpOne_keeps {a s t : State} {x1_p : Nat} {x2_force : Bool} (e : State.pumpOne s x1_p x2_force = some t) (h : Keeps a s) : Keeps a t := by
  unfold State.pumpOne at e
  dsimp only at e
  (repeat' split at e) <;> (repeat' first | refine keeps_foldl (fun s x h => ?_) _ ?_ | split) <;> grind [State.modPort_keeps, State.count_keeps, State.transmit_keeps, keeps_mk, keeps_foldl]

theorem State.pump_keeps {a s : State} {x1_p : Nat} {x2_a : Nat} (h : Keeps a s) : Keeps a (State.pump s x1_p x2_a) := by
  induction x2_a generalizing s with
  | zero => exact h
  | succ n ih => unfold State.pump; grind [State.pumpOne_keeps]

theorem State.pumpAll_keeps {a s : State}  (h : Keeps a s) : Keeps a (State.pumpAll s) := by
  unfold State.pumpAll
  grind [State.pump_keeps, keeps_mk, keeps_foldl]

theorem State.sendMsg_keeps {a s : State} {x1_p : Nat} {x2_m : TwMsg} (h : Keeps a s) : Keeps a (State.sendMsg s x1_p x2_m) := by
  unfold State.sendMsg
  grind [State.pump_keeps, State.modPort_keeps, keeps_mk, keeps_foldl]

theorem State.freeSegs_keeps {a s : State} {x1_p : Nat} {x2_vc : Nat} {x3_n : Nat} (h : Keeps a s) : Keeps a (State.freeSegs s x1_p x2_vc x3_n) := by
  unfold State.freeSegs
  grind [State.modPort_keeps, keeps_mk, keeps_foldl]

theorem State.takeSeg_keeps {a s : State} {x1_p : Nat} {x2_vc : Nat} {x3_bs : List Byte} (h : Keeps a s) : Keeps a (State.takeSeg s x1_p x2_vc x3_bs) := by
  unfold State.takeSeg
  dsimp only
  split
  · exact State.modPort_keeps h
  · split
    · exact State.modPort_keeps (State.modPort_keeps h)
    · refine State.freeSegs_keeps (State.count_keeps (State.raise_keeps ?_))
      exact keeps_getD (fun t k => State.takeInjection_keeps k (State.modPort_keeps h)) (State.modPort_keeps h)

theorem State.popMsg_keeps {a s t : State} {x1_p : Nat} {x2_ty : Nat} {v : TwMsg} (e : State.popMsg s x1_p x2_ty = some (v, t)) (h : Keeps a s) : Keeps a t := by
  unfold State.popMsg at e
  grind [State.pump_keeps, State.freeSegs_keeps, State.modPort_keeps, keeps_mk, keeps_foldl]

theorem State.popSync_keeps {a s t : State} {x1_p : Nat} {x2_ty : Nat} {v : SyncMsg} (e : State.popSync s x1_p x2_ty = some (v, t)) (h : Keeps a s) : Keeps a t := by
  unfold State.popSync at e
  grind [State.modPort_keeps, keeps_mk, keeps_foldl]

theorem State.enterRecover_keeps {a s : State} {x1_p : Nat} (h : Keeps a s) : Keeps a (State.enterRecover s x1_p) := by
  unfold State.enterRecover
  grind [State.count_keeps, State.modPort_keeps, State.portEvent_keeps, State.portErr_keeps, State.portDown_keeps, keeps_mk, keeps_foldl]

theorem State.resendAll_keeps {a s : State} {x1_p : Nat} (h : Keeps a s) : Keeps a (State.resendAll s x1_p) := by
  unfold State.resendAll
  grind [State.count_keeps, State.tmk_keeps, State.transmit_keeps, State.modPort_keeps, keeps_mk, keeps_foldl]

theorem State.replay_keeps {a s : State} {x1_p : Nat} (h : Keeps a s) : Keeps a (State.replay s x1_p) := by
  unfold State.replay
  grind [State.enterRecover_keeps, State.resendAll_keeps, keeps_mk, keeps_foldl]

theorem State.acceptFrame_keeps {a s : State} {x1_p : Nat} {x2_bs : List Byte} (h : Keeps a s) : Keeps a (State.acceptFrame s x1_p x2_bs) := by
  unfold State.acceptFrame
  grind [State.modPort_keeps, State.takeSeg_keeps, State.replay_keeps, State.pumpOne_keeps, State.pump_keeps, keeps_mk, keeps_foldl]

theorem State.rejectFrame_keeps {a s : State} {x1_p : Nat} (h : Keeps a s) : Keeps a (State.rejectFrame s x1_p) := by
  unfold State.rejectFrame
  grind [State.modPort_keeps, State.pumpOne_keeps, keeps_mk, keeps_foldl]

theorem execFrame_keeps {a s t : State} {x0_port : Nat} {x1_bytes : List Byte} (e : execFrame x0_port x1_bytes s = .next t) (h : Keeps a s) : Keeps a t := by
  unfold execFrame at e
  dsimp only at e
  (repeat' split at e) <;> (repeat' first | refine keeps_foldl (fun s x h => ?_) _ ?_ | split) <;> grind [State.takeInjection_keeps, State.rejectFrame_keeps, State.portEvent_keeps, State.count_keeps, State.errBit_keeps, State.raise_keeps, State.acceptFrame_keeps, keeps_mk, keeps_foldl]

theorem execReplayTimeout_keeps {a s t : State} {x0_port : Nat} (e : execReplayTimeout x0_port s = .next t) (h : Keeps a s) : Keeps a t := by
  unfold execReplayTimeout at e
  grind [State.replay_keeps, keeps_mk, keeps_foldl]

theorem State.retireLane_keeps {a s : State} {x1_p : Nat} {x2_lane : Nat} (h : Keeps a s) : Keeps a (State.retireLane s x1_p x2_lane) := by
  unfold State.retireLane
  grind [State.count_keeps, State.retireAdd_keeps, State.rasRecord_keeps, keeps_mk, keeps_foldl]

theorem State.setLanes_keeps {a s t : State} {x1_p : Nat} {x2_bad : List Nat} (e : State.setLanes s x1_p x2_bad = some t) (h : Keeps a s) : Keeps a t := by
  unfold State.setLanes at e
  grind [State.modPort_keeps, State.portErr_keeps, keeps_mk, keeps_foldl]

theorem State.goActive_keeps {a s : State} {x1_p : Nat} {x2_kept : Bool} (h : Keeps a s) : Keeps a (State.goActive s x1_p x2_kept) := by
  unfold State.goActive
  grind [State.modPort_keeps, State.resendAll_keeps, State.pumpOne_keeps, State.pump_keeps, keeps_mk, keeps_foldl]

theorem execRecover_keeps {a s t : State} {x0_port : Nat} {x1_errs : List Nat} (e : execRecover x0_port x1_errs s = .next t) (h : Keeps a s) : Keeps a t := by
  unfold execRecover at e
  grind [State.setBucket_keeps, State.rasRecord_keeps, State.goActive_keeps, State.modPort_keeps, State.setLanes_keeps, State.portDown_keeps, State.retireLane_keeps, keeps_mk, keeps_foldl]

theorem execDetect_keeps {a s t : State} {x0_port : Nat} {x1_cable : Cable} (e : execDetect x0_port x1_cable s = .next t) (h : Keeps a s) : Keeps a t := by
  unfold execDetect at e
  grind [State.portDown_keeps, State.modPort_keeps, keeps_mk, keeps_foldl]

theorem execNoCable_keeps {a s t : State} {x0_port : Nat} (e : execNoCable x0_port s = .next t) (h : Keeps a s) : Keeps a t := by
  unfold execNoCable at e
  grind [State.portDown_keeps, State.modPort_keeps, keeps_mk, keeps_foldl]

theorem execEqualize_keeps {a s t : State} {x0_port : Nat} (e : execEqualize x0_port s = .next t) (h : Keeps a s) : Keeps a t := by
  unfold execEqualize at e
  grind [State.modPort_keeps, keeps_mk, keeps_foldl]

theorem execAlign_keeps {a s t : State} {x0_port : Nat} {x1_errs : List Nat} (e : execAlign x0_port x1_errs s = .next t) (h : Keeps a s) : Keeps a t := by
  unfold execAlign at e
  grind [State.setLanes_keeps, State.portDown_keeps, State.modPort_keeps, keeps_mk, keeps_foldl]

theorem execIdentify_keeps {a s t : State} {x0_port : Nat} {x1_id : Ident} (e : execIdentify x0_port x1_id s = .next t) (h : Keeps a s) : Keeps a t := by
  unfold execIdentify at e
  grind [State.modPort_keeps, State.portDown_keeps, keeps_mk, keeps_foldl]

theorem execLatency_keeps {a s t : State} {x0_port : Nat} {x1_ps : ℤ} {x2_margins : Nat} (e : execLatency x0_port x1_ps x2_margins s = .next t) (h : Keeps a s) : Keeps a t := by
  unfold execLatency at e
  grind [State.modPort_keeps, State.goActive_keeps, keeps_mk, keeps_foldl]

theorem execTrainingLimit_keeps {a s t : State} {x0_port : Nat} (e : execTrainingLimit x0_port s = .next t) (h : Keeps a s) : Keeps a t := by
  unfold execTrainingLimit at e
  grind [State.portDown_keeps, keeps_mk, keeps_foldl]

theorem execDownRetry_keeps {a s t : State} {x0_port : Nat} (e : execDownRetry x0_port s = .next t) (h : Keeps a s) : Keeps a t := by
  unfold execDownRetry at e
  grind [State.startTraining_keeps, keeps_mk, keeps_foldl]

theorem execPartnerLost_keeps {a s t : State} {x0_port : Nat} (e : execPartnerLost x0_port s = .next t) (h : Keeps a s) : Keeps a t := by
  unfold execPartnerLost at e
  grind [State.portDown_keeps, keeps_mk, keeps_foldl]

theorem execLand_keeps {a s t : State} {x0_port : Nat} (e : execLand x0_port s = .next t) (h : Keeps a s) : Keeps a t := by
  unfold execLand at e
  grind [State.popMsg_keeps, State.landAt_keeps, State.modPort_keeps, State.slotFull_keeps, keeps_mk, keeps_foldl]

theorem execMark_keeps {a s t : State} {x0_port : Nat} (e : execMark x0_port s = .next t) (h : Keeps a s) : Keeps a t := by
  unfold execMark at e
  grind [State.popMsg_keeps, State.landAt_keeps, State.slotFull_keeps, keeps_mk, keeps_foldl]

/-! ### Element -/

theorem State.descPart_keeps {a s t : State} {x1_core : Nat} {x2_q : Nat} {x3_l : Launch} {x4_va : Nat} {v : List Byte} (e : State.descPart s x1_core x2_q x3_l x4_va = .ok v t) (h : Keeps a s) : Keeps a t := by
  unfold State.descPart at e
  grind [State.coreAddr_keeps, State.roLine_keeps, keeps_mk, keeps_foldl]

theorem State.descRead_keeps {a s t : State} {x1_core : Nat} {x2_q : Nat} {x3_l : Launch} {x4_idx : Nat} {v : List Byte} (e : State.descRead s x1_core x2_q x3_l x4_idx = .ok v t) (h : Keeps a s) : Keeps a t := by
  unfold State.descRead at e
  grind [State.descPart_keeps, keeps_mk, keeps_foldl]

theorem State.descsRead_keeps {a s t : State} {x1_core : Nat} {x2_q : Nat} {x3_l : Launch} {x4_a : Nat} {x5_a : Nat} {v : List Byte} (e : State.descsRead s x1_core x2_q x3_l x4_a x5_a = .ok v t) (h : Keeps a s) : Keeps a t := by
  induction x5_a generalizing s x4_a v t with
  | zero => unfold State.descsRead at e; cases e; exact h
  | succ n ih => unfold State.descsRead at e; grind [State.descRead_keeps]

theorem State.loadProg_keeps {a s t : State} {x1_core : Nat} {x2_q : Nat} {x3_l : Launch} {x4_idx : Nat} {v : List Byte} (e : State.loadProg s x1_core x2_q x3_l x4_idx = .ok v t) (h : Keeps a s) : Keeps a t := by
  unfold State.loadProg at e
  grind [State.modCore_keeps, State.descRead_keeps, State.descsRead_keeps, State.kcount_keeps, keeps_mk, keeps_foldl]

theorem State.loadTab_keeps {a s t : State} {x1_core : Nat} {x2_q : Nat} {x3_l : Launch} {x4_idx : Nat} {v : List Byte} (e : State.loadTab s x1_core x2_q x3_l x4_idx = .ok v t) (h : Keeps a s) : Keeps a t := by
  unfold State.loadTab at e
  grind [State.modCore_keeps, State.descRead_keeps, State.descsRead_keeps, State.kcount_keeps, keeps_mk, keeps_foldl]

theorem elFull_keeps {a s : State} {x1_z : Iss} {x2_rd : List (Nat × Nat)} {x3_wr : List (Nat × Nat)} (h : Keeps a s) : Keeps a (elFull s x1_z x2_rd x3_wr) := by
  unfold elFull
  grind [State.kcount_keeps, keeps_mk, keeps_foldl]

theorem State.elAccept_keeps {a s : State} {x1_z : Iss} {x2_k : ElKind} {x3_desc : List (Nat × List Byte)} {x4_gather : List Access} {x5_rd : List (Nat × Nat)} {x6_wr : List (Nat × Nat)} {x7_busy : List Nat} (h : Keeps a s) : Keeps a (State.elAccept s x1_z x2_k x3_desc x4_gather x5_rd x6_wr x7_busy) := by
  unfold State.elAccept
  grind [State.modCore_keeps, keeps_mk, keeps_foldl]

theorem State.loadTabs_keeps {a s : State} {c q : Nat} {l : Launch} {i : List Nat} (h : Keeps a s) : Keeps a (s.loadTabs c q l i).s := by
  induction i generalizing s with
  | nil => exact h
  | cons x i ih =>
    unfold State.loadTabs
    split
    · next k => exact ih (State.loadTab_keeps k h)
    · exact ih h
    · exact ih h

theorem State.checkRun_keeps {a s t : State} {x1_z : Iss} {v : Prog} {w : List (Nat × List Byte)} (e : State.checkRun s x1_z = .ok v w t) (h : Keeps a s) : Keeps a t := by
  unfold State.checkRun at e
  dsimp only at e
  (repeat' split at e) <;> (repeat' first | refine keeps_foldl (fun s x h => ?_) _ ?_ | split) <;> grind [State.loadProg_keeps, State.coreAddrs_keeps, State.loadTabs_keeps, keeps_mk, keeps_foldl]

theorem execElRun_keeps {a s t : State} {x0_i : IWord} (e : execElRun x0_i s = .next t) (h : Keeps a s) : Keeps a t := by
  unfold execElRun  at e
  cases e
  refine State.issue_keeps (fun a s z h => ⟨?_, ?_, ?_⟩) h <;> grind [State.checkRun_keeps, elFull_keeps, State.beginWait_keeps, State.kcount_keeps, State.coreAddrs_keeps, State.elAccept_keeps, keeps_mk, keeps_foldl]

theorem execElCompress_keeps {a s t : State} {x0_i : IWord} (e : execElCompress x0_i s = .next t) (h : Keeps a s) : Keeps a t := by
  unfold execElCompress  at e
  cases e
  refine State.issue_keeps (fun a s z h => ⟨?_, ?_, ?_⟩) h <;> grind [elFull_keeps, State.kcount_keeps, State.modGroup_keeps, State.elAccept_keeps, keeps_mk, keeps_foldl]

theorem execElExpand_keeps {a s t : State} {x0_i : IWord} (e : execElExpand x0_i s = .next t) (h : Keeps a s) : Keeps a t := by
  unfold execElExpand  at e
  cases e
  refine State.issue_keeps (fun a s z h => ⟨?_, ?_, ?_⟩) h <;> grind [elFull_keeps, State.kcount_keeps, State.modGroup_keeps, State.elAccept_keeps, keeps_mk, keeps_foldl]

theorem execElReduce_keeps {a s t : State} {x0_i : IWord} (e : execElReduce x0_i s = .next t) (h : Keeps a s) : Keeps a t := by
  unfold execElReduce  at e
  cases e
  refine State.issue_keeps (fun a s z h => ⟨?_, ?_, ?_⟩) h <;> grind [elFull_keeps, State.kcount_keeps, State.elAccept_keeps, keeps_mk, keeps_foldl]

theorem execElLut_keeps {a s t : State} {x0_i : IWord} (e : execElLut x0_i s = .next t) (h : Keeps a s) : Keeps a t := by
  unfold execElLut  at e
  cases e
  refine State.issue_keeps (fun a s z h => ⟨?_, ?_, ?_⟩) h <;> grind [State.loadTab_keeps, elFull_keeps, State.kcount_keeps, State.elAccept_keeps, keeps_mk, keeps_foldl]

theorem execElWait_keeps {a s t : State} {x0_i : IWord} (e : execElWait x0_i s = .next t) (h : Keeps a s) : Keeps a t := by
  unfold execElWait  at e
  cases e
  refine State.issue_keeps (fun a s z h => ⟨?_, ?_, ?_⟩) h <;> grind [keeps_mk, keeps_foldl]

theorem State.noteGather_keeps {a s : State} {x1_core : Nat} {x2_cove : Nat} {x3_l : List Access} (h : Keeps a s) : Keeps a (State.noteGather s x1_core x2_cove x3_l) := by
  unfold State.noteGather
  grind [State.noteRead_keeps, keeps_mk, keeps_foldl]

theorem State.countBeats_keeps {a s : State} {x1_k : Nat} {x2_c : Nat} {x3_l : List (Nat × Nat)} (h : Keeps a s) : Keeps a (State.countBeats s x1_k x2_c x3_l) := by
  unfold State.countBeats
  grind [State.kcount_keeps, keeps_mk, keeps_foldl]

theorem State.runRun_keeps {a s : State} {x1_c : Nat} {x2_e : ElEntry} {x3_n : Nat} {x4_ws : List Nat} {x5_gl : List (Nat × Nat × Bool × Bool)} (h : Keeps a s) : Keeps a (State.runRun s x1_c x2_e x3_n x4_ws x5_gl) := by
  unfold State.runRun
  grind [State.modCore_keeps, State.kcount_keeps, State.noteWide_keeps, State.countBeats_keeps, State.slotsRead_keeps, keeps_mk, keeps_foldl]

theorem State.elScalar_keeps {a s : State} {x1_c : Nat} {x2_e : ElEntry} {x3_r : Nat} {x4_v : Nat} (h : Keeps a s) : Keeps a (State.elScalar s x1_c x2_e x3_r x4_v) := by
  unfold State.elScalar
  grind [State.modGroup_keeps, keeps_mk, keeps_foldl]

theorem State.runEl_keeps {a s : State} {x1_c : Nat} {x2_e : ElEntry} {x3_gl : List (Nat × Nat × Bool × Bool)} (h : Keeps a s) : Keeps a (State.runEl s x1_c x2_e x3_gl) := by
  unfold State.runEl
  grind [State.runRun_keeps, State.countBeats_keeps, State.kcount_keeps, State.elScalar_keeps, State.modCore_keeps, State.noteWide_keeps, keeps_mk, keeps_foldl]

theorem State.finishEl_keeps {a s : State} {x1_c : Nat} (h : Keeps a s) : Keeps a (State.finishEl s x1_c) := by
  unfold State.finishEl
  grind [State.runEl_keeps, State.modCore_keeps, keeps_mk, keeps_foldl]

theorem execElFinish_keeps {a s t : State} {x0_core : Nat} (e : execElFinish x0_core s = .next t) (h : Keeps a s) : Keeps a t := by
  unfold execElFinish at e
  (repeat' first | split at e | refine keeps_foldl (fun s x h => ?_) _ ?_) <;> grind [State.disarm_keeps, State.modCore_keeps, State.draw_keeps, State.record_keeps, State.kcount_keeps, State.takeFaultAt_keeps, State.coreUncorr_keeps, State.runEl_keeps, State.noteGather_keeps, keeps_mk, keeps_foldl]

/-! ### Reduce -/

theorem execOccUpdates_keeps {a s t : State} {x0_occ : List (Nat × Nat)} (e : execOccUpdates x0_occ s = .next t) (h : Keeps a s) : Keeps a t := by
  unfold execOccUpdates at e
  grind [State.setFlds_keeps, State.count_keeps, keeps_mk, keeps_foldl]

theorem execSyncResend_keeps {a s t : State} {x0_router : Nat} (e : execSyncResend x0_router s = .next t) (h : Keeps a s) : Keeps a t := by
  unfold execSyncResend at e
  grind [State.count_keeps, keeps_mk, keeps_foldl]

theorem State.markCmd_keeps {a s : State} {x1_src : Src} {x2_wide : Bool} {x3_poison : Bool} (h : Keeps a s) : Keeps a (State.markCmd s x1_src x2_wide x3_poison) := by
  unfold State.markCmd
  grind [State.setCmd_keeps, keeps_mk, keeps_foldl]

theorem State.redSlots_keeps {a s : State} {x1_q : Nat} {x2_add : Bool} {x3_n : Nat} (h : Keeps a s) : Keeps a (State.redSlots s x1_q x2_add x3_n) := by
  unfold State.redSlots
  grind [State.setFlds_keeps, keeps_mk, keeps_foldl]

theorem State.setRed_keeps {a s : State} {x1_r : NetRed} (h : Keeps a s) : Keeps a (State.setRed s x1_r) := by
  unfold State.setRed
  grind [keeps_mk, keeps_foldl]

theorem State.dropRed_keeps {a s : State} {x1_r : NetRed} (h : Keeps a s) : Keeps a (State.dropRed s x1_r) := by
  unfold State.dropRed
  grind [keeps_mk, keeps_foldl]

theorem State.entryDone_keeps {a s : State} {x1_src : Src} (h : Keeps a s) : Keeps a (State.entryDone s x1_src) := by
  unfold State.entryDone
  grind [State.tableCheck_keeps, State.setTable_keeps, keeps_mk, keeps_foldl]

theorem State.redDone_keeps {a s : State} {x1_r : NetRed} (h : Keeps a s) : Keeps a (State.redDone s x1_r) := by
  unfold State.redDone
  grind [State.dropRed_keeps, State.finish_keeps, State.entryDone_keeps, keeps_mk, keeps_foldl]

theorem State.redFail_keeps {a s : State} {x1_r : NetRed} {x2_status : Nat} {x3_reason : Nat} {x4_detail : Nat} (h : Keeps a s) : Keeps a (State.redFail s x1_r x2_status x3_reason x4_detail) := by
  unfold State.redFail
  grind [State.redSlots_keeps, State.dropRed_keeps, State.fail_keeps, State.abortDom_keeps, keeps_mk, keeps_foldl]

theorem State.addRed_keeps {a s : State} {x1_src : Src} {x2_num : Nat} {x3_cove : Nat} {x4_ctx : Nat} {x5_v : Nat} {x6_rm : RMode} {x7_sm : SatMode} {x8_plan : Nat} (h : Keeps a s) : Keeps a (State.addRed s x1_src x2_num x3_cove x4_ctx x5_v x6_rm x7_sm x8_plan) := by
  unfold State.addRed
  grind [keeps_mk, keeps_foldl]

theorem execRedAllocation_keeps {a s t : State} {x0_src : Src} {x1_num : Nat} (e : execRedAllocation x0_src x1_num s = .next t) (h : Keeps a s) : Keeps a t := by
  unfold execRedAllocation at e
  grind [State.redFail_keeps, State.redSlots_keeps, State.setRed_keeps, keeps_mk, keeps_foldl]

theorem State.bufCheck_keeps {a s : State} {x1_q : Nat} {x2_node : Nat} {x3_cove : Nat} (h : Keeps a s) : Keeps a (State.bufCheck s x1_q x2_node x3_cove).1 := by
  unfold State.bufCheck
  grind [State.takeInjection_keeps, State.record_keeps, State.rasEvent_keeps, State.errBit_keeps, State.count_keeps, keeps_mk, keeps_foldl]

theorem State.redLand_keeps {a s t : State} {x1_r : NetRed} {x2_bs : List Byte} (e : State.redLand s x1_r x2_bs = some t) (h : Keeps a s) : Keeps a t := by
  unfold State.redLand at e
  grind [State.takeCredits_keeps, State.landAt_keeps, State.slotFull_keeps, keeps_mk, keeps_foldl]

theorem State.redWrite_keeps {a s t : State} {x1_r : NetRed} {x2_j : Nat} {x3_vals : List Nat} {x4_poison : Bool} {v : NetRed} (e : State.redWrite s x1_r x2_j x3_vals x4_poison = .ok (t, v)) (h : Keeps a s) : Keeps a t := by
  unfold State.redWrite at e
  grind [State.markCmd_keeps, State.count_keeps, State.redLand_keeps, State.bufWrite_keeps, keeps_mk, keeps_foldl]

theorem State.redLeave_keeps {a s : State} {x1_r : NetRed} {x2_q : Nat} (h : Keeps a s) : Keeps a (State.redLeave s x1_r x2_q) := by
  unfold State.redLeave
  grind [State.redSlots_keeps, keeps_mk, keeps_foldl]

theorem execChunkCombine_keeps {a s t : State} {x0_src : Src} {x1_num : Nat} {x2_router : Nat} {x3_chunk : Nat} (e : execChunkCombine x0_src x1_num x2_router x3_chunk s = .next t) (h : Keeps a s) : Keeps a t := by
  unfold execChunkCombine at e
  grind (splits := 40) (gen := 20) (ematch := 20) [State.redFail_keeps, State.noteBuf_keeps, State.bufCheck_keeps, State.count_keeps, State.redLeave_keeps, State.setRed_keeps, State.redWrite_keeps, State.redDone_keeps, keeps_mk, keeps_foldl]

/-! ### Tide -/

theorem State.setNs_keeps {a s : State} {x1_f : NetSt → NetSt} (h : Keeps a s) : Keeps a (State.setNs s x1_f) := by
  unfold State.setNs
  grind [keeps_mk, keeps_foldl]

theorem State.stepCounter_keeps {a s : State} {x1_ps : ℤ} (h : Keeps a s) : Keeps a (State.stepCounter s x1_ps) := by
  unfold State.stepCounter
  grind [State.setNs_keeps, keeps_mk, keeps_foldl]

theorem execSyncSend_keeps {a s t : State}  (e : execSyncSend s = .next t) (h : Keeps a s) : Keeps a t := by
  unfold execSyncSend at e
  grind [State.setNs_keeps, State.count_keeps, State.draw_keeps, State.pumpAll_keeps, State.sendSync_keeps, keeps_mk, keeps_foldl]

theorem execHoldover_keeps {a s t : State}  (e : execHoldover s = .next t) (h : Keeps a s) : Keeps a t := by
  unfold execHoldover at e
  grind [State.setNs_keeps, keeps_mk, keeps_foldl]

theorem execUnaligned_keeps {a s t : State}  (e : execUnaligned s = .next t) (h : Keeps a s) : Keeps a t := by
  unfold execUnaligned at e
  grind [State.setNs_keeps, keeps_mk, keeps_foldl]

theorem State.alignStep_keeps {a s : State} {x1_off : ℤ} (h : Keeps a s) : Keeps a (State.alignStep s x1_off) := by
  unfold State.alignStep
  grind [State.setNs_keeps, State.stepCounter_keeps, keeps_mk, keeps_foldl]

theorem execSync_keeps {a s t : State} {x0_port : Nat} {x1_arrive : ℤ} (e : execSync x0_port x1_arrive s = .next t) (h : Keeps a s) : Keeps a t := by
  unfold execSync at e
  (repeat' first | split at e | refine keeps_foldl (fun s x h => ?_) _ ?_) <;> grind [State.popSync_keeps, State.setNs_keeps, State.count_keeps, State.alignStep_keeps, keeps_mk, keeps_foldl]

theorem execStartCheckSend_keeps {a s t : State} {x0_slot : Nat} (e : execStartCheckSend x0_slot s = .next t) (h : Keeps a s) : Keeps a t := by
  unfold execStartCheckSend at e
  grind [State.modDom_keeps, State.pump_keeps, State.modPort_keeps, keeps_mk, keeps_foldl]

theorem State.checkFail_keeps {a s : State} {x1_slot : Nat} (h : Keeps a s) : Keeps a (State.checkFail s x1_slot) := by
  unfold State.checkFail
  grind [State.pumpAll_keeps, State.abortDom_keeps, State.count_keeps, keeps_mk, keeps_foldl]

theorem execEpochReached_keeps {a s t : State} {x0_slot : Nat} (e : execEpochReached x0_slot s = .next t) (h : Keeps a s) : Keeps a t := by
  unfold execEpochReached at e
  grind [State.checkFail_keeps, State.tideDone_keeps, State.tmk_keeps, State.modDom_keeps, keeps_mk, keeps_foldl]

theorem execStartCheck_keeps {a s t : State} {x0_port : Nat} (e : execStartCheck x0_port s = .next t) (h : Keeps a s) : Keeps a t := by
  unfold execStartCheck at e
  grind [State.popSync_keeps, State.modDom_keeps, State.checkFail_keeps, keeps_mk, keeps_foldl]

theorem execHoldBoundary_keeps {a s t : State} {x0_slot : Nat} (e : execHoldBoundary x0_slot s = .next t) (h : Keeps a s) : Keeps a t := by
  unfold execHoldBoundary at e
  grind [State.count_keeps, State.modDom_keeps, State.modCtx_keeps, keeps_mk, keeps_foldl]

theorem execHold_keeps {a s t : State} {x0_port : Nat} (e : execHold x0_port s = .next t) (h : Keeps a s) : Keeps a t := by
  unfold execHold at e
  dsimp only at e
  (repeat' split at e) <;> (repeat' first | refine keeps_foldl (fun s x h => ?_) _ ?_ | split) <;> grind [State.popSync_keeps, State.pumpAll_keeps, State.sendSync_keeps, State.modDom_keeps, keeps_mk, keeps_foldl]

theorem execAbort_keeps {a s t : State} {x0_port : Nat} (e : execAbort x0_port s = .next t) (h : Keeps a s) : Keeps a t := by
  unfold execAbort at e
  grind [State.popSync_keeps, State.pumpAll_keeps, State.abortDom_keeps, keeps_mk, keeps_foldl]

theorem execResumeTick_keeps {a s t : State} {x0_slot : Nat} (e : execResumeTick x0_slot s = .next t) (h : Keeps a s) : Keeps a t := by
  unfold execResumeTick at e
  grind [State.modDom_keeps, State.count_keeps, State.tideDone_keeps, State.tmk_keeps, keeps_mk, keeps_foldl]

theorem execTideStall_keeps {a s t : State} {x0_core : Nat} {x1_slot : Nat} (e : execTideStall x0_core x1_slot s = .next t) (h : Keeps a s) : Keeps a t := by
  unfold execTideStall at e
  grind [State.pumpAll_keeps, State.takeFault_keeps, keeps_mk, keeps_foldl]

theorem execCreditStall_keeps {a s t : State} {x0_slot : Nat} {x1_table : Nat} (e : execCreditStall x0_slot x1_table s = .next t) (h : Keeps a s) : Keeps a t := by
  unfold execCreditStall at e
  grind [State.pumpAll_keeps, State.abortDom_keeps, keeps_mk, keeps_foldl]

theorem State.linkHead_keeps {a s t : State} {x1_slot : Nat} {x2_table : Nat}  (e : State.linkHead s x1_slot x2_table = .ended t) (h : Keeps a s) : Keeps a t := by
  unfold State.linkHead at e
  grind [State.endTable_keeps, keeps_mk, keeps_foldl]

theorem State.linkSlip_keeps {a s : State} {x1_slot : Nat} {x2_t : Table} {x3_v : Nat} {x4_prog : ℤ} (h : Keeps a s) : Keeps a (State.linkSlip s x1_slot x2_t x3_v x4_prog) := by
  unfold State.linkSlip
  grind [State.sendSlip_keeps, keeps_mk, keeps_foldl]

theorem execLinkCopy_keeps {a s t : State} {x0_slot : Nat} {x1_table : Nat} (e : execLinkCopy x0_slot x1_table s = .next t) (h : Keeps a s) : Keeps a t := by
  unfold execLinkCopy at e
  dsimp only at e
  (repeat' split at e) <;> (repeat' first | refine keeps_foldl (fun s x h => ?_) _ ?_ | split) <;> grind [State.linkHead_keeps, State.pumpAll_keeps, State.takeCredits_keeps, State.holdTable_keeps, State.linkSlip_keeps, State.noteBuf_keeps, State.entryDone_keeps, State.sendMsg_keeps, State.setTable_keeps, State.setNs_keeps, State.endTable_keeps, keeps_mk, keeps_foldl]

theorem execLinkMark_keeps {a s t : State} {x0_slot : Nat} {x1_table : Nat} (e : execLinkMark x0_slot x1_table s = .next t) (h : Keeps a s) : Keeps a t := by
  unfold execLinkMark at e
  (repeat' first | split at e | refine keeps_foldl (fun s x h => ?_) _ ?_) <;> grind [State.linkHead_keeps, State.pumpAll_keeps, State.takeCredits_keeps, State.holdTable_keeps, State.linkSlip_keeps, State.entryDone_keeps, State.sendMsg_keeps, State.setTable_keeps, State.setNs_keeps, keeps_mk, keeps_foldl]

theorem execNetred_keeps {a s t : State} {x0_slot : Nat} {x1_table : Nat} (e : execNetred x0_slot x1_table s = .next t) (h : Keeps a s) : Keeps a t := by
  unfold execNetred at e
  grind [State.linkHead_keeps, State.pumpAll_keeps, State.endTable_keeps, State.setTable_keeps, State.entryDone_keeps, State.addRed_keeps, keeps_mk, keeps_foldl]

/-! ### Torus -/

theorem State.setTorus_keeps {a s : State} {x1_t : Option TorRed} (h : Keeps a s) : Keeps a (State.setTorus s x1_t) := by
  unfold State.setTorus
  grind [State.setNs_keeps, keeps_mk, keeps_foldl]

theorem State.torFail_keeps {a s : State} {x1_r : TorRed} {x2_status : Nat} {x3_reason : Nat} (h : Keeps a s) : Keeps a (State.torFail s x1_r x2_status x3_reason) := by
  unfold State.torFail
  grind [State.setTorus_keeps, State.fail_keeps, State.pumpAll_keeps, State.abortDom_keeps, keeps_mk, keeps_foldl]

theorem State.torWrite_keeps {a s t : State} {x1_r : TorRed} {x2_shelf : Bool} {x3_addr : Nat} {x4_w : Nat} {x5_vs : Array Nat} {x6_a : List (Nat × Nat)} (e : State.torWrite s x1_r x2_shelf x3_addr x4_w x5_vs x6_a = .ok t) (h : Keeps a s) : Keeps a t := by
  induction x6_a generalizing s with
  | nil => cases e; exact h
  | cons p l ih => unfold State.torWrite at e; grind [State.bufWrite_keeps]

theorem State.torResult_keeps {a s t : State} {x1_r : TorRed} {x2_vs : List Nat} (e : State.torResult s x1_r x2_vs = .ok t) (h : Keeps a s) : Keeps a t := by
  unfold State.torResult at e
  grind [State.bufWrite_keeps, State.torWrite_keeps, keeps_mk, keeps_foldl]

theorem State.torFinish_keeps {a s t : State} {x1_r : TorRed} (e : State.torFinish s x1_r = .ok t) (h : Keeps a s) : Keeps a t := by
  unfold State.torFinish at e
  dsimp only at e
  (repeat' split at e) <;> (repeat' first | refine keeps_foldl (fun s x h => ?_) _ ?_ | split) <;> grind [State.torResult_keeps, State.markCmd_keeps, State.count_keeps, State.setTorus_keeps, State.finish_keeps, State.entryDone_keeps, keeps_mk, keeps_foldl]

theorem State.torSend_keeps {a s : State} {x1_r : TorRed} {x2_dir : Nat} {x3_j : Nat} {x4_stage : Nat} {x5_low : Nat} (h : Keeps a s) : Keeps a (State.torSend s x1_r x2_dir x3_j x4_stage x5_low).1 := by
  unfold State.torSend
  grind [State.sendMsg_keeps, keeps_mk, keeps_foldl]

theorem State.torPump_keeps {a s : State} {x1_r : TorRed} (h : Keeps a s) : Keeps a (State.torPump s x1_r).1 := by
  unfold State.torPump
  grind [State.sendMsg_keeps, State.torSend_keeps, keeps_foldl_fst, keeps_mk, keeps_foldl]

theorem State.torBegin_keeps {a s : State} {x1_r : TorRed} (h : Keeps a s) : Keeps a (State.torBegin s x1_r) := by
  unfold State.torBegin
  grind [State.sendMsg_keeps, State.torFail_keeps, State.setTorus_keeps, State.torPump_keeps, keeps_mk, keeps_foldl]

theorem State.torPhase_keeps {a s t : State} {x1_r : TorRed} (e : State.torPhase s x1_r = .ok t) (h : Keeps a s) : Keeps a t := by
  unfold State.torPhase at e
  grind [State.setNs_keeps, State.torFinish_keeps, State.torWrite_keeps, State.torBegin_keeps, keeps_mk, keeps_foldl]

theorem State.torStart_keeps {a s t : State} {x1_r : TorRed} (e : State.torStart s x1_r = .ok t) (h : Keeps a s) : Keeps a t := by
  unfold State.torStart at e
  grind [State.setFld_keeps, State.noteBuf_keeps, State.torBegin_keeps, keeps_mk, keeps_foldl]

theorem State.torAdvance_keeps {a s t : State} {x1_r : TorRed} (e : State.torAdvance s x1_r = some t) (h : Keeps a s) : Keeps a t := by
  unfold State.torAdvance at e
  grind [State.torPhase_keeps, State.torFail_keeps, State.setTorus_keeps, keeps_mk, keeps_foldl]

theorem execLinkRed_keeps {a s t : State} {x0_slot : Nat} {x1_table : Nat} (e : execLinkRed x0_slot x1_table s = .next t) (h : Keeps a s) : Keeps a t := by
  unfold execLinkRed at e
  (repeat' first | split at e | refine keeps_foldl (fun s x h => ?_) _ ?_) <;> grind [State.linkHead_keeps, State.pumpAll_keeps, State.endTable_keeps, State.setTable_keeps, State.entryDone_keeps, State.torStart_keeps, keeps_mk, keeps_foldl]

theorem execRedStall_keeps {a s t : State} {x0_src : Src} (e : execRedStall x0_src s = .next t) (h : Keeps a s) : Keeps a t := by
  unfold execRedStall at e
  (repeat' first | split at e | refine keeps_foldl (fun s x h => ?_) _ ?_) <;> grind [State.torFail_keeps, keeps_mk, keeps_foldl]

theorem execRedReady_keeps {a s t : State} {x0_port : Nat} (e : execRedReady x0_port s = .next t) (h : Keeps a s) : Keeps a t := by
  unfold execRedReady at e
  dsimp only at e
  (repeat' split at e) <;> (repeat' first | refine keeps_foldl (fun s x h => ?_) _ ?_ | split) <;> grind [State.popMsg_keeps, State.setNs_keeps, State.torFail_keeps, State.torPump_keeps, State.torAdvance_keeps, keeps_getD, keeps_mk, keeps_foldl]

theorem execRedChunk_keeps {a s t : State} {x0_port : Nat} (e : execRedChunk x0_port s = .next t) (h : Keeps a s) : Keeps a t := by
  unfold execRedChunk at e
  grind [State.popMsg_keeps, State.count_keeps, State.raise_keeps, State.draw_keeps, State.torSend_keeps, State.torAdvance_keeps, keeps_getD, keeps_mk, keeps_foldl]

end Sys2Proof.Machine
end

