-- ==== Sys2Proof/Laws/Keeps3.lean ====
section
/-! SUPPORT. What the operations and commands of these files keep (`Keeps`): Peer, Queue, LaunchCmd, CopyCmd, Hbm, L1Msg, Home, MemCmd, Cove, Context. -/

namespace Sys2Proof.Machine

set_option Elab.async false

/-! ### Peer -/

theorem State.sendPeer_keeps {a s : State} {x1_p : Nat} {x2_m : TwMsg} (h : Keeps a s) : Keeps a (State.sendPeer s x1_p x2_m) := by
  unfold State.sendPeer
  grind [State.sendMsg_keeps, State.setNs_keeps, keeps_mk, keeps_foldl]

theorem State.peerPerform_keeps {a s t : State} {x1_m : TwMsg} {v : Nat} (e : State.peerPerform s x1_m = some (v, t)) (h : Keeps a s) : Keeps a t := by
  unfold State.peerPerform at e
  grind [State.bufWrite_keeps, keeps_mk, keeps_foldl]

theorem State.peerAnswer_keeps {a s : State} {x1_txn : Nat} {x2_status : Nat} (h : Keeps a s) : Keeps a (State.peerAnswer s x1_txn x2_status) := by
  unfold State.peerAnswer
  grind [State.setNs_keeps, State.complete_keeps, State.finish_keeps, State.setCmd_keeps, State.fail_keeps, keeps_mk, keeps_foldl]

theorem State.sendAck_keeps {a s : State} {x1_status : Nat} {x2_dst : Nat} {x3_txn : Nat} {x4_stripe : Nat} (h : Keeps a s) : Keeps a (State.sendAck s x1_status x2_dst x3_txn x4_stripe) := by
  unfold State.sendAck
  grind [State.peerAnswer_keeps, State.sendPeer_keeps, keeps_mk, keeps_foldl]

theorem execPeerWrite_keeps {a s t : State} {x0_port : Nat} (e : execPeerWrite x0_port s = .next t) (h : Keeps a s) : Keeps a t := by
  unfold execPeerWrite at e
  grind [State.popMsg_keeps, State.count_keeps, State.sendPeer_keeps, State.peerPerform_keeps, State.sendAck_keeps, keeps_mk, keeps_foldl]

theorem execPeerAck_keeps {a s t : State} {x0_port : Nat} (e : execPeerAck x0_port s = .next t) (h : Keeps a s) : Keeps a t := by
  unfold execPeerAck at e
  grind [State.popMsg_keeps, State.sendAck_keeps, keeps_mk, keeps_foldl]

theorem execPeerWriteWait_keeps {a s t : State} {x0_port : Nat} (e : execPeerWriteWait x0_port s = .next t) (h : Keeps a s) : Keeps a t := by
  unfold execPeerWriteWait at e
  grind [State.setNs_keeps, State.sendAck_keeps, keeps_mk, keeps_foldl]

/-! ### Queue -/

theorem State.doorbellDrop_keeps {a s : State}  (h : Keeps a s) : Keeps a (State.doorbellDrop s) := by
  unfold State.doorbellDrop
  grind [State.count_keeps, keeps_mk, keeps_foldl]

theorem State.doorbellBad_keeps {a s : State} {x1_page : Nat} (h : Keeps a s) : Keeps a (State.doorbellBad s x1_page) := by
  unfold State.doorbellBad
  grind [State.draw_keeps, State.record_keeps, keeps_mk, keeps_foldl]

theorem execDoorbell_keeps {a s t : State} {x0_vf : Option Nat} {x1_off : Nat} {x2_size : Nat} {x3_val : Nat} (e : execDoorbell x0_vf x1_off x2_size x3_val s = .next t) (h : Keeps a s) : Keeps a t := by
  unfold execDoorbell at e
  grind [State.emit_keeps, State.doorbellDrop_keeps, State.count_keeps, State.modQueue_keeps, State.doorbellBad_keeps, keeps_mk, keeps_foldl]

theorem State.takeEntry_keeps {a s : State} {x1_x : Nat} {x2_q : Nat} (h : Keeps a s) : Keeps a (State.takeEntry s x1_x x2_q) := by
  unfold State.takeEntry
  grind [State.qcount_keeps, State.modQueue_keeps, keeps_mk, keeps_foldl]

theorem State.ringEntryBad_keeps {a s : State} {x1_x : Nat} {x2_q : Nat} {x3_status : Nat} (h : Keeps a s) : Keeps a (State.ringEntryBad s x1_x x2_q x3_status) := by
  unfold State.ringEntryBad
  grind [State.haltQueue_keeps, State.fail_keeps, State.takeEntry_keeps, keeps_mk, keeps_foldl]

theorem State.fetchOne_keeps {a s t : State} {x1_x : Nat} {x2_q : Nat} (e : State.fetchOne s x1_x x2_q = some t) (h : Keeps a s) : Keeps a t := by
  unfold State.fetchOne at e
  grind [State.ringEntryBad_keeps, State.fail_keeps, State.takeEntry_keeps, keeps_mk, keeps_foldl]

theorem State.fetchUpTo_keeps {a s : State} {x1_x : Nat} {x2_q : Nat} {x3_a : Nat} (h : Keeps a s) : Keeps a (State.fetchUpTo s x1_x x2_q x3_a) := by
  induction x3_a generalizing s with
  | zero => exact h
  | succ n ih => unfold State.fetchUpTo; grind [State.fetchOne_keeps]

theorem execSqFetch_keeps {a s t : State} {x0_ctx : Nat} {x1_q : Nat} (e : execSqFetch x0_ctx x1_q s = .next t) (h : Keeps a s) : Keeps a t := by
  unfold execSqFetch at e
  grind [State.fetchUpTo_keeps, keeps_mk, keeps_foldl]

theorem State.startCmd_keeps {a s : State} {x1_k : Cmd} {x2_st : CSt} (h : Keeps a s) : Keeps a (State.startCmd s x1_k x2_st) := by
  unfold State.startCmd
  grind [State.setCmd_keeps, State.modCtx_keeps, keeps_mk, keeps_foldl]

theorem State.runNow_keeps {a s : State} {x1_k : Cmd} {x2_result : Nat} (h : Keeps a s) : Keeps a (State.runNow s x1_k x2_result) := by
  unfold State.runNow
  grind [State.finish_keeps, State.startCmd_keeps, keeps_mk, keeps_foldl]

theorem State.validated_keeps {a s : State} {k : Cmd} {b : Body} {f : State → Cmd → State} (hf : ∀ s k, Keeps a s → Keeps a (f s k)) (h : Keeps a s) : Keeps a (s.validated k b f) := by
  unfold State.validated
  grind [State.fail_keeps, State.complete_keeps, keeps_mk, keeps_foldl]

theorem execNop_keeps {a s t : State} {x0_ctx : Nat} {x1_q : Nat} {x2_idx : Nat} (e : execNop x0_ctx x1_q x2_idx s = .next t) (h : Keeps a s) : Keeps a t := by
  unfold execNop at e
  grind [State.validated_keeps, State.runNow_keeps, keeps_mk, keeps_foldl]

/-! ### LaunchCmd -/

theorem State.launchRec_keeps {a s : State} {x1_k : Cmd} {x2_v : Nat} (h : Keeps a s) : Keeps a (State.launchRec s x1_k x2_v) := by
  unfold State.launchRec
  grind (splits := 40) (gen := 20) (ematch := 20) [State.fail_keeps, State.complete_keeps, State.enqueueLaunch_keeps, State.startCmd_keeps, keeps_mk, keeps_foldl]

theorem execLaunch_keeps {a s t : State} {x0_ctx : Nat} {x1_q : Nat} {x2_idx : Nat} (e : execLaunch x0_ctx x1_q x2_idx s = .next t) (h : Keeps a s) : Keeps a t := by
  unfold execLaunch at e
  grind [State.validated_keeps, State.fail_keeps, State.launchRec_keeps, keeps_mk, keeps_foldl]

theorem State.streamStart_keeps {a s : State} {x1_k : Cmd} (h : Keeps a s) : Keeps a (State.streamStart s x1_k) := by
  unfold State.streamStart
  grind [State.fail_keeps, State.setCmd_keeps, State.setNs_keeps, keeps_mk, keeps_foldl]

theorem execSpindleStream_keeps {a s t : State} {x0_ctx : Nat} {x1_q : Nat} {x2_idx : Nat} (e : execSpindleStream x0_ctx x1_q x2_idx s = .next t) (h : Keeps a s) : Keeps a t := by
  unfold execSpindleStream at e
  grind [State.validated_keeps, State.streamStart_keeps, State.startCmd_keeps, State.fail_keeps, keeps_mk, keeps_foldl]

theorem execReduce_keeps {a s t : State} {x0_ctx : Nat} {x1_q : Nat} {x2_idx : Nat} (e : execReduce x0_ctx x1_q x2_idx s = .next t) (h : Keeps a s) : Keeps a t := by
  unfold execReduce at e
  grind [State.validated_keeps, State.fail_keeps, State.complete_keeps, State.addRed_keeps, State.startCmd_keeps, keeps_mk, keeps_foldl]

theorem State.torBeginCmd_keeps {a s : State} {x1_k : Cmd} (h : Keeps a s) : Keeps a (State.torBeginCmd s x1_k) := by
  unfold State.torBeginCmd
  grind [State.torStart_keeps, State.setCmd_keeps, State.fail_keeps, keeps_mk, keeps_foldl]

theorem execTorusReduce_keeps {a s t : State} {x0_ctx : Nat} {x1_q : Nat} {x2_idx : Nat} (e : execTorusReduce x0_ctx x1_q x2_idx s = .next t) (h : Keeps a s) : Keeps a t := by
  unfold execTorusReduce at e
  grind [State.validated_keeps, State.fail_keeps, State.complete_keeps, State.startCmd_keeps, State.torBeginCmd_keeps, State.setCmd_keeps, keeps_mk, keeps_foldl]

/-! ### CopyCmd -/

theorem State.writePieces_keeps {a s t : State} {x1_cove : Nat} {x2_space : Nat} {x3_a : List (Nat × List Byte × Bool)}  (e : State.writePieces s x1_cove x2_space x3_a = .ok t) (h : Keeps a s) : Keeps a t := by
  induction x3_a generalizing s with
  | nil => cases e; exact h
  | cons p l ih => unfold State.writePieces at e; grind [State.bufWrite_keeps]

theorem State.writeElems_keeps {a s t : State} {x1_cove : Nat} {x2_b : Buf} {x3_pos : Nat} {x4_l : List (Nat × Bool)}  (e : State.writeElems s x1_cove x2_b x3_pos x4_l = .ok (.ok t)) (h : Keeps a s) : Keeps a t := by
  unfold State.writeElems at e
  grind [State.bufWrite_keeps, State.writePieces_keeps, keeps_mk, keeps_foldl]

theorem State.granuleDone_keeps {a s : State} {x1_k : Cmd} {x2_len : Nat} (h : Keeps a s) : Keeps a (State.granuleDone s x1_k x2_len) := by
  unfold State.granuleDone
  grind [State.setCmd_keeps, State.complete_keeps, State.finish_keeps, keeps_mk, keeps_foldl]

theorem State.afterWrite_keeps {a s : State} {k : Cmd} {w : Wr} {f : State → State} (hw : ∀ t, w = .ok t → Keeps a t) (hf : ∀ s, Keeps a s → Keeps a (f s)) (h : Keeps a s) : Keeps a (s.afterWrite k w f) := by
  unfold State.afterWrite
  grind [State.fail_keeps, keeps_mk, keeps_foldl]

theorem State.copyGranule_keeps {a s : State} {x1_k : Cmd} (h : Keeps a s) : Keeps a (State.copyGranule s x1_k) := by
  unfold State.copyGranule
  dsimp only
  (repeat' split) <;> (repeat' first | refine keeps_foldl (fun s x h => ?_) _ ?_ | split) <;> grind [State.failReadAt_keeps, State.writeElems_keeps, State.noteBuf_keeps, State.failRead_keeps, State.afterWrite_keeps, State.count_keeps, State.granuleDone_keeps, keeps_mk, keeps_foldl]

theorem execCopy_keeps {a s t : State} {x0_ctx : Nat} {x1_q : Nat} {x2_idx : Nat} (e : execCopy x0_ctx x1_q x2_idx s = .next t) (h : Keeps a s) : Keeps a t := by
  unfold execCopy at e
  grind [State.validated_keeps, State.startCmd_keeps, State.copyGranule_keeps, keeps_mk, keeps_foldl]

theorem State.fillGranule_keeps {a s : State} {x1_k : Cmd} (h : Keeps a s) : Keeps a (State.fillGranule s x1_k) := by
  unfold State.fillGranule
  grind [State.writeElems_keeps, State.failRead_keeps, State.afterWrite_keeps, State.granuleDone_keeps, keeps_mk, keeps_foldl]

theorem execFill_keeps {a s t : State} {x0_ctx : Nat} {x1_q : Nat} {x2_idx : Nat} (e : execFill x0_ctx x1_q x2_idx s = .next t) (h : Keeps a s) : Keeps a t := by
  unfold execFill at e
  grind [State.validated_keeps, State.startCmd_keeps, State.fillGranule_keeps, keeps_mk, keeps_foldl]

theorem State.peerGranule_keeps {a s : State} {x1_k : Cmd} (h : Keeps a s) : Keeps a (State.peerGranule s x1_k) := by
  unfold State.peerGranule
  grind (splits := 40) (gen := 20) (ematch := 20) [State.drawBytes_keeps, State.noteBuf_keeps, State.setNs_keeps, State.setCmd_keeps, State.sendPeer_keeps, State.peerPerform_keeps, State.peerAnswer_keeps, State.failReadAt_keeps, keeps_mk, keeps_foldl]

theorem execPeerCopy_keeps {a s t : State} {x0_ctx : Nat} {x1_q : Nat} {x2_idx : Nat} (e : execPeerCopy x0_ctx x1_q x2_idx s = .next t) (h : Keeps a s) : Keeps a t := by
  unfold execPeerCopy at e
  grind [State.validated_keeps, State.startCmd_keeps, State.peerGranule_keeps, keeps_mk, keeps_foldl]

theorem State.putLines_keeps {a s t : State} {x1_c : Nat} {x2_pa : Nat} {x3_bs : List Byte} (e : State.putLines s x1_c x2_pa x3_bs = some t) (h : Keeps a s) : Keeps a t := by
  unfold State.putLines at e
  exact keeps_foldl_option (fun _ => rfl) (fun s t x e h => by grind [State.linePut_keeps]) _ e h

theorem State.clearMarks_keeps {a s : State} {x1_pa : Nat} {x2_n : Nat} (h : Keeps a s) : Keeps a (State.clearMarks s x1_pa x2_n) := by
  unfold State.clearMarks
  grind [keeps_mk, keeps_foldl]

theorem State.storeTile_keeps {a s t : State} {x1_c : Nat} {x2_d : Nat} {x3_bs : List Byte} {x4_sealWord : Nat} (e : State.storeTile s x1_c x2_d x3_bs x4_sealWord = some t) (h : Keeps a s) : Keeps a t := by
  unfold State.storeTile at e
  dsimp only at e
  split at e
  · cases e
  · next u k =>
    have hu := State.putLines_keeps k h
    split at e
    · cases q : State.putLines u x1_c _ x3_bs with
      | none => rw [q] at e; cases e
      | some v => rw [q] at e; cases e; exact keeps_mk (State.putLines_keeps q hu) id id
    · cases e; exact keeps_mk hu id id

theorem State.repairTile_keeps {a s : State} {x1_d : Nat} (h : Keeps a s) : Keeps a (State.repairTile s x1_d) := by
  unfold State.repairTile
  grind [State.clearMarks_keeps, State.setNs_keeps, keeps_mk, keeps_foldl]

theorem State.commonsEnd_keeps {a s : State} {x1_k : Cmd} {x2_ok : Bool} (h : Keeps a s) : Keeps a (State.commonsEnd s x1_k x2_ok) := by
  unfold State.commonsEnd
  grind [State.repairTile_keeps, State.finish_keeps, State.fail_keeps, keeps_mk, keeps_foldl]

theorem State.commonsTile_keeps {a s : State} {x1_k : Cmd} (h : Keeps a s) : Keeps a (State.commonsTile s x1_k) := by
  unfold State.commonsTile
  grind [State.noteBuf_keeps, State.commonsEnd_keeps, State.storeTile_keeps, State.setCmd_keeps, State.failReadAt_keeps, keeps_mk, keeps_foldl]

theorem State.commonsStart_keeps {a s : State} {x1_k : Cmd} (h : Keeps a s) : Keeps a (State.commonsStart s x1_k) := by
  unfold State.commonsStart
  grind [State.fail_keeps, State.startCmd_keeps, keeps_mk, keeps_foldl]

theorem execCommonsLoad_keeps {a s t : State} {x0_ctx : Nat} {x1_q : Nat} {x2_idx : Nat} (e : execCommonsLoad x0_ctx x1_q x2_idx s = .next t) (h : Keeps a s) : Keeps a t := by
  unfold execCommonsLoad at e
  grind [State.validated_keeps, State.commonsStart_keeps, State.commonsTile_keeps, keeps_mk, keeps_foldl]

theorem execCommonsRepair_keeps {a s t : State} {x0_ctx : Nat} {x1_q : Nat} {x2_idx : Nat} (e : execCommonsRepair x0_ctx x1_q x2_idx s = .next t) (h : Keeps a s) : Keeps a t := by
  unfold execCommonsRepair at e
  grind [State.validated_keeps, State.commonsStart_keeps, State.commonsTile_keeps, keeps_mk, keeps_foldl]

/-! ### Hbm -/

theorem execUeRetry_keeps {a s t : State} {x0_ch : Nat} {x1_burst : Nat} {x2_outcome : Nat} (e : execUeRetry x0_ch x1_burst x2_outcome s = .next t) (h : Keeps a s) : Keeps a t := by
  unfold execUeRetry at e
  grind [State.hbmRetryOk_keeps, State.hbmUe_keeps, keeps_mk, keeps_foldl]

theorem execScrubRead_keeps {a s t : State} {x0_ch : Nat} {x1_outcome : Nat} (e : execScrubRead x0_ch x1_outcome s = .next t) (h : Keeps a s) : Keeps a t := by
  unfold execScrubRead at e
  grind [State.count_keeps, State.takeInjection_keeps, State.hbmUe_keeps, State.hbmCe_keeps, State.hbmRetryOk_keeps, State.modChan_keeps, State.setFld_keeps, keeps_mk, keeps_foldl]

theorem execWalk_keeps {a s t : State} {x0_core : Nat} {x1_va : Nat} (e : execWalk x0_core x1_va s = .next t) (h : Keeps a s) : Keeps a t := by
  unfold execWalk at e
  grind [State.walkCore_keeps, State.walkFault_keeps, State.modCore_keeps, keeps_mk, keeps_foldl]

theorem execExpanderLinkFailure_keeps {a s t : State} {x0_slot : Nat} (e : execExpanderLinkFailure x0_slot s = .next t) (h : Keeps a s) : Keeps a t := by
  unfold execExpanderLinkFailure at e
  grind [State.record_keeps, State.rasEvent_keeps, keeps_mk, keeps_foldl]

/-! ### L1Msg -/

theorem State.takeMsg_keeps {a s t : State} {x1_m : Msg} (e : State.takeMsg s x1_m = some t) (h : Keeps a s) : Keeps a t := by
  unfold State.takeMsg at e
  grind [keeps_mk, keeps_foldl]

theorem State.takeFor_keeps {a s t : State} {x1_m : Msg} {x2_ty : MTy} (e : State.takeFor s x1_m x2_ty = some t) (h : Keeps a s) : Keeps a t := by
  unfold State.takeFor at e
  grind [State.takeMsg_keeps, keeps_mk, keeps_foldl]

theorem State.l1Error_keeps {a s : State} {x1_c : Nat} (h : Keeps a s) : Keeps a (State.l1Error s x1_c) := by
  unfold State.l1Error
  grind [State.raise_keeps, keeps_mk, keeps_foldl]

theorem State.invAck_keeps {a s : State} {x1_c : Nat} {x2_m : Msg} {x3_kept : Nat} {x4_flags : Nat} {x5_mask : Nat} {x6_l : L1Line} (h : Keeps a s) : Keeps a (State.invAck s x1_c x2_m x3_kept x4_flags x5_mask x6_l) := by
  unfold State.invAck
  grind [State.send_keeps, keeps_mk, keeps_foldl]

theorem State.ownerData_keeps {a s : State} {x1_c : Nat} {x2_m : Msg} {x3_mask : Nat} {x4_l : L1Line} {x5_dirty : Bool} (h : Keeps a s) : Keeps a (State.ownerData s x1_c x2_m x3_mask x4_l x5_dirty) := by
  unfold State.ownerData
  grind [State.send_keeps, keeps_mk, keeps_foldl]

theorem State.answerI_keeps {a s : State} {x1_c : Nat} {x2_m : Msg} (h : Keeps a s) : Keeps a (State.answerI s x1_c x2_m) := by
  unfold State.answerI
  grind [State.invAck_keeps, State.ownerData_keeps, keeps_mk, keeps_foldl]

theorem State.answer_keeps {a s : State} {x1_c : Nat} {x2_m : Msg} (h : Keeps a s) : Keeps a (State.answer s x1_c x2_m) := by
  unfold State.answer
  grind [State.modCore_keeps, State.invAck_keeps, State.ownerData_keeps, State.answerI_keeps, State.l1Error_keeps, keeps_mk, keeps_foldl]

theorem State.onForward_keeps {a s : State} {x1_c : Nat} {x2_m : Msg} (h : Keeps a s) : Keeps a (State.onForward s x1_c x2_m) := by
  unfold State.onForward
  grind [State.modCore_keeps, State.answer_keeps, State.invAck_keeps, keeps_mk, keeps_foldl]

theorem State.settleLine_keeps {a s : State} {x1_c : Nat} {x2_line : Nat} (h : Keeps a s) : Keeps a (State.settleLine s x1_c x2_line) := by
  unfold State.settleLine
  grind [State.answer_keeps, State.modCore_keeps, State.ebbLine_keeps, State.maintLine_keeps, keeps_mk, keeps_foldl]

theorem State.grantLine_keeps {a s : State} {x1_c : Nat} {x2_r : L1Req} (h : Keeps a s) : Keeps a (State.grantLine s x1_c x2_r) := by
  unfold State.grantLine
  grind [State.modCore_keeps, keeps_mk, keeps_foldl]

theorem State.onData_keeps {a s : State} {x1_c : Nat} {x2_m : Msg} (h : Keeps a s) : Keeps a (State.onData s x1_c x2_m) := by
  unfold State.onData
  grind [State.l1Error_keeps, State.modCore_keeps, State.serve_keeps, State.checkOp_keeps, State.settleLine_keeps, State.grantLine_keeps, keeps_mk, keeps_foldl]

theorem State.serveWaiter_keeps {a s : State} {x1_c : Nat} {x2_line : Nat} {x3_sec : Nat} {x4_id : Nat} (h : Keeps a s) : Keeps a (State.serveWaiter s x1_c x2_line x3_sec x4_id) := by
  unfold State.serveWaiter
  grind [State.modCore_keeps, State.nearExec_keeps, keeps_mk, keeps_foldl]

theorem State.storeBufCheck_keeps {a s : State} {x1_c : Nat} {x2_m : MissReg} (h : Keeps a s) : Keeps a (State.storeBufCheck s x1_c x2_m).2 := by
  unfold State.storeBufCheck
  grind [State.l1Event_keeps, State.l1ErrRecord_keeps, State.disarm_keeps, State.l1Corrected_keeps, keeps_mk, keeps_foldl]

theorem State.fillSector_keeps {a s : State} {x1_c : Nat} {x2_sector : Nat} (h : Keeps a s) : Keeps a (State.fillSector s x1_c x2_sector) := by
  unfold State.fillSector
  grind (splits := 40) (gen := 20) (ematch := 20) [State.storeBufCheck_keeps, State.modCore_keeps, State.serveWaiter_keeps, State.checkOp_keeps, State.serve_keeps, State.settleLine_keeps, keeps_mk, keeps_foldl]

theorem execSectorFill_keeps {a s t : State} {x0_core : Nat} {x1_sector : Nat} (e : execSectorFill x0_core x1_sector s = .next t) (h : Keeps a s) : Keeps a t := by
  unfold execSectorFill at e
  grind [State.fillSector_keeps, keeps_mk, keeps_foldl]

theorem execReplayQueueServe_keeps {a s t : State} {x0_core : Nat} (e : execReplayQueueServe x0_core s = .next t) (h : Keeps a s) : Keeps a t := by
  unfold execReplayQueueServe at e
  grind [State.modCore_keeps, State.enterLine_keeps, State.serve_keeps, State.checkOp_keeps, keeps_mk, keeps_foldl]

theorem execFwdGetS_keeps {a s t : State} {x0_m : Msg} (e : execFwdGetS x0_m s = .next t) (h : Keeps a s) : Keeps a t := by
  unfold execFwdGetS at e
  grind [State.takeFor_keeps, State.onForward_keeps, keeps_mk, keeps_foldl]

theorem execFwdGetM_keeps {a s t : State} {x0_m : Msg} (e : execFwdGetM x0_m s = .next t) (h : Keeps a s) : Keeps a t := by
  unfold execFwdGetM at e
  grind [State.takeFor_keeps, State.onForward_keeps, keeps_mk, keeps_foldl]

theorem execInv_keeps {a s t : State} {x0_m : Msg} (e : execInv x0_m s = .next t) (h : Keeps a s) : Keeps a t := by
  unfold execInv at e
  grind [State.takeFor_keeps, State.onForward_keeps, keeps_mk, keeps_foldl]

theorem execData_keeps {a s t : State} {x0_m : Msg} (e : execData x0_m s = .next t) (h : Keeps a s) : Keeps a t := by
  unfold execData at e
  grind [State.takeFor_keeps, State.onData_keeps, keeps_mk, keeps_foldl]

theorem execDataExcl_keeps {a s t : State} {x0_m : Msg} (e : execDataExcl x0_m s = .next t) (h : Keeps a s) : Keeps a t := by
  unfold execDataExcl at e
  grind [State.takeFor_keeps, State.onData_keeps, keeps_mk, keeps_foldl]

theorem execPutAck_keeps {a s t : State} {x0_m : Msg} (e : execPutAck x0_m s = .next t) (h : Keeps a s) : Keeps a t := by
  unfold execPutAck at e
  grind [State.takeFor_keeps, State.modCore_keeps, State.ebbLine_keeps, State.l1Error_keeps, keeps_mk, keeps_foldl]

theorem execNack_keeps {a s t : State} {x0_m : Msg} (e : execNack x0_m s = .next t) (h : Keeps a s) : Keeps a t := by
  unfold execNack at e
  grind [State.takeFor_keeps, State.modCore_keeps, State.l1Error_keeps, keeps_mk, keeps_foldl]

theorem execNackResend_keeps {a s t : State} {x0_node : Nat} {x1_txn : Nat} (e : execNackResend x0_node x1_txn s = .next t) (h : Keeps a s) : Keeps a t := by
  unfold execNackResend at e
  grind [State.send_keeps, State.modCore_keeps, keeps_mk, keeps_foldl]

theorem execAtomResp_keeps {a s t : State} {x0_m : Msg} (e : execAtomResp x0_m s = .next t) (h : Keeps a s) : Keeps a t := by
  unfold execAtomResp at e
  dsimp only at e
  (repeat' split at e) <;> (repeat' first | refine keeps_foldl (fun s x h => ?_) _ ?_ | split) <;> grind [State.takeFor_keeps, State.modCore_keeps, State.kcount_keeps, State.takeFaultAt_keeps, State.serve_keeps, State.checkOp_keeps, keeps_mk, keeps_foldl]

/-! ### Home -/

theorem State.toReq_keeps {a s : State} {x1_h : Nat} {x2_m : Msg} {x3_ty : MTy} {x4_mask : Nat} {x5_aux : Nat} {x6_flags : Nat} {x7_data : Mem} {x8_poison : Nat} (h : Keeps a s) : Keeps a (State.toReq s x1_h x2_m x3_ty x4_mask x5_aux x6_flags x7_data x8_poison) := by
  unfold State.toReq
  grind [State.send_keeps, keeps_mk, keeps_foldl]

theorem State.grant_keeps {a s : State} {x1_h : Nat} {x2_m : Msg} {x3_mask : Nat} {x4_aux : Nat} {x5_flags : Nat} (h : Keeps a s) : Keeps a (State.grant s x1_h x2_m x3_mask x4_aux x5_flags) := by
  unfold State.grant
  grind [State.hcount_keeps, State.toReq_keeps, keeps_mk, keeps_foldl]

theorem State.putAck_keeps {a s : State} {x1_m : Msg} (h : Keeps a s) : Keeps a (State.putAck s x1_m) := by
  unfold State.putAck
  grind [State.send_keeps, keeps_mk, keeps_foldl]

theorem State.nack_keeps {a s : State} {x1_h : Nat} {x2_m : Msg} (h : Keeps a s) : Keeps a (State.nack s x1_h x2_m) := by
  unfold State.nack
  grind [State.hcount_keeps, State.toReq_keeps, keeps_mk, keeps_foldl]

theorem State.forward_keeps {a s : State} {x1_h : Nat} {x2_m : Msg} {x3_ty : MTy} {x4_x : Nat} {x5_flags : Nat} (h : Keeps a s) : Keeps a (State.forward s x1_h x2_m x3_ty x4_x x5_flags) := by
  unfold State.forward
  grind [State.hcount_keeps, State.send_keeps, keeps_mk, keeps_foldl]

theorem State.invAll_keeps {a s : State} {x1_h : Nat} {x2_m : Msg} {x3_l : List Nat} {x4_flags : Nat} {x5_coarse : Bool} (h : Keeps a s) : Keeps a (State.invAll s x1_h x2_m x3_l x4_flags x5_coarse) := by
  unfold State.invAll
  grind [State.send_keeps, State.hcount_keeps, keeps_mk, keeps_foldl]

theorem State.invHolders_keeps {a s : State} {x1_h : Nat} {x2_m : Msg} {x3_except : Option Nat} (h : Keeps a s) : Keeps a (State.invHolders s x1_h x2_m x3_except).2.2 := by
  unfold State.invHolders
  grind [State.invAll_keeps, keeps_mk, keeps_foldl]

theorem State.homeError_keeps {a s : State} {x1_h : Nat} {x2_m : Msg} (h : Keeps a s) : Keeps a (State.homeError s x1_h x2_m) := by
  unfold State.homeError
  grind [State.hcount_keeps, State.record_keeps, keeps_mk, keeps_foldl]

theorem State.homeAtom_keeps {a s : State} {x1_h : Nat} {x2_m : Msg} (h : Keeps a s) : Keeps a (State.homeAtom s x1_h x2_m) := by
  unfold State.homeAtom
  extract_lets line y cont s1 resp
  have h1 : Keeps a s1 := State.modSlice_keeps h
  have hr : ∀ s o, Keeps a s → Keeps a (resp s o) := fun s o h => State.hcount_keeps (State.send_keeps h)
  clear_value resp s1
  split
  · refine hr _ _ (keeps_foldl (fun s p h => ?_) _ (State.countWrites_keeps h1))
    dsimp only
    refine keeps_ite (State.setHline_keeps ?_) ?_ <;>
      exact keeps_ite h (keeps_ite (State.setPoison_keeps (keeps_mk h (fun w => Mem.wf_foldl (fun m x hm => Mem.wf_write _ _ hm) _ w) id))
        (keeps_mk h (fun w => Mem.wf_foldl (fun m x hm => Mem.wf_write _ _ hm) _ w) id))
  · exact hr _ _ (State.setHline_keeps (keeps_ite (keeps_mk h1 (Mem.wf_writeLE _ _ _) id) h1))

theorem State.sliceError_keeps {a s : State} {x1_h : Nat} {x2_line : Nat} {x3_secs : Nat} {x4_source : Nat} {x5_lost : Bool} (h : Keeps a s) : Keeps a (State.sliceError s x1_h x2_line x3_secs x4_source x5_lost) := by
  unfold State.sliceError
  grind [State.record_keeps, State.rasEvent_keeps, keeps_mk, keeps_foldl]

theorem State.sliceCorrected_keeps {a s : State} {x1_cls : Nat} {x2_h : Nat} {x3_line : Nat} (h : Keeps a s) : Keeps a (State.sliceCorrected s x1_cls x2_h x3_line) := by
  unfold State.sliceCorrected
  grind [State.errBit_keeps, State.disarm_keeps, State.hcount_keeps, State.rasEvent_keeps, keeps_mk, keeps_foldl]

theorem State.shelfServe_keeps {a s : State} {x1_h : Nat} {x2_m : Msg} (h : Keeps a s) : Keeps a (State.shelfServe s x1_h x2_m) := by
  unfold State.shelfServe
  grind [State.takeInjection_keeps, State.sliceError_keeps, State.setPoison_keeps, State.sliceCorrected_keeps, State.scount_keeps, State.toReq_keeps, State.homeAtom_keeps, keeps_mk, keeps_foldl]

theorem State.serveStable_keeps {a s t : State} {x1_h : Nat} {x2_m : Msg} (e : State.serveStable s x1_h x2_m = some t) (h : Keeps a s) : Keeps a t := by
  unfold State.serveStable at e
  grind [State.setHline_keeps, State.modSlice_keeps, State.grant_keeps, State.forward_keeps, State.invHolders_keeps, State.invAll_keeps, State.homeAtom_keeps, keeps_mk, keeps_foldl]

theorem State.dirAhead_keeps {a s : State} {x1_h : Nat} {x2_t : HTxn} (h : Keeps a s) : Keeps a (State.dirAhead s x1_h x2_t).2 := by
  unfold State.dirAhead
  grind [State.modSlice_keeps, State.fetch_keeps, State.grant_keeps, keeps_mk, keeps_foldl]

theorem State.dirBroadcast_keeps {a s : State} {x1_h : Nat} {x2_m : Msg} (h : Keeps a s) : Keeps a (State.dirBroadcast s x1_h x2_m) := by
  unfold State.dirBroadcast
  grind [State.hcount_keeps, State.invAll_keeps, State.record_keeps, State.rasEvent_keeps, State.dirAhead_keeps, State.modSlice_keeps, keeps_mk, keeps_foldl]

theorem State.recovered_keeps {a s : State} {x1_h : Nat} {x2_line : Nat} (h : Keeps a s) : Keeps a (State.recovered s x1_h x2_line) := by
  unfold State.recovered
  grind [State.setHline_keeps, State.setFld_keeps, keeps_mk, keeps_foldl]

theorem State.sliceCheck_keeps {a s : State} {x1_h : Nat} {x2_line : Nat} {x3_need : Nat} (h : Keeps a s) : Keeps a (State.sliceCheck s x1_h x2_line x3_need).2 := by
  unfold State.sliceCheck
  grind (splits := 40) (gen := 20) (ematch := 20) [State.takeInjection_keeps, State.sliceCorrected_keeps, State.draw_keeps, State.fetch_keeps, State.setHline_keeps, State.sliceError_keeps, State.writeDown_keeps, keeps_mk, keeps_foldl]

theorem State.dirCheck_keeps {a s : State} {x1_h : Nat} {x2_line : Nat} (h : Keeps a s) : Keeps a (State.dirCheck s x1_h x2_line).2 := by
  unfold State.dirCheck
  grind [State.takeInjection_keeps, State.sliceCorrected_keeps, keeps_mk, keeps_foldl]

theorem State.serveReq_keeps {a s t : State} {x1_h : Nat} {x2_m : Msg} (e : State.serveReq s x1_h x2_m = some t) (h : Keeps a s) : Keeps a t := by
  unfold State.serveReq at e
  (repeat' split at e) <;> grind (splits := 40) (gen := 20) (ematch := 20) [State.shelfServe_keeps, State.setHline_keeps, State.toReq_keeps, State.send_keeps, State.homeAtom_keeps, State.hcount_keeps, State.reread_keeps, State.scount_keeps, State.modSlice_keeps, State.findWay_keeps, State.claimWay_keeps, State.writeDown_keeps, State.invHolders_keeps, State.sliceCheck_keeps, State.dirCheck_keeps, State.serveStable_keeps, State.dirBroadcast_keeps, State.recovered_keeps, keeps_mk, keeps_foldl]

theorem State.drainHome_keeps {a s : State} {x1_h : Nat} {x2_a : Nat} (h : Keeps a s) : Keeps a (State.drainHome s x1_h x2_a) := by
  induction x2_a generalizing s with
  | zero => exact h
  | succ n ih =>
    unfold State.drainHome
    dsimp only
    split
    · exact h
    · next u k =>
      obtain ⟨m, hm⟩ := List.exists_of_findSome?_eq_some k
      exact ih (State.serveReq_keeps hm.2 (State.accepted_keeps (State.modSlice_keeps h)))

theorem State.drain_keeps {a s : State} {x1_h : Nat} (h : Keeps a s) : Keeps a (State.drain s x1_h) := by
  unfold State.drain
  grind [State.drainHome_keeps, keeps_mk, keeps_foldl]

theorem State.stall_keeps {a s : State} {x1_h : Nat} {x2_m : Msg} (h : Keeps a s) : Keeps a (State.stall s x1_h x2_m) := by
  unfold State.stall
  grind [State.hcount_keeps, State.modSlice_keeps, State.nack_keeps, keeps_mk, keeps_foldl]

theorem State.awaitedOwner_keeps {a s t : State} {x1_h : Nat} {x2_m : Msg} {x3_t : HTxn} (e : State.awaitedOwner s x1_h x2_m x3_t = some t) (h : Keeps a s) : Keeps a t := by
  unfold State.awaitedOwner at e
  grind [State.fetch_keeps, State.grant_keeps, State.invAll_keeps, State.setHline_keeps, State.hcount_keeps, State.modSlice_keeps, keeps_mk, keeps_foldl]

theorem State.ebbEnd_keeps {a s : State} {x1_h : Nat} {x2_line : Nat} {x3_node : Nat} {x4_dirty : Bool} (h : Keeps a s) : Keeps a (State.ebbEnd s x1_h x2_line x3_node x4_dirty) := by
  unfold State.ebbEnd
  grind [State.scount_keeps, State.modCove_keeps, State.setHline_keeps, State.hcount_keeps, State.modSlice_keeps, State.writeDown_keeps, keeps_mk, keeps_foldl]

theorem State.ebbStart_keeps {a s : State} {x1_h : Nat} {x2_line : Nat} (h : Keeps a s) : Keeps a (State.ebbStart s x1_h x2_line) := by
  unfold State.ebbStart
  grind [State.modSlice_keeps, State.invHolders_keeps, State.drain_keeps, State.ebbEnd_keeps, keeps_mk, keeps_foldl]

theorem State.finishTxn_keeps {a s : State} {x1_h : Nat} {x2_t : HTxn} (h : Keeps a s) : Keeps a (State.finishTxn s x1_h x2_t) := by
  unfold State.finishTxn
  grind (splits := 40) (gen := 20) (ematch := 20) [State.putAck_keeps, State.modSlice_keeps, State.setHline_keeps, State.toReq_keeps, State.grant_keeps, State.homeAtom_keeps, State.recovered_keeps, State.serveReq_keeps, State.stall_keeps, State.ebbEnd_keeps, State.writeDown_keeps, State.claimWay_keeps, keeps_mk, keeps_foldl]

theorem State.advance_keeps {a s : State} {x1_h : Nat} {x2_t : HTxn} (h : Keeps a s) : Keeps a (State.advance s x1_h x2_t) := by
  unfold State.advance
  grind [State.grant_keeps, State.dirAhead_keeps, State.drain_keeps, State.finishTxn_keeps, State.modSlice_keeps, keeps_mk, keeps_foldl]

theorem State.onInvAck_keeps {a s : State} {x1_h : Nat} {x2_m : Msg} (h : Keeps a s) : Keeps a (State.onInvAck s x1_h x2_m) := by
  unfold State.onInvAck
  dsimp only
  (repeat' split) <;> (repeat' first | refine keeps_foldl (fun s x h => ?_) _ ?_ | split) <;> grind [State.homeError_keeps, State.hcount_keeps, State.setHline_keeps, State.advance_keeps, keeps_mk, keeps_foldl]

theorem State.onPut_keeps {a s : State} {x1_h : Nat} {x2_m : Msg} (h : Keeps a s) : Keeps a (State.onPut s x1_h x2_m) := by
  unfold State.onPut
  grind [State.hcount_keeps, State.modSlice_keeps, State.putAck_keeps, State.advance_keeps, State.setHline_keeps, keeps_mk, keeps_foldl]

theorem State.onRequest_keeps {a s : State} {x1_h : Nat} {x2_m : Msg} (h : Keeps a s) : Keeps a (State.onRequest s x1_h x2_m) := by
  unfold State.onRequest
  grind [State.awaitedOwner_keeps, State.accepted_keeps, State.advance_keeps, State.stall_keeps, State.serveReq_keeps, keeps_mk, keeps_foldl]

theorem State.onMemData_keeps {a s : State} {x1_h : Nat} {x2_line : Nat} (h : Keeps a s) : Keeps a (State.onMemData s x1_h x2_line) := by
  unfold State.onMemData
  grind [State.fetch_keeps, State.modSlice_keeps, State.serveReq_keeps, State.drain_keeps, State.stall_keeps, keeps_mk, keeps_foldl]

theorem State.homeFor_keeps {a s t : State} {x1_m : Msg} {x2_ty : MTy} (e : State.homeFor s x1_m x2_ty = some t) (h : Keeps a s) : Keeps a t := by
  unfold State.homeFor at e
  grind [State.takeMsg_keeps, keeps_mk, keeps_foldl]

theorem execGetS_keeps {a s t : State} {x0_m : Msg} (e : execGetS x0_m s = .next t) (h : Keeps a s) : Keeps a t := by
  unfold execGetS at e
  grind [State.homeFor_keeps, State.onRequest_keeps, keeps_mk, keeps_foldl]

theorem execGetM_keeps {a s t : State} {x0_m : Msg} (e : execGetM x0_m s = .next t) (h : Keeps a s) : Keeps a t := by
  unfold execGetM at e
  grind [State.homeFor_keeps, State.onRequest_keeps, keeps_mk, keeps_foldl]

theorem execUpg_keeps {a s t : State} {x0_m : Msg} (e : execUpg x0_m s = .next t) (h : Keeps a s) : Keeps a t := by
  unfold execUpg at e
  grind [State.homeFor_keeps, State.onRequest_keeps, keeps_mk, keeps_foldl]

theorem execSnoopRd_keeps {a s t : State} {x0_m : Msg} (e : execSnoopRd x0_m s = .next t) (h : Keeps a s) : Keeps a t := by
  unfold execSnoopRd at e
  grind [State.homeFor_keeps, State.onRequest_keeps, keeps_mk, keeps_foldl]

theorem execAtomFar_keeps {a s t : State} {x0_m : Msg} (e : execAtomFar x0_m s = .next t) (h : Keeps a s) : Keeps a t := by
  unfold execAtomFar at e
  grind [State.homeFor_keeps, State.onRequest_keeps, keeps_mk, keeps_foldl]

theorem execPutM_keeps {a s t : State} {x0_m : Msg} (e : execPutM x0_m s = .next t) (h : Keeps a s) : Keeps a t := by
  unfold execPutM at e
  grind [State.homeFor_keeps, State.onPut_keeps, keeps_mk, keeps_foldl]

theorem execPutO_keeps {a s t : State} {x0_m : Msg} (e : execPutO x0_m s = .next t) (h : Keeps a s) : Keeps a t := by
  unfold execPutO at e
  grind [State.homeFor_keeps, State.onPut_keeps, keeps_mk, keeps_foldl]

theorem execPutE_keeps {a s t : State} {x0_m : Msg} (e : execPutE x0_m s = .next t) (h : Keeps a s) : Keeps a t := by
  unfold execPutE at e
  grind [State.homeFor_keeps, State.onPut_keeps, keeps_mk, keeps_foldl]

theorem execPutS_keeps {a s t : State} {x0_m : Msg} (e : execPutS x0_m s = .next t) (h : Keeps a s) : Keeps a t := by
  unfold execPutS at e
  grind [State.homeFor_keeps, State.onPut_keeps, keeps_mk, keeps_foldl]

theorem execInvAck_keeps {a s t : State} {x0_m : Msg} (e : execInvAck x0_m s = .next t) (h : Keeps a s) : Keeps a t := by
  unfold execInvAck at e
  grind [State.homeFor_keeps, State.onInvAck_keeps, keeps_mk, keeps_foldl]

theorem execMemoryData_keeps {a s t : State} {x0_slice : Nat} {x1_line : Nat} (e : execMemoryData x0_slice x1_line s = .next t) (h : Keeps a s) : Keeps a t := by
  unfold execMemoryData at e
  grind [State.onMemData_keeps, keeps_mk, keeps_foldl]

theorem execEbbAction_keeps {a s t : State} {x0_slice : Nat} {x1_line : Nat} (e : execEbbAction x0_slice x1_line s = .next t) (h : Keeps a s) : Keeps a t := by
  unfold execEbbAction at e
  grind [State.ebbStart_keeps, keeps_mk, keeps_foldl]

/-! ### MemCmd -/

theorem State.moveMoored_keeps {a s t : State} {x1_c : Nat} {x2_h : Nat} {x3_w : Nat} (e : State.moveMoored s x1_c x2_h x3_w = some t) (h : Keeps a s) : Keeps a t := by
  unfold State.moveMoored at e
  refine keeps_foldl_option (fun _ => rfl) (fun s t x e h => ?_) _ e h
  dsimp only at e
  grind [State.setHline_keeps, State.dropLine_keeps]

theorem State.evictCarved_keeps {a s t : State} {x1_c : Nat} {x2_h : Nat} {x3_w : Nat} (e : State.evictCarved s x1_c x2_h x3_w = some t) (h : Keeps a s) : Keeps a t := by
  unfold State.evictCarved at e
  exact keeps_foldl_option (fun _ => rfl) (fun s t x e h => by grind [State.dropLine_keeps]) _ e h

theorem State.recarve_keeps {a s : State} {x1_c : Nat} {x2_old : Nat} {x3_new : Nat} (h : Keeps a s) : Keeps a (State.recarve s x1_c x2_old x3_new) := by
  unfold State.recarve
  exact keeps_mk h (fun w => Mem.wf_foldl (fun m x hm => Mem.wf_write _ _ hm) _ (Mem.wf_filter _ w)) id

theorem State.carveTo_keeps {a s t : State} {x1_c : Nat} {x2_w : Nat} (e : State.carveTo s x1_c x2_w = some t) (h : Keeps a s) : Keeps a t := by
  unfold State.carveTo at e
  dsimp only at e
  obtain ⟨u, hu, rfl⟩ := Option.map_eq_some_iff.1 e
  refine keeps_foldl (fun s x h => State.modSlice_keeps h) _ (State.modCove_keeps (State.recarve_keeps ?_))
  split at hu
  · exact keeps_foldl_option (fun _ => rfl) (fun s t x e h => by grind [State.moveMoored_keeps, State.evictCarved_keeps]) _ hu h
  · cases hu; exact h

theorem execShelfCarve_keeps {a s t : State} {x0_ctx : Nat} {x1_q : Nat} {x2_idx : Nat} (e : execShelfCarve x0_ctx x1_q x2_idx s = .next t) (h : Keeps a s) : Keeps a t := by
  unfold execShelfCarve at e
  grind [State.fail_keeps, State.scount_keeps, State.carveTo_keeps, State.finish_keeps, State.validated_keeps, State.startCmd_keeps, keeps_mk, keeps_foldl]

theorem State.moorLine_keeps {a s t : State} {x1_c : Nat} {x2_line : Nat} (e : State.moorLine s x1_c x2_line = some t) (h : Keeps a s) : Keeps a t := by
  unfold State.moorLine at e
  grind (splits := 40) (gen := 20) (ematch := 20) [State.fetch_keeps, State.setHline_keeps, State.scount_keeps, State.modCove_keeps, State.makeRoom_keeps, State.hcount_keeps, keeps_mk, keeps_foldl]

theorem State.moorRun_keeps {a s : State} {x1_k : Cmd} {x2_ls : List Nat} (h : Keeps a s) : Keeps a (State.moorRun s x1_k x2_ls) := by
  unfold State.moorRun
  dsimp only
  split
  · exact State.fail_keeps h
  · split
    · exact State.fail_keeps (keeps_foldl (fun s x h => State.scount_keeps h) _ h)
    · split
      · exact h
      · next u k =>
        exact State.finish_keeps (keeps_foldl_option (fun _ => rfl) (fun s t x e h => by grind [State.moorLine_keeps]) _ k h)

theorem execMoor_keeps {a s t : State} {x0_ctx : Nat} {x1_q : Nat} {x2_idx : Nat} (e : execMoor x0_ctx x1_q x2_idx s = .next t) (h : Keeps a s) : Keeps a t := by
  unfold execMoor at e
  grind [State.validated_keeps, State.fail_keeps, State.moorRun_keeps, State.startCmd_keeps, keeps_mk, keeps_foldl]

theorem State.unmoorLine_keeps {a s : State} {x1_c : Nat} {x2_line : Nat} (h : Keeps a s) : Keeps a (State.unmoorLine s x1_c x2_line) := by
  unfold State.unmoorLine
  grind [State.scount_keeps, State.modCove_keeps, State.setHline_keeps, keeps_mk, keeps_foldl]

theorem execUnmoor_keeps {a s t : State} {x0_ctx : Nat} {x1_q : Nat} {x2_idx : Nat} (e : execUnmoor x0_ctx x1_q x2_idx s = .next t) (h : Keeps a s) : Keeps a t := by
  unfold execUnmoor at e
  grind [State.validated_keeps, State.fail_keeps, State.finish_keeps, State.unmoorLine_keeps, State.startCmd_keeps, keeps_mk, keeps_foldl]

theorem State.ebbEngine_keeps {a s : State} {x1_c : Nat} {x2_line : Nat} (h : Keeps a s) : Keeps a (State.ebbEngine s x1_c x2_line) := by
  unfold State.ebbEngine
  grind [State.countInvs_keeps, State.hcount_keeps, State.ebbEnd_keeps, State.recallLine_keeps, keeps_mk, keeps_foldl]

theorem execEbb_keeps {a s t : State} {x0_ctx : Nat} {x1_q : Nat} {x2_idx : Nat} (e : execEbb x0_ctx x1_q x2_idx s = .next t) (h : Keeps a s) : Keeps a t := by
  unfold execEbb at e
  grind [State.validated_keeps, State.fail_keeps, State.startCmd_keeps, State.ebbEngine_keeps, State.finish_keeps, State.setCmd_keeps, keeps_mk, keeps_foldl]

theorem State.dropXlate_keeps {a s : State} {x1_c : Nat} (h : Keeps a s) : Keeps a (State.dropXlate s x1_c) := by
  unfold State.dropXlate
  grind [State.modCore_keeps, keeps_mk, keeps_foldl]

theorem execXlateInval_keeps {a s t : State} {x0_ctx : Nat} {x1_q : Nat} {x2_idx : Nat} (e : execXlateInval x0_ctx x1_q x2_idx s = .next t) (h : Keeps a s) : Keeps a t := by
  unfold execXlateInval at e
  grind [State.validated_keeps, State.dropXlate_keeps, State.startCmd_keeps, State.finish_keeps, keeps_mk, keeps_foldl]

theorem State.setSem_keeps {a s : State} {x1_n : Nat} {x2_v : Nat} (h : Keeps a s) : Keeps a (State.setSem s x1_n x2_v) := by
  unfold State.setSem
  grind [keeps_mk, keeps_foldl]

theorem State.semWake_keeps {a s : State} {x1_n : Nat} (h : Keeps a s) : Keeps a (State.semWake s x1_n) := by
  unfold State.semWake
  grind [State.finish_keeps, keeps_mk, keeps_foldl]

theorem execSemSignal_keeps {a s t : State} {x0_ctx : Nat} {x1_q : Nat} {x2_idx : Nat} (e : execSemSignal x0_ctx x1_q x2_idx s = .next t) (h : Keeps a s) : Keeps a t := by
  unfold execSemSignal at e
  (repeat' first | split at e | refine keeps_foldl (fun s x h => ?_) _ ?_) <;> grind [State.validated_keeps, State.startCmd_keeps, State.semWake_keeps, State.finish_keeps, State.setSem_keeps, State.fail_keeps, State.bufWrite_keeps, State.failRead_keeps, keeps_mk, keeps_foldl]

theorem State.semHoldLine_keeps {a s : State} {x1_k : Cmd} (h : Keeps a s) : Keeps a (State.semHoldLine s x1_k) := by
  unfold State.semHoldLine
  grind [State.modEdge_keeps, keeps_mk, keeps_foldl]

theorem State.semLook_keeps {a s : State} {x1_k : Cmd} (h : Keeps a s) : Keeps a (State.semLook s x1_k) := by
  unfold State.semLook
  grind [State.finish_keeps, State.setCmd_keeps, State.fail_keeps, State.semHoldLine_keeps, State.failRead_keeps, keeps_mk, keeps_foldl]

theorem execSemWait_keeps {a s t : State} {x0_ctx : Nat} {x1_q : Nat} {x2_idx : Nat} (e : execSemWait x0_ctx x1_q x2_idx s = .next t) (h : Keeps a s) : Keeps a t := by
  unfold execSemWait at e
  grind [State.validated_keeps, State.fail_keeps, State.semLook_keeps, State.startCmd_keeps, keeps_mk, keeps_foldl]

theorem execSemWaitTimeout_keeps {a s t : State} {x0_ctx : Nat} {x1_q : Nat} {x2_idx : Nat} (e : execSemWaitTimeout x0_ctx x1_q x2_idx s = .next t) (h : Keeps a s) : Keeps a t := by
  unfold execSemWaitTimeout at e
  grind [State.fail_keeps, keeps_mk, keeps_foldl]

theorem execSemPoll_keeps {a s t : State} {x0_ctx : Nat} {x1_q : Nat} {x2_idx : Nat} (e : execSemPoll x0_ctx x1_q x2_idx s = .next t) (h : Keeps a s) : Keeps a t := by
  unfold execSemPoll at e
  grind [State.semLook_keeps, keeps_mk, keeps_foldl]

theorem execCxlSnoop_keeps {a s t : State} {x0_port : Nat} {x1_line : Nat} (e : execCxlSnoop x0_port x1_line s = .next t) (h : Keeps a s) : Keeps a t := by
  unfold execCxlSnoop at e
  grind [State.count_keeps, State.modEdge_keeps, State.semLook_keeps, keeps_mk, keeps_foldl]

/-! ### Cove -/

theorem State.clearCtxWork_keeps {a s : State} {x1_x : Nat} (h : Keeps a s) : Keeps a (State.clearCtxWork s x1_x) := by
  unfold State.clearCtxWork
  grind [keeps_mk, keeps_foldl]

theorem State.evictCtx_keeps {a s : State} {x1_x : Nat} (h : Keeps a s) : Keeps a (State.evictCtx s x1_x) := by
  unfold State.evictCtx
  grind [State.evictAll_keeps, keeps_mk, keeps_foldl]

theorem State.idleDoms_keeps {a s : State} {x1_x : Nat} (h : Keeps a s) : Keeps a (State.idleDoms s x1_x) := by
  unfold State.idleDoms
  grind [State.modDom_keeps, State.abortDom_keeps, keeps_mk, keeps_foldl]

theorem State.disableQueues_keeps {a s : State} {x1_x : Nat} (h : Keeps a s) : Keeps a (State.disableQueues s x1_x) := by
  unfold State.disableQueues
  grind [State.setQ_keeps, keeps_mk, keeps_foldl]

theorem State.dropCtx_keeps {a s : State} {x1_x : Nat} (h : Keeps a s) : Keeps a (State.dropCtx s x1_x) := by
  unfold State.dropCtx
  dsimp only
  repeat' first | assumption | split | apply State.disableQueues_keeps | apply State.releasePool_keeps | apply State.clearCtxWork_keeps | apply State.evictCtx_keeps | apply State.idleDoms_keeps | apply State.setCtx_keeps | (refine keeps_foldl (fun s x h => ?_) _ ?_)
  all_goals grind [State.disableQueues_keeps, State.releasePool_keeps, State.clearCtxWork_keeps, State.evictCtx_keeps, State.idleDoms_keeps, State.setCtx_keeps, keeps_mk, keeps_foldl]

theorem State.endAllGhosts_keeps {a s : State} {x1_c : Nat} (h : Keeps a s) : Keeps a (State.endAllGhosts s x1_c) := by
  unfold State.endAllGhosts
  grind [State.modSlice_keeps, State.count_keeps, keeps_mk, keeps_foldl]

theorem State.unmoorAll_keeps {a s : State} {x1_c : Nat} (h : Keeps a s) : Keeps a (State.unmoorAll s x1_c) := by
  unfold State.unmoorAll
  grind [State.modCove_keeps, State.scount_keeps, State.setHline_keeps, keeps_mk, keeps_foldl]

theorem State.zeroShelf_keeps {a s : State} {x1_c : Nat} (h : Keeps a s) : Keeps a (State.zeroShelf s x1_c) := by
  unfold State.zeroShelf
  grind [Mem.wf_write, Mem.wf_writeBytes, Mem.wf_writeLE, Mem.wf_mdrop, Mem.wf_clear, Mem.wf_filter, Mem.wf_foldl, keeps_mk, keeps_foldl]

theorem State.resetCove_keeps {a s : State} {x1_c : Nat} (h : Keeps a s) : Keeps a (State.resetCove s x1_c) := by
  unfold State.resetCove
  grind [State.dropCtx_keeps, State.modCove_keeps, State.zeroShelf_keeps, State.unmoorAll_keeps, State.endAllGhosts_keeps, keeps_mk, keeps_foldl]

theorem State.mapCore_keeps {a s : State} {x1_k : Nat} {x2_c : Option Nat} (h : Keeps a s) : Keeps a (State.mapCore s x1_k x2_c) := by
  unfold State.mapCore
  grind [State.setK_keeps, keeps_mk, keeps_foldl]

theorem State.leaveCore_keeps {a s : State} {x1_c : Nat} {x2_k : Nat} (h : Keeps a s) : Keeps a (State.leaveCore s x1_c x2_k) := by
  unfold State.leaveCore
  grind [State.modCore_keeps, State.mapCore_keeps, State.modCove_keeps, keeps_mk, keeps_foldl]

theorem execCoreLeave_keeps {a s t : State} {x0_core : Nat} (e : execCoreLeave x0_core s = .next t) (h : Keeps a s) : Keeps a t := by
  unfold execCoreLeave at e
  grind [State.leaveCore_keeps, State.evictLines_keeps, keeps_mk, keeps_foldl]

theorem State.coresWrite_keeps {a s : State} {x1_c : Nat} {x2_n : Nat} {x3_v : Nat} (h : Keeps a s) : Keeps a (State.coresWrite s x1_c x2_n x3_v) := by
  unfold State.coresWrite
  grind [State.setFldN_keeps, State.modCove_keeps, State.mapCore_keeps, State.evictLines_keeps, keeps_mk, keeps_foldl]

theorem State.startCreate_keeps {a s : State} {x1_c : Nat} (h : Keeps a s) : Keeps a (State.startCreate s x1_c) := by
  unfold State.startCreate
  grind [State.modCove_keeps, State.modChan_keeps, State.modSlice_keeps, State.setFld_keeps, State.mapCore_keeps, State.evictLines_keeps, keeps_mk, keeps_foldl]

theorem State.coveCreateOp_keeps {a s : State} {x1_c : Nat} (h : Keeps a s) : Keeps a (State.coveCreateOp s x1_c) := by
  unfold State.coveCreateOp
  grind [State.modCove_keeps, State.startCreate_keeps, keeps_mk, keeps_foldl]

theorem State.releaseChan_keeps {a s : State} {x1_ch : Nat} (h : Keeps a s) : Keeps a (State.releaseChan s x1_ch) := by
  unfold State.releaseChan
  grind [State.modChan_keeps, State.mapChange_keeps, State.withdrawFrame_keeps, keeps_mk, keeps_foldl]

theorem State.dropSlices_keeps {a s : State} {x1_sl : List Nat} {x2_gone : Nat → Bool} (h : Keeps a s) : Keeps a (State.dropSlices s x1_sl x2_gone) := by
  unfold State.dropSlices
  grind [State.modSlice_keeps, State.modCore_keeps, keeps_mk, keeps_foldl]

theorem State.destroyCove_keeps {a s : State} {x1_c : Nat} (h : Keeps a s) : Keeps a (State.destroyCove s x1_c) := by
  unfold State.destroyCove
  grind [State.dropSlices_keeps, State.mapCore_keeps, State.modCore_keeps, State.modCove_keeps, State.releaseChan_keeps, keeps_mk, keeps_foldl]

theorem State.coveOp_keeps {a s : State} {x1_c : Nat} {x2_op : Nat} (h : Keeps a s) : Keeps a (State.coveOp s x1_c x2_op) := by
  unfold State.coveOp
  grind [State.coveCreateOp_keeps, State.modCove_keeps, State.resetCove_keeps, State.destroyCove_keeps, keeps_mk, keeps_foldl]

theorem State.clearFrames_keeps {a s : State} {x1_c : Nat} (h : Keeps a s) : Keeps a (State.clearFrames s x1_c) := by
  unfold State.clearFrames
  grind [Mem.wf_write, Mem.wf_writeBytes, Mem.wf_writeLE, Mem.wf_mdrop, Mem.wf_clear, Mem.wf_filter, Mem.wf_foldl, keeps_mk, keeps_foldl]

theorem execClearingEnd_keeps {a s t : State} {x0_ch : Nat} (e : execClearingEnd x0_ch s = .next t) (h : Keeps a s) : Keeps a t := by
  unfold execClearingEnd at e
  grind [State.count_keeps, State.modChan_keeps, State.modCove_keeps, State.clearFrames_keeps, keeps_mk, keeps_foldl]

/-! ### Context -/

theorem State.eachCmd_keeps {a s : State} {x1_x : Nat} {x2_f : Cmd → Cmd} (h : Keeps a s) : Keeps a (State.eachCmd s x1_x x2_f) := by
  unfold State.eachCmd
  grind [keeps_mk, keeps_foldl]

theorem State.finishCtxEl_keeps {a s : State} {x1_x : Nat} (h : Keeps a s) : Keeps a (State.finishCtxEl s x1_x) := by
  unfold State.finishCtxEl
  refine keeps_foldl (fun s p h => ?_) _ h
  split
  · exact keeps_ite (State.finishEl_keeps h) h
  · exact h

theorem State.takeImage_keeps {a s : State} {x1_x : Nat} (h : Keeps a s) : Keeps a (State.takeImage s x1_x) := by
  unfold State.takeImage
  grind [State.finishCtxEl_keeps, State.modCore_keeps, State.eachCmd_keeps, State.xcount_keeps, State.setX_keeps, State.modCtx_keeps, keeps_mk, keeps_foldl]

theorem State.ctlPreempt_keeps {a s t : State} {x1_x : Nat} (e : State.ctlPreempt s x1_x = some t) (h : Keeps a s) : Keeps a t := by
  unfold State.ctlPreempt at e
  grind [State.xcount_keeps, State.modCtx_keeps, State.startHold_keeps, State.beginSave_keeps, keeps_mk, keeps_foldl]

theorem State.saveHeld_keeps {a s : State} {x1_x : Nat} {x2_d : Nat} (h : Keeps a s) : Keeps a (State.saveHeld s x1_x x2_d) := by
  unfold State.saveHeld
  grind [State.modDom_keeps, State.takeImage_keeps, State.modCtx_keeps, State.finish_keeps, State.xcount_keeps, keeps_mk, keeps_foldl]

theorem execSaveEnd_keeps {a s t : State} {x0_ctx : Nat} (e : execSaveEnd x0_ctx s = .next t) (h : Keeps a s) : Keeps a t := by
  unfold execSaveEnd at e
  grind [State.reserve_keeps, State.coresFreed_keeps, State.saveHeld_keeps, State.modCtx_keeps, State.takeImage_keeps, State.beginSave_keeps, keeps_mk, keeps_foldl]

theorem State.refillEntry_keeps {a s t : State} {x1_c : Nat} {x2_f : Src × Nat} (e : State.refillEntry s x1_c x2_f = some t) (h : Keeps a s) : Keeps a t := by
  unfold State.refillEntry at e
  grind [State.modCore_keeps, keeps_mk, keeps_foldl]

theorem State.refill_keeps {a s : State} {x1_x : Nat} {x2_c : Nat} (h : Keeps a s) : Keeps a (State.refill s x1_x x2_c) := by
  unfold State.refill
  grind [State.modCore_keeps, State.count_keeps, State.refillEntry_keeps, State.drawBytes_keeps, keeps_mk, keeps_foldl]

theorem State.clearFault_keeps {a s : State} {x1_x : Nat} (h : Keeps a s) : Keeps a (State.clearFault s x1_x) := by
  unfold State.clearFault
  grind [State.setX_keeps, State.setK_keeps, keeps_mk, keeps_foldl]

theorem State.unfault_keeps {a s : State} {x1_x : Nat} {x2_rebase : Bool} {x3_refill : Bool} (h : Keeps a s) : Keeps a (State.unfault s x1_x x2_rebase x3_refill) := by
  unfold State.unfault
  grind [State.modGroup_keeps, State.refill_keeps, State.eachCmd_keeps, State.modCtx_keeps, State.clearFault_keeps, keeps_mk, keeps_foldl]

theorem State.goOn_keeps {a s : State} {x1_x : Nat} (h : Keeps a s) : Keeps a (State.goOn s x1_x) := by
  unfold State.goOn
  grind [State.modCtx_keeps, keeps_mk, keeps_foldl]

theorem State.takeSplit_keeps {a s : State} {x1_c : Nat} {x2_n : Nat} (h : Keeps a s) : Keeps a (State.takeSplit s x1_c x2_n) := by
  unfold State.takeSplit
  grind [State.modCore_keeps, keeps_mk, keeps_foldl]

theorem State.putImage_keeps {a s : State} {x1_c : Nat} {x2_i : Image} (h : Keeps a s) : Keeps a (State.putImage s x1_c x2_i) := by
  unfold State.putImage
  grind [State.modCore_keeps, State.takeSplit_keeps, keeps_mk, keeps_foldl]

theorem State.spoil_keeps {a s : State} {x1_x : Nat} {x2_cores : List Nat} {x3_n : Nat} (h : Keeps a s) : Keeps a (State.spoil s x1_x x2_cores x3_n) := by
  unfold State.spoil
  grind [State.modCore_keeps, State.setPoison_keeps, keeps_mk, keeps_foldl]

theorem execRestore_keeps {a s t : State} {x0_ctx : Nat} {x1_second : Nat} {x2_bad : List Nat} (e : execRestore x0_ctx x1_second x2_bad s = .next t) (h : Keeps a s) : Keeps a t := by
  unfold execRestore at e
  extract_lets u at e
  split at e
  · cases e; exact h
  · split at e
    · cases e; exact h
    · split at e
      · cases e
        exact keeps_foldl (fun s x h => State.evictLines_keeps (State.maintAll_keeps h)) _ h
      · cases e
        refine State.goOn_keeps (keeps_foldl (fun s x h => State.finish_keeps h) _ (State.modCtx_keeps (State.unfault_keeps
          (State.modCtx_keeps (State.releasePool_keeps (State.eachCmd_keeps (State.xcount_keeps (State.xcount_keeps ?_))))))))
        refine keeps_ite ?_ (State.rasEvent_keeps ?_)
        all_goals
          refine keeps_foldl (fun s x h => State.spoil_keeps h) _ (keeps_foldl (fun s x h => ?_) _
            (keeps_mk (keeps_foldl (fun s x h => State.putImage_keeps h) _ h) (Mem.wf_mdrop _) id))
          split
          · exact State.setPoison_keeps h
          · exact keeps_mk h (Mem.wf_writeBytes _ _) id

theorem State.ctlAlloc_keeps {a s t : State} {x1_x : Nat} (e : State.ctlAlloc s x1_x = some t) (h : Keeps a s) : Keeps a t := by
  unfold State.ctlAlloc at e
  grind [State.setFlds_keeps, State.setFldN_keeps, State.setCtx_keeps, State.disableQueues_keeps, keeps_mk, keeps_foldl]

theorem State.ctlFree_keeps {a s t : State} {x1_x : Nat} (e : State.ctlFree s x1_x = some t) (h : Keeps a s) : Keeps a t := by
  unfold State.ctlFree at e
  grind [State.coresFreed_keeps, State.dropCtx_keeps, State.fail_keeps, keeps_mk, keeps_foldl]

theorem State.makeEligible_keeps {a s : State} {x1_x : Nat} (h : Keeps a s) : Keeps a (State.makeEligible s x1_x) := by
  unfold State.makeEligible
  grind [State.eachCmd_keeps, State.xcount_keeps, State.goOn_keeps, State.modCtx_keeps, State.releasePool_keeps, keeps_mk, keeps_foldl]

theorem State.ctlResume_keeps {a s t : State} {x1_x : Nat} {x2_rebase : Bool} {x3_refill : Bool} (e : State.ctlResume s x1_x x2_rebase x3_refill = some t) (h : Keeps a s) : Keeps a t := by
  unfold State.ctlResume at e
  grind [State.makeEligible_keeps, State.modCtx_keeps, State.goOn_keeps, State.unfault_keeps, keeps_mk, keeps_foldl]

theorem State.ctlEnd_keeps {a s t : State} {x1_x : Nat} (e : State.ctlEnd s x1_x = some t) (h : Keeps a s) : Keeps a t := by
  unfold State.ctlEnd at e
  grind [State.modCtx_keeps, State.abortDom_keeps, State.evictAll_keeps, State.fail_keeps, State.clearFault_keeps, State.coresFreed_keeps, State.goOn_keeps, State.releasePool_keeps, State.makeEligible_keeps, keeps_mk, keeps_foldl]

theorem State.ctxOp_keeps {a s : State} {x1_x : Nat} {x2_op : Nat} {x3_rebase : Bool} {x4_refill : Bool} (h : Keeps a s) : Keeps a (State.ctxOp s x1_x x2_op x3_rebase x4_refill) := by
  unfold State.ctxOp
  grind [State.ctlAlloc_keeps, State.ctlFree_keeps, State.ctlPreempt_keeps, State.ctlResume_keeps, State.ctlEnd_keeps, State.setX_keeps, keeps_mk, keeps_foldl]

theorem State.charge_keeps {a s : State} {x1_c : Nat} {x2_g : Charge} (h : Keeps a s) : Keeps a (State.charge s x1_c x2_g) := by
  unfold State.charge
  grind [State.setX_keeps, State.modCtx_keeps, State.modCove_keeps, State.eachCmd_keeps, keeps_mk, keeps_foldl]

theorem State.decay_keeps {a s : State} {x1_c : Nat} {x2_us : Nat} (h : Keeps a s) : Keeps a (State.decay s x1_c x2_us) := by
  unfold State.decay
  grind [State.modCove_keeps, State.modCtx_keeps, keeps_mk, keeps_foldl]

theorem execQuantumBoundary_keeps {a s t : State} {x0_cove : Nat} {x1_us : Nat} {x2_charges : List Charge} (e : execQuantumBoundary x0_cove x1_us x2_charges s = .next t) (h : Keeps a s) : Keeps a t := by
  unfold execQuantumBoundary at e
  grind [State.decay_keeps, State.charge_keeps, State.xcount_keeps, State.modCtx_keeps, State.schedule_keeps, State.noteWaits_keeps, keeps_mk, keeps_foldl]

theorem execHorizon_keeps {a s t : State} {x0_ctx : Nat} (e : execHorizon x0_ctx s = .next t) (h : Keeps a s) : Keeps a t := by
  unfold execHorizon at e
  grind [State.xcount_keeps, State.modCtx_keeps, keeps_mk, keeps_foldl]

theorem execSlowdownInterval_keeps {a s t : State} {x0_m : List Slow} (e : execSlowdownInterval x0_m s = .next t) (h : Keeps a s) : Keeps a t := by
  unfold execSlowdownInterval at e
  grind [State.setFlds_keeps, keeps_mk, keeps_foldl]

end Sys2Proof.Machine
end

