-- ==== Sys2Proof/Laws/Keeps4.lean ====
section
/-! SUPPORT. What the operations and commands of these files keep (`Keeps`): Tidemark, Retire, Power, Host, Startup, Vendor, Attest, TideCmd. -/

namespace Sys2Proof.Machine

set_option Elab.async false

/-! ### Tidemark -/

theorem State.tmkErr_keeps {a s : State} {x1_kind : Nat} {x2_area : Nat} {x3_slot : Nat} (h : Keeps a s) : Keeps a (State.tmkErr s x1_kind x2_area x3_slot) := by
  unfold State.tmkErr
  grind [State.record_keeps, keeps_mk, keeps_foldl]

theorem State.tmkBody_keeps {a s : State} {x1_ty : Nat} (h : Keeps a s) : Keeps a (State.tmkBody s x1_ty).2 := by
  unfold State.tmkBody
  grind [State.draw_keeps, keeps_mk, keeps_foldl]

theorem State.tmkTry_keeps {a s : State} {x1_area : Nat} {x2_n : Nat} {x3_bs : List Byte} (h : Keeps a s) : Keeps a (State.tmkTry s x1_area x2_n x3_bs).1 := by
  unfold State.tmkTry
  grind [State.takeInjection_keeps, State.tmkErr_keeps, State.count_keeps, keeps_mk, keeps_foldl]

theorem State.tmkTarget_keeps {a s : State}  (h : Keeps a s) : Keeps a (State.tmkTarget s).2.2 := by
  unfold State.tmkTarget
  grind [State.count_keeps, keeps_mk, keeps_foldl]

theorem State.tmkDrop_keeps {a s : State}  (h : Keeps a s) : Keeps a (State.tmkDrop s) := by
  unfold State.tmkDrop
  extract_lets s1
  have h1 : Keeps a s1 := State.tmkErr_keeps (State.count_keeps h)
  clear_value s1
  exact State.rasRecord_keeps h1

theorem State.tmkOnce_keeps {a s : State} {x1_body : List Byte} (h : Keeps a s) : Keeps a (State.tmkOnce s x1_body).1 := by
  have hT := State.tmkTarget_keeps h
  unfold State.tmkOnce
  generalize s.tmkTarget = q at hT ⊢
  obtain ⟨area, k, u⟩ := q
  have hU := State.tmkTry_keeps (x1_area := area) (x2_n := k) (x3_bs := finishRec x1_body u.tm.seq) hT
  dsimp only at hT ⊢
  split
  · next e => rw [e] at hU; exact keeps_mk hU id id
  · next e => rw [e] at hU; exact hU

theorem State.tmkPut_keeps {a s : State} {x1_body : List Byte} (h : Keeps a s) : Keeps a (State.tmkPut s x1_body) := by
  have h1 := State.tmkOnce_keeps (x1_body := x1_body) h
  delta State.tmkPut
  generalize s.tmkOnce x1_body = p at h1 ⊢
  have h2 := State.tmkOnce_keeps (x1_body := x1_body) h1
  dsimp only
  generalize p.1.tmkOnce x1_body = q at h2 ⊢
  have h3 := State.tmkOnce_keeps (x1_body := x1_body) h2
  generalize q.1.tmkOnce x1_body = r at h3 ⊢
  exact keeps_ite h1 (keeps_ite h2 (keeps_ite h3 (State.tmkDrop_keeps h3)))

theorem State.tmkWrite_keeps {a s : State} {x1_body : List Byte} (h : Keeps a s) : Keeps a (State.tmkWrite s x1_body) := by
  unfold State.tmkWrite
  grind [State.tmkPut_keeps, keeps_mk, keeps_foldl]

theorem State.tmkOpen_keeps {a s : State} {x1_restart : Bool} (h : Keeps a s) : Keeps a (State.tmkOpen s x1_restart) := by
  unfold State.tmkOpen
  grind [keeps_mk, keeps_foldl]

theorem State.tmkClose_keeps {a s : State} {x1_ty : Nat} {x2_next : Bool} (h : Keeps a s) : Keeps a (State.tmkClose s x1_ty x2_next) := by
  unfold State.tmkClose
  grind [State.tmkBody_keeps, State.tmkWrite_keeps, State.tmkOpen_keeps, keeps_mk, keeps_foldl]

theorem execIntervalClose_keeps {a s t : State}  (e : execIntervalClose s = .next t) (h : Keeps a s) : Keeps a t := by
  unfold execIntervalClose at e
  grind [State.tmkClose_keeps, keeps_mk, keeps_foldl]

theorem State.eraseCirc_keeps {a s : State}  (h : Keeps a s) : Keeps a (State.eraseCirc s) := by
  unfold State.eraseCirc
  grind [State.count_keeps, keeps_mk, keeps_foldl]

theorem State.tmkStart_keeps {a s : State}  (h : Keeps a s) : Keeps a (State.tmkStart s) := by
  unfold State.tmkStart
  grind [State.eraseCirc_keeps, State.tmkErr_keeps, State.count_keeps, State.tmkOpen_keeps, keeps_mk, keeps_foldl]

theorem State.tmkClear_keeps {a s t : State} {x1_scope : Nat} {x2_via : Nat} {x3_nonce : List Byte} (e : State.tmkClear s x1_scope x2_via x3_nonce = some t) (h : Keeps a s) : Keeps a t := by
  unfold State.tmkClear at e
  grind [State.tmkOpen_keeps, keeps_mk, keeps_foldl]

theorem State.clearDone_keeps {a s : State} {x1_n : Nat} (h : Keeps a s) : Keeps a (State.clearDone s x1_n) := by
  unfold State.clearDone
  grind [State.eraseCirc_keeps, State.tmkPut_keeps, State.count_keeps, keeps_mk, keeps_foldl]

theorem execGetTidemarkInfo_keeps {a s t : State}  (e : execGetTidemarkInfo s = .next t) (h : Keeps a s) : Keeps a t := by
  unfold execGetTidemarkInfo at e
  grind [State.emit_keeps, keeps_mk, keeps_foldl]

theorem execReadTidemarkSlot_keeps {a s t : State} {x0_area : Nat} {x1_slot : Nat} (e : execReadTidemarkSlot x0_area x1_slot s = .next t) (h : Keeps a s) : Keeps a t := by
  unfold execReadTidemarkSlot at e
  grind [State.emit_keeps, keeps_mk, keeps_foldl]

theorem execReadClearLedger_keeps {a s t : State} {x0_entry : Nat} (e : execReadClearLedger x0_entry s = .next t) (h : Keeps a s) : Keeps a t := by
  unfold execReadClearLedger at e
  grind [State.emit_keeps, keeps_mk, keeps_foldl]

/-! ### Retire -/

theorem State.deviceLost_keeps {a s : State} {x1_kind : Nat} (h : Keeps a s) : Keeps a (State.deviceLost s x1_kind) := by
  unfold State.deviceLost
  grind [State.rasRecord_keeps, State.fail_keeps, State.tmkClose_keeps, keeps_mk, keeps_foldl]

theorem State.remeasure_keeps {a s : State}  (h : Keeps a s) : Keeps a (State.remeasure s) := by
  unfold State.remeasure
  grind [State.count_keeps, keeps_mk, keeps_foldl]

theorem keeps_dies {a s : State} {ra pw ldie diemap} (h : Keeps a s) :
    Keeps a { s with ra := ra, pw := pw, se := { s.se with ldie := ldie, diemap := diemap } } :=
  ⟨h.queue, h.mem, h.host, h.svn, h.fuses, h.ledger, h.draws⟩

theorem State.isolateDie_keeps {a s : State} {x1_p : Nat} (h : Keeps a s) : Keeps a (State.isolateDie s x1_p) := by
  unfold State.isolateDie
  split
  · exact h
  · extract_lets cs doms s1 ks s2 r waiting s3 s4 s5 w1 w2 w3 s6 p s7
    have h1 : Keeps a s1 := keeps_foldl (fun s x h => State.abortDom_keeps h) _ h
    have h2 : Keeps a s2 := keeps_foldl (fun s x h => State.fail_keeps (State.evictAll_keeps h)) _ h1
    have hr : Keeps a r.1 := keeps_foldl_fst (fun p x h => State.setSlice_keeps h) _ h2
    have h3 : Keeps a s3 := keeps_foldl (fun s x h => State.answerI_keeps h) _ (keeps_foldl (fun s x h => State.setCore_keeps h) _ hr)
    have h4 : Keeps a s4 := by
      refine keeps_foldl (fun s x h => keeps_foldl (fun s y h => ?_) _ h) _ h3
      refine keeps_ite (State.modCove_keeps ?_) ?_ <;> exact keeps_ite (State.setFldN_keeps h) h
    have h5 : Keeps a s5 := keeps_foldl (fun s x h => State.setK_keeps (State.mapCore_keeps h)) _ h4
    clear_value s5
    have h6 : Keeps a s6 := keeps_dies h5
    clear_value s6
    have h7 : Keeps a s7 := State.rasRecord_keeps (State.retireAdd_keeps h6)
    clear_value s7
    exact State.remeasure_keeps (State.mapChange_keeps h7)

theorem State.modLane_keeps {a s : State} {x1_g : Nat} {x2_f : Lane → Lane} (h : Keeps a s) : Keeps a (State.modLane s x1_g x2_f) := by
  unfold State.modLane
  grind [keeps_mk, keeps_foldl]

theorem State.groupFails_keeps {a s : State} {x1_g : Nat} (h : Keeps a s) : Keeps a (State.groupFails s x1_g) := by
  unfold State.groupFails
  grind [State.modLane_keeps, State.isolateDie_keeps, State.deviceLost_keeps, keeps_mk, keeps_foldl]

theorem execD2dFlit_keeps {a s t : State} {x0_group : Nat} {x1_crcOk : Bool} {x2_lanes : List Nat} (e : execD2dFlit x0_group x1_crcOk x2_lanes s = .next t) (h : Keeps a s) : Keeps a t := by
  unfold execD2dFlit at e
  grind [State.rasEvent_keeps, State.modLane_keeps, State.tmk_keeps, State.count_keeps, keeps_mk, keeps_foldl]

theorem execD2dRetrain_keeps {a s t : State} {x0_group : Nat} {x1_ok : Bool} (e : execD2dRetrain x0_group x1_ok s = .next t) (h : Keeps a s) : Keeps a t := by
  unfold execD2dRetrain at e
  grind [State.count_keeps, State.modLane_keeps, State.groupFails_keeps, keeps_mk, keeps_foldl]

theorem execBucketLeak_keeps {a s t : State} {x0_cls : Nat} {x1_inst : Nat} (e : execBucketLeak x0_cls x1_inst s = .next t) (h : Keeps a s) : Keeps a t := by
  unfold execBucketLeak at e
  grind [State.setBucket_keeps, keeps_mk, keeps_foldl]

theorem State.poisonTile_keeps {a s : State} {x1_t : Nat} {x2_kind : Nat} {x3_bucket : Option Nat} (h : Keeps a s) : Keeps a (State.poisonTile s x1_t x2_kind x3_bucket) := by
  unfold State.poisonTile
  grind [State.listTile_keeps, State.setPoison_keeps, State.rasEvent_keeps, State.count_keeps, keeps_mk, keeps_foldl]

theorem State.copyTile_keeps {a s : State} {x1_src : Nat} {x2_dst : Nat} (h : Keeps a s) : Keeps a (State.copyTile s x1_src x2_dst) := by
  unfold State.copyTile
  grind [State.clearMarks_keeps, Mem.wf_write, Mem.wf_writeBytes, Mem.wf_writeLE, Mem.wf_mdrop, Mem.wf_clear, Mem.wf_filter, Mem.wf_foldl, keeps_mk, keeps_foldl]

theorem execPrimaryRewrite_keeps {a s t : State} {x0_tile : Nat} {x1_readOk : Bool} (e : execPrimaryRewrite x0_tile x1_readOk s = .next t) (h : Keeps a s) : Keeps a t := by
  unfold execPrimaryRewrite at e
  split at e
  · cases e; exact h
  · extract_lets done list tl mt at e
    have hd : ∀ s, Keeps a s → Keeps a (done s) := fun s h => keeps_mk h id id
    have hl : ∀ s, Keeps a s → Keeps a (list s) := fun s h => keeps_ite h (keeps_mk h id id)
    clear_value done list
    split at e
    next p m _ =>
      extract_lets bs at e
      split at e
      · cases e; exact hd _ h
      · split at e
        · cases e; exact hd _ h
        · split at e
          · cases e; exact h
          · next u k =>
            cases e
            have hu : Keeps a ((u.clearMarks p 4096).count clsRas 0 Ev.RAS_PRIMARY_REWRITE 1) :=
              State.count_keeps (State.clearMarks_keeps (State.putLines_keeps k h))
            exact hd _ (keeps_ite hu (hl _ hu))

theorem State.copyUe_keeps {a s : State} {x1_pa : Nat} (h : Keeps a s) : Keeps a (State.copyUe s x1_pa) := by
  unfold State.copyUe
  grind [State.draw_keeps, State.hbmUe_keeps, keeps_mk, keeps_foldl]

theorem State.rewriteCopy_keeps {a s : State} {x1_t : Nat} {x2_src : Nat} {x3_dst : Nat} {x4_primary : Bool} {x5_readOk : Bool} (h : Keeps a s) : Keeps a (State.rewriteCopy s x1_t x2_src x3_dst x4_primary x5_readOk) := by
  unfold State.rewriteCopy
  grind [State.count_keeps, State.copyTile_keeps, State.poisonTile_keeps, keeps_mk, keeps_foldl]

theorem execCommonsCompare_keeps {a s t : State} {x0_tile : Nat} {x1_uePrimary : Bool} {x2_ueMirror : Bool} {x3_readOk : Bool} (e : execCommonsCompare x0_tile x1_uePrimary x2_ueMirror x3_readOk s = .next t) (h : Keeps a s) : Keeps a t := by
  unfold execCommonsCompare at e
  split at e
  next p m _ =>
    split at e
    · cases e; exact h
    · extract_lets upr umi x y sealed fits s1 s2 w1 s3 s4 s5 note at e
      have h1 : Keeps a s1 := keeps_ite (State.copyUe_keeps h) h
      have h2 : Keeps a s2 := keeps_ite (State.copyUe_keeps h1) h1
      have h3 : Keeps a s3 := keeps_mk h2 id id
      have h4 : Keeps a s4 := State.count_keeps h3
      have h5 : Keeps a s5 := keeps_ite (State.setFld_keeps h4) h4
      have hn : ∀ v, Keeps a (note s5 v) := fun v => State.rasRecord_keeps h5
      clear_value upr umi sealed fits x y s5 note
      obtain rfl := Host.Outcome.next.inj e
      have hp : ∀ n v, Keeps a (s5.poisonTile x0_tile n v) := fun _ _ => State.poisonTile_keeps h5
      cases upr <;> cases umi
      · exact keeps_ite h5 (keeps_ite (State.rewriteCopy_keeps (hn _)) (keeps_ite (State.rewriteCopy_keeps (hn _)) (hp _ _)))
      · exact keeps_ite (State.rewriteCopy_keeps h5) (hp _ _)
      · exact keeps_ite (State.rewriteCopy_keeps h5) (hp _ _)
      · exact hp _ _

/-! ### Power -/

theorem State.applyClock_keeps {a s : State} {x1_c : Nat} {x2_g : Nat} {x3_p : Nat} (h : Keeps a s) : Keeps a (State.applyClock s x1_c x2_g x3_p) := by
  unfold State.applyClock
  grind [State.count_keeps, State.setPw_keeps, keeps_mk, keeps_foldl]

theorem State.throttleUp_keeps {a s : State}  (h : Keeps a s) : Keeps a (State.throttleUp s) := by
  unfold State.throttleUp
  grind [State.setPw_keeps, State.draw_keeps, State.applyClock_keeps, keeps_mk, keeps_foldl]

theorem State.pwrErr_keeps {a s : State} {x1_kind : Nat} {x2_info : Nat} (h : Keeps a s) : Keeps a (State.pwrErr s x1_kind x2_info) := by
  unfold State.pwrErr
  grind [State.record_keeps, keeps_mk, keeps_foldl]

theorem State.shutdown_keeps {a s : State}  (h : Keeps a s) : Keeps a (State.shutdown s) := keeps_se (State.deviceLost_keeps (keeps_mk h id id)) (Nat.le_refl _) (Nat.le_refl _) (List.prefix_refl _)

theorem execPmbusPoll_keeps {a s t : State} {x0_pins : List (Option Nat)} {x1_vinMv : Nat} {x2_rails : List (Nat × Nat)} (e : execPmbusPoll x0_pins x1_vinMv x2_rails s = .next t) (h : Keeps a s) : Keeps a t := by
  unfold execPmbusPoll at e
  split at e
  · cases e; exact h
  · extract_lets ins now s1 low out s2 s3 worst s4 sum at e
    have h1 : Keeps a s1 := by
      refine keeps_foldl (fun s p h => ?_) _ h
      dsimp only
      split
      · exact State.setPw_keeps h
      · have k : Keeps a (if 2 ≤ s.pw.missed p.1 + 1 then (s.setPw (fun w => { w with silent := mset 0 w.silent p.1 (s.pw.missed p.1 + 1) })).count clsPwr 0 Ev.PWR_PMBUS_MISS 1 else s.setPw (fun w => { w with silent := mset 0 w.silent p.1 (s.pw.missed p.1 + 1) })) :=
          keeps_ite (State.count_keeps (State.setPw_keeps h)) (State.setPw_keeps h)
        refine keeps_ite (State.rasEvent_keeps (State.pwrErr_keeps (State.draw_keeps k))) k
    have h2 : Keeps a s2 := State.setPw_keeps h1
    have h3 : Keeps a s3 := keeps_ite (State.pwrErr_keeps h2) h2
    have h4 : Keeps a s4 := State.tmk_keeps h3
    clear_value s4
    split at e
    · cases e; exact State.throttleUp_keeps (State.setPw_keeps (State.count_keeps h4))
    · cases e; exact h4

theorem State.swellHint_keeps {a s : State} {x1_x : Nat} {x2_lev : Nat} {x3_us : Nat} (h : Keeps a s) : Keeps a (State.swellHint s x1_x x2_lev x3_us).2 := by
  unfold State.swellHint
  grind [State.setPw_keeps, State.count_keeps, keeps_mk, keeps_foldl]

theorem execHint_keeps {a s t : State} {x0_ctx : Nat} {x1_q : Nat} {x2_idx : Nat} (e : execHint x0_ctx x1_q x2_idx s = .next t) (h : Keeps a s) : Keeps a t := by
  unfold execHint at e
  grind [State.validated_keeps, State.complete_keeps, State.setPw_keeps, State.runNow_keeps, State.swellHint_keeps, keeps_mk, keeps_foldl]

theorem State.swellBroken_keeps {a s : State} {x1_recorded : Bool} (h : Keeps a s) : Keeps a (State.swellBroken s x1_recorded) := by
  unfold State.swellBroken
  grind [State.setPw_keeps, State.count_keeps, State.pwrErr_keeps, keeps_mk, keeps_foldl]

theorem execSwellEnd_keeps {a s t : State}  (e : execSwellEnd s = .next t) (h : Keeps a s) : Keeps a t := by
  unfold execSwellEnd at e
  grind [State.setPw_keeps, keeps_mk, keeps_foldl]

theorem State.takeCap_keeps {a s : State}  (h : Keeps a s) : Keeps a (State.takeCap s) := by
  unfold State.takeCap
  grind [State.setPw_keeps, State.swellBroken_keeps, keeps_mk, keeps_foldl]

theorem State.excursion_keeps {a s : State} {x1_p : Nat} (h : Keeps a s) : Keeps a (State.excursion s x1_p) := by
  unfold State.excursion
  grind [State.setPw_keeps, State.throttleUp_keeps, State.draw_keeps, State.count_keeps, keeps_mk, keeps_foldl]

theorem State.capUnmet_keeps {a s : State}  (h : Keeps a s) : Keeps a (State.capUnmet s) := by
  unfold State.capUnmet
  grind [State.setPw_keeps, State.count_keeps, State.raiseVector_keeps, State.pwrErr_keeps, keeps_mk, keeps_foldl]

theorem State.swellMs_keeps {a s : State} {x1_p : Nat} (h : Keeps a s) : Keeps a (State.swellMs s x1_p) := by
  unfold State.swellMs
  grind [State.setPw_keeps, State.swellBroken_keeps, keeps_mk, keeps_foldl]

theorem State.thermalMs_keeps {a s : State}  (h : Keeps a s) : Keeps a (State.thermalMs s) := by
  unfold State.thermalMs
  grind [State.setPw_keeps, State.count_keeps, State.shutdown_keeps, keeps_mk, keeps_foldl]

theorem State.msSamples_keeps {a s : State} {x1_p : Nat} (h : Keeps a s) : Keeps a (State.msSamples s x1_p) := by
  unfold State.msSamples
  grind [State.count_keeps, State.tmk_keeps, keeps_mk, keeps_foldl]

theorem execPowerMs_keeps {a s t : State}  (e : execPowerMs s = .next t) (h : Keeps a s) : Keeps a t := by
  unfold execPowerMs at e
  split at e
  · cases e; exact h
  · extract_lets s1 p s2 s3 s4 at e
    have h2 : Keeps a s2 := State.setPw_keeps (State.takeCap_keeps h)
    have h3 : Keeps a s3 := State.capUnmet_keeps (State.excursion_keeps (State.swellMs_keeps h2))
    have h4 : Keeps a s4 := keeps_ite (State.count_keeps h3) h3
    cases e
    exact State.thermalMs_keeps (State.msSamples_keeps h4)

theorem execClockChange_keeps {a s t : State}  (e : execClockChange s = .next t) (h : Keeps a s) : Keeps a t := by
  unfold execClockChange at e
  grind [State.applyClock_keeps, keeps_mk, keeps_foldl]

theorem execDroop_keeps {a s t : State} {x0_island : Nat} (e : execDroop x0_island s = .next t) (h : Keeps a s) : Keeps a t := by
  unfold execDroop at e
  grind [State.tmk_keeps, State.count_keeps, State.setPw_keeps, keeps_mk, keeps_foldl]

theorem execDroopEnd_keeps {a s t : State} {x0_island : Nat} {x1_cycles : Nat} (e : execDroopEnd x0_island x1_cycles s = .next t) (h : Keeps a s) : Keeps a t := by
  unfold execDroopEnd at e
  grind [State.count_keeps, State.setPw_keeps, keeps_mk, keeps_foldl]

theorem execThermal_keeps {a s t : State} {x0_die : Nat} {x1_temp : Nat} (e : execThermal x0_die x1_temp s = .next t) (h : Keeps a s) : Keeps a t := by
  unfold execThermal at e
  grind [State.setPw_keeps, State.pwrErr_keeps, keeps_mk, keeps_foldl]

theorem execVinShutdown_keeps {a s t : State}  (e : execVinShutdown s = .next t) (h : Keeps a s) : Keeps a t := by
  unfold execVinShutdown at e
  grind [State.shutdown_keeps, keeps_mk, keeps_foldl]

theorem State.setSleep_keeps {a s : State} {x1_c : Nat} {x2_x : Sleep} (h : Keeps a s) : Keeps a (State.setSleep s x1_c x2_x) := by
  unfold State.setSleep
  grind [State.setPw_keeps, keeps_mk, keeps_foldl]

theorem State.emptyL1_keeps {a s : State} {x1_c : Nat} (h : Keeps a s) : Keeps a (State.emptyL1 s x1_c) := by
  unfold State.emptyL1
  grind [State.modCore_keeps, keeps_mk, keeps_foldl]

theorem execSleepEntry_keeps {a s t : State} {x0_core : Nat} {x1_nextNs : Option Nat} (e : execSleepEntry x0_core x1_nextNs s = .next t) (h : Keeps a s) : Keeps a t := by
  unfold execSleepEntry at e
  grind [State.evictLine_keeps, State.emptyL1_keeps, State.count_keeps, State.setSleep_keeps, State.modCore_keeps, State.setPw_keeps, keeps_mk, keeps_foldl]

theorem State.beginExit_keeps {a s : State} {x1_c : Nat} (h : Keeps a s) : Keeps a (State.beginExit s x1_c) := by
  unfold State.beginExit
  grind [State.setSleep_keeps, State.setPw_keeps, keeps_mk, keeps_foldl]

theorem State.wake_keeps {a s : State} {x1_core : Nat} (h : Keeps a s) : Keeps a (State.wake s x1_core) := by
  unfold State.wake
  grind [State.count_keeps, State.beginExit_keeps, keeps_mk, keeps_foldl]

theorem execWake_keeps {a s t : State} {x0_core : Nat} (e : execWake x0_core s = .next t) (h : Keeps a s) : Keeps a t := by
  unfold execWake at e
  grind [State.wake_keeps, keeps_mk, keeps_foldl]

theorem execPrewake_keeps {a s t : State} {x0_core : Nat} (e : execPrewake x0_core s = .next t) (h : Keeps a s) : Keeps a t := by
  unfold execPrewake at e
  grind [State.beginExit_keeps, keeps_mk, keeps_foldl]

theorem execSleepExitEnd_keeps {a s t : State} {x0_core : Nat} (e : execSleepExitEnd x0_core s = .next t) (h : Keeps a s) : Keeps a t := by
  unfold execSleepExitEnd at e
  grind [State.setSleep_keeps, State.setPw_keeps, keeps_mk, keeps_foldl]

/-! ### Host -/

theorem execBar4Read_keeps {a s t : State} {x0_port : Nat} {x1_vf : Option Nat} {x2_off : Nat} {x3_bytes : Nat} {x4_rid : Nat} (e : execBar4Read x0_port x1_vf x2_off x3_bytes x4_rid s = .next t) (h : Keeps a s) : Keeps a t := by
  unfold execBar4Read at e
  grind [State.count_keeps, State.emit_keeps, State.noteRead_keeps, keeps_mk, keeps_foldl]

theorem State.edgeErr_keeps {a s : State} {x1_port : Nat} {x2_kind : Nat} {x3_rid : Nat} {x4_info : Nat} (h : Keeps a s) : Keeps a (State.edgeErr s x1_port x2_kind x3_rid x4_info) := by
  unfold State.edgeErr
  grind [State.record_keeps, keeps_mk, keeps_foldl]

theorem execBar4Write_keeps {a s t : State} {x0_port : Nat} {x1_vf : Option Nat} {x2_off : Nat} {x3_data : List Byte} {x4_rid : Nat} (e : execBar4Write x0_port x1_vf x2_off x3_data x4_rid s = .next t) (h : Keeps a s) : Keeps a t := by
  unfold execBar4Write at e
  grind [State.count_keeps, State.edgeErr_keeps, State.linePut_keeps, keeps_foldl_fst, keeps_mk, keeps_foldl]

theorem execBar4AtomicOp_keeps {a s t : State} {x0_port : Nat} {x1_vf : Option Nat} {x2_off : Nat} {x3_op : AOp} {x4_bytes : Nat} {x5_a : Nat} {x6_b : Nat} {x7_rid : Nat} (e : execBar4AtomicOp x0_port x1_vf x2_off x3_op x4_bytes x5_a x6_b x7_rid s = .next t) (h : Keeps a s) : Keeps a t := by
  unfold execBar4AtomicOp at e
  grind [State.emit_keeps, State.linePut_keeps, keeps_mk, keeps_foldl]

theorem State.answerInvals_keeps {a s : State} {x1_port : Nat} (h : Keeps a s) : Keeps a (State.answerInvals s x1_port) := by
  unfold State.answerInvals
  grind [State.modEdge_keeps, State.emit_keeps, keeps_mk, keeps_foldl]

theorem execAtsInvalidateRequest_keeps {a s t : State} {x0_port : Nat} {x1_cove : Nat} {x2_addr : Nat} {x3_bytes : Nat} (e : execAtsInvalidateRequest x0_port x1_cove x2_addr x3_bytes s = .next t) (h : Keeps a s) : Keeps a t := by
  unfold execAtsInvalidateRequest at e
  grind [State.count_keeps, State.answerInvals_keeps, State.modEdge_keeps, keeps_mk, keeps_foldl]

theorem State.putAtc_keeps {a s : State} {x1_tag : Nat} {x2_granted : Bool} (h : Keeps a s) : Keeps a (State.putAtc s x1_tag x2_granted) := by
  unfold State.putAtc
  grind [State.modEdge_keeps, keeps_mk, keeps_foldl]

theorem State.hostAtomDone_keeps {a s : State} {x1_o : MemOp} {x2_a : HostAcc} {x3_bs : List Byte} {x4_poison : Bool} (h : Keeps a s) : Keeps a (State.hostAtomDone s x1_o x2_a x3_bs x4_poison) := by
  unfold State.hostAtomDone
  grind [State.modCore_keeps, Mem.wf_write, Mem.wf_writeBytes, Mem.wf_writeLE, Mem.wf_mdrop, Mem.wf_clear, Mem.wf_filter, Mem.wf_foldl, keeps_mk, keeps_foldl]

theorem execHostCompletion_keeps {a s t : State} {x0_port : Nat} {x1_tag : Nat} {x2_data : List Byte} {x3_poison : Bool} {x4_granted : Bool} (e : execHostCompletion x0_port x1_tag x2_data x3_poison x4_granted s = .next t) (h : Keeps a s) : Keeps a t := by
  unfold execHostCompletion at e
  (repeat' first | split at e | refine keeps_foldl (fun s x h => ?_) _ ?_) <;> grind [State.putAtc_keeps, State.answerInvals_keeps, State.hostAtomDone_keeps, State.modCore_keeps, State.serve_keeps, State.checkOp_keeps, keeps_mk, keeps_foldl]

theorem execLinkUp_keeps {a s t : State} {x0_port : Nat} {x1_speed : Nat} {x2_width : Nat} {x3_flit : Bool} {x4_cxl : Bool} (e : execLinkUp x0_port x1_speed x2_width x3_flit x4_cxl s = .next t) (h : Keeps a s) : Keeps a t := by
  unfold execLinkUp at e
  grind [State.modEdge_keeps, keeps_mk, keeps_foldl]

theorem State.hostLinkLoss_keeps {a s : State} {x1_port : Nat} (h : Keeps a s) : Keeps a (State.hostLinkLoss s x1_port) := by
  unfold State.hostLinkLoss
  grind [State.edgeErr_keeps, State.modEdge_keeps, State.serve_keeps, State.hostDead_keeps, State.fail_keeps, keeps_mk, keeps_foldl]

theorem execHostLinkDown_keeps {a s t : State} {x0_port : Nat} (e : execHostLinkDown x0_port s = .next t) (h : Keeps a s) : Keeps a t := by
  unfold execHostLinkDown at e
  grind [State.hostLinkLoss_keeps, keeps_mk, keeps_foldl]

theorem execFunctionLevelReset_keeps {a s t : State} {x0_vf : Nat} (e : execFunctionLevelReset x0_vf s = .next t) (h : Keeps a s) : Keeps a t := by
  unfold execFunctionLevelReset at e
  grind [State.resetCove_keeps, keeps_mk, keeps_foldl]

theorem execCoalUs_keeps {a s t : State} {x0_ctx : Nat} {x1_q : Nat} (e : execCoalUs x0_ctx x1_q s = .next t) (h : Keeps a s) : Keeps a t := by
  unfold execCoalUs at e
  grind [State.queueIntr_keeps, keeps_mk, keeps_foldl]

theorem execVectorUnmask_keeps {a s t : State} {x0_vf : Option Nat} {x1_vector : Nat} (e : execVectorUnmask x0_vf x1_vector s = .next t) (h : Keeps a s) : Keeps a t := by
  unfold execVectorUnmask at e
  grind [State.raiseVector_keeps, State.qcount_keeps, keeps_mk, keeps_foldl]

theorem State.cfgReply_keeps {a s : State} {x1_port : Nat} {x2_req : Nat} {x3_data : List Byte} (h : Keeps a s) : Keeps a (State.cfgReply s x1_port x2_req x3_data) := by
  unfold State.cfgReply
  grind [State.emit_keeps, keeps_mk, keeps_foldl]

theorem execConfigurationRequest_keeps {a s t : State} {x0_port : Nat} {x1_req : Nat} {x2_a : Nat} {x3_b : Nat} (e : execConfigurationRequest x0_port x1_req x2_a x3_b s = .next t) (h : Keeps a s) : Keeps a t := by
  unfold execConfigurationRequest at e
  grind [State.cfgReply_keeps, State.modCove_keeps, keeps_mk, keeps_foldl]

theorem execDistances_keeps {a s t : State} {x0_ctx : Nat} {x1_q : Nat} {x2_idx : Nat} (e : execDistances x0_ctx x1_q x2_idx s = .next t) (h : Keeps a s) : Keeps a t := by
  unfold execDistances at e
  grind [State.validated_keeps, State.bufWrite_keeps, State.runNow_keeps, State.fail_keeps, keeps_mk, keeps_foldl]

/-! ### Startup -/

theorem State.setSe_keeps {a s : State} {f : SecSt → SecSt} (h1 : s.se.minSvn ≤ (f s.se).minSvn) (h2 : (f s.se).fuses ≤ s.se.fuses) (h3 : s.se.ledger <+: (f s.se).ledger) (h : Keeps a s) : Keeps a (s.setSe f) := keeps_se h h1 h2 h3

theorem State.cleared_keeps {a s : State}  (h : Keeps a s) : Keeps a (State.cleared s) := keeps_all (s := s) h (Mem.wf_mdrop _) id (Nat.le_refl _) (Nat.le_refl _) (List.prefix_refl _) (Nat.le_refl _)

theorem State.moduleReset_keeps {a s : State}  (h : Keeps a s) : Keeps a (State.moduleReset s) := by
  unfold State.moduleReset
  grind [State.setSe_keeps, State.cleared_keeps, List.prefix_refl, List.prefix_append, keeps_mk, keeps_foldl]

theorem execPowerOn_keeps {a s t : State}  (e : execPowerOn s = .next t) (h : Keeps a s) : Keeps a t := by
  unfold execPowerOn at e
  grind [State.moduleReset_keeps, keeps_mk, keeps_foldl]

theorem execPerst_keeps {a s t : State} {x0_port : Nat} (e : execPerst x0_port s = .next t) (h : Keeps a s) : Keeps a t := by
  unfold execPerst at e
  grind [State.moduleReset_keeps, State.hostLinkLoss_keeps, State.setFld_keeps, State.modEdge_keeps, keeps_mk, keeps_foldl]

theorem execWatchdog_keeps {a s t : State}  (e : execWatchdog s = .next t) (h : Keeps a s) : Keeps a t := by
  unfold execWatchdog at e
  grind [State.deviceLost_keeps, State.moduleReset_keeps, keeps_mk, keeps_foldl]

theorem execExtest_keeps {a s t : State}  (e : execExtest s = .next t) (h : Keeps a s) : Keeps a t := by
  unfold execExtest at e
  grind [State.setSe_keeps, State.cleared_keeps, List.prefix_refl, List.prefix_append, keeps_mk, keeps_foldl]

theorem execTestLogicReset_keeps {a s t : State}  (e : execTestLogicReset s = .next t) (h : Keeps a s) : Keeps a t := by
  unfold execTestLogicReset at e
  grind [State.cleared_keeps, keeps_mk, keeps_foldl]

theorem State.stageLog_keeps {a s : State} {x1_kind : Nat} {x2_info : Nat} (h : Keeps a s) : Keeps a (State.stageLog s x1_kind x2_info) := by
  unfold State.stageLog
  grind [State.setSe_keeps, List.prefix_refl, List.prefix_append, keeps_mk, keeps_foldl]

theorem State.stageFail_keeps {a s : State} {x1_cause : Nat} (h : Keeps a s) : Keeps a (State.stageFail s x1_cause) := by
  unfold State.stageFail
  grind [State.setSe_keeps, State.stageLog_keeps, List.prefix_refl, List.prefix_append, keeps_mk, keeps_foldl]

theorem State.stageLost_keeps {a s : State} {x1_cause : Nat} (h : Keeps a s) : Keeps a (State.stageLost s x1_cause) := by
  unfold State.stageLost
  grind [State.deviceLost_keeps, State.stageFail_keeps, keeps_mk, keeps_foldl]

theorem State.retireSource_keeps {a s : State} {x1_e : Nat} (h : Keeps a s) : Keeps a (State.retireSource s x1_e) := by
  unfold State.retireSource
  grind [State.retireAdd_keeps, State.rasRecord_keeps, keeps_mk, keeps_foldl]

theorem State.loadBuckets_keeps {a s : State}  (h : Keeps a s) : Keeps a (State.loadBuckets s) := by
  unfold State.loadBuckets
  grind [State.setFldN_keeps, keeps_mk, keeps_foldl]

theorem State.recover_keeps {a s : State}  (h : Keeps a s) : Keeps a (State.recover s) := by
  unfold State.recover
  grind [State.setSe_keeps, State.stageFail_keeps, List.prefix_refl, List.prefix_append, keeps_mk, keeps_foldl]

theorem State.bootStage_keeps {a s : State} {x1_f : StageIn} (h : Keeps a s) : Keeps a (State.bootStage s x1_f) := by
  unfold State.bootStage
  grind [State.recover_keeps, State.loadBuckets_keeps, State.setSe_keeps, State.stageLog_keeps, List.prefix_refl, List.prefix_append, keeps_mk, keeps_foldl]

theorem State.mapDies_keeps {a s : State} {x1_bad : List Nat} {x2_named : List Nat} (h : Keeps a s) : Keeps a (State.mapDies s x1_bad x2_named) := by
  unfold State.mapDies
  grind [State.setSe_keeps, State.stageLog_keeps, List.prefix_refl, List.prefix_append, keeps_mk, keeps_foldl]

theorem State.selftestStage_keeps {a s : State} {x1_f : StageIn} (h : Keeps a s) : Keeps a (State.selftestStage s x1_f) := by
  unfold State.selftestStage
  grind [State.stageLog_keeps, State.retireSource_keeps, State.mapDies_keeps, State.stageLost_keeps, keeps_mk, keeps_foldl]

theorem State.d2dStage_keeps {a s : State} {x1_f : StageIn} (h : Keeps a s) : Keeps a (State.d2dStage s x1_f) := by
  unfold State.d2dStage
  grind [State.stageLog_keeps, State.stageLost_keeps, State.retireSource_keeps, State.mapDies_keeps, keeps_mk, keeps_foldl]

theorem State.hbmStage_keeps {a s : State} {x1_f : StageIn} (h : Keeps a s) : Keeps a (State.hbmStage s x1_f) := by
  unfold State.hbmStage
  extract_lets s1 s2 sts gone s3 live mg own p1 s4
  have h1 : Keeps a s1 := keeps_foldl (fun s x h => State.stageLog_keeps h) _ h
  have h2 : Keeps a s2 := by
    refine keeps_foldl (fun s x h => ?_) _ h1
    refine State.setSe_keeps (Nat.le_refl _) (Nat.le_refl _) (List.prefix_refl _) ?_
    split
    · exact keeps_ite h (State.stageLog_keeps h)
    · exact h
  clear_value s2 sts
  have h3 : Keeps a s3 := by
    refine keeps_foldl (fun s x h => ?_) _ h2
    exact keeps_ite (State.stageLog_keeps h) (State.retireSource_keeps (State.stageLog_keeps h))
  clear_value s3 live mg own
  have h4 : Keeps a s4 := keeps_mk h3 id id
  clear_value s4
  exact keeps_ite (State.stageLost_keeps h4) h4

theorem State.identityStage_keeps {a s : State} {x1_f : StageIn} (h : Keeps a s) : Keeps a (State.identityStage s x1_f) := by
  unfold State.identityStage
  grind [State.stageLog_keeps, State.setSe_keeps, State.setFld_keeps, State.setFlds_keeps, List.prefix_refl, List.prefix_append, keeps_mk, keeps_foldl]

theorem State.takeRoles_keeps {a s : State}  (h : Keeps a s) : Keeps a (State.takeRoles s) := by
  unfold State.takeRoles
  grind [State.stageLog_keeps, State.setFld_keeps, keeps_mk, keeps_foldl]

theorem State.takeLink_keeps {a s : State} {x1_l : Nat × Nat} (h : Keeps a s) : Keeps a (State.takeLink s x1_l) := by
  unfold State.takeLink
  grind [State.modEdge_keeps, keeps_mk, keeps_foldl]

theorem State.takeExpanders_keeps {a s : State} {x1_f : StageIn} (h : Keeps a s) : Keeps a (State.takeExpanders s x1_f) := by
  unfold State.takeExpanders
  grind [State.stageLog_keeps, State.setFld_keeps, keeps_mk, keeps_foldl]

theorem State.beginTideway_keeps {a s : State}  (h : Keeps a s) : Keeps a (State.beginTideway s) := by
  unfold State.beginTideway
  grind [State.modPort_keeps, State.startTraining_keeps, keeps_mk, keeps_foldl]

theorem State.edgeStage_keeps {a s : State} {x1_f : StageIn} (h : Keeps a s) : Keeps a (State.edgeStage s x1_f) := by
  unfold State.edgeStage
  grind [State.beginTideway_keeps, State.takeExpanders_keeps, State.takeLink_keeps, State.takeRoles_keeps, keeps_mk, keeps_foldl]

theorem State.tidewayStage_keeps {a s : State} {x1_limit : Bool} (h : Keeps a s) : Keeps a (State.tidewayStage s x1_limit) := by
  unfold State.tidewayStage
  grind [State.portDown_keeps, State.stageLog_keeps, keeps_mk, keeps_foldl]

theorem State.stageWork_keeps {a s : State} {x1_f : StageIn} {x2_limit : Bool} (h : Keeps a s) : Keeps a (State.stageWork s x1_f x2_limit) := by
  unfold State.stageWork
  grind [State.setSe_keeps, State.bootStage_keeps, State.selftestStage_keeps, State.d2dStage_keeps, State.hbmStage_keeps, State.identityStage_keeps, State.edgeStage_keeps, State.tidewayStage_keeps, State.stageLog_keeps, State.remeasure_keeps, List.prefix_refl, List.prefix_append, keeps_mk, keeps_foldl]

theorem State.enterReady_keeps {a s : State}  (h : Keeps a s) : Keeps a (State.enterReady s) := by
  unfold State.enterReady
  grind [State.emit_keeps, State.setSe_keeps, List.prefix_refl, List.prefix_append, keeps_mk, keeps_foldl]

theorem State.nextStage_keeps {a s : State}  (h : Keeps a s) : Keeps a (State.nextStage s) := by
  unfold State.nextStage
  grind [State.setSe_keeps, State.stageLog_keeps, State.tmkStart_keeps, State.enterReady_keeps, List.prefix_refl, List.prefix_append, keeps_mk, keeps_foldl]

theorem execStageEnd_keeps {a s t : State} {x0_info : StageIn} (e : execStageEnd x0_info s = .next t) (h : Keeps a s) : Keeps a t := by
  unfold execStageEnd at e
  grind [State.stageWork_keeps, State.nextStage_keeps, keeps_mk, keeps_foldl]

theorem execStageLimit_keeps {a s t : State} {x0_info : StageIn} (e : execStageLimit x0_info s = .next t) (h : Keeps a s) : Keeps a t := by
  unfold execStageLimit at e
  grind [State.setSe_keeps, State.stageFail_keeps, State.nextStage_keeps, State.stageLog_keeps, State.stageWork_keeps, List.prefix_refl, List.prefix_append, keeps_mk, keeps_foldl]

/-! ### Vendor -/

theorem State.vendorReply_keeps {a s : State} {x1_medium : Nat} {x2_rq : Nat} {x3_cmd : Nat} {x4_cpl : Nat} {x5_body : List Byte} (h : Keeps a s) : Keeps a (State.vendorReply s x1_medium x2_rq x3_cmd x4_cpl x5_body) := by
  unfold State.vendorReply
  grind [State.emit_keeps, keeps_mk, keeps_foldl]

theorem State.challenge_keeps {a s : State}  (h : Keeps a s) : Keeps a (State.challenge s).2 := by
  unfold State.challenge
  grind [State.drawBytes_keeps, State.count_keeps, State.setSe_keeps, List.prefix_refl, List.prefix_append, keeps_mk, keeps_foldl]

theorem State.useNonce_keeps {a s : State}  (h : Keeps a s) : Keeps a (State.useNonce s) := by
  unfold State.useNonce
  grind [State.setSe_keeps, List.prefix_refl, List.prefix_append, keeps_mk, keeps_foldl]

theorem State.tokenRefused_keeps {a s : State}  (h : Keeps a s) : Keeps a (State.tokenRefused s) := by
  unfold State.tokenRefused
  grind [State.count_keeps, keeps_mk, keeps_foldl]

theorem State.destroyAll_keeps {a s : State}  (h : Keeps a s) : Keeps a (State.destroyAll s) := by
  unfold State.destroyAll
  grind [State.destroyCove_keeps, State.resetCove_keeps, keeps_mk, keeps_foldl]

theorem State.unlock_keeps {a s t : State} {x1_path : Nat} {x2_ty : Nat} {x3_scope : Nat} {x4_nonce : List Byte} (e : State.unlock s x1_path x2_ty x3_scope x4_nonce = some t) (h : Keeps a s) : Keeps a t := by
  unfold State.unlock at e
  grind [State.destroyAll_keeps, State.setSe_keeps, State.emit_keeps, State.stageLog_keeps, List.prefix_refl, List.prefix_append, keeps_mk, keeps_foldl]

theorem State.clearRetire_keeps {a s : State} {x1_nonce : List Byte} (h : Keeps a s) : Keeps a (State.clearRetire s x1_nonce) := by
  unfold State.clearRetire
  grind [State.setSe_keeps, List.prefix_refl, List.prefix_append, keeps_mk, keeps_foldl]

theorem State.token_keeps {a s t : State} {x1_t : List Byte} {x2_via : Nat} {v : Nat} (e : State.token s x1_t x2_via = .done v t) (h : Keeps a s) : Keeps a t := by
  unfold State.token at e
  grind [State.useNonce_keeps, State.tokenRefused_keeps, State.unlock_keeps, State.clearRetire_keeps, State.tmkClear_keeps, State.count_keeps, keeps_mk, keeps_foldl]

theorem State.token_keeps2 {a s t : State} {x1_t : List Byte} {x2_via : Nat}  (e : State.token s x1_t x2_via = .later t) (h : Keeps a s) : Keeps a t := by
  unfold State.token at e
  grind [State.useNonce_keeps, State.tokenRefused_keeps, State.unlock_keeps, State.clearRetire_keeps, State.tmkClear_keeps, State.count_keeps, keeps_mk, keeps_foldl]

theorem State.password_keeps {a s : State} {x1_pw : List Byte} (h : Keeps a s) : Keeps a (State.password s x1_pw).2 := by
  unfold State.password
  grind [State.count_keeps, State.setSe_keeps, State.unlock_keeps, List.prefix_refl, List.prefix_append, keeps_mk, keeps_foldl]

theorem State.vendorServe_keeps {a s : State} {x1_medium : Nat} {x2_owner : Bool} {x3_rq : Nat} {x4_cmd : Nat} {x5_body : List Byte} (h : Keeps a s) : Keeps a (State.vendorServe s x1_medium x2_owner x3_rq x4_cmd x5_body) := by
  unfold State.vendorServe
  grind [State.moduleReset_keeps, State.tmkClose_keeps, State.vendorReply_keeps, State.challenge_keeps, State.token_keeps, State.token_keeps2, State.password_keeps, keeps_mk, keeps_foldl]

theorem State.serveWaiting_keeps {a s : State} {x1_w : Nat × List Byte} (h : Keeps a s) : Keeps a (State.serveWaiting s x1_w) := by
  unfold State.serveWaiting
  grind [State.vendorServe_keeps, keeps_mk, keeps_foldl]

theorem State.vendorMsg_keeps {a s : State} {x1_medium : Nat} {x2_owner : Bool} {x3_msg : List Byte} {x4_cmds : List Nat} (h : Keeps a s) : Keeps a (State.vendorMsg s x1_medium x2_owner x3_msg x4_cmds) := by
  unfold State.vendorMsg
  grind [State.vendorReply_keeps, State.setSe_keeps, State.vendorServe_keeps, List.prefix_refl, List.prefix_append, keeps_mk, keeps_foldl]

theorem execReset_keeps {a s t : State} {x0_medium : Nat} {x1_owner : Bool} {x2_msg : List Byte} (e : execReset x0_medium x1_owner x2_msg s = .next t) (h : Keeps a s) : Keeps a t := by
  unfold execReset at e
  grind [State.vendorMsg_keeps, keeps_mk, keeps_foldl]

theorem execGetChallenge_keeps {a s t : State} {x0_medium : Nat} {x1_msg : List Byte} (e : execGetChallenge x0_medium x1_msg s = .next t) (h : Keeps a s) : Keeps a t := by
  unfold execGetChallenge at e
  grind [State.vendorMsg_keeps, keeps_mk, keeps_foldl]

theorem execSubmitToken_keeps {a s t : State} {x0_medium : Nat} {x1_msg : List Byte} (e : execSubmitToken x0_medium x1_msg s = .next t) (h : Keeps a s) : Keeps a t := by
  unfold execSubmitToken at e
  grind [State.vendorMsg_keeps, keeps_mk, keeps_foldl]

theorem execSubmitPassword_keeps {a s t : State} {x0_medium : Nat} {x1_msg : List Byte} (e : execSubmitPassword x0_medium x1_msg s = .next t) (h : Keeps a s) : Keeps a t := by
  unfold execSubmitPassword at e
  grind [State.vendorMsg_keeps, keeps_mk, keeps_foldl]

theorem execGetStage_keeps {a s t : State} {x0_medium : Nat} {x1_msg : List Byte} (e : execGetStage x0_medium x1_msg s = .next t) (h : Keeps a s) : Keeps a t := by
  unfold execGetStage at e
  grind [State.vendorMsg_keeps, keeps_mk, keeps_foldl]

theorem execDbgAuth_keeps {a s t : State} {x0_msg : List Byte} (e : execDbgAuth x0_msg s = .next t) (h : Keeps a s) : Keeps a t := by
  unfold execDbgAuth at e
  grind [State.vendorMsg_keeps, keeps_mk, keeps_foldl]

theorem execSecBusyTimeout_keeps {a s t : State} {x0_medium : Nat} (e : execSecBusyTimeout x0_medium s = .next t) (h : Keeps a s) : Keeps a t := by
  unfold execSecBusyTimeout at e
  grind [State.setSe_keeps, State.vendorReply_keeps, List.prefix_refl, List.prefix_append, keeps_mk, keeps_foldl]

theorem execClearEraseEnd_keeps {a s t : State}  (e : execClearEraseEnd s = .next t) (h : Keeps a s) : Keeps a t := by
  unfold execClearEraseEnd at e
  grind [State.clearDone_keeps, State.emit_keeps, State.vendorReply_keeps, State.setSe_keeps, State.serveWaiting_keeps, List.prefix_refl, List.prefix_append, keeps_mk, keeps_foldl]

theorem execSubmitTidemarkClear_keeps {a s t : State} {x0_token : List Byte} (e : execSubmitTidemarkClear x0_token s = .next t) (h : Keeps a s) : Keeps a t := by
  unfold execSubmitTidemarkClear at e
  grind [State.emit_keeps, State.tokenRefused_keeps, State.useNonce_keeps, State.token_keeps, State.token_keeps2, keeps_mk, keeps_foldl]

/-! ### Attest -/

theorem State.setSpdm_keeps {a s : State} {x1_f : Spdm → Spdm} (h : Keeps a s) : Keeps a (State.setSpdm s x1_f) := by
  unfold State.setSpdm
  grind [State.setSe_keeps, List.prefix_refl, List.prefix_append, keeps_mk, keeps_foldl]

theorem State.spdmReply_keeps {a s : State} {x1_cmd : Nat} {x2_err : Nat} {x3_data : List Byte} (h : Keeps a s) : Keeps a (State.spdmReply s x1_cmd x2_err x3_data) := by
  unfold State.spdmReply
  grind [State.emit_keeps, State.count_keeps, keeps_mk, keeps_foldl]

theorem execGetVersion_keeps {a s t : State} {x0_msg : List Byte} (e : execGetVersion x0_msg s = .next t) (h : Keeps a s) : Keeps a t := by
  unfold execGetVersion at e
  grind [State.spdmReply_keeps, State.setSpdm_keeps, keeps_mk, keeps_foldl]

theorem execGetCapabilities_keeps {a s t : State} {x0_msg : List Byte} (e : execGetCapabilities x0_msg s = .next t) (h : Keeps a s) : Keeps a t := by
  unfold execGetCapabilities at e
  grind [State.spdmReply_keeps, State.setSpdm_keeps, keeps_mk, keeps_foldl]

theorem execNegotiateAlgorithms_keeps {a s t : State} {x0_msg : List Byte} (e : execNegotiateAlgorithms x0_msg s = .next t) (h : Keeps a s) : Keeps a t := by
  unfold execNegotiateAlgorithms at e
  grind [State.spdmReply_keeps, State.setSpdm_keeps, keeps_mk, keeps_foldl]

theorem State.negotiated_keeps {a s : State} {c : Nat} {f : State → State} (hf : ∀ t, Keeps a t → Keeps a (f t)) (h : Keeps a s) : Keeps a (s.negotiated c f) := by
  unfold State.negotiated
  grind [State.spdmReply_keeps, keeps_mk, keeps_foldl]

theorem execGetDigests_keeps {a s t : State} {x0_msg : List Byte} (e : execGetDigests x0_msg s = .next t) (h : Keeps a s) : Keeps a t := by
  unfold execGetDigests at e
  grind [State.negotiated_keeps, State.spdmReply_keeps, keeps_mk, keeps_foldl]

theorem execGetCertificate_keeps {a s t : State} {x0_msg : List Byte} (e : execGetCertificate x0_msg s = .next t) (h : Keeps a s) : Keeps a t := by
  unfold execGetCertificate at e
  grind [State.negotiated_keeps, State.spdmReply_keeps, keeps_mk, keeps_foldl]

theorem execChallenge_keeps {a s t : State} {x0_msg : List Byte} (e : execChallenge x0_msg s = .next t) (h : Keeps a s) : Keeps a t := by
  unfold execChallenge at e
  grind [State.negotiated_keeps, State.spdmReply_keeps, State.setSpdm_keeps, keeps_mk, keeps_foldl]

theorem execGetMeasurements_keeps {a s t : State} {x0_index : Nat} {x1_raw : Bool} (e : execGetMeasurements x0_index x1_raw s = .next t) (h : Keeps a s) : Keeps a t := by
  unfold execGetMeasurements at e
  grind [State.negotiated_keeps, State.spdmReply_keeps, keeps_mk, keeps_foldl]

theorem execKeyExchange_keeps {a s t : State} {x0_mutAuth : Bool} {x1_root : List Byte} (e : execKeyExchange x0_mutAuth x1_root s = .next t) (h : Keeps a s) : Keeps a t := by
  unfold execKeyExchange at e
  grind [State.negotiated_keeps, State.draw_keeps, State.spdmReply_keeps, State.setSpdm_keeps, keeps_mk, keeps_foldl]

theorem execFinish_keeps {a s t : State} {x0_ok : Bool} (e : execFinish x0_ok s = .next t) (h : Keeps a s) : Keeps a t := by
  unfold execFinish at e
  grind [State.negotiated_keeps, State.spdmReply_keeps, State.count_keeps, State.setSpdm_keeps, keeps_mk, keeps_foldl]

theorem State.secured_keeps {a s : State} {c n : Nat} {f : State → State} (hf : ∀ t, Keeps a t → Keeps a (f t)) (h : Keeps a s) : Keeps a (s.secured c n f) := by
  unfold State.secured
  grind [State.spdmReply_keeps, keeps_mk, keeps_foldl]

theorem execHeartbeat_keeps {a s t : State} {x0_session : Nat} (e : execHeartbeat x0_session s = .next t) (h : Keeps a s) : Keeps a t := by
  unfold execHeartbeat at e
  grind [State.secured_keeps, State.spdmReply_keeps, keeps_mk, keeps_foldl]

theorem execKeyUpdate_keeps {a s t : State} {x0_session : Nat} (e : execKeyUpdate x0_session s = .next t) (h : Keeps a s) : Keeps a t := by
  unfold execKeyUpdate at e
  grind [State.secured_keeps, State.spdmReply_keeps, keeps_mk, keeps_foldl]

theorem execEndSession_keeps {a s t : State} {x0_session : Nat} (e : execEndSession x0_session s = .next t) (h : Keeps a s) : Keeps a t := by
  unfold execEndSession at e
  grind [State.secured_keeps, State.setSpdm_keeps, State.spdmReply_keeps, keeps_mk, keeps_foldl]

theorem State.loadKey_keeps {a s : State} {x1_k : Nat} {x2_src : Nat} (h : Keeps a s) : Keeps a (State.loadKey s x1_k x2_src) := by
  unfold State.loadKey
  grind [State.count_keeps, keeps_mk, keeps_foldl]

theorem execKeyImport_keeps {a s t : State} {x0_session : Nat} {x1_body : List Byte} (e : execKeyImport x0_session x1_body s = .next t) (h : Keeps a s) : Keeps a t := by
  unfold execKeyImport at e
  dsimp only at e
  (repeat' split at e) <;> (repeat' first | refine keeps_foldl (fun s x h => ?_) _ ?_ | split) <;> grind [State.spdmReply_keeps, State.count_keeps, State.loadKey_keeps, keeps_mk, keeps_foldl]

theorem State.keyCtl_keeps {a s : State} {x1_slot : Nat} {x2_op : Nat} (h : Keeps a s) : Keeps a (State.keyCtl s x1_slot x2_op) := by
  unfold State.keyCtl
  grind [State.setFld_keeps, State.loadKey_keeps, keeps_mk, keeps_foldl]

theorem State.updReply_keeps {a s : State} {x1_code : Nat} {x2_bs : List Byte} (h : Keeps a s) : Keeps a (State.updReply s x1_code x2_bs) := by
  unfold State.updReply
  grind [State.emit_keeps, keeps_mk, keeps_foldl]

theorem State.inUpdate_keeps {a s : State} {l : List Nat} {f : State → State} (hf : ∀ t, Keeps a t → Keeps a (f t)) (h : Keeps a s) : Keeps a (s.inUpdate l f) := by
  unfold State.inUpdate
  grind [State.updReply_keeps, keeps_mk, keeps_foldl]

theorem execQueryDeviceIdentifiers_keeps {a s t : State}  (e : execQueryDeviceIdentifiers s = .next t) (h : Keeps a s) : Keeps a t := by
  unfold execQueryDeviceIdentifiers at e
  grind [State.updReply_keeps, keeps_mk, keeps_foldl]

theorem execGetFirmwareParameters_keeps {a s t : State}  (e : execGetFirmwareParameters s = .next t) (h : Keeps a s) : Keeps a t := by
  unfold execGetFirmwareParameters at e
  grind [State.updReply_keeps, keeps_mk, keeps_foldl]

theorem execRequestUpdate_keeps {a s t : State} {x0_size : Nat} (e : execRequestUpdate x0_size s = .next t) (h : Keeps a s) : Keeps a t := by
  unfold execRequestUpdate at e
  grind [State.updReply_keeps, State.setSe_keeps, List.prefix_refl, List.prefix_append, keeps_mk, keeps_foldl]

theorem execPassComponentTable_keeps {a s t : State}  (e : execPassComponentTable s = .next t) (h : Keeps a s) : Keeps a t := by
  unfold execPassComponentTable at e
  grind [State.inUpdate_keeps, State.updReply_keeps, State.setSe_keeps, List.prefix_refl, List.prefix_append, keeps_mk, keeps_foldl]

theorem execUpdateComponent_keeps {a s t : State} {x0_hdr : Slot} (e : execUpdateComponent x0_hdr s = .next t) (h : Keeps a s) : Keeps a t := by
  unfold execUpdateComponent at e
  grind [State.inUpdate_keeps, State.updReply_keeps, State.setSe_keeps, List.prefix_refl, List.prefix_append, keeps_mk, keeps_foldl]

theorem execRequestFirmwareData_keeps {a s t : State} {x0_bytes : Nat} {x1_verifies : Bool} (e : execRequestFirmwareData x0_bytes x1_verifies s = .next t) (h : Keeps a s) : Keeps a t := by
  unfold execRequestFirmwareData at e
  grind [State.inUpdate_keeps, State.setSe_keeps, State.updReply_keeps, List.prefix_refl, List.prefix_append, keeps_mk, keeps_foldl]

theorem execActivateFirmware_keeps {a s t : State}  (e : execActivateFirmware s = .next t) (h : Keeps a s) : Keeps a t := by
  unfold execActivateFirmware at e
  grind [State.inUpdate_keeps, State.updReply_keeps, State.setSe_keeps, List.prefix_refl, List.prefix_append, keeps_mk, keeps_foldl]

theorem execGetStatus_keeps {a s t : State}  (e : execGetStatus s = .next t) (h : Keeps a s) : Keeps a t := by
  unfold execGetStatus at e
  grind [State.updReply_keeps, keeps_mk, keeps_foldl]

theorem execCancelUpdateComponent_keeps {a s t : State}  (e : execCancelUpdateComponent s = .next t) (h : Keeps a s) : Keeps a t := by
  unfold execCancelUpdateComponent at e
  grind [State.inUpdate_keeps, State.updReply_keeps, State.setSe_keeps, List.prefix_refl, List.prefix_append, keeps_mk, keeps_foldl]

theorem execCancelUpdate_keeps {a s t : State}  (e : execCancelUpdate s = .next t) (h : Keeps a s) : Keeps a t := by
  unfold execCancelUpdate at e
  grind [State.inUpdate_keeps, State.updReply_keeps, State.setSe_keeps, List.prefix_refl, List.prefix_append, keeps_mk, keeps_foldl]

theorem execMctpControlMessage_keeps {a s t : State} {x0_medium : Nat} {x1_msg : List Byte} (e : execMctpControlMessage x0_medium x1_msg s = .next t) (h : Keeps a s) : Keeps a t := by
  unfold execMctpControlMessage at e
  grind [State.emit_keeps, keeps_mk, keeps_foldl]

/-! ### TideCmd -/

theorem State.clearSlips_keeps {a s : State} {x1_slot : Nat} (h : Keeps a s) : Keeps a (State.clearSlips s x1_slot) := by
  unfold State.clearSlips
  grind [State.setFlds_keeps, State.setFldN_keeps, keeps_mk, keeps_foldl]

theorem State.loadEnd_keeps {a s : State} {x1_k : Cmd} {x2_slot : Nat} (h : Keeps a s) : Keeps a (State.loadEnd s x1_k x2_slot) := by
  unfold State.loadEnd
  grind [State.setCmd_keeps, State.finish_keeps, State.modDom_keeps, keeps_mk, keeps_foldl]

theorem execTideLoad_keeps {a s t : State} {x0_ctx : Nat} {x1_q : Nat} {x2_idx : Nat} (e : execTideLoad x0_ctx x1_q x2_idx s = .next t) (h : Keeps a s) : Keeps a t := by
  unfold execTideLoad at e
  (repeat' first | split at e | refine keeps_foldl (fun s x h => ?_) _ ?_) <;> grind [State.validated_keeps, State.fail_keeps, State.startCmd_keeps, State.clearSlips_keeps, State.modDom_keeps, State.loadEnd_keeps, keeps_mk, keeps_foldl]

theorem State.armDom_keeps {a s : State} {x1_k : Cmd} {x2_slot : Nat} {x3_t0 : Nat} (h : Keeps a s) : Keeps a (State.armDom s x1_k x2_slot x3_t0) := by
  unfold State.armDom
  grind [State.modDom_keeps, State.setCmd_keeps, State.enqueueLaunch_keeps, keeps_mk, keeps_foldl]

theorem State.startDom_keeps {a s : State} {x1_k : Cmd} {x2_slot : Nat} (h : Keeps a s) : Keeps a (State.startDom s x1_k x2_slot) := by
  unfold State.startDom
  grind [State.setCmd_keeps, State.fail_keeps, State.modDom_keeps, State.armDom_keeps, keeps_mk, keeps_foldl]

theorem execTideStart_keeps {a s t : State} {x0_ctx : Nat} {x1_q : Nat} {x2_idx : Nat} (e : execTideStart x0_ctx x1_q x2_idx s = .next t) (h : Keeps a s) : Keeps a t := by
  unfold execTideStart at e
  grind [State.validated_keeps, State.fail_keeps, State.startCmd_keeps, State.modDom_keeps, State.startDom_keeps, keeps_mk, keeps_foldl]

theorem execTideHold_keeps {a s t : State} {x0_ctx : Nat} {x1_q : Nat} {x2_idx : Nat} (e : execTideHold x0_ctx x1_q x2_idx s = .next t) (h : Keeps a s) : Keeps a t := by
  unfold execTideHold at e
  grind [State.validated_keeps, State.fail_keeps, State.pumpAll_keeps, State.startHold_keeps, State.modCtx_keeps, State.startCmd_keeps, keeps_mk, keeps_foldl]

theorem execTideResume_keeps {a s t : State} {x0_ctx : Nat} {x1_q : Nat} {x2_idx : Nat} (e : execTideResume x0_ctx x1_q x2_idx s = .next t) (h : Keeps a s) : Keeps a t := by
  unfold execTideResume at e
  grind [State.validated_keeps, State.fail_keeps, State.startCmd_keeps, State.modDom_keeps, State.modCtx_keeps, keeps_mk, keeps_foldl]

theorem execTideAbort_keeps {a s t : State} {x0_ctx : Nat} {x1_q : Nat} {x2_idx : Nat} (e : execTideAbort x0_ctx x1_q x2_idx s = .next t) (h : Keeps a s) : Keeps a t := by
  unfold execTideAbort at e
  grind [State.validated_keeps, State.fail_keeps, State.startCmd_keeps, State.modDom_keeps, State.finish_keeps, State.pumpAll_keeps, State.abortDom_keeps, keeps_mk, keeps_foldl]

end Sys2Proof.Machine
end

