-- ==== Sys2Proof/Laws/Keeps5.lean ====
section
/-! SUPPORT. What the operations and commands of these files keep (`Keeps`): RegWrite, Dispatch, Tick. -/

namespace Sys2Proof.Machine

set_option Elab.async false

/-! ### RegWrite -/

theorem State.writeFld_keeps {a s : State} {x1_cls : Nat} {x2_inst : Nat} {x3_e : Nat} {x4_d : Wdata} {x5_f : FldDef} (h : Keeps a s) : Keeps a (State.writeFld s x1_cls x2_inst x3_e x4_d x5_f) := by
  unfold State.writeFld
  grind [State.setFldN_keeps, keeps_mk, keeps_foldl]

theorem State.writeFlds_keeps {a s : State} {x1_cls : Nat} {x2_inst : Nat} {x3_e : Nat} {x4_d : Wdata} {x5_r : RegDef} {x6_ok : Fld → Bool} (h : Keeps a s) : Keeps a (State.writeFlds s x1_cls x2_inst x3_e x4_d x5_r x6_ok) := by
  unfold State.writeFlds
  grind [State.writeFld_keeps, keeps_mk, keeps_foldl]

theorem State.clearCounts_keeps {a s : State} {x1_cls : Nat} {x2_inst : Nat} (h : Keeps a s) : Keeps a (State.clearCounts s x1_cls x2_inst) := by
  unfold State.clearCounts
  grind [State.setFldN_keeps, keeps_mk, keeps_foldl]

theorem State.headerEffect_keeps {a s : State} {x1_cls : Nat} {x2_inst : Nat} {x3_e : Nat} {x4_d : Wdata} {x5_off : Nat} (h : Keeps a s) : Keeps a (State.headerEffect s x1_cls x2_inst x3_e x4_d x5_off) := by
  unfold State.headerEffect
  grind [State.clearCounts_keeps, State.setFlds_keeps, State.setFld_keeps, State.setFldN_keeps, keeps_mk, keeps_foldl]

theorem State.l1Maint_keeps {a s : State} {x1_k : Nat} {x2_op : Nat} (h : Keeps a s) : Keeps a (State.l1Maint s x1_k x2_op) := by
  unfold State.l1Maint
  grind [State.setK_keeps, State.maintAll_keeps, State.modCore_keeps, keeps_mk, keeps_foldl]

theorem State.coreEffect_keeps {a s : State} {x1_k : Nat} {x2_d : Wdata} {x3_off : Nat} (h : Keeps a s) : Keeps a (State.coreEffect s x1_k x2_d x3_off) := by
  unfold State.coreEffect
  grind [State.setK_keeps, State.modCore_keeps, State.l1Maint_keeps, keeps_mk, keeps_foldl]

theorem State.sliceEffect_keeps {a s : State} {x1_h : Nat} {x2_d : Wdata} {x3_off : Nat} (h : Keeps a s) : Keeps a (State.sliceEffect s x1_h x2_d x3_off) := by
  unfold State.sliceEffect
  grind [State.modSlice_keeps, keeps_mk, keeps_foldl]

theorem State.tideEffect_keeps {a s : State} {x1_inst : Nat} {x2_d : Wdata} {x3_off : Nat} (h : Keeps a s) : Keeps a (State.tideEffect s x1_inst x2_d x3_off) := by
  unfold State.tideEffect
  grind [State.clearSlips_keeps, keeps_mk, keeps_foldl]

theorem State.twpEffect_keeps {a s : State} {x1_p : Nat} {x2_was : Nat} {x3_d : Wdata} {x4_off : Nat} (h : Keeps a s) : Keeps a (State.twpEffect s x1_p x2_was x3_d x4_off) := by
  unfold State.twpEffect
  grind [State.startTraining_keeps, keeps_mk, keeps_foldl]

theorem State.pwrEffect_keeps {a s : State} {x1_inst : Nat} {x2_d : Wdata} {x3_off : Nat} (h : Keeps a s) : Keeps a (State.pwrEffect s x1_inst x2_d x3_off) := by
  unfold State.pwrEffect
  grind [State.setPw_keeps, keeps_mk, keeps_foldl]

theorem State.secEffect_keeps {a s : State} {x1_d : Wdata} {x2_off : Nat} (h : Keeps a s) : Keeps a (State.secEffect s x1_d x2_off) := by
  unfold State.secEffect
  grind [State.keyCtl_keeps, keeps_mk, keeps_foldl]

theorem State.tmkEffect_keeps {a s : State} {x1_d : Wdata} {x2_off : Nat} (h : Keeps a s) : Keeps a (State.tmkEffect s x1_d x2_off) := by
  unfold State.tmkEffect
  grind [State.tmkClose_keeps, keeps_mk, keeps_foldl]

theorem State.freshQueue_keeps {a s : State} {x1_x : Nat} {x2_q : Nat} (h : Keeps a s) : Keeps a (State.freshQueue s x1_x x2_q) := by
  unfold State.freshQueue
  grind [State.modQueue_keeps, keeps_mk, keeps_foldl]

theorem State.writeQcfg_keeps {a s : State} {x1_inst : Nat} {x2_e : Nat} {x3_d : Wdata} {x4_r : RegDef} (h : Keeps a s) : Keeps a (State.writeQcfg s x1_inst x2_e x3_d x4_r) := by
  unfold State.writeQcfg
  grind [State.writeFlds_keeps, State.doorbellDrop_keeps, State.setQ_keeps, State.freshQueue_keeps, State.flushHeld_keeps, State.modQueue_keeps, keeps_mk, keeps_foldl]

theorem State.writeCmdq_keeps {a s : State} {x1_inst : Nat} {x2_e : Nat} {x3_d : Wdata} {x4_r : RegDef} (h : Keeps a s) : Keeps a (State.writeCmdq s x1_inst x2_e x3_d x4_r) := by
  unfold State.writeCmdq
  grind [State.writeQcfg_keeps, State.writeFlds_keeps, keeps_mk, keeps_foldl]

theorem State.writeCtx_keeps {a s : State} {x1_x : Nat} {x2_d : Wdata} {x3_r : RegDef} {x4_vf : Bool} (h : Keeps a s) : Keeps a (State.writeCtx s x1_x x2_d x3_r x4_vf) := by
  unfold State.writeCtx
  grind [State.writeFlds_keeps, State.ctxOp_keeps, keeps_mk, keeps_foldl]

theorem State.coveBusy_keeps {a s : State} {x1_c : Nat} (h : Keeps a s) : Keeps a (State.coveBusy s x1_c) := by
  unfold State.coveBusy
  grind [State.modCove_keeps, keeps_mk, keeps_foldl]

theorem State.writeCoveCfg_keeps {a s : State} {x1_c : Nat} {x2_d : Wdata} {x3_r : RegDef} (h : Keeps a s) : Keeps a (State.writeCoveCfg s x1_c x2_d x3_r) := by
  unfold State.writeCoveCfg
  grind [State.writeFlds_keeps, State.coveBusy_keeps, State.setFld_keeps, keeps_mk, keeps_foldl]

theorem State.writeCoveCores_keeps {a s : State} {x1_c : Nat} {x2_e : Nat} {x3_d : Wdata} {x4_r : RegDef} (h : Keeps a s) : Keeps a (State.writeCoveCores s x1_c x2_e x3_d x4_r) := by
  unfold State.writeCoveCores
  grind [State.writeFlds_keeps, State.coresWrite_keeps, State.coveBusy_keeps, keeps_mk, keeps_foldl]

theorem State.writeCommons_keeps {a s : State} {x1_d : Wdata} {x2_r : RegDef} (h : Keeps a s) : Keeps a (State.writeCommons s x1_d x2_r) := by
  unfold State.writeCommons
  grind [State.writeFlds_keeps, keeps_mk, keeps_foldl]

theorem State.writeGranule_keeps {a s : State} {x1_d : Wdata} {x2_off : Nat} (h : Keeps a s) : Keeps a (State.writeGranule s x1_d x2_off) := by
  unfold State.writeGranule
  grind [keeps_mk, keeps_foldl]

theorem State.writeCove_keeps {a s : State} {x1_c : Nat} {x2_e : Nat} {x3_d : Wdata} {x4_r : RegDef} (h : Keeps a s) : Keeps a (State.writeCove s x1_c x2_e x3_d x4_r) := by
  unfold State.writeCove
  grind [State.coveOp_keeps, State.writeCoveCfg_keeps, State.writeCoveCores_keeps, State.writeCommons_keeps, State.writeGranule_keeps, State.coveBusy_keeps, State.writeFlds_keeps, keeps_mk, keeps_foldl]

theorem State.writeEdge_keeps {a s : State} {x1_inst : Nat} {x2_e : Nat} {x3_d : Wdata} {x4_r : RegDef} (h : Keeps a s) : Keeps a (State.writeEdge s x1_inst x2_e x3_d x4_r) := by
  unfold State.writeEdge
  grind [State.writeFlds_keeps, keeps_mk, keeps_foldl]

theorem State.writeReg_keeps {a s : State} {x1_cls : Nat} {x2_inst : Nat} {x3_e : Nat} {x4_d : Wdata} {x5_r : RegDef} {x6_vf : Bool} (h : Keeps a s) : Keeps a (State.writeReg s x1_cls x2_inst x3_e x4_d x5_r x6_vf) := by
  unfold State.writeReg
  grind (splits := 30) [State.headerEffect_keeps, State.writeFlds_keeps, State.writeCmdq_keeps, State.writeCove_keeps, State.writeEdge_keeps, State.writeCtx_keeps, State.coreEffect_keeps, State.sliceEffect_keeps, State.tideEffect_keeps, State.twpEffect_keeps, State.pwrEffect_keeps, State.secEffect_keeps, State.tmkEffect_keeps, keeps_mk, keeps_foldl]

theorem State.wakePage_keeps {a s : State} {x1_cls : Nat} {x2_inst : Nat} (h : Keeps a s) : Keeps a (State.wakePage s x1_cls x2_inst) := by
  unfold State.wakePage
  grind [State.wake_keeps, keeps_mk, keeps_foldl]

theorem State.pageWrite_keeps {a s : State} {x1_cls : Nat} {x2_inst : Nat} {x3_byte : Nat} {x4_d : Wdata} {x5_vf : Bool} (h : Keeps a s) : Keeps a (State.pageWrite s x1_cls x2_inst x3_byte x4_d x5_vf) := by
  unfold State.pageWrite
  grind [State.count_keeps, State.wakePage_keeps, State.writeReg_keeps, keeps_mk, keeps_foldl]

theorem State.regWrite_keeps {a s : State} {x1_w : RegW} (h : Keeps a s) : Keeps a (State.regWrite s x1_w) := by
  unfold State.regWrite
  grind [State.emit_keeps, State.count_keeps, State.pageWrite_keeps, keeps_mk, keeps_foldl]

theorem State.writeIf_keeps {a s t : State} {x1_b : Bool} {x2_w : RegW} (e : State.writeIf s x1_b x2_w = .next t) (h : Keeps a s) : Keeps a t := by
  unfold State.writeIf at e
  grind [State.regWrite_keeps, keeps_mk, keeps_foldl]

theorem execRegisterWrite_keeps {a s t : State} {x0_w : RegW} (e : execRegisterWrite x0_w s = .next t) (h : Keeps a s) : Keeps a t := by
  unfold execRegisterWrite at e
  grind [State.regWrite_keeps, keeps_mk, keeps_foldl]

theorem execLock_keeps {a s t : State} {x0_w : RegW} (e : execLock x0_w s = .next t) (h : Keeps a s) : Keeps a t := by
  unfold execLock at e
  grind [State.writeIf_keeps, keeps_mk, keeps_foldl]

theorem execEvtSel_keeps {a s t : State} {x0_w : RegW} (e : execEvtSel x0_w s = .next t) (h : Keeps a s) : Keeps a t := by
  unfold execEvtSel at e
  grind [State.writeIf_keeps, keeps_mk, keeps_foldl]

theorem execEvtClr_keeps {a s t : State} {x0_w : RegW} (e : execEvtClr x0_w s = .next t) (h : Keeps a s) : Keeps a t := by
  unfold execEvtClr at e
  grind [State.writeIf_keeps, keeps_mk, keeps_foldl]

theorem execErrcntClr_keeps {a s t : State} {x0_w : RegW} (e : execErrcntClr x0_w s = .next t) (h : Keeps a s) : Keeps a t := by
  unfold execErrcntClr at e
  grind [State.writeIf_keeps, keeps_mk, keeps_foldl]

theorem execErrInject_keeps {a s t : State} {x0_w : RegW} (e : execErrInject x0_w s = .next t) (h : Keeps a s) : Keeps a t := by
  unfold execErrInject at e
  grind [State.writeIf_keeps, keeps_mk, keeps_foldl]

theorem execPredClear_keeps {a s t : State} {x0_w : RegW} (e : execPredClear x0_w s = .next t) (h : Keeps a s) : Keeps a t := by
  unfold execPredClear at e
  grind [State.writeIf_keeps, keeps_mk, keeps_foldl]

theorem execReconvHwmClr_keeps {a s t : State} {x0_w : RegW} (e : execReconvHwmClr x0_w s = .next t) (h : Keeps a s) : Keeps a t := by
  unfold execReconvHwmClr at e
  grind [State.writeIf_keeps, keeps_mk, keeps_foldl]

theorem execGhostHwmClr_keeps {a s t : State} {x0_w : RegW} (e : execGhostHwmClr x0_w s = .next t) (h : Keeps a s) : Keeps a t := by
  unfold execGhostHwmClr at e
  grind [State.writeIf_keeps, keeps_mk, keeps_foldl]

theorem execHistClr_keeps {a s t : State} {x0_w : RegW} (e : execHistClr x0_w s = .next t) (h : Keeps a s) : Keeps a t := by
  unfold execHistClr at e
  grind [State.writeIf_keeps, keeps_mk, keeps_foldl]

theorem execL1MaintWriteBack_keeps {a s t : State} {x0_w : RegW} (e : execL1MaintWriteBack x0_w s = .next t) (h : Keeps a s) : Keeps a t := by
  unfold execL1MaintWriteBack at e
  grind [State.writeIf_keeps, keeps_mk, keeps_foldl]

theorem execL1MaintEvict_keeps {a s t : State} {x0_w : RegW} (e : execL1MaintEvict x0_w s = .next t) (h : Keeps a s) : Keeps a t := by
  unfold execL1MaintEvict at e
  grind [State.writeIf_keeps, keeps_mk, keeps_foldl]

theorem execForceRetrain_keeps {a s t : State} {x0_w : RegW} (e : execForceRetrain x0_w s = .next t) (h : Keeps a s) : Keeps a t := by
  unfold execForceRetrain at e
  grind [State.writeIf_keeps, keeps_mk, keeps_foldl]

theorem execQueueEnable_keeps {a s t : State} {x0_w : RegW} (e : execQueueEnable x0_w s = .next t) (h : Keeps a s) : Keeps a t := by
  unfold execQueueEnable at e
  grind [State.writeIf_keeps, keeps_mk, keeps_foldl]

theorem execQueueResume_keeps {a s t : State} {x0_w : RegW} (e : execQueueResume x0_w s = .next t) (h : Keeps a s) : Keeps a t := by
  unfold execQueueResume at e
  grind [State.writeIf_keeps, keeps_mk, keeps_foldl]

theorem execCoveCreate_keeps {a s t : State} {x0_w : RegW} (e : execCoveCreate x0_w s = .next t) (h : Keeps a s) : Keeps a t := by
  unfold execCoveCreate at e
  grind [State.writeIf_keeps, keeps_mk, keeps_foldl]

theorem execCoveReset_keeps {a s t : State} {x0_w : RegW} (e : execCoveReset x0_w s = .next t) (h : Keeps a s) : Keeps a t := by
  unfold execCoveReset at e
  grind [State.writeIf_keeps, keeps_mk, keeps_foldl]

theorem execCoveDestroy_keeps {a s t : State} {x0_w : RegW} (e : execCoveDestroy x0_w s = .next t) (h : Keeps a s) : Keeps a t := by
  unfold execCoveDestroy at e
  grind [State.writeIf_keeps, keeps_mk, keeps_foldl]

theorem execCoveCoresWrite_keeps {a s t : State} {x0_w : RegW} (e : execCoveCoresWrite x0_w s = .next t) (h : Keeps a s) : Keeps a t := by
  unfold execCoveCoresWrite at e
  grind [State.writeIf_keeps, keeps_mk, keeps_foldl]

theorem execAlloc_keeps {a s t : State} {x0_w : RegW} (e : execAlloc x0_w s = .next t) (h : Keeps a s) : Keeps a t := by
  unfold execAlloc at e
  grind [State.writeIf_keeps, keeps_mk, keeps_foldl]

theorem execFree_keeps {a s t : State} {x0_w : RegW} (e : execFree x0_w s = .next t) (h : Keeps a s) : Keeps a t := by
  unfold execFree at e
  grind [State.writeIf_keeps, keeps_mk, keeps_foldl]

theorem execPreempt_keeps {a s t : State} {x0_w : RegW} (e : execPreempt x0_w s = .next t) (h : Keeps a s) : Keeps a t := by
  unfold execPreempt at e
  grind [State.writeIf_keeps, keeps_mk, keeps_foldl]

theorem execResume_keeps {a s t : State} {x0_w : RegW} (e : execResume x0_w s = .next t) (h : Keeps a s) : Keeps a t := by
  unfold execResume at e
  grind [State.writeIf_keeps, keeps_mk, keeps_foldl]

theorem execEndCommand_keeps {a s t : State} {x0_w : RegW} (e : execEndCommand x0_w s = .next t) (h : Keeps a s) : Keeps a t := by
  unfold execEndCommand at e
  grind [State.writeIf_keeps, keeps_mk, keeps_foldl]

theorem execPwrCapWrite_keeps {a s t : State} {x0_w : RegW} (e : execPwrCapWrite x0_w s = .next t) (h : Keeps a s) : Keeps a t := by
  unfold execPwrCapWrite at e
  grind [State.writeIf_keeps, keeps_mk, keeps_foldl]

theorem execPeakClr_keeps {a s t : State} {x0_w : RegW} (e : execPeakClr x0_w s = .next t) (h : Keeps a s) : Keeps a t := by
  unfold execPeakClr at e
  grind [State.writeIf_keeps, keeps_mk, keeps_foldl]

theorem execGenerate_keeps {a s t : State} {x0_w : RegW} (e : execGenerate x0_w s = .next t) (h : Keeps a s) : Keeps a t := by
  unfold execGenerate at e
  grind [State.writeIf_keeps, keeps_mk, keeps_foldl]

theorem execCloseNow_keeps {a s t : State} {x0_w : RegW} (e : execCloseNow x0_w s = .next t) (h : Keeps a s) : Keeps a t := by
  unfold execCloseNow at e
  grind [State.writeIf_keeps, keeps_mk, keeps_foldl]

/-! ### Dispatch -/

theorem exec_keeps {a s t : State} {x0_i : Instr} (e : exec x0_i s = .next t) (h : Keeps a s) : Keeps a t := by
  unfold exec at e
  grind [execNopInstruction_keeps, execMov_keeps, execMovSv_keeps, execSel_keeps, execAdd_keeps, execSub_keeps, execMul_keeps, execMulhi_keeps, execFma_keeps, execMin_keeps, execMax_keeps, execAbs_keeps, execNeg_keeps, execAnd_keeps, execOr_keeps, execXor_keeps, execNot_keeps, execShl_keeps, execShr_keeps, execSar_keeps, execPopc_keeps, execClz_keeps, execBrev_keeps, execCmp_keeps, execCvt_keeps, execShfl_keeps, execVote_keeps, execMand_keeps, execMor_keeps, execMxor_keeps, execMnot_keeps, execMovPm_keeps, execMovMp_keeps, execPopcM_keeps, execLd_keeps, execSt_keeps, execLdSp_keeps, execStSp_keeps, execLdShelf_keeps, execStShelf_keeps, execLdConst_keeps, execAtomAdd_keeps, execAtomMin_keeps, execAtomMax_keeps, execAtomAnd_keeps, execAtomOr_keeps, execAtomXor_keeps, execAtomXchg_keeps, execAtomCas_keeps, execAtomWes_keeps, execFence_keeps, execInvRo_keeps, execMxBegin_keeps, execMxEnd_keeps, execMma_keeps, execMxDrain_keeps, execMxZero_keeps, execMxSave_keeps, execMxLoad_keeps, execMxExecuteEnd_keeps, execElRun_keeps, execElCompress_keeps, execElExpand_keeps, execElReduce_keeps, execElLut_keeps, execElWait_keeps, execElFinish_keeps, execBra_keeps, execBrx_keeps, execCall_keeps, execRet_keeps, execExit_keeps, execBarBlk_keeps, execWaitLand_keeps, execSleepHint_keeps, execBrk_keeps, execBlockStart_keeps, execSplitChange_keeps, execSectorFill_keeps, execReplayQueueServe_keeps, execGetS_keeps, execGetM_keeps, execUpg_keeps, execPutM_keeps, execPutO_keeps, execPutE_keeps, execPutS_keeps, execSnoopRd_keeps, execAtomFar_keeps, execFwdGetS_keeps, execFwdGetM_keeps, execInv_keeps, execData_keeps, execDataExcl_keeps, execInvAck_keeps, execPutAck_keeps, execNack_keeps, execNackResend_keeps, execAtomResp_keeps, execMemoryData_keeps, execEbbAction_keeps, execUeRetry_keeps, execScrubRead_keeps, execClearingEnd_keeps, execWalk_keeps, execAtsInvalidateRequest_keeps, execExpanderLinkFailure_keeps, execOccUpdates_keeps, execSyncResend_keeps, execEntryIssue_keeps, execSealCheck_keeps, execLanding_keeps, execRedAllocation_keeps, execChunkCombine_keeps, execSyncSend_keeps, execHoldover_keeps, execUnaligned_keeps, execStartCheckSend_keeps, execEpochReached_keeps, execHoldBoundary_keeps, execResumeTick_keeps, execTideStall_keeps, execCreditStall_keeps, execRedStall_keeps, execCredit_keeps, execLinkCopy_keeps, execLinkRed_keeps, execNetred_keeps, execLinkMark_keeps, execFrame_keeps, execReplayTimeout_keeps, execRecover_keeps, execDetect_keeps, execNoCable_keeps, execEqualize_keeps, execAlign_keeps, execIdentify_keeps, execLatency_keeps, execTrainingLimit_keeps, execDownRetry_keeps, execForceRetrain_keeps, execLand_keeps, execMark_keeps, execRedReady_keeps, execRedChunk_keeps, execPeerWrite_keeps, execPeerAck_keeps, execPeerWriteWait_keeps, execSync_keeps, execHold_keeps, execAbort_keeps, execStartCheck_keeps, execDoorbell_keeps, execSqFetch_keeps, execQueueEnable_keeps, execQueueResume_keeps, execNop_keeps, execLaunch_keeps, execCopy_keeps, execFill_keeps, execPeerCopy_keeps, execSpindleStream_keeps, execReduce_keeps, execTorusReduce_keeps, execShelfCarve_keeps, execMoor_keeps, execUnmoor_keeps, execEbb_keeps, execXlateInval_keeps, execCommonsLoad_keeps, execCommonsRepair_keeps, execTideLoad_keeps, execTideStart_keeps, execTideHold_keeps, execTideResume_keeps, execTideAbort_keeps, execSemSignal_keeps, execSemWait_keeps, execSemWaitTimeout_keeps, execSemPoll_keeps, execCxlSnoop_keeps, execHint_keeps, execDistances_keeps, execCoalUs_keeps, execVectorUnmask_keeps, execBar4Read_keeps, execBar4Write_keeps, execBar4AtomicOp_keeps, execHostLinkDown_keeps, execFunctionLevelReset_keeps, execCoveCreate_keeps, execCoveReset_keeps, execCoveDestroy_keeps, execCoveCoresWrite_keeps, execCoreLeave_keeps, execAlloc_keeps, execFree_keeps, execPreempt_keeps, execResume_keeps, execEndCommand_keeps, execQuantumBoundary_keeps, execSaveEnd_keeps, execRestore_keeps, execHorizon_keeps, execSlowdownInterval_keeps, execPmbusPoll_keeps, execPowerMs_keeps, execClockChange_keeps, execDroop_keeps, execDroopEnd_keeps, execSwellEnd_keeps, execPwrCapWrite_keeps, execPeakClr_keeps, execSleepEntry_keeps, execWake_keeps, execPrewake_keeps, execThermal_keeps, execVinShutdown_keeps, execBucketLeak_keeps, execD2dFlit_keeps, execD2dRetrain_keeps, execPrimaryRewrite_keeps, execCommonsCompare_keeps, execPowerOn_keeps, execPerst_keeps, execWatchdog_keeps, execStageEnd_keeps, execStageLimit_keeps, execReset_keeps, execGetChallenge_keeps, execSubmitToken_keeps, execSubmitPassword_keeps, execGetStage_keeps, execDbgAuth_keeps, execExtest_keeps, execTestLogicReset_keeps, execGetVersion_keeps, execGetCapabilities_keeps, execNegotiateAlgorithms_keeps, execGetDigests_keeps, execGetCertificate_keeps, execChallenge_keeps, execGetMeasurements_keeps, execKeyExchange_keeps, execFinish_keeps, execHeartbeat_keeps, execKeyUpdate_keeps, execEndSession_keeps, execKeyImport_keeps, execGenerate_keeps, execQueryDeviceIdentifiers_keeps, execGetFirmwareParameters_keeps, execRequestUpdate_keeps, execPassComponentTable_keeps, execUpdateComponent_keeps, execRequestFirmwareData_keeps, execActivateFirmware_keeps, execGetStatus_keeps, execCancelUpdateComponent_keeps, execCancelUpdate_keeps, execIntervalClose_keeps, execCloseNow_keeps, execClearEraseEnd_keeps, execGetTidemarkInfo_keeps, execReadTidemarkSlot_keeps, execReadClearLedger_keeps, execSubmitTidemarkClear_keeps, execRegisterWrite_keeps, execLock_keeps, execEvtSel_keeps, execEvtClr_keeps, execErrcntClr_keeps, execErrInject_keeps, execPredClear_keeps, execReconvHwmClr_keeps, execGhostHwmClr_keeps, execHistClr_keeps, execL1MaintWriteBack_keeps, execL1MaintEvict_keeps, execPartnerLost_keeps, execLinkUp_keeps, execHostCompletion_keeps, execConfigurationRequest_keeps, execMctpControlMessage_keeps, execSecBusyTimeout_keeps, execSleepExitEnd_keeps, keeps_mk, keeps_foldl]

/-! ### Tick -/

theorem State.tickNow_keeps {a s : State}  (h : Keeps a s) : Keeps a (State.tickNow s) := by
  unfold State.tickNow
  grind [State.count_keeps, keeps_mk, keeps_foldl]

end Sys2Proof.Machine
end

