-- ==== Sys2Proof/WellFormed.lean ====
section
/-! DEFINITION. Which commands are well formed: the operands lie in the ranges that the spec gives the units they name.
The meanings are total on ill-formed commands too; a well-formed one names units that exist. -/

namespace Sys2Proof

def lt (n k : Nat) : Bool := decide (n < k)

/-- A logical core and a group slot of it (R59). -/
def IWord.wf (i : IWord) : Bool := lt i.core 1024 && lt i.slot 32

/-- The payload that a message's type has (R254, Table 9-5): 32 bytes for each sector of MASK; for an AtomFar WRITE 36, a byte
mask with each; for another AtomFar 1 to 64 operands; old values in an AtomResp. -/
def Msg.payloadOk (m : Msg) : Bool :=
  match m.ty with
  | .data | .dataExcl | .invAck | .putM | .putO => m.data.length == 32 * Machine.popcount 4 m.mask && m.ops.isEmpty
  | .atomFar =>
    if m.op = .write then m.data.length == 36 * Machine.popcount 4 m.mask && m.ops.isEmpty
    else m.data.isEmpty && decide (1 ≤ m.ops.length) && decide (m.ops.length ≤ 64)
  | .atomResp => m.data.isEmpty && decide (m.ops.length ≤ 64)
  | _ => m.data.isEmpty && m.ops.isEmpty

/-- A message between mesh nodes (R253, Tables 9-2 to 9-5): 12-bit nodes, 8-bit transactions, four sectors, the payload of its
type. -/
def Msg.wf (m : Msg) : Bool :=
  lt m.dst 4096 && lt m.src 4096 && lt m.req 4096 && lt m.txn 256 && lt m.mask 16 && lt m.aux 16 && lt m.flags 64 && lt m.dirty 16 &&
    lt m.poison 16 && lt m.cove 64 && lt m.line (2 ^ 45) && lt m.offset 128 && m.payloadOk

/-- The function an access comes through: the PF or one of 64 VFs (R573). -/
def vfWf : Option Nat → Bool
  | none => true
  | some c => lt c 64

/-- A write inside BAR0 of 1 to 512 bytes, the largest payload of an edge port (R10, R571, Table 15-1). -/
def RegW.wf (w : RegW) : Bool :=
  vfWf w.vf && lt w.off (2 ^ 28) && lt 0 w.size && lt w.size 513 && lt w.val (256 ^ w.size)

/-- A stream of a command or a table of a domain slot (R340, R369). -/
def srcWf : Machine.Src → Bool
  | .cmd x q i => lt x 4096 && lt q 4 && lt i 65536
  | .dom d t => lt d 8 && lt t 256

/-- Versions of an image are 16-bit numbers (R538). -/
def slotWf (x : Machine.Slot) : Bool := lt x.svn 65536 && lt x.minor 65536 && lt x.major 65536

/-- What start-up finds names units that exist (Tables 19-1 and 19-5). -/
def StageIn.wf (i : StageIn) : Bool :=
  i.badDies.all (fun d => lt d 80) && i.badSlices.all (fun d => lt d 512) && i.badChans.all (fun d => lt d 1024) &&
    i.noStacks.all (fun d => lt d 32) && i.links.all (fun p => lt p.1 8) && i.expanders.all (fun p => lt p.1 6) && i.imgOk.length == 2

/-- A reading of a cable: 64 bits of TWP_CABLE (R422). -/
def Cable.wf (c : Cable) : Bool := lt c.value (2 ^ 64)

/-- An IDENT message: the partner's port is one of 24 (R406). -/
def Ident.wf (i : Ident) : Bool := lt i.port 24 && lt i.serial (2 ^ 64)

def Charge.wf (c : Charge) : Bool := lt c.ctx 4096
def Slow.wf (m : Slow) : Bool := lt m.cove 64

/-- Whether a command is well formed. -/
def Instr.wf : Instr → Bool
  | .nopInstruction i => i.wf
  | .mov i => i.wf
  | .movSv i => i.wf
  | .sel i => i.wf
  | .add i => i.wf
  | .sub i => i.wf
  | .mul i => i.wf
  | .mulhi i => i.wf
  | .fma i => i.wf
  | .min i => i.wf
  | .max i => i.wf
  | .abs i => i.wf
  | .neg i => i.wf
  | .and i => i.wf
  | .or i => i.wf
  | .xor i => i.wf
  | .not i => i.wf
  | .shl i => i.wf
  | .shr i => i.wf
  | .sar i => i.wf
  | .popc i => i.wf
  | .clz i => i.wf
  | .brev i => i.wf
  | .cmp i => i.wf
  | .cvt i => i.wf
  | .shfl i => i.wf
  | .vote i => i.wf
  | .mand i => i.wf
  | .mor i => i.wf
  | .mxor i => i.wf
  | .mnot i => i.wf
  | .movPm i => i.wf
  | .movMp i => i.wf
  | .popcM i => i.wf
  | .ld i => i.wf
  | .st i => i.wf
  | .ldSp i => i.wf
  | .stSp i => i.wf
  | .ldShelf i => i.wf
  | .stShelf i => i.wf
  | .ldConst i => i.wf
  | .atomAdd i => i.wf
  | .atomMin i => i.wf
  | .atomMax i => i.wf
  | .atomAnd i => i.wf
  | .atomOr i => i.wf
  | .atomXor i => i.wf
  | .atomXchg i => i.wf
  | .atomCas i => i.wf
  | .atomWes i => i.wf
  | .fence i => i.wf
  | .invRo i => i.wf
  | .mxBegin i => i.wf
  | .mxEnd i => i.wf
  | .mma i => i.wf
  | .mxDrain i => i.wf
  | .mxZero i => i.wf
  | .mxSave i => i.wf
  | .mxLoad i => i.wf
  | .mxExecuteEnd core => lt core 1024
  | .elRun i => i.wf
  | .elCompress i => i.wf
  | .elExpand i => i.wf
  | .elReduce i => i.wf
  | .elLut i => i.wf
  | .elWait i => i.wf
  | .elFinish core => lt core 1024
  | .bra i => i.wf
  | .brx i => i.wf
  | .call i => i.wf
  | .ret i => i.wf
  | .exit i => i.wf
  | .barBlk i => i.wf
  | .waitLand i => i.wf
  | .sleepHint i => i.wf
  | .brk i => i.wf
  | .blockStart core => lt core 1024
  | .splitChange core => lt core 1024
  | .sectorFill core sector => lt core 1024 && lt sector (2 ^ 47)
  | .replayQueueServe core => lt core 1024
  | .getS m => m.wf
  | .getM m => m.wf
  | .upg m => m.wf
  | .putM m => m.wf
  | .putO m => m.wf
  | .putE m => m.wf
  | .putS m => m.wf
  | .snoopRd m => m.wf
  | .atomFar m => m.wf
  | .fwdGetS m => m.wf
  | .fwdGetM m => m.wf
  | .inv m => m.wf
  | .data m => m.wf
  | .dataExcl m => m.wf
  | .invAck m => m.wf
  | .putAck m => m.wf
  | .nack m => m.wf
  | .nackResend node txn => lt node (2 ^ 12) && lt txn 256
  | .atomResp m => m.wf
  | .memoryData slice line => lt slice 512 && lt line (2 ^ 45)
  | .ebbAction slice line => lt slice 512 && lt line (2 ^ 45)
  | .ueRetry ch _ outcome => lt ch 1024 && lt outcome 3
  | .scrubRead ch outcome => lt ch 1024 && lt outcome 4
  | .clearingEnd ch => lt ch 1024
  | .walk core va => lt core 1024 && lt va (2 ^ 64)
  | .atsInvalidateRequest port cove _ _ => lt port 8 && lt cove 64
  | .expanderLinkFailure slot => lt slot 6
  | .occUpdates _ => true
  | .syncResend router => lt router (2 ^ 12)
  | .entryIssue src => srcWf src
  | .sealCheck src _ => srcWf src
  | .landing core slot => lt core 1024 && lt slot 256
  | .redAllocation src _ => srcWf src
  | .chunkCombine src _ router chunk => srcWf src && lt router (2 ^ 12) && lt chunk (2 ^ 16)
  | .syncSend => true
  | .holdover => true
  | .unaligned => true
  | .startCheckSend slot => lt slot 8
  | .epochReached slot => lt slot 8
  | .holdBoundary slot => lt slot 8
  | .resumeTick slot => lt slot 8
  | .tideStall core slot => lt core 1024 && lt slot 256
  | .creditStall slot table => lt slot 8 && lt table 256
  | .redStall src => srcWf src
  | .credit owner core slot => lt owner (2 ^ 12) && lt core 1024 && lt slot 256
  | .linkCopy slot table => lt slot 8 && lt table 256
  | .linkRed slot table => lt slot 8 && lt table 256
  | .netred slot table => lt slot 8 && lt table 256
  | .linkMark slot table => lt slot 8 && lt table 256
  | .frame port _ => lt port 24
  | .replayTimeout port => lt port 24
  | .recover port _ => lt port 24
  | .detect port cable => lt port 24 && cable.wf
  | .noCable port => lt port 24
  | .equalize port => lt port 24
  | .align port _ => lt port 24
  | .identify port id => lt port 24 && id.wf
  | .latency port _ _ => lt port 24
  | .trainingLimit port => lt port 24
  | .downRetry port => lt port 24
  | .forceRetrain w => w.wf
  | .land port => lt port 24
  | .mark port => lt port 24
  | .redReady port => lt port 24
  | .redChunk port => lt port 24
  | .peerWrite port => lt port 24
  | .peerAck port => lt port 24
  | .peerWriteWait port => lt port 24
  | .sync port _ => lt port 24
  | .hold port => lt port 24
  | .abort port => lt port 24
  | .startCheck port => lt port 24
  | .doorbell vf off size val => vfWf vf && lt off (2 ^ 28) && decide (1 ≤ size) && decide (size ≤ 512) && lt val (256 ^ size)
  | .sqFetch ctx q => lt ctx 4096 && lt q 4
  | .queueEnable w => w.wf
  | .queueResume w => w.wf
  | .nop ctx q idx => lt ctx 4096 && lt q 4 && lt idx 65536
  | .launch ctx q idx => lt ctx 4096 && lt q 4 && lt idx 65536
  | .copy ctx q idx => lt ctx 4096 && lt q 4 && lt idx 65536
  | .fill ctx q idx => lt ctx 4096 && lt q 4 && lt idx 65536
  | .peerCopy ctx q idx => lt ctx 4096 && lt q 4 && lt idx 65536
  | .spindleStream ctx q idx => lt ctx 4096 && lt q 4 && lt idx 65536
  | .reduce ctx q idx => lt ctx 4096 && lt q 4 && lt idx 65536
  | .torusReduce ctx q idx => lt ctx 4096 && lt q 4 && lt idx 65536
  | .shelfCarve ctx q idx => lt ctx 4096 && lt q 4 && lt idx 65536
  | .moor ctx q idx => lt ctx 4096 && lt q 4 && lt idx 65536
  | .unmoor ctx q idx => lt ctx 4096 && lt q 4 && lt idx 65536
  | .ebb ctx q idx => lt ctx 4096 && lt q 4 && lt idx 65536
  | .xlateInval ctx q idx => lt ctx 4096 && lt q 4 && lt idx 65536
  | .commonsLoad ctx q idx => lt ctx 4096 && lt q 4 && lt idx 65536
  | .commonsRepair ctx q idx => lt ctx 4096 && lt q 4 && lt idx 65536
  | .tideLoad ctx q idx => lt ctx 4096 && lt q 4 && lt idx 65536
  | .tideStart ctx q idx => lt ctx 4096 && lt q 4 && lt idx 65536
  | .tideHold ctx q idx => lt ctx 4096 && lt q 4 && lt idx 65536
  | .tideResume ctx q idx => lt ctx 4096 && lt q 4 && lt idx 65536
  | .tideAbort ctx q idx => lt ctx 4096 && lt q 4 && lt idx 65536
  | .semSignal ctx q idx => lt ctx 4096 && lt q 4 && lt idx 65536
  | .semWait ctx q idx => lt ctx 4096 && lt q 4 && lt idx 65536
  | .semWaitTimeout ctx q idx => lt ctx 4096 && lt q 4 && lt idx 65536
  | .semPoll ctx q idx => lt ctx 4096 && lt q 4 && lt idx 65536
  | .cxlSnoop port line => lt port 8 && lt line (2 ^ 45)
  | .hint ctx q idx => lt ctx 4096 && lt q 4 && lt idx 65536
  | .distances ctx q idx => lt ctx 4096 && lt q 4 && lt idx 65536
  | .coalUs ctx q => lt ctx 4096 && lt q 4
  | .vectorUnmask vf _ => vfWf vf
  | .bar4Read port vf _ _ rid => lt port 8 && vfWf vf && lt rid 65536
  | .bar4Write port vf _ _ rid => lt port 8 && vfWf vf && lt rid 65536
  | .bar4AtomicOp port vf _ _ bytes _ _ rid => lt port 8 && vfWf vf && [4, 8, 16].contains bytes && lt rid 65536
  | .hostLinkDown port => lt port 8
  | .functionLevelReset vf => lt vf 64
  | .coveCreate w => w.wf
  | .coveReset w => w.wf
  | .coveDestroy w => w.wf
  | .coveCoresWrite w => w.wf
  | .coreLeave core => lt core 1024
  | .alloc w => w.wf
  | .free w => w.wf
  | .preempt w => w.wf
  | .resume w => w.wf
  | .endCommand w => w.wf
  | .quantumBoundary cove _ charges => lt cove 64 && charges.all Charge.wf
  | .saveEnd ctx => lt ctx 4096
  | .restore ctx _ _ => lt ctx 4096
  | .horizon ctx => lt ctx 4096
  | .slowdownInterval m => m.all Slow.wf
  | .pmbusPoll pins _ _ => pins.length == 8
  | .powerMs => true
  | .clockChange => true
  | .droop island => lt island 97
  | .droopEnd island _ => lt island 97
  | .swellEnd => true
  | .pwrCapWrite w => w.wf
  | .peakClr w => w.wf
  | .sleepEntry core _ => lt core 1024
  | .wake core => lt core 1024
  | .prewake core => lt core 1024
  | .thermal die _ => lt die 96
  | .vinShutdown => true
  | .bucketLeak cls inst => lt cls 7 && lt inst (2 ^ 32)
  | .d2dFlit group _ _ => lt group (2 ^ 32)
  | .d2dRetrain group _ => lt group (2 ^ 32)
  | .primaryRewrite _ _ => true
  | .commonsCompare _ _ _ _ => true
  | .powerOn => true
  | .perst port => lt port 8
  | .watchdog => true
  | .stageEnd info => info.wf
  | .stageLimit info => info.wf
  | .reset medium _ _ => lt medium 4
  | .getChallenge medium _ => lt medium 4
  | .submitToken medium _ => lt medium 4
  | .submitPassword medium _ => lt medium 4
  | .getStage medium _ => lt medium 4
  | .dbgAuth _ => true
  | .extest => true
  | .testLogicReset => true
  | .getVersion _ => true
  | .getCapabilities _ => true
  | .negotiateAlgorithms _ => true
  | .getDigests _ => true
  | .getCertificate _ => true
  | .challenge _ => true
  | .getMeasurements _ _ => true
  | .keyExchange _ _ => true
  | .finish _ => true
  | .heartbeat _ => true
  | .keyUpdate _ => true
  | .endSession _ => true
  | .keyImport _ _ => true
  | .generate w => w.wf
  | .queryDeviceIdentifiers => true
  | .getFirmwareParameters => true
  | .requestUpdate _ => true
  | .passComponentTable => true
  | .updateComponent hdr => slotWf hdr
  | .requestFirmwareData _ _ => true
  | .activateFirmware => true
  | .getStatus => true
  | .cancelUpdateComponent => true
  | .cancelUpdate => true
  | .intervalClose => true
  | .closeNow w => w.wf
  | .clearEraseEnd => true
  | .getTidemarkInfo => true
  | .readTidemarkSlot area slot => lt area 2 && lt slot 65536
  | .readClearLedger entry => lt entry 64
  | .submitTidemarkClear _ => true
  | .registerWrite w => w.wf
  | .lock w => w.wf
  | .evtSel w => w.wf
  | .evtClr w => w.wf
  | .errcntClr w => w.wf
  | .errInject w => w.wf
  | .predClear w => w.wf
  | .reconvHwmClr w => w.wf
  | .ghostHwmClr w => w.wf
  | .histClr w => w.wf
  | .l1MaintWriteBack w => w.wf
  | .l1MaintEvict w => w.wf
  | .partnerLost port => lt port 24
  | .linkUp port _ _ _ _ => lt port 8
  | .hostCompletion port _ _ _ _ => lt port 8
  | .configurationRequest port req _ _ => lt port 8 && lt req 7
  | .mctpControlMessage medium _ => lt medium 4
  | .secBusyTimeout medium => lt medium 4
  | .sleepExitEnd core => lt core 1024

end Sys2Proof
end

