-- ==== Sys2Proof/Laws/PerInstr.lean ====
section
/-! SUPPORT. Per-command law: the units a well-formed command names exist. -/

namespace Sys2Proof.Laws.Names

set_option Elab.async false

/-- The numbers by which a command names units (cores and group slots, mesh nodes, ports, contexts, queues, domains,
registers), each with how many such units there are. -/
def units : Instr → List (Nat × Nat)
  | .nopInstruction i => [(i.core, 1024), (i.slot, 32)]
  | .mov i => [(i.core, 1024), (i.slot, 32)]
  | .movSv i => [(i.core, 1024), (i.slot, 32)]
  | .sel i => [(i.core, 1024), (i.slot, 32)]
  | .add i => [(i.core, 1024), (i.slot, 32)]
  | .sub i => [(i.core, 1024), (i.slot, 32)]
  | .mul i => [(i.core, 1024), (i.slot, 32)]
  | .mulhi i => [(i.core, 1024), (i.slot, 32)]
  | .fma i => [(i.core, 1024), (i.slot, 32)]
  | .min i => [(i.core, 1024), (i.slot, 32)]
  | .max i => [(i.core, 1024), (i.slot, 32)]
  | .abs i => [(i.core, 1024), (i.slot, 32)]
  | .neg i => [(i.core, 1024), (i.slot, 32)]
  | .and i => [(i.core, 1024), (i.slot, 32)]
  | .or i => [(i.core, 1024), (i.slot, 32)]
  | .xor i => [(i.core, 1024), (i.slot, 32)]
  | .not i => [(i.core, 1024), (i.slot, 32)]
  | .shl i => [(i.core, 1024), (i.slot, 32)]
  | .shr i => [(i.core, 1024), (i.slot, 32)]
  | .sar i => [(i.core, 1024), (i.slot, 32)]
  | .popc i => [(i.core, 1024), (i.slot, 32)]
  | .clz i => [(i.core, 1024), (i.slot, 32)]
  | .brev i => [(i.core, 1024), (i.slot, 32)]
  | .cmp i => [(i.core, 1024), (i.slot, 32)]
  | .cvt i => [(i.core, 1024), (i.slot, 32)]
  | .shfl i => [(i.core, 1024), (i.slot, 32)]
  | .vote i => [(i.core, 1024), (i.slot, 32)]
  | .mand i => [(i.core, 1024), (i.slot, 32)]
  | .mor i => [(i.core, 1024), (i.slot, 32)]
  | .mxor i => [(i.core, 1024), (i.slot, 32)]
  | .mnot i => [(i.core, 1024), (i.slot, 32)]
  | .movPm i => [(i.core, 1024), (i.slot, 32)]
  | .movMp i => [(i.core, 1024), (i.slot, 32)]
  | .popcM i => [(i.core, 1024), (i.slot, 32)]
  | .ld i => [(i.core, 1024), (i.slot, 32)]
  | .st i => [(i.core, 1024), (i.slot, 32)]
  | .ldSp i => [(i.core, 1024), (i.slot, 32)]
  | .stSp i => [(i.core, 1024), (i.slot, 32)]
  | .ldShelf i => [(i.core, 1024), (i.slot, 32)]
  | .stShelf i => [(i.core, 1024), (i.slot, 32)]
  | .ldConst i => [(i.core, 1024), (i.slot, 32)]
  | .atomAdd i => [(i.core, 1024), (i.slot, 32)]
  | .atomMin i => [(i.core, 1024), (i.slot, 32)]
  | .atomMax i => [(i.core, 1024), (i.slot, 32)]
  | .atomAnd i => [(i.core, 1024), (i.slot, 32)]
  | .atomOr i => [(i.core, 1024), (i.slot, 32)]
  | .atomXor i => [(i.core, 1024), (i.slot, 32)]
  | .atomXchg i => [(i.core, 1024), (i.slot, 32)]
  | .atomCas i => [(i.core, 1024), (i.slot, 32)]
  | .atomWes i => [(i.core, 1024), (i.slot, 32)]
  | .fence i => [(i.core, 1024), (i.slot, 32)]
  | .invRo i => [(i.core, 1024), (i.slot, 32)]
  | .mxBegin i => [(i.core, 1024), (i.slot, 32)]
  | .mxEnd i => [(i.core, 1024), (i.slot, 32)]
  | .mma i => [(i.core, 1024), (i.slot, 32)]
  | .mxDrain i => [(i.core, 1024), (i.slot, 32)]
  | .mxZero i => [(i.core, 1024), (i.slot, 32)]
  | .mxSave i => [(i.core, 1024), (i.slot, 32)]
  | .mxLoad i => [(i.core, 1024), (i.slot, 32)]
  | .mxExecuteEnd core => [(core, 1024)]
  | .elRun i => [(i.core, 1024), (i.slot, 32)]
  | .elCompress i => [(i.core, 1024), (i.slot, 32)]
  | .elExpand i => [(i.core, 1024), (i.slot, 32)]
  | .elReduce i => [(i.core, 1024), (i.slot, 32)]
  | .elLut i => [(i.core, 1024), (i.slot, 32)]
  | .elWait i => [(i.core, 1024), (i.slot, 32)]
  | .elFinish core => [(core, 1024)]
  | .bra i => [(i.core, 1024), (i.slot, 32)]
  | .brx i => [(i.core, 1024), (i.slot, 32)]
  | .call i => [(i.core, 1024), (i.slot, 32)]
  | .ret i => [(i.core, 1024), (i.slot, 32)]
  | .exit i => [(i.core, 1024), (i.slot, 32)]
  | .barBlk i => [(i.core, 1024), (i.slot, 32)]
  | .waitLand i => [(i.core, 1024), (i.slot, 32)]
  | .sleepHint i => [(i.core, 1024), (i.slot, 32)]
  | .brk i => [(i.core, 1024), (i.slot, 32)]
  | .blockStart core => [(core, 1024)]
  | .splitChange core => [(core, 1024)]
  | .sectorFill core sector => [(core, 1024), (sector, 2 ^ 47)]
  | .replayQueueServe core => [(core, 1024)]
  | .getS m => [(m.dst, 4096), (m.src, 4096)]
  | .getM m => [(m.dst, 4096), (m.src, 4096)]
  | .upg m => [(m.dst, 4096), (m.src, 4096)]
  | .putM m => [(m.dst, 4096), (m.src, 4096)]
  | .putO m => [(m.dst, 4096), (m.src, 4096)]
  | .putE m => [(m.dst, 4096), (m.src, 4096)]
  | .putS m => [(m.dst, 4096), (m.src, 4096)]
  | .snoopRd m => [(m.dst, 4096), (m.src, 4096)]
  | .atomFar m => [(m.dst, 4096), (m.src, 4096)]
  | .fwdGetS m => [(m.dst, 4096), (m.src, 4096)]
  | .fwdGetM m => [(m.dst, 4096), (m.src, 4096)]
  | .inv m => [(m.dst, 4096), (m.src, 4096)]
  | .data m => [(m.dst, 4096), (m.src, 4096)]
  | .dataExcl m => [(m.dst, 4096), (m.src, 4096)]
  | .invAck m => [(m.dst, 4096), (m.src, 4096)]
  | .putAck m => [(m.dst, 4096), (m.src, 4096)]
  | .nack m => [(m.dst, 4096), (m.src, 4096)]
  | .nackResend node txn => [(node, 2 ^ 12), (txn, 256)]
  | .atomResp m => [(m.dst, 4096), (m.src, 4096)]
  | .memoryData slice line => [(slice, 512), (line, 2 ^ 45)]
  | .ebbAction slice line => [(slice, 512), (line, 2 ^ 45)]
  | .ueRetry ch _ outcome => [(ch, 1024), (outcome, 3)]
  | .scrubRead ch outcome => [(ch, 1024), (outcome, 4)]
  | .clearingEnd ch => [(ch, 1024)]
  | .walk core va => [(core, 1024), (va, 2 ^ 64)]
  | .atsInvalidateRequest port cove _ _ => [(port, 8), (cove, 64)]
  | .expanderLinkFailure slot => [(slot, 6)]
  | .occUpdates _ => []
  | .syncResend router => [(router, 2 ^ 12)]
  | .entryIssue _ => []
  | .sealCheck _ _ => []
  | .landing core slot => [(core, 1024), (slot, 256)]
  | .redAllocation _ _ => []
  | .chunkCombine _ _ router chunk => [(router, 2 ^ 12), (chunk, 2 ^ 16)]
  | .syncSend => []
  | .holdover => []
  | .unaligned => []
  | .startCheckSend slot => [(slot, 8)]
  | .epochReached slot => [(slot, 8)]
  | .holdBoundary slot => [(slot, 8)]
  | .resumeTick slot => [(slot, 8)]
  | .tideStall core slot => [(core, 1024), (slot, 256)]
  | .creditStall slot table => [(slot, 8), (table, 256)]
  | .redStall _ => []
  | .credit owner core slot => [(owner, 2 ^ 12), (core, 1024), (slot, 256)]
  | .linkCopy slot table => [(slot, 8), (table, 256)]
  | .linkRed slot table => [(slot, 8), (table, 256)]
  | .netred slot table => [(slot, 8), (table, 256)]
  | .linkMark slot table => [(slot, 8), (table, 256)]
  | .frame port _ => [(port, 24)]
  | .replayTimeout port => [(port, 24)]
  | .recover port _ => [(port, 24)]
  | .detect port _ => [(port, 24)]
  | .noCable port => [(port, 24)]
  | .equalize port => [(port, 24)]
  | .align port _ => [(port, 24)]
  | .identify port _ => [(port, 24)]
  | .latency port _ _ => [(port, 24)]
  | .trainingLimit port => [(port, 24)]
  | .downRetry port => [(port, 24)]
  | .forceRetrain w => [(w.off, 2 ^ 28)]
  | .land port => [(port, 24)]
  | .mark port => [(port, 24)]
  | .redReady port => [(port, 24)]
  | .redChunk port => [(port, 24)]
  | .peerWrite port => [(port, 24)]
  | .peerAck port => [(port, 24)]
  | .peerWriteWait port => [(port, 24)]
  | .sync port _ => [(port, 24)]
  | .hold port => [(port, 24)]
  | .abort port => [(port, 24)]
  | .startCheck port => [(port, 24)]
  | .doorbell _ off _ _ => [(off, 2 ^ 28)]
  | .sqFetch ctx q => [(ctx, 4096), (q, 4)]
  | .queueEnable w => [(w.off, 2 ^ 28)]
  | .queueResume w => [(w.off, 2 ^ 28)]
  | .nop ctx q idx => [(ctx, 4096), (q, 4), (idx, 65536)]
  | .launch ctx q idx => [(ctx, 4096), (q, 4), (idx, 65536)]
  | .copy ctx q idx => [(ctx, 4096), (q, 4), (idx, 65536)]
  | .fill ctx q idx => [(ctx, 4096), (q, 4), (idx, 65536)]
  | .peerCopy ctx q idx => [(ctx, 4096), (q, 4), (idx, 65536)]
  | .spindleStream ctx q idx => [(ctx, 4096), (q, 4), (idx, 65536)]
  | .reduce ctx q idx => [(ctx, 4096), (q, 4), (idx, 65536)]
  | .torusReduce ctx q idx => [(ctx, 4096), (q, 4), (idx, 65536)]
  | .shelfCarve ctx q idx => [(ctx, 4096), (q, 4), (idx, 65536)]
  | .moor ctx q idx => [(ctx, 4096), (q, 4), (idx, 65536)]
  | .unmoor ctx q idx => [(ctx, 4096), (q, 4), (idx, 65536)]
  | .ebb ctx q idx => [(ctx, 4096), (q, 4), (idx, 65536)]
  | .xlateInval ctx q idx => [(ctx, 4096), (q, 4), (idx, 65536)]
  | .commonsLoad ctx q idx => [(ctx, 4096), (q, 4), (idx, 65536)]
  | .commonsRepair ctx q idx => [(ctx, 4096), (q, 4), (idx, 65536)]
  | .tideLoad ctx q idx => [(ctx, 4096), (q, 4), (idx, 65536)]
  | .tideStart ctx q idx => [(ctx, 4096), (q, 4), (idx, 65536)]
  | .tideHold ctx q idx => [(ctx, 4096), (q, 4), (idx, 65536)]
  | .tideResume ctx q idx => [(ctx, 4096), (q, 4), (idx, 65536)]
  | .tideAbort ctx q idx => [(ctx, 4096), (q, 4), (idx, 65536)]
  | .semSignal ctx q idx => [(ctx, 4096), (q, 4), (idx, 65536)]
  | .semWait ctx q idx => [(ctx, 4096), (q, 4), (idx, 65536)]
  | .semWaitTimeout ctx q idx => [(ctx, 4096), (q, 4), (idx, 65536)]
  | .semPoll ctx q idx => [(ctx, 4096), (q, 4), (idx, 65536)]
  | .cxlSnoop port line => [(port, 8), (line, 2 ^ 45)]
  | .hint ctx q idx => [(ctx, 4096), (q, 4), (idx, 65536)]
  | .distances ctx q idx => [(ctx, 4096), (q, 4), (idx, 65536)]
  | .coalUs ctx q => [(ctx, 4096), (q, 4)]
  | .vectorUnmask _ _ => []
  | .bar4Read port _ _ _ rid => [(port, 8), (rid, 65536)]
  | .bar4Write port _ _ _ rid => [(port, 8), (rid, 65536)]
  | .bar4AtomicOp port _ _ _ _ _ _ rid => [(port, 8), (rid, 65536)]
  | .hostLinkDown port => [(port, 8)]
  | .functionLevelReset vf => [(vf, 64)]
  | .coveCreate w => [(w.off, 2 ^ 28)]
  | .coveReset w => [(w.off, 2 ^ 28)]
  | .coveDestroy w => [(w.off, 2 ^ 28)]
  | .coveCoresWrite w => [(w.off, 2 ^ 28)]
  | .coreLeave core => [(core, 1024)]
  | .alloc w => [(w.off, 2 ^ 28)]
  | .free w => [(w.off, 2 ^ 28)]
  | .preempt w => [(w.off, 2 ^ 28)]
  | .resume w => [(w.off, 2 ^ 28)]
  | .endCommand w => [(w.off, 2 ^ 28)]
  | .quantumBoundary cove _ _ => [(cove, 64)]
  | .saveEnd ctx => [(ctx, 4096)]
  | .restore ctx _ _ => [(ctx, 4096)]
  | .horizon ctx => [(ctx, 4096)]
  | .slowdownInterval _ => []
  | .pmbusPoll _ _ _ => []
  | .powerMs => []
  | .clockChange => []
  | .droop island => [(island, 97)]
  | .droopEnd island _ => [(island, 97)]
  | .swellEnd => []
  | .pwrCapWrite w => [(w.off, 2 ^ 28)]
  | .peakClr w => [(w.off, 2 ^ 28)]
  | .sleepEntry core _ => [(core, 1024)]
  | .wake core => [(core, 1024)]
  | .prewake core => [(core, 1024)]
  | .thermal die _ => [(die, 96)]
  | .vinShutdown => []
  | .bucketLeak cls inst => [(cls, 7), (inst, 2 ^ 32)]
  | .d2dFlit group _ _ => [(group, 2 ^ 32)]
  | .d2dRetrain group _ => [(group, 2 ^ 32)]
  | .primaryRewrite _ _ => []
  | .commonsCompare _ _ _ _ => []
  | .powerOn => []
  | .perst port => [(port, 8)]
  | .watchdog => []
  | .stageEnd _ => []
  | .stageLimit _ => []
  | .reset medium _ _ => [(medium, 4)]
  | .getChallenge medium _ => [(medium, 4)]
  | .submitToken medium _ => [(medium, 4)]
  | .submitPassword medium _ => [(medium, 4)]
  | .getStage medium _ => [(medium, 4)]
  | .dbgAuth _ => []
  | .extest => []
  | .testLogicReset => []
  | .getVersion _ => []
  | .getCapabilities _ => []
  | .negotiateAlgorithms _ => []
  | .getDigests _ => []
  | .getCertificate _ => []
  | .challenge _ => []
  | .getMeasurements _ _ => []
  | .keyExchange _ _ => []
  | .finish _ => []
  | .heartbeat _ => []
  | .keyUpdate _ => []
  | .endSession _ => []
  | .keyImport _ _ => []
  | .generate w => [(w.off, 2 ^ 28)]
  | .queryDeviceIdentifiers => []
  | .getFirmwareParameters => []
  | .requestUpdate _ => []
  | .passComponentTable => []
  | .updateComponent _ => []
  | .requestFirmwareData _ _ => []
  | .activateFirmware => []
  | .getStatus => []
  | .cancelUpdateComponent => []
  | .cancelUpdate => []
  | .intervalClose => []
  | .closeNow w => [(w.off, 2 ^ 28)]
  | .clearEraseEnd => []
  | .getTidemarkInfo => []
  | .readTidemarkSlot area slot => [(area, 2), (slot, 65536)]
  | .readClearLedger entry => [(entry, 64)]
  | .submitTidemarkClear _ => []
  | .registerWrite w => [(w.off, 2 ^ 28)]
  | .lock w => [(w.off, 2 ^ 28)]
  | .evtSel w => [(w.off, 2 ^ 28)]
  | .evtClr w => [(w.off, 2 ^ 28)]
  | .errcntClr w => [(w.off, 2 ^ 28)]
  | .errInject w => [(w.off, 2 ^ 28)]
  | .predClear w => [(w.off, 2 ^ 28)]
  | .reconvHwmClr w => [(w.off, 2 ^ 28)]
  | .ghostHwmClr w => [(w.off, 2 ^ 28)]
  | .histClr w => [(w.off, 2 ^ 28)]
  | .l1MaintWriteBack w => [(w.off, 2 ^ 28)]
  | .l1MaintEvict w => [(w.off, 2 ^ 28)]
  | .partnerLost port => [(port, 24)]
  | .linkUp port _ _ _ _ => [(port, 8)]
  | .hostCompletion port _ _ _ _ => [(port, 8)]
  | .configurationRequest port req _ _ => [(port, 8), (req, 7)]
  | .mctpControlMessage medium _ => [(medium, 4)]
  | .secBusyTimeout medium => [(medium, 4)]
  | .sleepExitEnd core => [(core, 1024)]

/-- The units that a well-formed command names exist. -/
def Statement (i : Instr) : Prop := i.wf = true → ∀ p ∈ units i, p.1 < p.2

/-! One lemma per shape of operands. -/

theorem unit0 (x0 : IWord) : (x0.wf) = true → ∀ p ∈ ([(x0.core, 1024), (x0.slot, 32)] : List (Nat × Nat)), p.1 < p.2 := by
  simp +contextual [IWord.wf, lt]
theorem unit1 (x0 : Nat) : (lt x0 1024) = true → ∀ p ∈ ([(x0, 1024)] : List (Nat × Nat)), p.1 < p.2 := by
  simp +contextual [lt]
theorem unit2 (x0 : Nat) (x1 : Nat) : (lt x0 1024 && lt x1 (2 ^ 47)) = true → ∀ p ∈ ([(x0, 1024), (x1, 2 ^ 47)] : List (Nat × Nat)), p.1 < p.2 := by
  simp +contextual [lt]
theorem unit3 (x0 : Msg) : (x0.wf) = true → ∀ p ∈ ([(x0.dst, 4096), (x0.src, 4096)] : List (Nat × Nat)), p.1 < p.2 := by
  simp +contextual [Msg.wf, lt]
theorem unit4 (x0 : Nat) (x1 : Nat) : (lt x0 (2 ^ 12) && lt x1 256) = true → ∀ p ∈ ([(x0, 2 ^ 12), (x1, 256)] : List (Nat × Nat)), p.1 < p.2 := by
  simp +contextual [lt]
theorem unit5 (x0 : Nat) (x1 : Nat) : (lt x0 512 && lt x1 (2 ^ 45)) = true → ∀ p ∈ ([(x0, 512), (x1, 2 ^ 45)] : List (Nat × Nat)), p.1 < p.2 := by
  simp +contextual [lt]
theorem unit6 (x0 : Nat) (x1 : Nat) : (lt x0 1024 && lt x1 3) = true → ∀ p ∈ ([(x0, 1024), (x1, 3)] : List (Nat × Nat)), p.1 < p.2 := by
  simp +contextual [lt]
theorem unit7 (x0 : Nat) (x1 : Nat) : (lt x0 1024 && lt x1 4) = true → ∀ p ∈ ([(x0, 1024), (x1, 4)] : List (Nat × Nat)), p.1 < p.2 := by
  simp +contextual [lt]
theorem unit8 (x0 : Nat) (x1 : Nat) : (lt x0 1024 && lt x1 (2 ^ 64)) = true → ∀ p ∈ ([(x0, 1024), (x1, 2 ^ 64)] : List (Nat × Nat)), p.1 < p.2 := by
  simp +contextual [lt]
theorem unit9 (x0 : Nat) (x1 : Nat) : (lt x0 8 && lt x1 64) = true → ∀ p ∈ ([(x0, 8), (x1, 64)] : List (Nat × Nat)), p.1 < p.2 := by
  simp +contextual [lt]
theorem unit10 (x0 : Nat) : (lt x0 6) = true → ∀ p ∈ ([(x0, 6)] : List (Nat × Nat)), p.1 < p.2 := by
  simp +contextual [lt]
theorem unit11 : (true) = true → ∀ p ∈ ([] : List (Nat × Nat)), p.1 < p.2 := fun _ _ h => nomatch h
theorem unit12 (x0 : Nat) : (lt x0 (2 ^ 12)) = true → ∀ p ∈ ([(x0, 2 ^ 12)] : List (Nat × Nat)), p.1 < p.2 := by
  simp +contextual [lt]
theorem unit13 (x0 : Machine.Src) : (srcWf x0) = true → ∀ p ∈ ([] : List (Nat × Nat)), p.1 < p.2 := fun _ _ h => nomatch h
theorem unit14 (x0 : Nat) (x1 : Nat) : (lt x0 1024 && lt x1 256) = true → ∀ p ∈ ([(x0, 1024), (x1, 256)] : List (Nat × Nat)), p.1 < p.2 := by
  simp +contextual [lt]
theorem unit15 (x0 : Machine.Src) (x1 : Nat) (x2 : Nat) : (srcWf x0 && lt x1 (2 ^ 12) && lt x2 (2 ^ 16)) = true → ∀ p ∈ ([(x1, 2 ^ 12), (x2, 2 ^ 16)] : List (Nat × Nat)), p.1 < p.2 := by
  simp +contextual [lt]
theorem unit16 (x0 : Nat) : (lt x0 8) = true → ∀ p ∈ ([(x0, 8)] : List (Nat × Nat)), p.1 < p.2 := by
  simp +contextual [lt]
theorem unit17 (x0 : Nat) (x1 : Nat) : (lt x0 8 && lt x1 256) = true → ∀ p ∈ ([(x0, 8), (x1, 256)] : List (Nat × Nat)), p.1 < p.2 := by
  simp +contextual [lt]
theorem unit18 (x0 : Nat) (x1 : Nat) (x2 : Nat) : (lt x0 (2 ^ 12) && lt x1 1024 && lt x2 256) = true → ∀ p ∈ ([(x0, 2 ^ 12), (x1, 1024), (x2, 256)] : List (Nat × Nat)), p.1 < p.2 := by
  simp +contextual [lt]
theorem unit19 (x0 : Nat) : (lt x0 24) = true → ∀ p ∈ ([(x0, 24)] : List (Nat × Nat)), p.1 < p.2 := by
  simp +contextual [lt]
theorem unit20 (x0 : Nat) (x1 : Cable) : (lt x0 24 && x1.wf) = true → ∀ p ∈ ([(x0, 24)] : List (Nat × Nat)), p.1 < p.2 := by
  simp +contextual [lt]
theorem unit21 (x0 : Nat) (x1 : Ident) : (lt x0 24 && x1.wf) = true → ∀ p ∈ ([(x0, 24)] : List (Nat × Nat)), p.1 < p.2 := by
  simp +contextual [lt]
theorem unit22 (x0 : RegW) : (x0.wf) = true → ∀ p ∈ ([(x0.off, 2 ^ 28)] : List (Nat × Nat)), p.1 < p.2 := by
  simp +contextual [RegW.wf, lt]
theorem unit23 (x0 : (Option Nat)) (x1 : Nat) (x2 : Nat) (x3 : Nat) : (vfWf x0 && lt x1 (2 ^ 28) && decide (1 ≤ x2) && decide (x2 ≤ 512) && lt x3 (256 ^ x2)) = true → ∀ p ∈ ([(x1, 2 ^ 28)] : List (Nat × Nat)), p.1 < p.2 := by
  simp +contextual [lt]
theorem unit24 (x0 : Nat) (x1 : Nat) : (lt x0 4096 && lt x1 4) = true → ∀ p ∈ ([(x0, 4096), (x1, 4)] : List (Nat × Nat)), p.1 < p.2 := by
  simp +contextual [lt]
theorem unit25 (x0 : Nat) (x1 : Nat) (x2 : Nat) : (lt x0 4096 && lt x1 4 && lt x2 65536) = true → ∀ p ∈ ([(x0, 4096), (x1, 4), (x2, 65536)] : List (Nat × Nat)), p.1 < p.2 := by
  simp +contextual [lt]
theorem unit26 (x0 : Nat) (x1 : Nat) : (lt x0 8 && lt x1 (2 ^ 45)) = true → ∀ p ∈ ([(x0, 8), (x1, 2 ^ 45)] : List (Nat × Nat)), p.1 < p.2 := by
  simp +contextual [lt]
theorem unit27 (x0 : (Option Nat)) : (vfWf x0) = true → ∀ p ∈ ([] : List (Nat × Nat)), p.1 < p.2 := fun _ _ h => nomatch h
theorem unit28 (x0 : Nat) (x1 : (Option Nat)) (x2 : Nat) : (lt x0 8 && vfWf x1 && lt x2 65536) = true → ∀ p ∈ ([(x0, 8), (x2, 65536)] : List (Nat × Nat)), p.1 < p.2 := by
  simp +contextual [lt]
theorem unit29 (x0 : Nat) (x1 : (Option Nat)) (x2 : Nat) (x3 : Nat) : (lt x0 8 && vfWf x1 && [4, 8, 16].contains x2 && lt x3 65536) = true → ∀ p ∈ ([(x0, 8), (x3, 65536)] : List (Nat × Nat)), p.1 < p.2 := by
  simp +contextual [lt]
theorem unit30 (x0 : Nat) : (lt x0 64) = true → ∀ p ∈ ([(x0, 64)] : List (Nat × Nat)), p.1 < p.2 := by
  simp +contextual [lt]
theorem unit31 (x0 : Nat) (x1 : (List Charge)) : (lt x0 64 && x1.all Charge.wf) = true → ∀ p ∈ ([(x0, 64)] : List (Nat × Nat)), p.1 < p.2 := by
  simp +contextual [lt]
theorem unit32 (x0 : Nat) : (lt x0 4096) = true → ∀ p ∈ ([(x0, 4096)] : List (Nat × Nat)), p.1 < p.2 := by
  simp +contextual [lt]
theorem unit33 (x0 : (List Slow)) : (x0.all Slow.wf) = true → ∀ p ∈ ([] : List (Nat × Nat)), p.1 < p.2 := fun _ _ h => nomatch h
theorem unit34 (x0 : (List (Option Nat))) : (x0.length == 8) = true → ∀ p ∈ ([] : List (Nat × Nat)), p.1 < p.2 := fun _ _ h => nomatch h
theorem unit35 (x0 : Nat) : (lt x0 97) = true → ∀ p ∈ ([(x0, 97)] : List (Nat × Nat)), p.1 < p.2 := by
  simp +contextual [lt]
theorem unit36 (x0 : Nat) : (lt x0 96) = true → ∀ p ∈ ([(x0, 96)] : List (Nat × Nat)), p.1 < p.2 := by
  simp +contextual [lt]
theorem unit37 (x0 : Nat) (x1 : Nat) : (lt x0 7 && lt x1 (2 ^ 32)) = true → ∀ p ∈ ([(x0, 7), (x1, 2 ^ 32)] : List (Nat × Nat)), p.1 < p.2 := by
  simp +contextual [lt]
theorem unit38 (x0 : Nat) : (lt x0 (2 ^ 32)) = true → ∀ p ∈ ([(x0, 2 ^ 32)] : List (Nat × Nat)), p.1 < p.2 := by
  simp +contextual [lt]
theorem unit39 (x0 : StageIn) : (x0.wf) = true → ∀ p ∈ ([] : List (Nat × Nat)), p.1 < p.2 := fun _ _ h => nomatch h
theorem unit40 (x0 : Nat) : (lt x0 4) = true → ∀ p ∈ ([(x0, 4)] : List (Nat × Nat)), p.1 < p.2 := by
  simp +contextual [lt]
theorem unit41 (x0 : Machine.Slot) : (slotWf x0) = true → ∀ p ∈ ([] : List (Nat × Nat)), p.1 < p.2 := fun _ _ h => nomatch h
theorem unit42 (x0 : Nat) (x1 : Nat) : (lt x0 2 && lt x1 65536) = true → ∀ p ∈ ([(x0, 2), (x1, 65536)] : List (Nat × Nat)), p.1 < p.2 := by
  simp +contextual [lt]
theorem unit43 (x0 : Nat) (x1 : Nat) : (lt x0 8 && lt x1 7) = true → ∀ p ∈ ([(x0, 8), (x1, 7)] : List (Nat × Nat)), p.1 < p.2 := by
  simp +contextual [lt]

theorem nopInstruction : ∀ a0, Statement (.nopInstruction a0) := fun a0 => unit0 a0
theorem mov : ∀ a0, Statement (.mov a0) := fun a0 => unit0 a0
theorem movSv : ∀ a0, Statement (.movSv a0) := fun a0 => unit0 a0
theorem sel : ∀ a0, Statement (.sel a0) := fun a0 => unit0 a0
theorem add : ∀ a0, Statement (.add a0) := fun a0 => unit0 a0
theorem sub : ∀ a0, Statement (.sub a0) := fun a0 => unit0 a0
theorem mul : ∀ a0, Statement (.mul a0) := fun a0 => unit0 a0
theorem mulhi : ∀ a0, Statement (.mulhi a0) := fun a0 => unit0 a0
theorem fma : ∀ a0, Statement (.fma a0) := fun a0 => unit0 a0
theorem min : ∀ a0, Statement (.min a0) := fun a0 => unit0 a0
theorem max : ∀ a0, Statement (.max a0) := fun a0 => unit0 a0
theorem abs : ∀ a0, Statement (.abs a0) := fun a0 => unit0 a0
theorem neg : ∀ a0, Statement (.neg a0) := fun a0 => unit0 a0
theorem and : ∀ a0, Statement (.and a0) := fun a0 => unit0 a0
theorem or : ∀ a0, Statement (.or a0) := fun a0 => unit0 a0
theorem xor : ∀ a0, Statement (.xor a0) := fun a0 => unit0 a0
theorem not : ∀ a0, Statement (.not a0) := fun a0 => unit0 a0
theorem shl : ∀ a0, Statement (.shl a0) := fun a0 => unit0 a0
theorem shr : ∀ a0, Statement (.shr a0) := fun a0 => unit0 a0
theorem sar : ∀ a0, Statement (.sar a0) := fun a0 => unit0 a0
theorem popc : ∀ a0, Statement (.popc a0) := fun a0 => unit0 a0
theorem clz : ∀ a0, Statement (.clz a0) := fun a0 => unit0 a0
theorem brev : ∀ a0, Statement (.brev a0) := fun a0 => unit0 a0
theorem cmp : ∀ a0, Statement (.cmp a0) := fun a0 => unit0 a0
theorem cvt : ∀ a0, Statement (.cvt a0) := fun a0 => unit0 a0
theorem shfl : ∀ a0, Statement (.shfl a0) := fun a0 => unit0 a0
theorem vote : ∀ a0, Statement (.vote a0) := fun a0 => unit0 a0
theorem mand : ∀ a0, Statement (.mand a0) := fun a0 => unit0 a0
theorem mor : ∀ a0, Statement (.mor a0) := fun a0 => unit0 a0
theorem mxor : ∀ a0, Statement (.mxor a0) := fun a0 => unit0 a0
theorem mnot : ∀ a0, Statement (.mnot a0) := fun a0 => unit0 a0
theorem movPm : ∀ a0, Statement (.movPm a0) := fun a0 => unit0 a0
theorem movMp : ∀ a0, Statement (.movMp a0) := fun a0 => unit0 a0
theorem popcM : ∀ a0, Statement (.popcM a0) := fun a0 => unit0 a0
theorem ld : ∀ a0, Statement (.ld a0) := fun a0 => unit0 a0
theorem st : ∀ a0, Statement (.st a0) := fun a0 => unit0 a0
theorem ldSp : ∀ a0, Statement (.ldSp a0) := fun a0 => unit0 a0
theorem stSp : ∀ a0, Statement (.stSp a0) := fun a0 => unit0 a0
theorem ldShelf : ∀ a0, Statement (.ldShelf a0) := fun a0 => unit0 a0
theorem stShelf : ∀ a0, Statement (.stShelf a0) := fun a0 => unit0 a0
theorem ldConst : ∀ a0, Statement (.ldConst a0) := fun a0 => unit0 a0
theorem atomAdd : ∀ a0, Statement (.atomAdd a0) := fun a0 => unit0 a0
theorem atomMin : ∀ a0, Statement (.atomMin a0) := fun a0 => unit0 a0
theorem atomMax : ∀ a0, Statement (.atomMax a0) := fun a0 => unit0 a0
theorem atomAnd : ∀ a0, Statement (.atomAnd a0) := fun a0 => unit0 a0
theorem atomOr : ∀ a0, Statement (.atomOr a0) := fun a0 => unit0 a0
theorem atomXor : ∀ a0, Statement (.atomXor a0) := fun a0 => unit0 a0
theorem atomXchg : ∀ a0, Statement (.atomXchg a0) := fun a0 => unit0 a0
theorem atomCas : ∀ a0, Statement (.atomCas a0) := fun a0 => unit0 a0
theorem atomWes : ∀ a0, Statement (.atomWes a0) := fun a0 => unit0 a0
theorem fence : ∀ a0, Statement (.fence a0) := fun a0 => unit0 a0
theorem invRo : ∀ a0, Statement (.invRo a0) := fun a0 => unit0 a0
theorem mxBegin : ∀ a0, Statement (.mxBegin a0) := fun a0 => unit0 a0
theorem mxEnd : ∀ a0, Statement (.mxEnd a0) := fun a0 => unit0 a0
theorem mma : ∀ a0, Statement (.mma a0) := fun a0 => unit0 a0
theorem mxDrain : ∀ a0, Statement (.mxDrain a0) := fun a0 => unit0 a0
theorem mxZero : ∀ a0, Statement (.mxZero a0) := fun a0 => unit0 a0
theorem mxSave : ∀ a0, Statement (.mxSave a0) := fun a0 => unit0 a0
theorem mxLoad : ∀ a0, Statement (.mxLoad a0) := fun a0 => unit0 a0
theorem mxExecuteEnd : ∀ a0, Statement (.mxExecuteEnd a0) := fun a0 => unit1 a0
theorem elRun : ∀ a0, Statement (.elRun a0) := fun a0 => unit0 a0
theorem elCompress : ∀ a0, Statement (.elCompress a0) := fun a0 => unit0 a0
theorem elExpand : ∀ a0, Statement (.elExpand a0) := fun a0 => unit0 a0
theorem elReduce : ∀ a0, Statement (.elReduce a0) := fun a0 => unit0 a0
theorem elLut : ∀ a0, Statement (.elLut a0) := fun a0 => unit0 a0
theorem elWait : ∀ a0, Statement (.elWait a0) := fun a0 => unit0 a0
theorem elFinish : ∀ a0, Statement (.elFinish a0) := fun a0 => unit1 a0
theorem bra : ∀ a0, Statement (.bra a0) := fun a0 => unit0 a0
theorem brx : ∀ a0, Statement (.brx a0) := fun a0 => unit0 a0
theorem call : ∀ a0, Statement (.call a0) := fun a0 => unit0 a0
theorem ret : ∀ a0, Statement (.ret a0) := fun a0 => unit0 a0
theorem exit : ∀ a0, Statement (.exit a0) := fun a0 => unit0 a0
theorem barBlk : ∀ a0, Statement (.barBlk a0) := fun a0 => unit0 a0
theorem waitLand : ∀ a0, Statement (.waitLand a0) := fun a0 => unit0 a0
theorem sleepHint : ∀ a0, Statement (.sleepHint a0) := fun a0 => unit0 a0
theorem brk : ∀ a0, Statement (.brk a0) := fun a0 => unit0 a0
theorem blockStart : ∀ a0, Statement (.blockStart a0) := fun a0 => unit1 a0
theorem splitChange : ∀ a0, Statement (.splitChange a0) := fun a0 => unit1 a0
theorem sectorFill : ∀ a0 a1, Statement (.sectorFill a0 a1) := fun a0 a1 => unit2 a0 a1
theorem replayQueueServe : ∀ a0, Statement (.replayQueueServe a0) := fun a0 => unit1 a0
theorem getS : ∀ a0, Statement (.getS a0) := fun a0 => unit3 a0
theorem getM : ∀ a0, Statement (.getM a0) := fun a0 => unit3 a0
theorem upg : ∀ a0, Statement (.upg a0) := fun a0 => unit3 a0
theorem putM : ∀ a0, Statement (.putM a0) := fun a0 => unit3 a0
theorem putO : ∀ a0, Statement (.putO a0) := fun a0 => unit3 a0
theorem putE : ∀ a0, Statement (.putE a0) := fun a0 => unit3 a0
theorem putS : ∀ a0, Statement (.putS a0) := fun a0 => unit3 a0
theorem snoopRd : ∀ a0, Statement (.snoopRd a0) := fun a0 => unit3 a0
theorem atomFar : ∀ a0, Statement (.atomFar a0) := fun a0 => unit3 a0
theorem fwdGetS : ∀ a0, Statement (.fwdGetS a0) := fun a0 => unit3 a0
theorem fwdGetM : ∀ a0, Statement (.fwdGetM a0) := fun a0 => unit3 a0
theorem inv : ∀ a0, Statement (.inv a0) := fun a0 => unit3 a0
theorem data : ∀ a0, Statement (.data a0) := fun a0 => unit3 a0
theorem dataExcl : ∀ a0, Statement (.dataExcl a0) := fun a0 => unit3 a0
theorem invAck : ∀ a0, Statement (.invAck a0) := fun a0 => unit3 a0
theorem putAck : ∀ a0, Statement (.putAck a0) := fun a0 => unit3 a0
theorem nack : ∀ a0, Statement (.nack a0) := fun a0 => unit3 a0
theorem nackResend : ∀ a0 a1, Statement (.nackResend a0 a1) := fun a0 a1 => unit4 a0 a1
theorem atomResp : ∀ a0, Statement (.atomResp a0) := fun a0 => unit3 a0
theorem memoryData : ∀ a0 a1, Statement (.memoryData a0 a1) := fun a0 a1 => unit5 a0 a1
theorem ebbAction : ∀ a0 a1, Statement (.ebbAction a0 a1) := fun a0 a1 => unit5 a0 a1
theorem ueRetry : ∀ a0 _a1 a2, Statement (.ueRetry a0 _a1 a2) := fun a0 _a1 a2 => unit6 a0 a2
theorem scrubRead : ∀ a0 a1, Statement (.scrubRead a0 a1) := fun a0 a1 => unit7 a0 a1
theorem clearingEnd : ∀ a0, Statement (.clearingEnd a0) := fun a0 => unit1 a0
theorem walk : ∀ a0 a1, Statement (.walk a0 a1) := fun a0 a1 => unit8 a0 a1
theorem atsInvalidateRequest : ∀ a0 a1 _a2 _a3, Statement (.atsInvalidateRequest a0 a1 _a2 _a3) := fun a0 a1 _a2 _a3 => unit9 a0 a1
theorem expanderLinkFailure : ∀ a0, Statement (.expanderLinkFailure a0) := fun a0 => unit10 a0
theorem occUpdates : ∀ _a0, Statement (.occUpdates _a0) := fun _a0 => unit11
theorem syncResend : ∀ a0, Statement (.syncResend a0) := fun a0 => unit12 a0
theorem entryIssue : ∀ a0, Statement (.entryIssue a0) := fun a0 => unit13 a0
theorem sealCheck : ∀ a0 _a1, Statement (.sealCheck a0 _a1) := fun a0 _a1 => unit13 a0
theorem landing : ∀ a0 a1, Statement (.landing a0 a1) := fun a0 a1 => unit14 a0 a1
theorem redAllocation : ∀ a0 _a1, Statement (.redAllocation a0 _a1) := fun a0 _a1 => unit13 a0
theorem chunkCombine : ∀ a0 _a1 a2 a3, Statement (.chunkCombine a0 _a1 a2 a3) := fun a0 _a1 a2 a3 => unit15 a0 a2 a3
theorem syncSend : Statement (.syncSend) := unit11
theorem holdover : Statement (.holdover) := unit11
theorem unaligned : Statement (.unaligned) := unit11
theorem startCheckSend : ∀ a0, Statement (.startCheckSend a0) := fun a0 => unit16 a0
theorem epochReached : ∀ a0, Statement (.epochReached a0) := fun a0 => unit16 a0
theorem holdBoundary : ∀ a0, Statement (.holdBoundary a0) := fun a0 => unit16 a0
theorem resumeTick : ∀ a0, Statement (.resumeTick a0) := fun a0 => unit16 a0
theorem tideStall : ∀ a0 a1, Statement (.tideStall a0 a1) := fun a0 a1 => unit14 a0 a1
theorem creditStall : ∀ a0 a1, Statement (.creditStall a0 a1) := fun a0 a1 => unit17 a0 a1
theorem redStall : ∀ a0, Statement (.redStall a0) := fun a0 => unit13 a0
theorem credit : ∀ a0 a1 a2, Statement (.credit a0 a1 a2) := fun a0 a1 a2 => unit18 a0 a1 a2
theorem linkCopy : ∀ a0 a1, Statement (.linkCopy a0 a1) := fun a0 a1 => unit17 a0 a1
theorem linkRed : ∀ a0 a1, Statement (.linkRed a0 a1) := fun a0 a1 => unit17 a0 a1
theorem netred : ∀ a0 a1, Statement (.netred a0 a1) := fun a0 a1 => unit17 a0 a1
theorem linkMark : ∀ a0 a1, Statement (.linkMark a0 a1) := fun a0 a1 => unit17 a0 a1
theorem frame : ∀ a0 _a1, Statement (.frame a0 _a1) := fun a0 _a1 => unit19 a0
theorem replayTimeout : ∀ a0, Statement (.replayTimeout a0) := fun a0 => unit19 a0
theorem recover : ∀ a0 _a1, Statement (.recover a0 _a1) := fun a0 _a1 => unit19 a0
theorem detect : ∀ a0 a1, Statement (.detect a0 a1) := fun a0 a1 => unit20 a0 a1
theorem noCable : ∀ a0, Statement (.noCable a0) := fun a0 => unit19 a0
theorem equalize : ∀ a0, Statement (.equalize a0) := fun a0 => unit19 a0
theorem align : ∀ a0 _a1, Statement (.align a0 _a1) := fun a0 _a1 => unit19 a0
theorem identify : ∀ a0 a1, Statement (.identify a0 a1) := fun a0 a1 => unit21 a0 a1
theorem latency : ∀ a0 _a1 _a2, Statement (.latency a0 _a1 _a2) := fun a0 _a1 _a2 => unit19 a0
theorem trainingLimit : ∀ a0, Statement (.trainingLimit a0) := fun a0 => unit19 a0
theorem downRetry : ∀ a0, Statement (.downRetry a0) := fun a0 => unit19 a0
theorem forceRetrain : ∀ a0, Statement (.forceRetrain a0) := fun a0 => unit22 a0
theorem land : ∀ a0, Statement (.land a0) := fun a0 => unit19 a0
theorem mark : ∀ a0, Statement (.mark a0) := fun a0 => unit19 a0
theorem redReady : ∀ a0, Statement (.redReady a0) := fun a0 => unit19 a0
theorem redChunk : ∀ a0, Statement (.redChunk a0) := fun a0 => unit19 a0
theorem peerWrite : ∀ a0, Statement (.peerWrite a0) := fun a0 => unit19 a0
theorem peerAck : ∀ a0, Statement (.peerAck a0) := fun a0 => unit19 a0
theorem peerWriteWait : ∀ a0, Statement (.peerWriteWait a0) := fun a0 => unit19 a0
theorem sync : ∀ a0 _a1, Statement (.sync a0 _a1) := fun a0 _a1 => unit19 a0
theorem hold : ∀ a0, Statement (.hold a0) := fun a0 => unit19 a0
theorem abort : ∀ a0, Statement (.abort a0) := fun a0 => unit19 a0
theorem startCheck : ∀ a0, Statement (.startCheck a0) := fun a0 => unit19 a0
theorem doorbell : ∀ a0 a1 a2 a3, Statement (.doorbell a0 a1 a2 a3) := fun a0 a1 a2 a3 => unit23 a0 a1 a2 a3
theorem sqFetch : ∀ a0 a1, Statement (.sqFetch a0 a1) := fun a0 a1 => unit24 a0 a1
theorem queueEnable : ∀ a0, Statement (.queueEnable a0) := fun a0 => unit22 a0
theorem queueResume : ∀ a0, Statement (.queueResume a0) := fun a0 => unit22 a0
theorem nop : ∀ a0 a1 a2, Statement (.nop a0 a1 a2) := fun a0 a1 a2 => unit25 a0 a1 a2
theorem launch : ∀ a0 a1 a2, Statement (.launch a0 a1 a2) := fun a0 a1 a2 => unit25 a0 a1 a2
theorem copy : ∀ a0 a1 a2, Statement (.copy a0 a1 a2) := fun a0 a1 a2 => unit25 a0 a1 a2
theorem fill : ∀ a0 a1 a2, Statement (.fill a0 a1 a2) := fun a0 a1 a2 => unit25 a0 a1 a2
theorem peerCopy : ∀ a0 a1 a2, Statement (.peerCopy a0 a1 a2) := fun a0 a1 a2 => unit25 a0 a1 a2
theorem spindleStream : ∀ a0 a1 a2, Statement (.spindleStream a0 a1 a2) := fun a0 a1 a2 => unit25 a0 a1 a2
theorem reduce : ∀ a0 a1 a2, Statement (.reduce a0 a1 a2) := fun a0 a1 a2 => unit25 a0 a1 a2
theorem torusReduce : ∀ a0 a1 a2, Statement (.torusReduce a0 a1 a2) := fun a0 a1 a2 => unit25 a0 a1 a2
theorem shelfCarve : ∀ a0 a1 a2, Statement (.shelfCarve a0 a1 a2) := fun a0 a1 a2 => unit25 a0 a1 a2
theorem moor : ∀ a0 a1 a2, Statement (.moor a0 a1 a2) := fun a0 a1 a2 => unit25 a0 a1 a2
theorem unmoor : ∀ a0 a1 a2, Statement (.unmoor a0 a1 a2) := fun a0 a1 a2 => unit25 a0 a1 a2
theorem ebb : ∀ a0 a1 a2, Statement (.ebb a0 a1 a2) := fun a0 a1 a2 => unit25 a0 a1 a2
theorem xlateInval : ∀ a0 a1 a2, Statement (.xlateInval a0 a1 a2) := fun a0 a1 a2 => unit25 a0 a1 a2
theorem commonsLoad : ∀ a0 a1 a2, Statement (.commonsLoad a0 a1 a2) := fun a0 a1 a2 => unit25 a0 a1 a2
theorem commonsRepair : ∀ a0 a1 a2, Statement (.commonsRepair a0 a1 a2) := fun a0 a1 a2 => unit25 a0 a1 a2
theorem tideLoad : ∀ a0 a1 a2, Statement (.tideLoad a0 a1 a2) := fun a0 a1 a2 => unit25 a0 a1 a2
theorem tideStart : ∀ a0 a1 a2, Statement (.tideStart a0 a1 a2) := fun a0 a1 a2 => unit25 a0 a1 a2
theorem tideHold : ∀ a0 a1 a2, Statement (.tideHold a0 a1 a2) := fun a0 a1 a2 => unit25 a0 a1 a2
theorem tideResume : ∀ a0 a1 a2, Statement (.tideResume a0 a1 a2) := fun a0 a1 a2 => unit25 a0 a1 a2
theorem tideAbort : ∀ a0 a1 a2, Statement (.tideAbort a0 a1 a2) := fun a0 a1 a2 => unit25 a0 a1 a2
theorem semSignal : ∀ a0 a1 a2, Statement (.semSignal a0 a1 a2) := fun a0 a1 a2 => unit25 a0 a1 a2
theorem semWait : ∀ a0 a1 a2, Statement (.semWait a0 a1 a2) := fun a0 a1 a2 => unit25 a0 a1 a2
theorem semWaitTimeout : ∀ a0 a1 a2, Statement (.semWaitTimeout a0 a1 a2) := fun a0 a1 a2 => unit25 a0 a1 a2
theorem semPoll : ∀ a0 a1 a2, Statement (.semPoll a0 a1 a2) := fun a0 a1 a2 => unit25 a0 a1 a2
theorem cxlSnoop : ∀ a0 a1, Statement (.cxlSnoop a0 a1) := fun a0 a1 => unit26 a0 a1
theorem hint : ∀ a0 a1 a2, Statement (.hint a0 a1 a2) := fun a0 a1 a2 => unit25 a0 a1 a2
theorem distances : ∀ a0 a1 a2, Statement (.distances a0 a1 a2) := fun a0 a1 a2 => unit25 a0 a1 a2
theorem coalUs : ∀ a0 a1, Statement (.coalUs a0 a1) := fun a0 a1 => unit24 a0 a1
theorem vectorUnmask : ∀ a0 _a1, Statement (.vectorUnmask a0 _a1) := fun a0 _a1 => unit27 a0
theorem bar4Read : ∀ a0 a1 _a2 _a3 a4, Statement (.bar4Read a0 a1 _a2 _a3 a4) := fun a0 a1 _a2 _a3 a4 => unit28 a0 a1 a4
theorem bar4Write : ∀ a0 a1 _a2 _a3 a4, Statement (.bar4Write a0 a1 _a2 _a3 a4) := fun a0 a1 _a2 _a3 a4 => unit28 a0 a1 a4
theorem bar4AtomicOp : ∀ a0 a1 _a2 _a3 a4 _a5 _a6 a7, Statement (.bar4AtomicOp a0 a1 _a2 _a3 a4 _a5 _a6 a7) := fun a0 a1 _a2 _a3 a4 _a5 _a6 a7 => unit29 a0 a1 a4 a7
theorem hostLinkDown : ∀ a0, Statement (.hostLinkDown a0) := fun a0 => unit16 a0
theorem functionLevelReset : ∀ a0, Statement (.functionLevelReset a0) := fun a0 => unit30 a0
theorem coveCreate : ∀ a0, Statement (.coveCreate a0) := fun a0 => unit22 a0
theorem coveReset : ∀ a0, Statement (.coveReset a0) := fun a0 => unit22 a0
theorem coveDestroy : ∀ a0, Statement (.coveDestroy a0) := fun a0 => unit22 a0
theorem coveCoresWrite : ∀ a0, Statement (.coveCoresWrite a0) := fun a0 => unit22 a0
theorem coreLeave : ∀ a0, Statement (.coreLeave a0) := fun a0 => unit1 a0
theorem alloc : ∀ a0, Statement (.alloc a0) := fun a0 => unit22 a0
theorem free : ∀ a0, Statement (.free a0) := fun a0 => unit22 a0
theorem preempt : ∀ a0, Statement (.preempt a0) := fun a0 => unit22 a0
theorem resume : ∀ a0, Statement (.resume a0) := fun a0 => unit22 a0
theorem endCommand : ∀ a0, Statement (.endCommand a0) := fun a0 => unit22 a0
theorem quantumBoundary : ∀ a0 _a1 a2, Statement (.quantumBoundary a0 _a1 a2) := fun a0 _a1 a2 => unit31 a0 a2
theorem saveEnd : ∀ a0, Statement (.saveEnd a0) := fun a0 => unit32 a0
theorem restore : ∀ a0 _a1 _a2, Statement (.restore a0 _a1 _a2) := fun a0 _a1 _a2 => unit32 a0
theorem horizon : ∀ a0, Statement (.horizon a0) := fun a0 => unit32 a0
theorem slowdownInterval : ∀ a0, Statement (.slowdownInterval a0) := fun a0 => unit33 a0
theorem pmbusPoll : ∀ a0 _a1 _a2, Statement (.pmbusPoll a0 _a1 _a2) := fun a0 _a1 _a2 => unit34 a0
theorem powerMs : Statement (.powerMs) := unit11
theorem clockChange : Statement (.clockChange) := unit11
theorem droop : ∀ a0, Statement (.droop a0) := fun a0 => unit35 a0
theorem droopEnd : ∀ a0 _a1, Statement (.droopEnd a0 _a1) := fun a0 _a1 => unit35 a0
theorem swellEnd : Statement (.swellEnd) := unit11
theorem pwrCapWrite : ∀ a0, Statement (.pwrCapWrite a0) := fun a0 => unit22 a0
theorem peakClr : ∀ a0, Statement (.peakClr a0) := fun a0 => unit22 a0
theorem sleepEntry : ∀ a0 _a1, Statement (.sleepEntry a0 _a1) := fun a0 _a1 => unit1 a0
theorem wake : ∀ a0, Statement (.wake a0) := fun a0 => unit1 a0
theorem prewake : ∀ a0, Statement (.prewake a0) := fun a0 => unit1 a0
theorem thermal : ∀ a0 _a1, Statement (.thermal a0 _a1) := fun a0 _a1 => unit36 a0
theorem vinShutdown : Statement (.vinShutdown) := unit11
theorem bucketLeak : ∀ a0 a1, Statement (.bucketLeak a0 a1) := fun a0 a1 => unit37 a0 a1
theorem d2dFlit : ∀ a0 _a1 _a2, Statement (.d2dFlit a0 _a1 _a2) := fun a0 _a1 _a2 => unit38 a0
theorem d2dRetrain : ∀ a0 _a1, Statement (.d2dRetrain a0 _a1) := fun a0 _a1 => unit38 a0
theorem primaryRewrite : ∀ _a0 _a1, Statement (.primaryRewrite _a0 _a1) := fun _a0 _a1 => unit11
theorem commonsCompare : ∀ _a0 _a1 _a2 _a3, Statement (.commonsCompare _a0 _a1 _a2 _a3) := fun _a0 _a1 _a2 _a3 => unit11
theorem powerOn : Statement (.powerOn) := unit11
theorem perst : ∀ a0, Statement (.perst a0) := fun a0 => unit16 a0
theorem watchdog : Statement (.watchdog) := unit11
theorem stageEnd : ∀ a0, Statement (.stageEnd a0) := fun a0 => unit39 a0
theorem stageLimit : ∀ a0, Statement (.stageLimit a0) := fun a0 => unit39 a0
theorem reset : ∀ a0 _a1 _a2, Statement (.reset a0 _a1 _a2) := fun a0 _a1 _a2 => unit40 a0
theorem getChallenge : ∀ a0 _a1, Statement (.getChallenge a0 _a1) := fun a0 _a1 => unit40 a0
theorem submitToken : ∀ a0 _a1, Statement (.submitToken a0 _a1) := fun a0 _a1 => unit40 a0
theorem submitPassword : ∀ a0 _a1, Statement (.submitPassword a0 _a1) := fun a0 _a1 => unit40 a0
theorem getStage : ∀ a0 _a1, Statement (.getStage a0 _a1) := fun a0 _a1 => unit40 a0
theorem dbgAuth : ∀ _a0, Statement (.dbgAuth _a0) := fun _a0 => unit11
theorem extest : Statement (.extest) := unit11
theorem testLogicReset : Statement (.testLogicReset) := unit11
theorem getVersion : ∀ _a0, Statement (.getVersion _a0) := fun _a0 => unit11
theorem getCapabilities : ∀ _a0, Statement (.getCapabilities _a0) := fun _a0 => unit11
theorem negotiateAlgorithms : ∀ _a0, Statement (.negotiateAlgorithms _a0) := fun _a0 => unit11
theorem getDigests : ∀ _a0, Statement (.getDigests _a0) := fun _a0 => unit11
theorem getCertificate : ∀ _a0, Statement (.getCertificate _a0) := fun _a0 => unit11
theorem challenge : ∀ _a0, Statement (.challenge _a0) := fun _a0 => unit11
theorem getMeasurements : ∀ _a0 _a1, Statement (.getMeasurements _a0 _a1) := fun _a0 _a1 => unit11
theorem keyExchange : ∀ _a0 _a1, Statement (.keyExchange _a0 _a1) := fun _a0 _a1 => unit11
theorem finish : ∀ _a0, Statement (.finish _a0) := fun _a0 => unit11
theorem heartbeat : ∀ _a0, Statement (.heartbeat _a0) := fun _a0 => unit11
theorem keyUpdate : ∀ _a0, Statement (.keyUpdate _a0) := fun _a0 => unit11
theorem endSession : ∀ _a0, Statement (.endSession _a0) := fun _a0 => unit11
theorem keyImport : ∀ _a0 _a1, Statement (.keyImport _a0 _a1) := fun _a0 _a1 => unit11
theorem generate : ∀ a0, Statement (.generate a0) := fun a0 => unit22 a0
theorem queryDeviceIdentifiers : Statement (.queryDeviceIdentifiers) := unit11
theorem getFirmwareParameters : Statement (.getFirmwareParameters) := unit11
theorem requestUpdate : ∀ _a0, Statement (.requestUpdate _a0) := fun _a0 => unit11
theorem passComponentTable : Statement (.passComponentTable) := unit11
theorem updateComponent : ∀ a0, Statement (.updateComponent a0) := fun a0 => unit41 a0
theorem requestFirmwareData : ∀ _a0 _a1, Statement (.requestFirmwareData _a0 _a1) := fun _a0 _a1 => unit11
theorem activateFirmware : Statement (.activateFirmware) := unit11
theorem getStatus : Statement (.getStatus) := unit11
theorem cancelUpdateComponent : Statement (.cancelUpdateComponent) := unit11
theorem cancelUpdate : Statement (.cancelUpdate) := unit11
theorem intervalClose : Statement (.intervalClose) := unit11
theorem closeNow : ∀ a0, Statement (.closeNow a0) := fun a0 => unit22 a0
theorem clearEraseEnd : Statement (.clearEraseEnd) := unit11
theorem getTidemarkInfo : Statement (.getTidemarkInfo) := unit11
theorem readTidemarkSlot : ∀ a0 a1, Statement (.readTidemarkSlot a0 a1) := fun a0 a1 => unit42 a0 a1
theorem readClearLedger : ∀ a0, Statement (.readClearLedger a0) := fun a0 => unit30 a0
theorem submitTidemarkClear : ∀ _a0, Statement (.submitTidemarkClear _a0) := fun _a0 => unit11
theorem registerWrite : ∀ a0, Statement (.registerWrite a0) := fun a0 => unit22 a0
theorem lock : ∀ a0, Statement (.lock a0) := fun a0 => unit22 a0
theorem evtSel : ∀ a0, Statement (.evtSel a0) := fun a0 => unit22 a0
theorem evtClr : ∀ a0, Statement (.evtClr a0) := fun a0 => unit22 a0
theorem errcntClr : ∀ a0, Statement (.errcntClr a0) := fun a0 => unit22 a0
theorem errInject : ∀ a0, Statement (.errInject a0) := fun a0 => unit22 a0
theorem predClear : ∀ a0, Statement (.predClear a0) := fun a0 => unit22 a0
theorem reconvHwmClr : ∀ a0, Statement (.reconvHwmClr a0) := fun a0 => unit22 a0
theorem ghostHwmClr : ∀ a0, Statement (.ghostHwmClr a0) := fun a0 => unit22 a0
theorem histClr : ∀ a0, Statement (.histClr a0) := fun a0 => unit22 a0
theorem l1MaintWriteBack : ∀ a0, Statement (.l1MaintWriteBack a0) := fun a0 => unit22 a0
theorem l1MaintEvict : ∀ a0, Statement (.l1MaintEvict a0) := fun a0 => unit22 a0
theorem partnerLost : ∀ a0, Statement (.partnerLost a0) := fun a0 => unit19 a0
theorem linkUp : ∀ a0 _a1 _a2 _a3 _a4, Statement (.linkUp a0 _a1 _a2 _a3 _a4) := fun a0 _a1 _a2 _a3 _a4 => unit16 a0
theorem hostCompletion : ∀ a0 _a1 _a2 _a3 _a4, Statement (.hostCompletion a0 _a1 _a2 _a3 _a4) := fun a0 _a1 _a2 _a3 _a4 => unit16 a0
theorem configurationRequest : ∀ a0 a1 _a2 _a3, Statement (.configurationRequest a0 a1 _a2 _a3) := fun a0 a1 _a2 _a3 => unit43 a0 a1
theorem mctpControlMessage : ∀ a0 _a1, Statement (.mctpControlMessage a0 _a1) := fun a0 _a1 => unit40 a0
theorem secBusyTimeout : ∀ a0, Statement (.secBusyTimeout a0) := fun a0 => unit40 a0
theorem sleepExitEnd : ∀ a0, Statement (.sleepExitEnd a0) := fun a0 => unit1 a0

end Sys2Proof.Laws.Names
end

