-- ==== Sys2Proof/Laws/Registers.lean ====
section
/-! SUPPORT. Registers of a group after a write of a destination. -/

namespace Sys2Proof.Machine

set_option Elab.async false

theorem Group.rv_wv (g : Group) (r v : Nat) {t r' t' : Nat} (ht : t < 64) (ht' : t' < 64) :
    (g.wv r t v).rv r' t' = if r' = r ∧ t' = t ∧ r ≠ 255 then v % 2 ^ 32 else g.rv r' t' := by
  unfold Group.wv Group.rv
  by_cases h : r = 255
  · simp [h]
  · simp only [h, if_false]
    by_cases hr : r' = 255
    · simp only [hr, if_true]
      rw [if_neg (by omega)]
    · simp only [hr, if_false]
      by_cases hk : r' = r ∧ t' = t
      · obtain ⟨rfl, rfl⟩ := hk
        simp [h]
      · rw [mget_mset_ne _ _ (by omega), if_neg (by omega)]

theorem Group.wv_rest (g : Group) (r t v : Nat) : g.wv r t v = { g with v := (g.wv r t v).v } := by
  unfold Group.wv
  split <;> rfl

theorem Group.wvk_rest (g : Group) (r t v k : Nat) : g.wvk r t v k = { g with v := (g.wvk r t v k).v } := by
  induction k generalizing g r v with
  | zero => rfl
  | succ k ih =>
    unfold Group.wvk
    rw [ih]
    rw [Group.wv_rest]

theorem Group.rv_wvk (g : Group) (r v k : Nat) {t r' t' : Nat} (ht : t < 64) (ht' : t' < 64) :
    (g.wvk r t v k).rv r' t' =
      if t' = t ∧ r ≤ r' ∧ r' < r + k ∧ r' ≠ 255 then v / 2 ^ (32 * (r' - r)) % 2 ^ 32 else g.rv r' t' := by
  induction k generalizing g r v with
  | zero => rw [if_neg (by omega)]; rfl
  | succ k ih =>
    unfold Group.wvk
    rw [ih]
    by_cases h : t' = t ∧ r + 1 ≤ r' ∧ r' < r + 1 + k ∧ r' ≠ 255
    · rw [if_pos h, if_pos (by omega)]
      have : 32 * (r' - r) = 32 + 32 * (r' - (r + 1)) := by omega
      rw [this, Nat.pow_add, Nat.div_div_eq_div_mul]
    · rw [if_neg h, Group.rv_wv _ _ _ ht ht']
      by_cases h2 : r' = r ∧ t' = t ∧ r ≠ 255
      · rw [if_pos h2, if_pos (by omega)]
        simp [h2.1]
      · rw [if_neg h2, if_neg (by omega)]

/-- A fold of register writes over distinct threads. -/
theorem Group.foldl_wvk (l : List Nat) (hl : l.Nodup) (h64 : ∀ t ∈ l, t < 64) (g : Group) (r k : Nat) (val : Nat → Nat) :
    (l.foldl (fun g t => g.wvk r t (val t) k) g) = { g with v := (l.foldl (fun g t => g.wvk r t (val t) k) g).v } ∧
    ∀ r' t', t' < 64 → (l.foldl (fun g t => g.wvk r t (val t) k) g).rv r' t' =
      if t' ∈ l ∧ r ≤ r' ∧ r' < r + k ∧ r' ≠ 255 then val t' / 2 ^ (32 * (r' - r)) % 2 ^ 32 else g.rv r' t' := by
  induction l generalizing g with
  | nil => exact ⟨rfl, fun _ _ _ => by simp⟩
  | cons t l ih =>
    have ⟨hn, hl'⟩ := List.nodup_cons.1 hl
    have ⟨i1, i2⟩ := ih hl' (fun x hx => h64 x (List.mem_cons_of_mem _ hx)) (g.wvk r t (val t) k)
    have ht : t < 64 := h64 t List.mem_cons_self
    refine ⟨?_, fun r' t' ht' => ?_⟩
    · rw [List.foldl_cons, i1, Group.wvk_rest]
    · rw [List.foldl_cons, i2 r' t' ht', Group.rv_wvk _ _ _ _ ht ht']
      by_cases e : t' = t
      · subst e
        simp [hn]
      · simp [e]

theorem maskBits_nodup (m : W64) : (maskBits m).Nodup := List.Nodup.filter _ List.nodup_range
theorem mem_maskBits {m : W64} {t : Nat} : t ∈ maskBits m ↔ t < 64 ∧ m.getLsbD t = true := by simp [maskBits]

theorem Group.rs_ws (g : Group) (r v r' : Nat) : (g.ws r v).rs r' = if r' = r then v % 2 ^ 32 else g.rs r' := by
  unfold Group.ws Group.rs
  split
  · next h => subst h; simp
  · next h => rw [mget_mset_ne _ _ h]

/-- What a result of a type writes in its group. -/
theorem Group.wrote (g : Group) (z : Iss) (f : Fmt) (val : Nat → Nat) (hk : z.i.scalar = true → f.nregs ≤ 2) :
    Wrote g (if z.i.scalar then
      if z.act = 0 then g
      else if f.nregs = 2 then g.ws2 z.i.d (val z.first) else g.ws z.i.d (val z.first)
    else z.threads.foldl (fun g t => g.wvk z.i.d t (val t) f.nregs) g) z f.nregs val := by
  have hn : f.nregs ≠ 0 := by cases f <;> decide
  by_cases hs : z.i.scalar
  · by_cases ha : z.act = 0
    · simp only [hs, if_true, ha]
      exact ⟨rfl, fun r t _ => by simp [hs], fun r => by simp [ha]⟩
    · have h2 := hk hs
      by_cases h : f.nregs = 2
      · simp only [hs, if_true, ha, if_false, h]
        refine ⟨rfl, fun r t _ => by simp [hs, Group.ws2, Group.ws, Group.rv], fun r => ?_⟩
        simp only [Group.ws2, Group.rs_ws, hs, bne_iff_ne, ne_eq, ha, not_false_eq_true, Bool.and_eq_true,
          decide_eq_true_eq, Bool.true_and, true_and]
        by_cases e : r = z.i.d + 1
        · subst e; simp [show z.i.d + 1 < z.i.d + 2 by omega]
        · by_cases e2 : r = z.i.d
          · subst e2; simp
          · rw [if_neg e, if_neg e2, if_neg (by omega)]
      · have h1 : f.nregs = 1 := by omega
        simp only [hs, if_true, ha, if_false, h]
        refine ⟨rfl, fun r t _ => by simp [hs, Group.ws, Group.rv], fun r => ?_⟩
        simp only [Group.rs_ws, hs, bne_iff_ne, ne_eq, ha, not_false_eq_true, Bool.and_eq_true,
          decide_eq_true_eq, Bool.true_and, true_and, h1]
        by_cases e2 : r = z.i.d
        · subst e2; simp
        · rw [if_neg e2, if_neg (by omega)]
  · simp only [hs, Bool.false_eq_true, if_false]
    have ⟨i1, i2⟩ := Group.foldl_wvk z.threads (maskBits_nodup _) (fun t ht => (mem_maskBits.1 ht).1) g
      z.i.d f.nregs val
    refine ⟨?_, fun r t ht => ?_, fun r => ?_⟩
    · rw [i1]
    · rw [i2 r t ht]
      simp [hs, Iss.threads, mem_maskBits, ht, and_assoc]
    · rw [i1]; simp [hs, Group.rs]

theorem State.writeD_wrote (s : State) (z : Iss) (f : Fmt) (val : Nat → Nat) (hk : z.i.scalar = true → f.nregs ≤ 2) :
    ∃ h, s.writeD z f val = s.modGroup z.core z.slot (fun _ => h) ∧ Wrote (s.group z.core z.slot) h z f.nregs val :=
  ⟨_, rfl, Group.wrote (s.group z.core z.slot) z f val hk⟩

theorem Issued.advanced {s u : State} {w : IWord} (h : Issued s u w) (z : Iss) (f : Form) : Issued s (u.advanced w z f) w :=
  h.trans (State.modGroup_issued _ _ _)

/-- What a row of Table 4-5 with a value per thread can do when it issues. -/
theorem State.alu_value (w : IWord) (r : AluRow) (fresh : Bool) (val : Launch → Ins → Fmt → Nat → Nat → Nat → Nat → Nat) (s u : State)
   (h : s.Issues u w (r.code w) (r.form (s.view w).i (r.ty (s.view w).i) (r.ty (s.view w).i) true))
   (hw : (s.view w).i.scalar = true → (r.ty (s.view w).i).nregs ≤ 2) :
   ∃ t, ∃ free : Nat → Nat, s.alu w r (valueMeaning r fresh val) = .next t ∧ Issued u t w ∧
      Wrote ((s.view w).moved (r.form (s.view w).i (r.ty (s.view w).i) (r.ty (s.view w).i) true)) (t.group w.core w.slot) (s.view w) (r.ty (s.view w).i).nregs
        (fun th => val (s.view w).l (s.view w).i (r.ty (s.view w).i) (free th) ((s.view w).opA (r.ty (s.view w).i) th) ((s.view w).opB (r.ty (s.view w).i) th) ((s.view w).opC (r.ty (s.view w).i) th)) := by
  have e := State.issue_next (m := valueMeaning r fresh val) h rfl rfl rfl rfl (State.fetched_group h.fetch)
  set z := s.view w with hz
  set F := r.form z.i (r.ty z.i) (r.ty z.i) true
  set v := u.advanced w z F with hv
  set va : Nat → Nat := fun th => val z.l z.i (r.ty z.i) (Config.freeNat (v.free + th)) (z.opA (r.ty z.i) th) (z.opB (r.ty z.i) th) (z.opC (r.ty z.i) th) with hva
  obtain ⟨g, hg1, hg2⟩ := State.writeD_wrote v z (r.ty z.i) va hw
  have hvg : v.group w.core w.slot = z.moved F := by
    rw [hv, State.advanced, State.group_modGroup]
  have hvi : Issued u v w := Issued.advanced (Issued.refl u w) _ _
  refine ⟨if fresh then { v.writeD z (r.ty z.i) va with free := (v.writeD z (r.ty z.i) va).free + 64 } else v.writeD z (r.ty z.i) va, fun th => Config.freeNat (v.free + th), ?_, ?_, ?_⟩
  · unfold State.alu
    rw [e]; rfl
  · have : Issued u (v.writeD z (r.ty z.i) va) w := by rw [hg1]; exact hvi.trans (State.modGroup_issued _ w _)
    split
    · exact ⟨by rw [this.rest], this.regs, this.others, this.core, this.groups⟩
    · exact this
  · have hh : (v.writeD z (r.ty z.i) va).group w.core w.slot = g := by rw [hg1]; exact State.group_modGroup _ _ _ _
    have hgg : v.group z.core z.slot = z.moved F := hvg
    rw [hgg] at hg2
    split
    · show Wrote _ ((v.writeD z (r.ty z.i) va).group w.core w.slot) _ _ _
      rw [hh]; exact hg2
    · rw [hh]; exact hg2

end Sys2Proof.Machine
end

