-- ==== Sys2Proof/Machine/RegRead.lean ====
section
/-! DEFINITION. What a register reads as (R6, R7, R10, R11, R572 to R582): stored fields, and the views that show the
state of a unit. No command of the table is a register read; this is what the host or the management processor sees. -/

namespace Sys2Proof.Machine

/-- Fields of a register that show state kept elsewhere. -/
abbrev Views := List (Fld × Nat)

def countIf {α : Type} (l : List α) (f : α → Bool) : Nat := (l.filter f).length

/-! ### CORE (Tables 3-10 to 13-20) -/

def State.coreView (s : State) (inst off : Nat) : Views :=
  match s.coreOfPage inst with
  | none => [(R.CORE_MAP_LCORE, 0x7FF), (R.CORE_MAP_COVE, 0), (R.CORE_MAP_COVE_VALID, 0), (R.CORE_MAP_ACTIVE, 0)]
  | some c =>
    let k := s.core c
    let slot := mget {} k.land (s.kfld c R.LAND_SEL_SLOT)
    match off with
    | 0x100 => [(R.CORE_MAP_LCORE, c), (R.CORE_MAP_ACTIVE, 1)]
    | 0x108 => [(R.CORE_STATE_RES_GROUPS, countIf k.groups (fun g => g.2.occupied)), (R.CORE_STATE_RES_BLOCKS, k.blocks.length),
        (R.CORE_STATE_SPLIT, k.split), (R.CORE_STATE_FAULTED, s.kfld c R.FAULT_INFO_VALID), (R.CORE_STATE_SLEEP, min 3 (s.sleepOf c).st)]
    | 0x308 => [(R.MX_STATE_ACC_USED, (k.blocks.map (fun b => b.2.launch.tileTotal)).sum / 1024),
        (R.MX_STATE_OPEN_REGIONS, countIf k.groups (fun g => g.2.occupied && g.2.region.isSome)), (R.MX_STATE_QUEUE, k.mxq.length),
        (R.MX_STATE_BUSY, boolNat (!k.mxq.isEmpty))]
    | 0x408 => [(R.EL_STATE_TABLES, k.elTab.length), (R.EL_STATE_PROGS, k.elBuf.length), (R.EL_STATE_QUEUE, k.elq.length),
        (R.EL_STATE_BUSY, boolNat (!k.elq.isEmpty))]
    | 0x208 => [(R.L1_STATE_VALID_LINES, countIf k.l1 (fun l => stable l.2.st && l.2.st != .i)), (R.L1_STATE_MISS_BUSY, k.miss.length),
        (R.L1_STATE_REPLAY, k.replay.length), (R.L1_STATE_SPLIT_BUSY, boolNat (k.splitBusy || s.leaveBusy c)), (R.L1_STATE_L1_WAYS, 24 - 4 * k.split)]
    | 0x218 => [(R.L1_MAINT_BUSY, boolNat (s.maintBusy c))]
    | 0x210 => [(R.SP_MAP_LAND_SLOTS, k.landCount), (R.SP_MAP_LAND_KIB, up4k (2048 * k.landCount) / 1024),
        (R.SP_MAP_USED_KIB, (k.blocks.map (fun b => b.2.spLen)).sum / 1024)]
    | 0x600 => [(R.LAND_STATE_FULL, countIf k.land (fun x => x.2.st == 2)), (R.LAND_STATE_FILLING, countIf k.land (fun x => x.2.st == 1)),
        (R.LAND_STATE_RESERVED, k.landCount)]
    | 0x610 => [(R.LAND_VIEW_OWNER, slot.owner), (R.LAND_VIEW_QUOTA, slot.quota), (R.LAND_VIEW_READS, slot.reads),
        (R.LAND_VIEW_POISON, boolNat slot.poison), (R.LAND_VIEW_STATE, slot.st), (R.LAND_VIEW_PLAN, slot.plan)]
    | _ => []

/-! ### HOME, SLICE and HBMC (Tables 9-15 to 11-10) -/

def State.homeView (s : State) (h off : Nat) : Views :=
  let y := s.slice h
  match off with
  | 0x108 => [(R.HOME_STATE_CQ_USED, y.queue.length), (R.HOME_STATE_TXN_USED, y.txns.length), (R.HOME_STATE_BUSY, boolNat (!y.txns.isEmpty))]
  | _ => []

def State.sliceView (s : State) (h off : Nat) : Views :=
  let y := s.slice h
  let live := y.lines.filter (fun l => l.2.present)
  let moored := live.filter (fun l => l.2.moored)
  match off with
  | 0x100 => [(R.SLICE_CFG_ROLE, y.role), (R.SLICE_CFG_COVE, y.cove)]
  | 0x108 => [(R.SLICE_STATE_VALID_LINES, live.length), (R.SLICE_STATE_DIRTY_LINES, countIf live (fun l => l.2.dirty != 0))]
  | 0x200 => [(R.SHELF_CARVE_STATE_WINDOW_K, y.windowK), (R.SHELF_CARVE_STATE_WAYS, y.carve)]
  | 0x208 => [(R.MOOR_STATE_MAX_SET, (moored.map (fun l => y.mooredIn l.2.set)).foldl max 0), (R.MOOR_STATE_MOORED_LINES, moored.length)]
  | 0x218 => [(R.GHOST_STATE_HWM, y.ghostHwm), (R.GHOST_STATE_LIVE, y.ghosts.length)]
  | _ => []

def State.hbmcView (s : State) (ch off : Nat) : Views :=
  let x := s.chan ch
  let o : Owner := match x.owner with | 1 => .cove x.cove | 2 => .commons | 3 => .mgmt | _ => .none
  match off with
  | 0x100 => [(R.HBMC_MAP_INDEX, ((s.ownerChans o).findIdx? (fun c => c == ch)).getD 0), (R.HBMC_MAP_MODE, boolNat (s.ownerLocal o)),
      (R.HBMC_MAP_KEY_SLOT, match x.owner with | 1 => x.cove | 2 => 64 | 3 => 65 | _ => 0), (R.HBMC_MAP_COVE, if x.owner = 1 then x.cove else 0),
      (R.HBMC_MAP_OWNER, x.owner), (R.HBMC_MAP_STATE, x.st)]
  | 0x108 => [(R.HBMC_CLEAR_DONE_MIB, x.doneMib), (R.HBMC_CLEAR_BUSY, boolNat x.clearing)]
  | 0x110 => [(R.HBMC_SCRUB_POSITION, x.scrubPos)]
  | _ => []

/-! ### SPINDLE, TIDE and TWP (Tables 12-14 to 14-15) -/

def State.spindleView (s : State) (d off : Nat) : Views :=
  if off = 0x108 then
    let mine := s.ns.streams.filter (fun t => t.kind == 0 && t.target == d)
    [(R.SPN_STATE_POISON_ENTRIES, s.ns.badTiles.length), (R.SPN_STATE_INFLIGHT, s.engineLoad d),
      (R.SPN_STATE_STREAMS, mine.length)]
  else if 0x200 ≤ off then
    match s.ns.badTiles.find? (fun p => p.1 == (off - 0x200) / 8) with
    | some p => [(R.SPN_POISON_n_VALID, 1), (R.SPN_POISON_n_ADDR, p.2)]
    | none => []
  else []

def State.tideView (s : State) (inst off : Nat) : Views :=
  let n := s.ns
  let d := s.dom (inst - 1)
  if inst = 0 then
    match off with
    | 0x100 => [(R.TIDE_NOW_TICK, n.tick)]
    | 0x108 => [(R.TIDE_PHASE_PHASE, n.phase)]
    | 0x110 => [(R.TIDE_ALIGN_OFFSET, ofInt 16 (max (-32767) (min 32767 n.offset))), (R.TIDE_ALIGN_HOPS, n.hops), (R.TIDE_ALIGN_UPSTREAM, n.upstream),
        (R.TIDE_ALIGN_STATE, n.align)]
    | _ => []
  else
    match off with
    | 0x100 => [(R.TD_CFG_DOMAIN_ID, d.domainId), (R.TD_CFG_WAIT_LIMIT, d.waitLimit), (R.TD_CFG_HOLD_LEAD, d.holdLead), (R.TD_CFG_SPN_PLAT, d.spnPlat),
        (R.TD_CFG_WINDOW_LOG2, d.winLog)]
    | 0x108 => [(R.TD_STATE_RANK, d.rank), (R.TD_STATE_CTX, d.ctx), (R.TD_STATE_COVE, d.cove), (R.TD_STATE_STATE, d.st)]
    | 0x110 => [(R.TD_EPOCH_EPOCH, ofInt 64 d.epoch)]
    | 0x118 => [(R.TD_HOLD_VALID, boolNat d.boundary.isSome), (R.TD_HOLD_BOUNDARY, d.boundary.getD 0)]
    | _ => []

/-- ACTIVE ports per direction. -/
def State.activePorts (s : State) : Nat :=
  (List.range 6).foldl (fun v d => v + countIf (List.range 24) (fun p => portSide p == d && (s.port p).st == 6) * 2 ^ (3 * d)) 0

def State.twpView (s : State) (p off : Nat) : Views :=
  let t := s.port p
  if p = 24 then (if off = 0x108 then [(R.TORUS_STATE_RED_BUSY, boolNat s.ns.torus.isSome), (R.TORUS_STATE_ACTIVE, s.activePorts)] else [])
  else
    match off with
    | 0x108 => [(R.TWP_STATE_DOWN_REASON, t.down), (R.TWP_STATE_SPARED, t.spared), (R.TWP_STATE_WIDTH, t.width), (R.TWP_STATE_STATE, t.st)]
    | 0x110 => [(R.TWP_PARTNER_PORT, t.pport), (R.TWP_PARTNER_COORD, t.coord), (R.TWP_PARTNER_SERIAL, t.serial)]
    | 0x118 => [(R.TWP_LAT_LAT_REF, ofInt 16 ((t.lat + 499) / 500)), (R.TWP_LAT_LAT_PS, ofInt 32 t.lat)]
    | 0x120 => [(R.TWP_LANES_MARGIN, t.lanes)]
    | 0x130 =>
      let c := fun (f : Fld) => (f, bits t.cable f.hi f.lo)
      [c R.TWP_CABLE_OUI, c R.TWP_CABLE_LENGTH_DM, c R.TWP_CABLE_MEDIA, c R.TWP_CABLE_POWER_W, (R.TWP_CABLE_PRESENT, boolNat t.hasCable)]
    | _ => []

/-! ### CMDQ, EDGE, COVE and CTX (Tables 15-17 to 16-12) -/

def State.cmdqView (s : State) (inst off : Nat) : Views :=
  let x := 2 * inst + (off - 0x100) / 0x80
  let q := (off - 0x100) / 0x20 % 4
  let u := s.queue x q
  if off % 0x20 = 0x18 then
    [(R.Q_STATE_HALTED, boolNat u.halted), (R.Q_STATE_RING_FAULT, boolNat u.ringFault), (R.Q_STATE_INFLIGHT, s.inflight x q),
      (R.Q_STATE_CQ_TAIL, u.cqTail), (R.Q_STATE_SQ_HEAD, u.sqHead)]
  else []

def State.edgeView (s : State) (p off : Nat) : Views :=
  let e := s.edge p
  if p < 8 && off = 0x100 then
    [(R.EDGE_STATE_LINK_UP, boolNat e.up), (R.EDGE_STATE_FLIT, boolNat e.flit), (R.EDGE_STATE_SPEED, e.speed), (R.EDGE_STATE_WIDTH, e.width),
      (R.EDGE_STATE_CXL, boolNat e.cxl)]
  else []

def State.coveView (s : State) (c off : Nat) : Views :=
  let v := s.cove c
  let g := s.granule (s.fld clsCove 64 R.GRANULE_SEL_INDEX)
  match off with
  | 0x100 => [(R.COVE_CTL_RESULT, v.result), (R.COVE_CTL_STATE, v.st)]
  | 0x108 => if c = 64 then [(R.COVE_CFG_MODE, 1)] else []
  | 0x110 => [(R.COVE_FRAMES_N, if v.st = 0 then 0 else (s.coveChans c).length)]
  | 0x120 => [(R.COVE_MOOR_USED, v.moored)]
  | 0x138 => [(R.COVE_SAVE_USED_MIB, (v.poolUsed + 1023) / 1024)]
  | 0x148 => [(R.COVE_ACCT_CORE_US, v.coreUs)]
  | 0x150 => [(R.COVE_ACCT_ENGINE_US, v.engineUs)]
  | 0x198 => [(R.GRANULE_VIEW_MODE, g.mode), (R.GRANULE_VIEW_COVE, g.cove)]
  | 0x1A0 => [(R.GRANULE_MASK_COVES, g.mask)]
  | _ => []

def State.ctxView (s : State) (x off : Nat) : Views :=
  let u := s.ctx x
  if off = 0x110 then
    [(R.CTX_STATE_COVE, (s.ctxCove x).getD 0), (R.CTX_STATE_RUNNING, (s.runningOf x).length), (R.CTX_STATE_URGENT, boolNat u.urgent),
      (R.CTX_STATE_WAITING, boolNat u.waiting), (R.CTX_STATE_HELD_BY_SW, boolNat u.heldBySw), (R.CTX_STATE_STATE, u.st)]
  else []

/-! ### PWR, RAS, SEC, TMK and SYS (Tables 17-7 to 21-5) -/

/-- The bank in joules (R494). -/
def State.bankJ (s : State) : Int := (s.pw.capW * s.pw.capWin : Nat) - (energyOf s.pw.ms (1000 * s.pw.capWin) / 1000 : Nat)

def State.pwrView (s : State) (inst off : Nat) : Views :=
  let w := s.pw
  let sw := w.swell.getD { levelW := 0, remainUs := 0, mhz := 0, ctx := 0 }
  if inst = 0 then
    match off with
    | 0x110 => [(R.PWR_STATUS_AVG_W, s.windowMean), (R.PWR_STATUS_MS_W, w.ms.headD 0), (R.PWR_STATUS_CLOCK_MHZ, w.clock4 / 4), (R.PWR_STATUS_GATE, w.gate),
        (R.PWR_STATUS_PACE, w.pace), (R.PWR_STATUS_SWELL, boolNat w.swell.isSome), (R.PWR_STATUS_STAGE, w.stage)]
    | 0x118 => [(R.PWR_BANK_BANK_J, ofInt 32 s.bankJ)]
    | 0x120 => [(R.PWR_SWELL_REMAIN_US, sw.remainUs), (R.PWR_SWELL_COMMIT_MHZ, sw.mhz), (R.PWR_SWELL_LEVEL_W, sw.levelW)]
    | 0x128 => [(R.PWR_INPUT_PEAK_W, w.peak), (R.PWR_INPUT_VIN_MV, w.vin)]
    | _ => []
  else if off = 0x100 then
    [(R.ISL_STATE_TEMP_C, mget 0 w.temps (inst - 1)), (R.ISL_STATE_CLOCK_MHZ, if inst ≤ 80 then (w.clock4 - mget 0 w.therm (inst - 1)) / 4 else 2000),
      (R.ISL_STATE_THERM, boolNat (w.therm.any (fun t => t.1 + 1 == inst))), (R.ISL_STATE_POWER, if inst ≤ 80 then mget 0 w.d3 (inst - 1) else 0)]
  else []

def State.rasView (s : State) (off : Nat) : Views :=
  let r := s.ra
  let b := s.bucket (s.fld clsRas 0 R.RAS_BKT_SEL_CLASS) (s.fld clsRas 0 R.RAS_BKT_SEL_INSTANCE)
  if 0x120 ≤ off && off < 0x160 then
    [(R.RAS_REC_WORD, (mget [] r.log (s.fld clsRas 0 R.RAS_LOG_SEL_SLOT)).getD ((off - 0x120) / 8) 0)]
  else match off with
    | 0x100 => [(R.RAS_STATUS_LOST, boolNat r.lost), (R.RAS_STATUS_BADPRIM, r.badPrim.length), (R.RAS_STATUS_ISOLATED, r.isolated.length)]
    | 0x110 => [(R.RAS_LOG_STATE_HEAD, r.head), (R.RAS_LOG_STATE_SEQ, r.seq)]
    | 0x168 => [(R.RAS_BKT_VIEW_PERMANENT, boolNat b.perm), (R.RAS_BKT_VIEW_LEVEL, b.level)]
    | 0x1A8 => [(R.RAS_RETIRE_FULL, boolNat (decide (256 ≤ r.retire.length))), (R.RAS_RETIRE_COUNT, r.retire.length)]
    | _ => []

/-- Every field of a register from its word. -/
def fieldsOf (r : List RegDef) (off v : Nat) : Views :=
  ((r.filter (fun x => x.off == off)).flatMap (fun x => x.fields)).map (fun f => (f.fld, bits v f.fld.hi f.fld.lo))

def State.secView (s : State) (off : Nat) : Views :=
  let e := mget (0, 0) ((s.se.log.zipIdx).map (fun p => (p.2, p.1))) (s.fld clsSec 0 R.SEC_LOG_SEL_ENTRY)
  let site := fun i => mget 0 s.se.diemap (5 * ((off - 0x200) / 8) + i)
  if 0x200 ≤ off then
    [(R.SEC_DIEMAP_S_SITE_0, site 0), (R.SEC_DIEMAP_S_SITE_1, site 1), (R.SEC_DIEMAP_S_SITE_2, site 2), (R.SEC_DIEMAP_S_SITE_3, site 3),
      (R.SEC_DIEMAP_S_SITE_4, site 4)]
  else match off with
    | 0x100 => fieldsOf regsSec 0x100 s.secStageWord
    | 0x108 => fieldsOf regsSec 0x108 s.secBootWord
    | 0x110 => fieldsOf regsSec 0x110 s.secDebugWord
    | 0x118 => [(R.SEC_KEY_CTL_BUSY, boolNat s.hb.keyBusy.isSome)]
    | 0x150 => [(R.SEC_LOG_SEL_COUNT, s.se.log.length)]
    | 0x158 => [(R.SEC_LOG_VIEW_0_WORD, e.1)]
    | 0x160 => [(R.SEC_LOG_VIEW_1_WORD, e.2)]
    | _ => []

/-- The slot that TMK_SEL names: 0 erased, 1 valid, 2 torn, 3 corrupt, and its bytes. -/
def State.tmkSelected (s : State) : Nat × List Byte :=
  let area := s.fld clsTmk 0 R.TMK_SEL_AREA % 3
  let slot := s.fld clsTmk 0 R.TMK_SEL_SLOT
  if area = 2 then
    (if 64 ≤ slot then (0, List.replicate 64 0xFF) else (slotState ledgerOk s.tm.ledger slot, flashAt s.tm.ledger 64 slot))
  else if (if area = 0 then 1024 else 1280) ≤ slot then (0, List.replicate 256 0xFF)
  else (s.tm.areaState area slot, s.tm.areaBytes area slot)

def State.tmkView (s : State) (off : Nat) : Views :=
  let x := s.tmkSelected
  if 0x200 ≤ off then [(R.TMK_REC_w_WORD, leNat ((x.2.drop (off - 0x200)).take 8))]
  else match off with
    | 0x108 => fieldsOf regsTmk 0x108 s.tmkStateWord
    | 0x110 => fieldsOf regsTmk 0x110 s.tmkSeqWord
    | 0x118 => [(R.TMK_SEL_VALID, boolNat (x.1 == 1)), (R.TMK_SEL_TORN, boolNat (x.1 == 2))]
    | _ => []

/-- ERR_PENDING of a page (Table 21-3). -/
def State.errPending (s : State) (cls inst : Nat) : Bool := s.errStatus cls inst &&& s.fld cls inst R.ERR_ENABLE_EN != 0

/-- R575: class codes with a page whose ERR_PENDING is 1. Only pages whose ERR_STATUS is not zero can have it. -/
def State.errClasses (s : State) : Nat :=
  (List.range 19).foldl (fun v c => if s.regs.any (fun p =>
    let off := p.1 / 64
    off / 2 ^ 23 == c && off % 4096 == R.ERR_STATUS_CE.off && s.errPending c (off / 4096 % 2048)) then v + 2 ^ c else v) 0

def State.sysView (s : State) (off : Nat) : Views :=
  if 0x200 ≤ off then
    match s.se.ldie.find? (fun p => p.1 == (off - 0x200) / 8) with
    | some p => [(R.SYS_LDIE_L_PRESENT, 1), (R.SYS_LDIE_L_PDIE, p.2)]
    | none => []
  else match off with
    | 0x100 => [(R.SYS_SERIAL_SERIAL, s.se.serial)]
    | 0x108 => [(R.SYS_CAPACITY_PENDING, countIf s.hb.chans (fun c => c.2.st == 2)), (R.SYS_CAPACITY_FRAMES, s.hb.present.length),
        (R.SYS_CAPACITY_CORES, 16 * s.se.ldie.length), (R.SYS_CAPACITY_DIES, s.se.ldie.length)]
    | 0x118 => [(R.SYS_UPTIME_US, s.us)]
    | 0x120 => [(R.SYS_ERR_SUMMARY_CLASS, s.errClasses)]
    | _ => []

/-! ### The common header and the whole of BAR0 -/

/-- R572: the unit exists and is powered. -/
def State.present (s : State) (cls inst : Nat) : Bool := s.pageLive cls inst && !(cls == clsHbmc && (s.chan inst).st == 0)

def State.headerView (s : State) (cls inst off : Nat) : Views :=
  match off with
  | 0x000 => [(R.UNIT_ID_CLASS, cls), (R.UNIT_ID_INSTANCE, inst), (R.UNIT_ID_UREV, 1)]
  | 0x008 => [(R.UNIT_CAPS_INJECT, 1)]
  | 0x018 => [(R.UNIT_STATUS_ERR_PENDING, boolNat (s.errPending cls inst)), (R.UNIT_STATUS_LOCKED, s.fld cls inst R.LOCK_CFG_LOCK),
      (R.UNIT_STATUS_PRESENT, boolNat (s.present cls inst))]
  | 0x038 => if s.fld cls inst R.LOCK_INJECT_LOCK = 1 then [(R.ERR_INJECT_ARM, 0), (R.ERR_INJECT_KIND, 0)] else []
  | _ => []

def State.views (s : State) (cls inst off : Nat) : Views :=
  if off < 0x100 then s.headerView cls inst off
  else match cls with
    | 0x00 => s.sysView off
    | 0x02 => s.secView off
    | 0x03 => s.rasView off
    | 0x04 => s.tmkView off
    | 0x05 => s.pwrView inst off
    | 0x06 => s.tideView inst off
    | 0x07 => s.coveView inst off
    | 0x08 => s.ctxView inst off
    | 0x09 => s.ctxView (2048 + inst) off
    | 0x0A => s.cmdqView inst off
    | 0x0B => s.edgeView inst off
    | 0x0C => s.twpView inst off
    | 0x0E => s.spindleView inst off
    | 0x0F => s.hbmcView inst off
    | 0x10 => s.homeView inst off
    | 0x11 => s.sliceView inst off
    | 0x12 => s.coreView inst off
    | _ => []

/-- A DIST register (R581). -/
def State.distReg (s : State) (inst off : Nat) : Nat :=
  if inst = 0 then
    match off with
    | 0x100 => s.measGen % 2 ^ 16 * 2 ^ 32 + tableBytes
    | 0x108 => s.occGen % 2 ^ 64
    | _ => 0
  else if off < 0x800 then 0
  else
    let w := 256 * (inst - 1) + (off - 0x800) / 8
    if tableBytes ≤ 8 * w then 0 else s.distWord w % 2 ^ 64

/-- The 64-bit register at an aligned offset of a page. -/
def State.readPage (s : State) (cls inst off : Nat) : Nat :=
  if cls = clsDist && 0x100 ≤ off then s.distReg inst off
  else match regAt cls inst off with
    | none => 0
    | some (r, i) =>
      if !s.pageLive cls inst && !(off == 0 || off == 0x018 || (cls == clsCore && off == 0x100)) then 0
      else
        let v := s.views cls inst off
        r.fields.foldl (fun w f =>
          let x := match v.find? (fun p => p.1 == f.fld) with
            | some p => p.2
            | none => if f.acc = .wo then 0 else s.fldN cls inst f.fld (r.stride * i)
          w + x % 2 ^ (f.fld.hi + 1 - f.fld.lo) * 2 ^ f.fld.lo) 0

/-- What a read of BAR0 returns: the addressed half of a 32-bit read (R11). Before READY only SYS and SEC can be read (R534);
of a VF page's header only UNIT_ID and UNIT_STATUS (R573). None is a completion with Unsupported Request. -/
def State.readBar0 (s : State) (vf : Option Nat) (off size : Nat) : Option Nat :=
  let half := fun v => if size = 8 then v else if off % 8 = 4 then v / 2 ^ 32 else v % 2 ^ 32
  let value := fun (p : Place) => match p with
    | .page cls inst byte => if s.ready || cls = clsSys || cls = clsSec then s.readPage cls inst (byte / 8 * 8) else 0
    | _ => 0
  if !bar0Access off size then none
  else match vf with
    | none => some (half (if 2 ^ 28 ≤ off then 0 else value (pfPlace off)))
    | some c =>
      if !s.vfOn c || (s.cove c).st ≠ 2 then some 0
      else
        let b := off % 4096 / 8 * 8
        if b < 0x100 then
          (match s.vfPlace c (off / 4096 * 4096 + 0x100) with
          | .page cls inst _ => some (half (if b = 0 || b = 0x018 then s.readPage cls inst b else 0))
          | _ => some 0)
        else some (half (value (s.vfPlace c off)))

/-- What a read of a doorbell page in BAR2 returns: the values last accepted with their V bit (R433); a page of no context of
the function reads zero (R430). -/
def State.readBar2 (s : State) (vf : Option Nat) (off size : Nat) : Option Nat :=
  let half := fun v => if size = 8 then v else if off % 8 = 4 then v / 2 ^ 32 else v % 2 ^ 32
  let q := off % 4096 / 8
  if !bar0Access off size then none
  else if 4 ≤ q || 2 ^ 24 ≤ off then some 0
  else match s.doorbellCtx vf (off / 4096) with
    | none => some 0
    | some x => some (half ((s.queue x q).cqHead * 2 ^ 16 + (s.queue x q).sqTail))

end Sys2Proof.Machine
end

