-- ==== Sys2Proof/Tests/Slice0.lean ====
section
/-! SUPPORT. Tests of one step each, a smoke test of the well-formedness checks, and for every statement with hypotheses a
state and operands that meet them. -/

namespace Sys2Proof.Machine

set_option maxRecDepth 20000
set_option Elab.async false

/-! ### The helpers -/

/-- The fields of an instruction word (R89): class, opcode, D, A, B, C, T, Q, guard. -/
def tword (cl op d a b c t q guard : Nat) : BitVec 64 :=
  BitVec.ofNat 64 (2 * cl + 16 * op + 2 ^ 15 * guard + 2 ^ 20 * t + 2 ^ 24 * q + 2 ^ 32 * d + 2 ^ 40 * a + 2 ^ 48 * b + 2 ^ 56 * c)

/-- The word at group slot 0 of core 0. -/
def tins (cl op d a b c t q : Nat) : IWord := ⟨0, 0, tword cl op d a b c t q 0, 0⟩

/-- Where frame 8 begins, and the first instruction's address. -/
def tbase : Nat := 8 * 2 ^ 31
def tpc : Nat := 2 ^ 22

/-- Cove 0 owns frame 8 and its tables map the first GiB onto it, context 0 runs, and core 0 holds one group at `tpc`
with the word there (log entry 3 for memory). -/
def tstate (w : IWord) (g : Group) (l : Launch) (k : Core) : State :=
  ((((({ State.reset with
    mem := ((Mem.writeLE [] tbase 8 (tbase + 2 ^ 21 + 1)).writeLE (tbase + 2 ^ 21) 8 (tbase + 7)).writeLE (tbase + tpc) 8 w.w.toNat
    hs := { coves := [(0, { st := 2 })], ctxs := [(0, { st := 2 })] }
    hb := { present := [8] }
    cores := [(0, { k with
      groups := (0, { g with occupied := true, pc := tpc }) :: k.groups
      blocks := [(0, { launch := l, ngrp := 1, spLen := 256, arrived := (k.block 0).arrived })] })] } : State).setFld clsCove 0 R.COVE_FRAMES_FB 8).setFld clsCove 0 R.COVE_PT_ROOT_V 1).setFld clsCove 0
    R.COVE_PT_ROOT_ROOT (tbase / 2 ^ 21)).setFld clsCove 0 R.COVE_CHANNELS_n_CH 1)

/-- A group with two live threads, both active. -/
def tgroup : Group := { live := 3, m := [(0, 3)] }

/-- The checks of State.Issues as one value. -/
def sound (s : State) (w : IWord) (op : Nat × Nat) (f : Form) : Bool :=
  s.mayIssue w.core w.slot && (s.fetched w).any (fun u => decide (u.fld clsCore (u.corePage w.core) R.ERR_INJECT_ARM = 0)) &&
    decide ((insOf w).cl = op.1) && decide ((insOf w).op = op.2) && !(s.atIssue w).scoreboard f && decide (formFaults (s.view w) f op = [])

theorem issues_of_sound {s : State} {w : IWord} {op : Nat × Nat} {f : Form} (h : sound s w op f = true) :
    ∃ u, s.fetched w = some u ∧ s.Issues u w op f := by
  simp only [sound, Bool.and_eq_true, Bool.not_eq_true', decide_eq_true_eq] at h
  obtain ⟨⟨⟨⟨⟨a, b⟩, c⟩, d⟩, e⟩, f⟩ := h
  obtain ⟨u, hu, g⟩ := (Option.any_eq_true _ _).mp b
  exact ⟨u, hu, a, hu, ⟨c, d⟩, e, f, of_decide_eq_true g⟩

/-- The same with a check of the state that has fetched. -/
theorem issues_with {s : State} {w : IWord} {op : Nat × Nat} {f : Form} (p : State → Bool) (h : sound s w op f = true)
    (q : (s.fetched w).any p = true) : ∃ u, s.Issues u w op f ∧ p u = true := by
  obtain ⟨u, hu, hi⟩ := issues_of_sound h
  rw [hu] at q
  exact ⟨u, hi, q⟩

/-- The same with any condition on the state that has fetched. -/
theorem issues_and {s : State} {w : IWord} {op : Nat × Nat} {f : Form} (p : State → Prop) [DecidablePred p] (h : sound s w op f = true)
    (q : (s.fetched w).any (fun u => decide (p u)) = true) : ∃ u, s.Issues u w op f ∧ p u :=
  (issues_with (fun u => decide (p u)) h q).imp fun _ h => ⟨h.1, of_decide_eq_true h.2⟩
/-! ### Well-formedness (each check refuses an ill-formed term) -/

theorem test_wf_word : (Instr.add (tins 0 0x010 1 2 3 0 0 0)).wf = true := by decide
theorem test_wf_core : (Instr.add ⟨1024, 0, 0, 0⟩).wf = false := by decide
theorem test_wf_slot : (Instr.ld ⟨0, 32, 0, 0⟩).wf = false := by decide
theorem test_wf_unit_core : (Instr.blockStart 1024).wf = false ∧ (Instr.walk 1024 0).wf = false ∧ (Instr.walk 0 (2 ^ 64)).wf = false := by decide
theorem test_wf_sector : (Instr.sectorFill 0 (2 ^ 47)).wf = false := by decide
theorem test_wf_msg_good : (Instr.getS { ty := .getS, dst := 1024, src := 3, mask := 15 }).wf = true := by decide
theorem test_wf_msg_nodes : (Msg.wf { ty := .getS, dst := 4096, src := 0 }) = false ∧ (Msg.wf { ty := .getS, dst := 0, src := 4096 }) = false ∧
    (Msg.wf { ty := .getS, dst := 0, src := 0, req := 4096 }) = false := by decide
theorem test_wf_msg_fields : (Msg.wf { ty := .getS, dst := 0, src := 0, txn := 256 }) = false ∧ (Msg.wf { ty := .getS, dst := 0, src := 0, mask := 16 }) = false ∧
    (Msg.wf { ty := .getS, dst := 0, src := 0, dirty := 16 }) = false ∧ (Msg.wf { ty := .getS, dst := 0, src := 0, poison := 16 }) = false ∧
    (Msg.wf { ty := .getS, dst := 0, src := 0, cove := 64 }) = false ∧ (Msg.wf { ty := .getS, dst := 0, src := 0, line := 2 ^ 45 }) = false := by decide
theorem test_wf_msg_data : (Msg.wf { ty := .data, dst := 0, src := 0, data := List.replicate 31 0 }) = false ∧
    (Msg.wf { ty := .data, dst := 0, src := 0, data := List.replicate 160 0 }) = false := by decide
theorem test_wf_write_good : (Instr.registerWrite ⟨some 63, 8, 8, 1⟩).wf = true := by decide
theorem test_wf_write_function : (RegW.wf ⟨some 64, 8, 8, 1⟩) = false := by decide
theorem test_wf_write_size : (RegW.wf ⟨none, 4, 0, 0⟩) = false ∧ (RegW.wf ⟨none, 0, 513, 1⟩) = false := by decide
theorem test_wf_write_width : (RegW.wf ⟨none, 4, 4, 2 ^ 32⟩) = false ∧ (RegW.wf ⟨none, 8, 8, 2 ^ 64⟩) = false := by decide
theorem test_wf_write_bar : (RegW.wf ⟨none, 2 ^ 28, 8, 0⟩) = false := by decide
theorem test_wf_source : (Instr.entryIssue (.cmd 4096 0 0)).wf = false ∧ (Instr.entryIssue (.cmd 0 4 0)).wf = false ∧
    (Instr.entryIssue (.cmd 0 0 65536)).wf = false ∧ (Instr.entryIssue (.dom 8 0)).wf = false ∧ (Instr.entryIssue (.dom 0 256)).wf = false := by decide
theorem test_wf_image : (Instr.updateComponent { svn := 65536 }).wf = false ∧ (Instr.updateComponent { minor := 65536 }).wf = false ∧
    (Instr.updateComponent { major := 65536 }).wf = false := by decide
theorem test_wf_stage : (StageIn.wf { badDies := [80] }) = false ∧ (StageIn.wf { badSlices := [512] }) = false ∧ (StageIn.wf { badChans := [1024] }) = false ∧
    (StageIn.wf { noStacks := [32] }) = false ∧ (StageIn.wf { links := [(8, 0)] }) = false ∧ (StageIn.wf { expanders := [(6, 0, 0)] }) = false ∧
    (StageIn.wf { imgOk := [true] }) = false := by decide
theorem test_wf_cable : (Instr.detect 24 ⟨true, 0, 0⟩).wf = false ∧ (Instr.detect 0 ⟨true, 0, 2 ^ 64⟩).wf = false := by decide
theorem test_wf_ident : (Instr.identify 0 ⟨0, 0, 0, 24, 0⟩).wf = false ∧ (Instr.identify 0 ⟨2 ^ 64, 0, 0, 0, 0⟩).wf = false := by decide
theorem test_wf_charge : (Instr.quantumBoundary 0 0 [⟨4096, 0, 0, []⟩]).wf = false ∧ (Instr.quantumBoundary 64 0 []).wf = false := by decide
theorem test_wf_slow : (Instr.slowdownInterval [⟨64, 0, 0, 0, 0, 0, 0⟩]).wf = false := by decide
theorem test_wf_nodes : (Instr.nackResend 4096 0).wf = false ∧ (Instr.nackResend 0 256).wf = false ∧ (Instr.syncResend 4096).wf = false := by decide
theorem test_wf_lines : (Instr.memoryData 512 0).wf = false ∧ (Instr.ebbAction 0 (2 ^ 45)).wf = false := by decide
theorem test_wf_channels : (Instr.ueRetry 1024 0 0).wf = false ∧ (Instr.ueRetry 0 0 3).wf = false ∧ (Instr.scrubRead 0 4).wf = false ∧
    (Instr.clearingEnd 1024).wf = false := by decide
theorem test_wf_ports : (Instr.land 24).wf = false ∧ (Instr.hostLinkDown 8).wf = false ∧ (Instr.atsInvalidateRequest 8 0 0 0).wf = false ∧
    (Instr.atsInvalidateRequest 0 64 0 0).wf = false ∧ (Instr.expanderLinkFailure 6).wf = false := by decide
theorem test_wf_domains : (Instr.epochReached 8).wf = false ∧ (Instr.creditStall 0 256).wf = false ∧ (Instr.landing 0 256).wf = false ∧
    (Instr.credit 4096 0 0).wf = false ∧ (Instr.chunkCombine (.dom 0 0) 0 0 (2 ^ 16)).wf = false := by decide
theorem test_wf_queues : (Instr.sqFetch 4096 0).wf = false ∧ (Instr.copy 0 4 0).wf = false ∧ (Instr.fill 0 0 65536).wf = false ∧ (Instr.coalUs 0 4).wf = false := by decide
theorem test_wf_doorbell : (Instr.doorbell (some 64) 0 8 0).wf = false ∧ (Instr.doorbell none (2 ^ 28) 8 0).wf = false ∧
    (Instr.doorbell none 0 8 (2 ^ 64)).wf = false := by decide
theorem test_wf_bar4 : (Instr.bar4Read 8 none 0 0 0).wf = false ∧ (Instr.bar4Write 0 none 0 [] 65536).wf = false ∧
    (Instr.bar4AtomicOp 0 none 0 .add 5 0 0 0).wf = false := by decide
theorem test_wf_contexts : (Instr.saveEnd 4096).wf = false ∧ (Instr.restore 4096 0 []).wf = false ∧ (Instr.functionLevelReset 64).wf = false := by decide
theorem test_wf_power : (Instr.pmbusPoll [] 0 []).wf = false ∧ (Instr.droop 97).wf = false ∧ (Instr.thermal 96 0).wf = false := by decide
theorem test_wf_ras : (Instr.bucketLeak 7 0).wf = false ∧ (Instr.bucketLeak 0 (2 ^ 32)).wf = false ∧ (Instr.d2dFlit (2 ^ 32) true []).wf = false := by decide
theorem test_wf_vendor : (Instr.reset 4 true []).wf = false ∧ (Instr.mctpControlMessage 4 []).wf = false ∧ (Instr.configurationRequest 0 7 0 0).wf = false := by decide
theorem test_wf_tidemark : (Instr.readTidemarkSlot 2 0).wf = false ∧ (Instr.readTidemarkSlot 0 65536).wf = false ∧ (Instr.readClearLedger 64).wf = false := by decide

/-! ### Witnesses of the statements about steps and instructions -/

theorem witness_front : ({ State.reset with pending := [.blockStart 0, .wake 1] } : State).pending = .blockStart 0 :: [.wake 1] := rfl
theorem witness_idle : State.reset.pending = [] := rfl
theorem witness_canonical : State.reset.memoryWf ∧ ∃ t, step State.reset = .next t := ⟨⟨by decide, by decide⟩, _, rfl⟩
theorem witness_step : ∃ t, step State.reset = .next t := ⟨_, rfl⟩

def tadd : IWord := tins 0 0x010 3 1 2 0 0 0
theorem witness_alu : ∃ r val, aluValue (.add tadd) = some (tadd, r, val) ∧
    ∃ u, let s := tstate tadd tgroup {} {}
      let z := s.view tadd
      s.Issues u tadd (r.code tadd) (r.form z.i (r.ty z.i) (r.ty z.i) true) :=
  ⟨_, _, rfl, (issues_of_sound (by decide +kernel)).imp fun _ h => h.2⟩
theorem witness_integer : intTypes .u32 = true ∧ (0xFFFFFFFF : Nat) < 2 ^ Fmt.u32.width ∧
    Fmt.u32.range.1 ≤ Fmt.u32.intVal 0xFFFFFFFE + Fmt.u32.intVal 1 ∧ Fmt.u32.intVal 0xFFFFFFFE + Fmt.u32.intVal 1 ≤ Fmt.u32.range.2 ∧
    Fmt.int32.range.1 ≤ Fmt.int32.intVal 0x80000000 - Fmt.int32.intVal 0 ∧ Fmt.u32.intVal 0xFFFF * Fmt.u32.intVal 0x10001 ≤ Fmt.u32.range.2 ∧
    |Fmt.int32.intVal 0x80000001| ≤ Fmt.int32.range.2 ∧ -Fmt.int32.intVal 0x80000001 ≤ Fmt.int32.range.2 := by decide
theorem witness_float : isNan (Fmt.fp32.decode 0x7FC00000) = true ∧ isNan (Fmt.fp32.decode 0x80000000) = false := by decide

def tsel : IWord := tins 0 0x003 3 1 2 1 0 0
def tshfl : IWord := tins 0 0x050 3 1 2 0 0 0
def tcvt : IWord := tins 0 0x040 3 1 0 4 0 0
def tmovsv : IWord := tins 0 0x002 3 1 0 0 0 0
theorem witness_sel : ∃ u, let s := tstate tsel tgroup {} {}
    let z := s.view tsel
    let r : AluRow := { row2 0x003 Fmt.is32 with c := .p }
    s.Issues u tsel (r.code tsel) (r.form z.i ((z.i.ty).getD .int32) ((z.i.ty).getD .int32) true) :=
  (issues_of_sound (by decide +kernel)).imp fun _ h => h.2
theorem witness_shfl : ∃ u, let s := tstate tshfl tgroup {} {}
    let z := s.view tshfl
    let r : AluRow := { row2 0x050 Fmt.is32 with lay := .shfl, scalar := false }
    s.Issues u tshfl (r.code tshfl) (r.form z.i ((z.i.ty).getD .int32) ((z.i.ty).getD .int32) true) :=
  (issues_of_sound (by decide +kernel)).imp fun _ h => h.2
theorem witness_cvt : ∃ u, let s := tstate tcvt tgroup {} {}
    let z := s.view tcvt
    let T := (z.i.ty).getD .int32
    let r : AluRow := { row1 0x040 (fun f => f != .wes) with c := .raw }
    let src := (Fmt.ofCode (z.i.c % 16)).getD .wes
    s.Issues u tcvt (r.code tcvt) (r.form z.i T src (z.i.c < 16 && src != .wes && z.i.c != 15 &&
       !(bits z.i.q 2 1 == 2 && (T == .e3m2 || T == .e2m3 || T == .e2m1)))) :=
  (issues_of_sound (by decide +kernel)).imp fun _ h => h.2
theorem witness_movsv : ∃ u, let s := tstate tmovsv tgroup {} {}
    let z := s.view tmovsv
    let r : AluRow := { op := 0x002, types := fun _ => true, scalar := true, lay := .none, d := .val, a := .sv, typed := false }
    let f : Fmt := if 0x10 ≤ z.i.a then .i64 else .int32
    s.Issues u tmovsv (r.code tmovsv) (r.form z.i f .int32 true) :=
  (issues_of_sound (by decide +kernel)).imp fun _ h => h.2

def tvote : IWord := tins 0 0x060 1 2 0 0 0 0
def tcmp : IWord := tins 0 0x030 3 1 2 0 0 0x08
def tcmpBad : IWord := tins 0 0x030 3 1 2 0 0 0x20
def tmovmp : IWord := tins 0 0x066 1 1 0 0 0 0
def tpopcm : IWord := tins 0 0x067 1 1 0 0 0 0
def tnop : IWord := tins 0 0 0 0 0 0 0 0
theorem witness_mask : ∃ r val, maskValue (.vote tvote) = some (tvote, r, val) ∧
    ∃ u, let s := tstate tvote tgroup {} {}
      let z := s.view tvote
      s.Issues u tvote (r.code tvote) (r.form z.i .int32 .int32 (r.op != 0x060 || decide (z.i.c < 3))) :=
  ⟨_, _, rfl, (issues_of_sound (by decide +kernel)).imp fun _ h => h.2⟩
theorem witness_cmp : ∃ u, let s := tstate tcmp tgroup {} {}
    let z := s.view tcmp
    let r : AluRow := { row2 0x030 arithTypes with lay := .cmp, d := .p }
    s.Issues u tcmp (r.code tcmp) (r.form z.i (r.ty z.i) (r.ty z.i) true) ∧ z.act.getLsbD 1 = true :=
  (issues_with (fun _ => true) (by decide +kernel) (by decide +kernel)).imp fun _ h => ⟨h.1, by decide +kernel⟩
theorem witness_cmp_illegal : ∃ u, let s := tstate tcmpBad tgroup {} {}
    let z := s.view tcmpBad
    let r : AluRow := { row2 0x030 arithTypes with lay := .cmp, d := .p }
    8 ≤ z.i.cc ∧ s.mayIssue 0 0 = true ∧ s.fetched tcmpBad = some u ∧ z.i.cl = (r.code tcmpBad).1 ∧ z.i.op = (r.code tcmpBad).2 ∧
      z.g.scoreboard (r.form z.i (r.ty z.i) (r.ty z.i) true) = false := by
  obtain ⟨u, hu⟩ := Option.isSome_iff_exists.mp (show ((tstate tcmpBad tgroup {} {}).fetched tcmpBad).isSome = true by decide +kernel)
  exact ⟨u, by decide +kernel, by decide +kernel, hu, by decide +kernel, by decide +kernel, by decide +kernel⟩
theorem witness_movmp : ∃ u, let s := tstate tmovmp tgroup {} {}
    s.Issues u tmovmp ((rowMask 0x066 .p .m .no).code tmovmp) ((rowMask 0x066 .p .m .no).form (s.view tmovmp).i .int32 .int32 true) :=
  (issues_of_sound (by decide +kernel)).imp fun _ h => h.2
theorem witness_popcm : ∃ u, let s := tstate tpopcm tgroup {} {}
    s.Issues u tpopcm ((rowMask 0x067 .s1 .m .no).code tpopcm) ((rowMask 0x067 .s1 .m .no).form (s.view tpopcm).i .int32 .int32 true) :=
  (issues_of_sound (by decide +kernel)).imp fun _ h => h.2
theorem witness_nop : ∃ u, let s := tstate tnop tgroup {} {}
    s.Issues u tnop ((rowMask 0 .no .no .no).code tnop) ((rowMask 0 .no .no .no).form (s.view tnop).i .int32 .int32 true) :=
  (issues_of_sound (by decide +kernel)).imp fun _ h => h.2

/-! ### Witnesses of the statements about sums -/

def tpart : Wes := { f := 2 ^ 255, w := 3, empty := false }
theorem witness_specials : ({ tpart with special := .posInf } : Wes).special = .posInf ∧ ({ tpart with special := .nan } : Wes).special = .nan := ⟨rfl, rfl⟩
theorem witness_window : tpart.counts = true ∧ tpart.w ≤ 32767 ∧ (2 ^ 255 + -(2 ^ 255) : Int) < 2 ^ 256 := by decide
theorem witness_order : [tpart, Wes.zero].Perm [Wes.zero, tpart] := by decide

/-! ### Witnesses of the statements about control flow -/

/-- The same with guard bits. -/
def tinsg (cl op d a b c t q guard : Nat) : IWord := ⟨0, 0, tword cl op d a b c t q guard, 0⟩
/-- The form of a word that names no register. -/
def bareForm (w : IWord) : Form :=
  { legal := (insOf w).guardOk true && !(insOf w).lg && (insOf w).t == 0 && (insOf w).q == 0, ops := noOps (insOf w) false false false false }
def braForm (w : IWord) : Form :=
  let i := insOf w
  { legal := i.guardOk true && i.t == 0 && i.q == 0 && (if i.lg then i.xLowOk && i.xHighOk else true) &&
      (i.ge || (if i.lg then i.x / 2 ^ 32 == 0 else i.b == 0 && i.c == 0))
    ops := noOps i (!i.lg) (!i.lg) (!i.lg) (!i.lg) }
def tbra : IWord := tinsg 4 0 8 0 0 0 0 0 0
def tbraP : IWord := tinsg 4 0 8 0 2 0 0 0 1
theorem witness_bra_all : ∃ u, let s := tstate tbra tgroup {} {}
    s.Issues u tbra (4, 0x000) (braForm tbra) ∧ (s.view tbra).act ≠ 0 ∧ (s.view tbra).act = (s.view tbra).g.m0 :=
  (issues_of_sound (by decide +kernel)).imp fun _ h => ⟨h.2, by decide +kernel, by decide +kernel⟩
theorem witness_bra_none : ∃ u, let s := tstate tbraP tgroup {} {}
    s.Issues u tbraP (4, 0x000) (braForm tbraP) ∧ (s.view tbraP).act = 0 :=
  (issues_of_sound (by decide +kernel)).imp fun _ h => ⟨h.2, by decide +kernel⟩
theorem witness_bra_some : ∃ u, let s := tstate tbraP { tgroup with p := [(0, 1)] } {} {}
    let z := s.view tbraP
    s.Issues u tbraP (4, 0x000) (braForm tbraP) ∧ z.act ≠ 0 ∧ z.act ≠ z.g.m0 ∧ z.g.stack.length < 32 :=
  (issues_of_sound (by decide +kernel)).imp fun _ h => ⟨h.2, by decide +kernel, by decide +kernel, by decide +kernel⟩

def brxForm (w : IWord) : Form :=
  let i := insOf w
  { legal := i.guardOk false && i.t == 0 && i.q == 0 && (!i.lg || (i.x % 2 ^ 32 == 0 && i.xHighOk))
    ops := [⟨.zero, i.d, false⟩, ⟨.v 1, i.a, false⟩, ⟨if i.lg then .zero else .raw, i.b, false⟩, ⟨if i.lg then .zero else .raw, i.c, false⟩] }
def tbrx : IWord := tins 4 1 0 1 0 0 0 0
theorem witness_brx_same : ∃ u, let s := tstate tbrx tgroup {} {}
    let z := s.view tbrx
    let target := fun th => z.rel (sext 32 (z.g.rv z.i.a th))
    s.Issues u tbrx (4, 0x001) (brxForm tbrx) ∧ z.act ≠ 0 ∧ z.act = z.g.m0 ∧ (∀ th < 64, z.act.getLsbD th = true → target th % 8 = 0 ∧ target th = target z.first) :=
  (issues_of_sound (by decide +kernel)).imp fun _ h => ⟨h.2, by decide +kernel, by decide +kernel, by decide +kernel⟩
theorem witness_brx_rest : ∃ u, let s := tstate tbrx { tgroup with v := [(65, 16)] } {} {}
    let z := s.view tbrx
    let target := fun th => z.rel (sext 32 (z.g.rv z.i.a th))
    let rest : W64 := 2
    s.Issues u tbrx (4, 0x001) (brxForm tbrx) ∧ (∀ th < 64, z.act.getLsbD th = true → target th % 8 = 0) ∧ z.act = z.g.m0 ∧
      (∀ th < 64, rest.getLsbD th = (z.act.getLsbD th && target th != target z.first)) ∧ rest ≠ 0 ∧ z.g.stack.length < 32 :=
  (issues_of_sound (by decide +kernel)).imp fun _ h => ⟨h.2, by decide +kernel, by decide +kernel, by decide +kernel, by decide +kernel, by decide +kernel⟩

def callForm (w : IWord) : Form :=
  let i := insOf w
  { legal := i.guardOk false && i.t == 0 && i.q == 0 && (!i.lg || (i.x / 2 ^ 32 == 0 && i.xLowOk))
    ops := [⟨.s 2, i.d, true⟩, ⟨.zero, i.a, false⟩, ⟨if i.lg then .zero else .raw, i.b, false⟩, ⟨if i.lg then .zero else .raw, i.c, false⟩] }
def tcall : IWord := tins 4 2 2 0 4 0 0 0
theorem witness_call : ∃ u, (tstate tcall tgroup {} {}).Issues u tcall (4, 0x002) (callForm tcall) :=
  (issues_of_sound (by decide +kernel)).imp fun _ h => h.2
def retForm (w : IWord) : Form :=
  let i := insOf w
  { legal := i.guardOk false && !i.lg && i.t == 0 && i.q == 0, ops := [⟨.zero, i.d, false⟩, ⟨.s 2, i.a, false⟩, ⟨.zero, i.b, false⟩, ⟨.zero, i.c, false⟩] }
def tret : IWord := tins 4 3 0 2 0 0 0 0
theorem witness_ret : ∃ u, let s := tstate tret { tgroup with s := [(2, 64)] } {} {}
    s.Issues u tret (4, 0x003) (retForm tret) ∧ (s.view tret).g.rs2 2 % 8 = 0 :=
  (issues_of_sound (by decide +kernel)).imp fun _ h => ⟨h.2, by decide +kernel⟩
def hintForm (w : IWord) (b : Kind) : Form :=
  let i := insOf w
  { legal := i.guardOk false && !i.lg && i.t == 0 && (i.q == 0 || i.q == 0x80)
    ops := [⟨.zero, i.d, false⟩, ⟨if i.q = 0x80 then .zero else .s 1, i.a, false⟩, ⟨if i.q = 0x80 then b else .zero, i.b, false⟩,
      ⟨if i.q = 0x80 then .raw else .zero, i.c, false⟩] }
def tsleep : IWord := tins 4 0x30 0 0 10 1 0 0x80
theorem witness_sleep : ∃ u, (tstate tsleep tgroup {} {}).Issues u tsleep (4, 0x030) (hintForm tsleep .raw) :=
  (issues_of_sound (by decide +kernel)).imp fun _ h => h.2
def twait : IWord := tins 4 0x20 0 0 0 1 0 0x80
theorem witness_wait : ∃ u, (tstate twait tgroup {} { landCount := 2, land := [(1, { st := 2 })] }).Issues u twait (4, 0x020) (hintForm twait .zero) ∧
    1 < (u.core 0).landCount ∧ ((u.core 0).slot 1).st = 2 :=
  (issues_with (fun u => decide (1 < (u.core 0).landCount ∧ ((u.core 0).slot 1).st = 2)) (by decide +kernel) (by decide +kernel)).imp
    fun _ h => ⟨h.1, of_decide_eq_true h.2⟩

def texit : IWord := tinsg 4 4 0 0 0 0 0 0 1
theorem witness_exit_some : ∃ u, let s := tstate texit { tgroup with p := [(0, 1)] } {} {}
    let z := s.view texit
    let left := (Group.settle 66 { (z.moved (bareForm texit)).wm 0 (z.g.m0 &&& ~~~z.act) with live := z.g.live &&& ~~~z.act }).1
    s.Issues u texit (4, 0x004) (bareForm texit) ∧ z.g.region = none ∧ ¬(left.stack = [] ∧ left.m0 &&& left.live = 0) ∧ (u.core 0).busyWith 0 = false :=
  (issues_with (fun u => !(u.core 0).busyWith 0) (by decide +kernel) (by decide +kernel)).imp
    fun _ h => ⟨h.1, by decide +kernel, by decide +kernel, by simpa using h.2⟩
theorem witness_exit_last : ∃ u, let s := tstate texit { tgroup with p := [(0, 3)] } {} { groups := [(1, { occupied := true, live := 1 })] }
    let z := s.view texit
    let left := (Group.settle 66 { (z.moved (bareForm texit)).wm 0 (z.g.m0 &&& ~~~z.act) with live := z.g.live &&& ~~~z.act }).1
    s.Issues u texit (4, 0x004) (bareForm texit) ∧ z.g.region = none ∧ left.stack = [] ∧ left.m0 &&& left.live = 0 ∧ (u.core 0).busyWith 0 = false ∧
      ((u.core 0).groupsOf z.g.blk).any (fun p => p.1 != 0) = true :=
  (issues_with (fun u => !(u.core 0).busyWith 0 && ((u.core 0).groupsOf 0).any (fun p => p.1 != 0)) (by decide +kernel) (by decide +kernel)).imp
    fun _ h => ⟨h.1, by decide +kernel, by decide +kernel, by decide +kernel, by have := h.2; simp only [Bool.and_eq_true, Bool.not_eq_true'] at this; exact this⟩

def tbar : IWord := tins 4 0x10 0 0 0 0 0 0
def barForm (w : IWord) : Form :=
  { legal := (insOf w).guardOk false && !(insOf w).lg && (insOf w).t == 0 && (insOf w).q == 0, ops := noOps (insOf w) false false false false }
/-- What BAR_BLK asks of its group and core, and whether every group of the block has arrived. -/
def barReady (s u : State) (all : Bool) : Bool :=
  let z := s.view tbar
  let k := u.core 0
  z.g.region == none && z.g.m0 == z.g.live && z.g.occupied && !k.elq.any (fun e => e.slot == 0) && k.allPerformed 0 1 &&
    (k.groupsOf z.g.blk).all (fun p => (sadd 0 (k.block z.g.blk).arrived).contains p.1) == all
theorem witness_bar_first : ∃ u, let s := tstate tbar tgroup {} { groups := [(1, { occupied := true, live := 1 })] }
    s.Issues u tbar (4, 0x010) (barForm tbar) ∧ barReady s u false = true :=
  issues_with (fun u => barReady (tstate tbar tgroup {} { groups := [(1, { occupied := true, live := 1 })] }) u false) (by decide +kernel) (by decide +kernel)
theorem witness_bar_last : ∃ u, let s := tstate tbar tgroup {} { groups := [(1, { occupied := true, live := 1, hold := .barrier })], blocks := [(0, { arrived := [1], launch := {} })] }
    s.Issues u tbar (4, 0x010) (barForm tbar) ∧ barReady s u true = true :=
  issues_with (fun u => barReady (tstate tbar tgroup {} { groups := [(1, { occupied := true, live := 1, hold := .barrier })], blocks := [(0, { arrived := [1], launch := {} })] }) u true)
    (by decide +kernel) (by decide +kernel)

def tbrk : IWord := tins 4 0x31 0 0 0 0 0 0
theorem witness_brk : let s := tstate tbrk tgroup {} {}
    ∃ u, s.Issues u tbrk (4, 0x031) (bareForm tbrk) ∧ (s.view tbrk).act ≠ 0 ∧ (u.core 0).busyWith 0 = false ∧ s.corePage 0 < 2048 ∧ (s.view tbrk).l.ctx < 4096 ∧
      u.xfld 0 R.CTX_FAULT_VALID = 0 ∧ u.kfld 0 R.FAULT_INFO_VALID = 0 :=
  issues_and _ (by decide +kernel) (by decide +kernel)

/-! ### Witnesses of the statements about memory instructions -/

theorem inLine_one {th va pa n : Nat} {e : TlbEnt} (h : pa % 128 + n ≤ 128) (k : inHost pa = false) : inLine [(th, va, .ok pa e)] (pa / 128) n := by
  intro p hp
  obtain rfl := List.mem_singleton.mp hp
  exact ⟨pa, e, rfl, rfl, h, k⟩
theorem holds_full {l : L1Line} (h : l.valid = 15) (k : l.poison = 0) (r : List (Nat × Nat × XAcc)) (n : Nat) : l.holds r n := by
  intro _ _ _ _ _ i hi _ _
  rw [h, k]
  exact (by decide : ∀ i < 4, bit 15 i = true ∧ bit 0 i = false) i hi
theorem clearFor_idle {k : Core} {slot : Nat} (h : k.ops = []) (m : k.miss = []) (r : k.replay = []) (hs : slot < 32) : k.clearFor slot := by
  refine ⟨?_, ?_, r, hs⟩ <;> simp [h, m]

/-- A group of one thread whose v1 holds an address, and the page that its cove's tables give it. -/
def tone : Group := { live := 1, m := [(0, 1)], v := [(64, 0x1000), (128, 7), (192, 5)] }
def tpa : Nat := tbase + 0x1000
def tent : TlbEnt := { vpn := 0, shift := 30, pa := tbase, w := true, wt := false }
def tline (st : LSt) : Core := { l1 := [(tpa / 128, { st := st, valid := 15 })] }
/-- What the statements about L1 hits ask of the state whose accesses have been translated. -/
def hitReady (v : State) (r : List (Nat × Nat × XAcc)) (x : State) (line : L1Line) : Prop :=
  addrFaults (fun a => a % 4 == 0) r = [] ∧ v.ready = true ∧ r = [(0, 0x1000, .ok tpa tent)] ∧ (x.core 0).ops = [] ∧ (x.core 0).miss = [] ∧
    (x.core 0).replay = [] ∧ (x.core 0).elq = [] ∧ (x.core 0).line (tpa / 128) = line ∧ x.fld clsCore (x.corePage 0) R.ERR_INJECT_ARM = 0

def tld : IWord := tins 1 0 3 1 0 0 2 0
def ldForm (w : IWord) : Form := ldstForm (insOf w) true 2 ((insOf w).ordOk [0, 1] [0, 1, 2, 3] [0, 1])
theorem witness_ld : let s := tstate tld tone {} (tline .s)
    let z := s.view tld
    ∃ u x, s.Issues u tld (1, 0x000) (ldForm tld) ∧ z.act ≠ 0 ∧ z.i.order = 0 ∧ z.i.loc = 0 ∧ z.i.width = 4 ∧
      addrFaults (fun a => a % 4 == 0) (u.coreAddrs 0 z.g.quarter z.l.cove false (z.addrs 4)).1 = [] ∧
      (u.advanced tld z (ldForm tld)).coreAddrs 0 z.g.quarter z.l.cove false (z.addrs 4) = ([(0, 0x1000, .ok tpa tent)], x) ∧
      inLine [(0, 0x1000, .ok tpa tent)] (tpa / 128) 4 ∧ (x.core 0).clearFor 0 ∧ x.fld clsCore (x.corePage 0) R.ERR_INJECT_ARM = 0 ∧
      stable ((x.core 0).line (tpa / 128)).st = true ∧ ((x.core 0).line (tpa / 128)).holds [(0, 0x1000, .ok tpa tent)] 4 := by
  intro s z
  obtain ⟨u, h, a, b, c, d, e, f, g, i, j⟩ := issues_and (s := s) (w := tld) (op := (1, 0)) (f := ldForm tld) (fun u =>
    let q := (u.advanced tld z (ldForm tld)).coreAddrs 0 z.g.quarter z.l.cove false (z.addrs 4)
    (z.act ≠ 0 ∧ z.i.order = 0 ∧ z.i.loc = 0 ∧ z.i.width = 4) ∧ addrFaults (fun a => a % 4 == 0) (u.coreAddrs 0 z.g.quarter z.l.cove false (z.addrs 4)).1 = [] ∧
      q.1 = [(0, 0x1000, .ok tpa tent)] ∧ (q.2.core 0).ops = [] ∧ (q.2.core 0).miss = [] ∧ (q.2.core 0).replay = [] ∧
      q.2.fld clsCore (q.2.corePage 0) R.ERR_INJECT_ARM = 0 ∧ ((q.2.core 0).line (tpa / 128)).st = .s ∧
      ((q.2.core 0).line (tpa / 128)).valid = 15 ∧ ((q.2.core 0).line (tpa / 128)).poison = 0) (by decide +kernel) (by decide +kernel)
  exact ⟨u, _, h, a.1, a.2.1, a.2.2.1, a.2.2.2, b, Prod.ext c rfl, inLine_one (by decide) (by decide), clearFor_idle d e f (by decide), g, by rw [i]; rfl,
    holds_full j.1 j.2 _ _⟩

def tst : IWord := tins 1 1 2 1 0 0 2 0
def stForm (w : IWord) : Form := ldstForm (insOf w) false 2 ((insOf w).ordOk [0, 2] [0, 1, 2, 3] [0])
theorem witness_st : let s := tstate tst tone {} (tline .e)
    let z := s.view tst
    ∃ u x, s.Issues u tst (1, 0x001) (stForm tst) ∧ z.act ≠ 0 ∧ z.i.order = 0 ∧ z.i.width = 4 ∧
      addrFaults (fun a => a % 4 == 0) (u.coreAddrs 0 z.g.quarter z.l.cove true (z.addrs 4)).1 = [] ∧
      (u.advanced tst z (stForm tst)).coreAddrs 0 z.g.quarter z.l.cove true (z.addrs 4) = ([(0, 0x1000, .ok tpa tent)], x) ∧
      inLine [(0, 0x1000, .ok tpa tent)] (tpa / 128) 4 ∧ tent.wt = false ∧ (x.core 0).clearFor 0 ∧ (x.core 0).writesFree 0 ∧
      ((x.core 0).line (tpa / 128)).st = .e ∧ ((x.core 0).line (tpa / 128)).holds [(0, 0x1000, .ok tpa tent)] 4 ∧ (x.core 0).lineMisses (tpa / 128) = [] := by
  intro s z
  obtain ⟨u, h, a, b, c, d, e, f, g, k, i, j⟩ := issues_and (s := s) (w := tst) (op := (1, 1)) (f := stForm tst) (fun u =>
    let q := (u.advanced tst z (stForm tst)).coreAddrs 0 z.g.quarter z.l.cove true (z.addrs 4)
    (z.act ≠ 0 ∧ z.i.order = 0 ∧ z.i.width = 4) ∧ addrFaults (fun a => a % 4 == 0) (u.coreAddrs 0 z.g.quarter z.l.cove true (z.addrs 4)).1 = [] ∧
      q.1 = [(0, 0x1000, .ok tpa tent)] ∧ (q.2.core 0).ops = [] ∧ (q.2.core 0).miss = [] ∧ (q.2.core 0).replay = [] ∧ (q.2.core 0).elq = [] ∧
      (q.2.core 0).lineMisses (tpa / 128) = [] ∧ ((q.2.core 0).line (tpa / 128)).st = .e ∧
      ((q.2.core 0).line (tpa / 128)).valid = 15 ∧ ((q.2.core 0).line (tpa / 128)).poison = 0) (by decide +kernel) (by decide +kernel)
  exact ⟨u, _, h, a.1, a.2.1, a.2.2, b, Prod.ext c rfl, inLine_one (by decide) (by decide), rfl, clearFor_idle d e f (by decide), by simp [Core.writesFree, g], i,
    holds_full j.1 j.2 _ _, k⟩

/-- What every atomic's statement asks, by the opcode, operation and types. -/
def atomReady (w : IWord) (code : Nat) (op : AOp) (types : Fmt → Bool) (far : Bool) : Prop :=
  let s := tstate w tone {} (tline .e)
  let z := s.view w
  let f := (z.i.ty).getD .int32
  ∃ u x, s.Issues u w (1, code) (atomForm z.i op types) ∧ z.act ≠ 0 ∧ z.i.order = 0 ∧
    addrFaults (atomAligned op f) (u.coreAddrs 0 z.g.quarter z.l.cove true [(0, z.atomEa 0)]).1 = [] ∧
    (u.advanced w z (atomForm z.i op types)).coreAddrs 0 z.g.quarter z.l.cove true (z.threads.map (fun th => (th, z.atomEa th))) = ([(0, 0x1000, .ok tpa tent)], x) ∧
    (u.coreAddrs 0 z.g.quarter z.l.cove true (z.threads.map (fun th => (th, z.atomEa th)))).1 = [(0, 0x1000, .ok tpa tent)] ∧
    inHost tpa = false ∧ tpa % 128 + atomBytes op f ≤ 128 ∧ (x.core 0).clearFor 0 ∧ (x.core 0).writesFree 0 ∧
    x.fld clsCore (x.corePage 0) R.ERR_INJECT_ARM = 0 ∧ x.goesFar 0 z.i.loc tpa = far ∧ ((x.core 0).line (tpa / 128)).st = .e ∧
    ((x.core 0).line (tpa / 128)).valid = 15 ∧ (x.core 0).lineMisses (tpa / 128) = []
theorem atomReady_of {w : IWord} {code : Nat} {op : AOp} {types : Fmt → Bool} {far : Bool}
    (h : sound (tstate w tone {} (tline .e)) w (1, code) (atomForm ((tstate w tone {} (tline .e)).view w).i op types) = true)
    (q : ((tstate w tone {} (tline .e)).fetched w).any (fun u => decide (
      let z := (tstate w tone {} (tline .e)).view w
      let f := (z.i.ty).getD .int32
      let vas := z.threads.map (fun th => (th, z.atomEa th))
      let q := (u.advanced w z (atomForm z.i op types)).coreAddrs 0 z.g.quarter z.l.cove true vas
      (z.act ≠ 0 ∧ z.i.order = 0 ∧ addrFaults (atomAligned op f) (u.coreAddrs 0 z.g.quarter z.l.cove true [(0, z.atomEa 0)]).1 = []) ∧
        q.1 = [(0, 0x1000, .ok tpa tent)] ∧ (u.coreAddrs 0 z.g.quarter z.l.cove true vas).1 = [(0, 0x1000, .ok tpa tent)] ∧ tpa % 128 + atomBytes op f ≤ 128 ∧
        (q.2.core 0).ops = [] ∧ (q.2.core 0).miss = [] ∧ (q.2.core 0).replay = [] ∧ (q.2.core 0).elq = [] ∧
        q.2.fld clsCore (q.2.corePage 0) R.ERR_INJECT_ARM = 0 ∧ q.2.goesFar 0 z.i.loc tpa = far ∧ ((q.2.core 0).line (tpa / 128)).st = .e ∧
        ((q.2.core 0).line (tpa / 128)).valid = 15 ∧ (q.2.core 0).lineMisses (tpa / 128) = [])) = true) : atomReady w code op types far := by
  obtain ⟨u, h, a, c, v, m, d, e, f, g, i⟩ := issues_and _ h q
  exact ⟨u, _, h, a.1, a.2.1, a.2.2, Prod.ext c rfl, v, by decide, m, clearFor_idle d e f (by decide), by simp [Core.writesFree, g], i⟩
theorem witness_atomAdd : atomReady (tins 1 0x10 4 1 0 3 1 0) 0x010 .add atomAddTypes false := atomReady_of (by decide +kernel) (by decide +kernel)
theorem witness_atomXchg : atomReady (tins 1 0x16 255 1 0 3 1 0) 0x016 .xchg atomCasTypes false := atomReady_of (by decide +kernel) (by decide +kernel)
theorem witness_atomCas : atomReady (tins 1 0x17 4 1 0 2 1 8) 0x017 .cas atomCasTypes true := atomReady_of (by decide +kernel) (by decide +kernel)
theorem witness_atomWes : atomReady (tins 1 0x18 255 1 0 3 5 8) 0x018 .wes atomWesTypes true := atomReady_of (by decide +kernel) (by decide +kernel)

theorem act_one {th : Nat} (h : (1 : W64).getLsbD th = true) : th = 0 := by
  rcases th with _ | n
  · rfl
  · simp at h
def tldsp : IWord := tins 1 2 3 4 0 0 2 0
theorem witness_ldSp : let s := tstate tldsp tone {} {}
    let z := s.view tldsp
    ∃ u, s.Issues u tldsp (1, 0x002) (ldstForm (insOf tldsp) true 1 ((insOf tldsp).ordOk [0] [] [0])) ∧
      (∀ th, z.act.getLsbD th = true → z.spOff th % 4 = 0 ∧ z.spOff th + 4 ≤ (u.blockOf 0 0).spLen) ∧ (u.core 0).busyWith 0 = false ∧
      u.spMarkFaults 0 (z.threads.map (fun th => ((u.blockOf 0 0).spOff + z.spOff th, 4))) = [] := by
  intro s z
  obtain ⟨u, h, a, b, c⟩ := issues_and (s := s) (w := tldsp) (op := (1, 2)) (f := ldstForm (insOf tldsp) true 1 ((insOf tldsp).ordOk [0] [] [0]))
    (fun u => (z.act = 1 ∧ z.spOff 0 % 4 = 0 ∧ z.spOff 0 + 4 ≤ (u.blockOf 0 0).spLen) ∧ (u.core 0).busyWith 0 = false ∧
      u.spMarkFaults 0 (z.threads.map (fun th => ((u.blockOf 0 0).spOff + z.spOff th, 4))) = []) (by decide +kernel) (by decide +kernel)
  exact ⟨u, h, fun th ht => by rw [a.1] at ht; obtain rfl := act_one ht; exact a.2, b, c⟩
/-- The last word of the block's 256 bytes. -/
def tstsp : IWord := tins 1 3 2 4 0 63 2 0
theorem witness_stSp : let s := tstate tstsp tone {} {}
    let z := s.view tstsp
    ∃ u, s.Issues u tstsp (1, 0x003) (ldstForm (insOf tstsp) false 1 ((insOf tstsp).ordOk [0] [] [0])) ∧
      (∀ th, z.act.getLsbD th = true → z.spOff th % 4 = 0 ∧ z.spOff th + 4 = (u.blockOf 0 0).spLen) ∧ (u.core 0).busyWith 0 = false := by
  intro s z
  obtain ⟨u, h, a, b⟩ := issues_and (s := s) (w := tstsp) (op := (1, 3)) (f := ldstForm (insOf tstsp) false 1 ((insOf tstsp).ordOk [0] [] [0]))
    (fun u => (z.act = 1 ∧ z.spOff 0 % 4 = 0 ∧ z.spOff 0 + 4 = (u.blockOf 0 0).spLen) ∧ (u.core 0).busyWith 0 = false) (by decide +kernel) (by decide +kernel)
  exact ⟨u, h, fun th ht => by rw [a.1] at ht; obtain rfl := act_one ht; exact a.2, b⟩

/-- A cove with one slice and one carved way. -/
def tshelf (w : IWord) (g : Group) : State :=
  ((tstate w g {} {}).modCove 0 (fun c => { c with carve := 1 })).setFld clsCove 0 R.COVE_SLICES_n_SL 1
def tldsh : IWord := tins 1 4 3 4 0 0 2 0
def tstsh : IWord := tins 1 5 2 4 0 0 2 0
theorem witness_ldShelf : let s := tshelf tldsh tone
    let z := s.view tldsh
    ∃ u, s.Issues u tldsh (1, 0x004) (ldstForm z.i true 2 (z.i.ordOk [0, 1] [2, 3] [0])) ∧ z.act ≠ 0 ∧ z.i.order = 0 ∧ (u.core 0).clearFor 0 ∧ (u.core 0).writesFree 0 ∧
      (∀ th, z.act.getLsbD th = true → z.ea 4 th % 4 = 0 ∧ z.ea 4 th + 4 ≤ u.windowBytes z.l.cove ∧ (shelfBase z.l.cove + z.ea 4 th) / 128 = shelfBase 0 / 128 ∧
        (shelfBase z.l.cove + z.ea 4 th) % 128 + 4 ≤ 128) := by
  intro s z
  obtain ⟨u, h, a, b, c, d, e, f⟩ := issues_and (s := s) (w := tldsh) (op := (1, 4)) (f := ldstForm z.i true 2 (z.i.ordOk [0, 1] [2, 3] [0]))
    (fun u => (z.act = 1 ∧ z.i.order = 0) ∧ (u.core 0).ops = [] ∧ (u.core 0).miss = [] ∧ (u.core 0).replay = [] ∧ (u.core 0).elq = [] ∧
      (z.ea 4 0 % 4 = 0 ∧ z.ea 4 0 + 4 ≤ u.windowBytes z.l.cove ∧ (shelfBase z.l.cove + z.ea 4 0) / 128 = shelfBase 0 / 128 ∧
        (shelfBase z.l.cove + z.ea 4 0) % 128 + 4 ≤ 128)) (by decide +kernel) (by decide +kernel)
  exact ⟨u, h, by rw [a.1]; decide, a.2, clearFor_idle b c d (by decide), by simp [Core.writesFree, e],
    fun th ht => by rw [a.1] at ht; obtain rfl := act_one ht; exact f⟩
theorem witness_stShelf : let s := tshelf tstsh tone
    let z := s.view tstsh
    ∃ u, s.Issues u tstsh (1, 0x005) (ldstForm z.i false 2 (z.i.ordOk [0, 2] [2, 3] [0])) ∧ z.act = 1 ∧ z.i.order = 0 ∧ (u.core 0).ops = [] ∧ (u.core 0).elq = [] ∧
      z.ea 4 0 + 4 ≤ u.windowBytes z.l.cove :=
  issues_and _ (by decide +kernel) (by decide +kernel)
theorem witness_shelf_none : let w := tinsg 1 4 3 4 0 0 2 0 1
    let s := tshelf w tone
    ∃ u, s.Issues u w (1, 0x004) (ldstForm (insOf w) true 2 ((insOf w).ordOk [0, 1] [2, 3] [0])) ∧ (s.view w).act = 0 :=
  issues_and _ (by decide +kernel) (by decide +kernel)

/-- The constant region of the launch stands at VA 0x2000, 64 bytes long. -/
def tconst : Launch := { const := 0x2000, constBytes := 64 }
def tldc : IWord := tins 1 6 3 4 0 0 2 0
theorem witness_ldConst : let s := tstate tldc tone tconst {}
    let z := s.view tldc
    let vas := (z.addrs 4).map (fun p => (p.1, (z.l.const + p.2) % 2 ^ 64))
    ∃ u x vs, s.Issues u tldc (1, 0x006) (ldstForm z.i true 2 (z.i.ordOk [0] [] [0])) ∧ (∀ o ∈ (u.core 0).ops, o.slot ≠ 0) ∧ z.act ≠ 0 ∧ (u.core 0).replay = [] ∧
      (∀ th, z.act.getLsbD th = true → z.ea 4 th % 4 = 0 ∧ z.ea 4 th + 4 ≤ z.l.constBytes) ∧
      addrFaults (fun _ => true) (u.coreAddrs 0 z.g.quarter z.l.cove false vas).1 = [] ∧ (u.constReads 0 z.g.quarter z.l.cove 4 vas).isSome = true ∧
      (u.advanced tldc z (ldstForm z.i true 2 (z.i.ordOk [0] [] [0]))).constReads 0 z.g.quarter z.l.cove 4 vas = some (vs, x) ∧ (∀ p ∈ vs, p.2.2 = (false, false)) := by
  intro s z vas
  obtain ⟨u, h, a, b, c, d, e⟩ := issues_and (s := s) (w := tldc) (op := (1, 6)) (f := ldstForm z.i true 2 (z.i.ordOk [0] [] [0]))
    (fun u => (z.act = 1 ∧ z.ea 4 0 % 4 = 0 ∧ z.ea 4 0 + 4 ≤ z.l.constBytes) ∧ (u.core 0).ops = [] ∧ (u.core 0).replay = [] ∧
      (addrFaults (fun _ => true) (u.coreAddrs 0 z.g.quarter z.l.cove false vas).1 = [] ∧ (u.constReads 0 z.g.quarter z.l.cove 4 vas).isSome = true) ∧
      ((u.advanced tldc z (ldstForm z.i true 2 (z.i.ordOk [0] [] [0]))).constReads 0 z.g.quarter z.l.cove 4 vas).any (fun r => r.1.all (fun p => p.2.2 == (false, false))) = true)
    (by decide +kernel) (by decide +kernel)
  obtain ⟨r, hr, ha⟩ := (Option.any_eq_true _ _).mp e
  exact ⟨u, r.2, r.1, h, by simp [b], by rw [a.1]; decide, c, fun th ht => by rw [a.1] at ht; obtain rfl := act_one ht; exact a.2, d.1, d.2, hr, by simpa using ha⟩
def tfence : IWord := tins 1 0x20 0 0 0 0 0 0x30
def fenceForm (i : Ins) : Form :=
  { legal := i.guardOk true && !i.lg && i.t == 0 && i.order == 3 && i.loc == 0 && i.scale == 0
    ops := [⟨.zero, i.d, false⟩, ⟨.zero, i.a, false⟩, ⟨.zero, i.b, false⟩, ⟨.zero, i.c, false⟩] }
theorem witness_fence : ∃ u, (tstate tfence tone {} {}).Issues u tfence (1, 0x020) (fenceForm (insOf tfence)) ∧ (u.core 0).elq = [] ∧ (u.core 0).ops = [] :=
  issues_and _ (by decide +kernel) (by decide +kernel)
def tinv : IWord := tins 1 0x21 0 0 0 7 0 0
def invForm (i : Ins) : Form :=
  { legal := i.guardOk true && !i.lg && i.t == 0 && i.q == 0 && decide (i.c < 8)
    ops := [⟨.zero, i.d, false⟩, ⟨.zero, i.a, false⟩, ⟨.zero, i.b, false⟩, ⟨.raw, i.c, false⟩] }
theorem witness_invRo : ∃ u, (tstate tinv tone {} {}).Issues u tinv (1, 0x021) (invForm (insOf tinv)) :=
  (issues_of_sound (by decide +kernel)).imp fun _ h => h.2

/-! ### Witnesses of the statements about registers, coves and contexts -/

def reaches (s : State) (w : RegW) (cls inst off : Nat) : Bool :=
  decide (w.vf = none ∧ w.size = 8 ∧ w.val < 2 ^ 64 ∧ w.off = cls * 2 ^ 23 + inst * 2 ^ 12 + off ∧ off % 8 = 0 ∧ off < 4096) && (classMax cls).any (fun n => decide (inst ≤ n)) &&
    s.ready && s.pageLive cls inst && decide (s.wakePage cls inst = s)
theorem reaches_of {s : State} {w : RegW} {cls inst off : Nat} (h : reaches s w cls inst off = true) : s.Reaches w cls inst off := by
  simp only [reaches, Bool.and_eq_true, decide_eq_true_eq] at h
  obtain ⟨⟨⟨⟨⟨a, b, c, d, e, f⟩, g⟩, i⟩, j⟩, k⟩ := h
  obtain ⟨n, hn, hi⟩ := (Option.any_eq_true _ _).mp g
  exact ⟨a, b, c, d, ⟨n, hn, of_decide_eq_true hi⟩, ⟨e, f⟩, i, j, k⟩
/-- The module READY with its first compute die in use, and a 64-bit write of the PF. -/
def tready : State := { State.reset with se := { State.reset.se with stage := 10, ldie := [(0, 0)] } }
def tw (cls inst off val : Nat) : RegW := ⟨none, cls * 2 ^ 23 + inst * 2 ^ 12 + off, 8, val⟩
theorem witness_header : tready.Reaches (tw 0x07 64 0x0E0 0xFF) 0x07 64 (0x080 + 0x20 * 3) ∧ tready.Reaches (tw 0 0 0x010 7) 0 0 0x010 ∧
    bit 7 R.UNIT_CTRL_EVT_CLR.lo = true ∧ bit 7 R.UNIT_CTRL_ERRCNT_CLR.lo = true ∧ tready.Reaches (tw 0 0 0x048 3) 0 0 0x048 ∧
    tready.Reaches (tw 0 0 0x038 0x101) 0 0 0x038 ∧ tready.fld 0 0 R.LOCK_INJECT_LOCK ≠ 1 :=
  ⟨reaches_of (by decide +kernel), reaches_of (by decide +kernel), by decide, by decide, reaches_of (by decide +kernel), reaches_of (by decide +kernel), by decide +kernel⟩
theorem witness_access : tready.Reaches (tw 0 0 0x028 63) 0 0 0x028 ∧ tready.Reaches (tw 0 0 0x020 63) 0 0 0x020 ∧ tready.Reaches (tw 0 0 0 1) 0 0 0 ∧
    (tready.setFld clsCore 15 R.LOCK_CFG_LOCK 1).Reaches (tw clsCore 15 0x500 1) clsCore 15 0x500 ∧ (tready.setFld clsCore 15 R.LOCK_CFG_LOCK 1).fld clsCore 15 R.LOCK_CFG_LOCK = 1 ∧
    bar0Access 4 8 = false ∧ bar0Access 2 4 = false ∧ bar0Access 0 2 = false ∧ bar0Access 4 4 = true ∧ State.reset.ready = false :=
  ⟨reaches_of (by decide +kernel), reaches_of (by decide +kernel), reaches_of (by decide +kernel), reaches_of (by decide +kernel), by decide +kernel, by decide⟩
theorem witness_clear : tready.Reaches (tw clsCore 15 0x500 6) clsCore 15 0x500 ∧ tready.coreOfPage 15 = some 15 ∧ tready.corePage 15 = 15 ∧ bit 6 2 = true ∧
    tready.Reaches (tw clsCore 15 0x118 0x100) clsCore 15 0x118 ∧ tready.Reaches (tw clsSlice 0 0x218 (2 ^ 32)) clsSlice 0 0x218 ∧
    tready.Reaches (tw clsTide 8 0x120 1) clsTide 8 0x120 ∧ tready.Reaches (tw clsPwr 0 0x128 (2 ^ 48)) clsPwr 0 0x128 ∧
    tready.Reaches (tw clsPwr 0 0x100 8191) clsPwr 0 0x100 ∧ tready.fld clsPwr 0 R.LOCK_CFG_LOCK ≠ 1 :=
  ⟨reaches_of (by decide +kernel), by decide +kernel, by decide +kernel, by decide, reaches_of (by decide +kernel), reaches_of (by decide +kernel), reaches_of (by decide +kernel),
    reaches_of (by decide +kernel), reaches_of (by decide +kernel), by decide +kernel⟩
/-- Core 0 holds one modified line of HBM that nothing else concerns. -/
def tmaint : State := { tready with cores := [(0, { l1 := [(2 ^ 20, { st := .m, valid := 15, dirty := 1 })] })] }
theorem witness_maint : tmaint.Reaches (tw clsCore 0 0x218 1) clsCore 0 0x218 ∧ tmaint.Reaches (tw clsCore 0 0x218 2) clsCore 0 0x218 ∧ tmaint.coreOfPage 0 = some 0 ∧ tmaint.corePage 0 = 0 ∧
    bit 1 3 = false ∧ bit 2 3 = false ∧ (tmaint.core 0).blocks = [] ∧ (tmaint.core 0).waiting = [] ∧ (tmaint.core 0).lineMisses (2 ^ 20) = [] ∧ (tmaint.core 0).asked (2 ^ 20) = false ∧
    tmaint.lineBusy (2 ^ 20) = false ∧ (tmaint.hline (tmaint.home (tmaint.coreCove 0) (2 ^ 20)) (2 ^ 20)).present = false ∧ tmaint.linkLost (2 ^ 27) = false :=
  ⟨reaches_of (by decide +kernel), reaches_of (by decide +kernel), by decide +kernel⟩

/-- The last queue of the last CMDQ page, not enabled and enabled. -/
def tqueue (v : Nat) : RegW := tw clsCmdq 2047 (0x110 + 0x20 * 7) v
theorem witness_queue : tready.Reaches (tqueue (2 ^ 63 + 4 * 2 ^ 48)) clsCmdq 2047 (0x110 + 0x20 * 7) ∧ bit (2 ^ 63 + 4 * 2 ^ 48) 63 = true ∧ bit (2 ^ 63 + 4 * 2 ^ 48) 61 = false ∧
    tready.qfld 4095 3 R.Q_CFG_ENABLE = 0 ∧ tready.qfld 4095 3 R.Q_SQ_BASE_SPACE < 2 ∧ tready.qfld 4095 3 R.Q_CQ_BASE_SPACE < 2 :=
  ⟨reaches_of (by decide +kernel), by decide, by decide, by decide +kernel⟩
theorem witness_queue_resume : let s := tready.setQ 4095 3 R.Q_CFG_ENABLE 1
    s.Reaches (tqueue (2 ^ 63 + 2 ^ 61)) clsCmdq 2047 (0x110 + 0x20 * 7) ∧ bit (2 ^ 63 + 2 ^ 61) 63 = true ∧ bit (2 ^ 63 + 2 ^ 61) 61 = true ∧
    s.qfld 4095 3 R.Q_CFG_ENABLE = 1 ∧ (s.queue 4095 3).held = [] :=
  ⟨reaches_of (by decide +kernel), by decide, by decide, by decide +kernel⟩

/-- Cove 63 asks for core 0; then it is active with that core and slice 0. -/
def tcove (st : Nat) : State :=
  (({ tready with hs := { tready.hs with coves := [(63, { st := st })] } } : State).setFldN clsCove 63 R.COVE_CORES_n_CORE 0 1).setFldN clsCove 63 R.COVE_SLICES_n_SL 0 1
theorem witness_cove : (tcove 0).Reaches (tw clsCove 63 0x100 0x10) clsCove 63 0x100 ∧ bits 0x10 5 4 = 1 ∧ ((tcove 0).cove 63).st = 0 ∧ (tcove 0).createResult 63 ≠ 0 ∧
    (tcove 2).Reaches (tw clsCove 63 0x100 0x20) clsCove 63 0x100 ∧ bits 0x20 5 4 = 2 ∧ bits 0x30 5 4 = 3 ∧ ((tcove 2).cove 63).st = 2 ∧ (tcove 2).hs.ctxs = [] ∧
    (tcove 2).Reaches (tw clsCove 63 0x2C0 0) clsCove 63 0x2C0 ∧ ((tcove 2).fldN clsCove 63 R.COVE_CORES_n_CORE 0) = 1 :=
  ⟨reaches_of (by decide +kernel), by decide, by decide +kernel, by decide +kernel, reaches_of (by decide +kernel), by decide, by decide, by decide +kernel, rfl, reaches_of (by decide +kernel),
    by decide +kernel⟩
/-- Core 0 leaves cove 63. -/
def tleave : State := { tready with hs := { tready.hs with coves := [(63, { st := 2, leaving := [0] })] } }
theorem witness_leave : tleave.hs.coves.find? (fun p => p.2.leaving.contains 0) = some (63, tleave.cove 63) ∧ tleave.mayLeave 0 = true ∧ (tleave.core 0).l1 = [] := by decide +kernel

/-- Context 4095 of cove 63, in a state. -/
def tctx (st : Nat) : State :=
  ((({ tready with hs := { tready.hs with coves := [(63, { st := 2 })], ctxs := [(4095, { st := st })] } } : State).setFld clsCove 63 R.COVE_CTX_BASE 4095).setFld clsCove 63 R.COVE_CTX_COUNT 1)
theorem witness_ctx : (∀ n, n = 1 ∨ n = 2 ∨ n = 3 ∨ n = 4 ∨ n = 5 → (tctx 0).Reaches (tw (ctxCls 4095) 2047 0x108 n) (ctxCls 4095) (4095 % 2048) 0x108) ∧
    ((tctx 0).activeCoveOf 4095).isSome = true ∧ ((tctx 1).ctx 4095).st = 1 ∧ (tctx 1).hs.cmds = [] ∧ (tctx 1).ns.doms = [] ∧ (tctx 1).cores = [] ∧ ((tctx 1).ctx 4095).restoring = false ∧
    ((tctx 3).ctx 4095).st = 3 ∧ ((tctx 3).ctx 4095).saving = false ∧ ((tctx 3).ctx 4095).images = [] ∧ ((tctx 4).ctx 4095).st = 4 :=
  ⟨by rintro n (rfl | rfl | rfl | rfl | rfl) <;> exact reaches_of (by decide +kernel), by decide +kernel⟩

/-- Cove 63 asks for core 0, slice 1, channels 0 and 1 and their frames. -/
def tcreate : State :=
  ((((({ tready with hb := { present := [8, 9], chans := [(0, { st := 1 }), (1, { st := 1 })] } } : State).setFldN clsCove 63 R.COVE_CORES_n_CORE 0 1).setFldN clsCove 63
    R.COVE_SLICES_n_SL 0 2).setFldN clsCove 63 R.COVE_CHANNELS_n_CH 0 3).setFld clsCove 63 R.COVE_SAVE_FRAMES 1).setFld clsCove 63 R.COVE_FRAMES_FB 8
theorem witness_create : tcreate.Reaches (tw clsCove 63 0x100 0x10) clsCove 63 0x100 ∧ (tcreate.cove 63).st = 0 ∧ tcreate.createResult 63 = 0 ∧
    (∀ k ∈ tcreate.coveCoreBits 63, tcreate.corePage k < 2048 ∧ (tcreate.core k).heldLines = []) :=
  ⟨reaches_of (by decide +kernel), by decide +kernel⟩

/-! ### Witnesses of the statements about security, firmware, power, memory and host -/

/-- The module at an SPDM step, with a session. -/
def tspdm (n : Nat) : State := { tready with se := { tready.se with spdm := { step := n, session := 9, mutAuth := true, root := 5 } } }
theorem witness_spdm : (tspdm 1).spdmUp = true ∧ (tspdm 1).se.spdm.step = 1 ∧ (tspdm 2).se.spdm.step = 2 ∧ (tspdm 3).spdmUp = true ∧ 3 ≤ (tspdm 3).se.spdm.step ∧
    (leBytes 4 0).getD 2 0 = 0 ∧ (tspdm 3).measured 8 = none ∧ (tspdm 3).measured 3 = some [(tspdm 3).secBootWord] ∧ (tspdm 3).ready = true ∧
    (tspdm 3).measuresFree 3 = false := by decide +kernel
/-- A KEY_IMPORT of slot 64 with two different keys. -/
def tkeys : List Byte := leBytes 1 64 ++ leBytes 32 1 ++ leBytes 32 2
def tsession : State := (tspdm 5).setFldN clsSec 0 R.SEC_IMPORT_ROOT_n_HASH 0 5
theorem witness_session : tsession.spdmUp = true ∧ tsession.se.spdm.step = 5 ∧ tsession.se.spdm.session = 9 ∧ tsession.se.spdm.mutAuth = true ∧ tkeys.length = 65 ∧
    tsession.importStatus tkeys = 0 ∧ (tspdm 5).importStatus tkeys ≠ 0 ∧ (tspdm 4).se.spdm.step = 4 := by decide +kernel
theorem witness_generate : tready.Reaches (tw clsSec 0 0x118 (256 + 64)) clsSec 0 0x118 ∧ bits (256 + 64) 9 8 = 1 ∧ (tready.cove 64).st = 0 ∧
    tready.Reaches (tw clsSec 0 0x118 (256 + 65)) clsSec 0 0x118 ∧ (tcove 2).Reaches (tw clsSec 0 0x118 (256 + 63)) clsSec 0 0x118 ∧ ((tcove 2).cove 63).st ≠ 0 :=
  ⟨reaches_of (by decide +kernel), by decide, by decide +kernel, reaches_of (by decide +kernel), reaches_of (by decide +kernel), by decide +kernel⟩
/-- A firmware update in a state, 8 of 16 bytes received. -/
def tupd (n : Nat) : State := { tready with se := { tready.se with update := n, updSize := 16, updGot := 8 } }
theorem witness_update : (tupd 3).updUp = true ∧ (tupd 3).se.update = 3 ∧ (tupd 3).se.updGot + 7 < (tupd 3).se.updSize ∧ (tupd 3).se.updSize ≤ (tupd 3).se.updGot + 8 ∧
    (tupd 3).se.minSvn ≤ (tupd 3).se.updHdr.svn ∧ (tupd 4).updUp = true ∧ (tupd 4).se.update = 4 ∧ (tupd 2).se.update ≠ 0 ∧ (tupd 2).se.update ≠ 4 ∧ 1 ≤ (tupd 4).se.update := by decide +kernel
theorem witness_serves : (tupd 0).Serves 1 0x80 2 [] (vendorHead ++ leBytes 1 0x80 ++ leBytes 1 2) ∧ (tupd 0).Serves 2 0x80 5 [] (vendorHead ++ leBytes 1 0x80 ++ leBytes 1 5) :=
  ⟨⟨rfl, by decide, by decide, by decide +kernel, by decide +kernel, rfl⟩, ⟨rfl, by decide, by decide, by decide +kernel, by decide +kernel, rfl⟩⟩
theorem witness_token : (tupd 0).Serves 1 0x80 3 (List.replicate 160 0) (vendorHead ++ leBytes 1 0x80 ++ leBytes 1 3 ++ List.replicate 160 0) ∧ (tupd 0).tokenOk (List.replicate 160 0) = false :=
  ⟨⟨rfl, by decide, by decide +kernel, by decide +kernel, by decide +kernel, rfl⟩, by decide +kernel⟩
theorem witness_busy : ({ tready with se := { tready.se with busyWait := [(1, [])] } } : State).se.busyWait = (1, []) :: [] := rfl
/-- An open interval of one minute, and its end. -/
def ttmk (us : Nat) : State := { tready with now := 1000 * us, tm := { running := true, cur := { openUs := 0, period := 1 } } }
theorem witness_tidemark : (ttmk 60000000).tm.permNext = some 0 ∧ (ttmk 60000000).tm.clearing = none ∧ (ttmk 60000000).armed clsTmk 0 1 = false ∧
    (ttmk 60000000).tm.cur.openUs + (ttmk 60000000).tm.cur.period * 60000000 ≤ (ttmk 60000000).us ∧ (ttmk 59999999).us < 60000000 ∧ (ttmk 0).pldmUp = true ∧
    (ttmk 0).Reaches (tw clsTmk 0 0x100 (2 ^ 16)) clsTmk 0 0x100 ∧ (ttmk 0).fld clsTmk 0 R.LOCK_CFG_LOCK ≠ 1 ∧ bit (2 ^ 16) 16 = true :=
  ⟨by decide +kernel, rfl, by decide +kernel, by decide, by decide, by decide, reaches_of (by decide +kernel), by decide +kernel, by decide⟩
theorem witness_clearing : let s : State := { ttmk 0 with tm := { (ttmk 0).tm with clearing := some 63, clearVia := viaPldm } }
    s.tm.clearing = some 63 ∧ s.tm.clearVia = viaPldm ∧ s.tm.waitRec = [] ∧ s.se.busyWait = [] := ⟨rfl, rfl, rfl, rfl⟩
def ttoken : List Byte := [0x4B, 0x39, 0x54, 0x4B, 3] ++ List.replicate 155 0
theorem witness_token_clear : (ttmk 0).se.scan = false ∧ ttoken.length = 160 ∧ tokenType ttoken = 3 ∧ (ttmk 0).tokenOk ttoken = false := by decide +kernel
theorem witness_stages : (∀ n, n = 1 ∨ n = 2 ∨ n = 6 → ({ State.reset with se := { State.reset.se with stage := n } } : State).starting = true) ∧ tready.starting = false ∧
    tready.se.off = false ∧ tready.ra.watchdogUs = none ∧ ({ tready with se := { tready.se with scan := true } } : State).se.scan = true ∧
    tready.configPrimary ≠ 7 ∧ (tready.setFld clsEdge 7 R.EDGE_STATE_ROLE 1).fld clsEdge 7 R.EDGE_STATE_ROLE = 1 ∧ (tready.edge 7).up = false :=
  ⟨by rintro n (rfl | rfl | rfl) <;> decide, by decide +kernel⟩

theorem witness_power : tready.se.off = false ∧ (List.replicate 8 400).length = 8 ∧ tready.pw.swell = none ∧ tready.pw.temps = [] ∧ tready.pw.throttling = false ∧ tready.pw.hard = false ∧
    4 * 3200 ≤ 5 * tready.pw.capW ∧ 5 * tready.pw.capW < 4 * 20000 ∧ tready.pw.level < 168 ∧ 96 ∉ tready.pw.droop ∧ tready.pw.therm = [] ∧ tready.fld clsPwr 0 R.PWR_ERR_VALID = 0 ∧
    tready.ns.doms = [] := by decide +kernel
/-- A clock change wanted while a domain runs, a droop at an island, a commitment at its end, the input out of range. -/
def tpower : State :=
  { tready with pw := { tready.pw with want4 := tready.pw.clock4 + 1, droop := [96], swell := some ⟨1000, 0, 100, 0⟩, vinOutMs := 4 }, ns := { doms := [(0, { st := 3 })], tick := 65 } }
theorem witness_power_events : ¬(tpower.pw.want4 = tpower.pw.clock4 ∧ tpower.pw.wantGate = tpower.pw.gate ∧ tpower.pw.wantPace = tpower.pw.pace) ∧ tpower.pw.throttling = false ∧
    96 ∈ tpower.pw.droop ∧ max 1 (tpower.fld clsPwr 96 R.ISL_DROOP_HOLD_CYC) ≤ 4096 ∧ (∃ w, tpower.pw.swell = some w ∧ w.remainUs = 0) ∧ 4 ≤ tpower.pw.vinOutMs ∧
    tpower.ns.tick % (tpower.dom 0).window ≠ 0 := ⟨by decide +kernel, by decide, by decide, by decide +kernel, ⟨_, rfl, rfl⟩, by decide, by decide +kernel⟩
/-- The thresholds of reset: 500 ns for C1, 8,000 for C2, 150,000 for C3; no deeper state allowed. -/
def tsleepThr : State := tready.setFld clsPwr 0 R.PWR_SLEEP_CTL_MAX_STATE 3
theorem witness_sleep_entry : tsleepThr.activeCore 15 = true ∧ tsleepThr.coreIdle 15 = true ∧ tsleepThr.eventNs 15 = none ∧ tsleepThr.sleepOf 15 = {} ∧ tsleepThr.coreQuiet 15 = true ∧
    (tsleepThr.core 15).heldLines = [] ∧ 10 * tsleepThr.fld clsPwr 0 R.PWR_SLEEP_THR_C1_THR < 501 ∧ ¬100 * tsleepThr.fld clsPwr 0 R.PWR_SLEEP_THR_C2_THR < 501 ∧
    1000 * tsleepThr.fld clsPwr 0 R.PWR_SLEEP_THR_C3_THR < 150001 ∧ tsleepThr.fld clsPwr 0 R.PWR_SLEEP_CTL_MAX_STATE = 3 := by decide +kernel
theorem witness_wake : let s : State := { tready.setFld clsPwr 0 R.PWR_CTL_PREWAKE 1 with pw := { tready.pw with sleep := [(0, { st := 3, planned := true }), (1, { st := 4, exit := true })] } }
    (s.sleepOf 0).st ≠ 0 ∧ (s.sleepOf 0).exit = false ∧ (s.sleepOf 0).planned = true ∧ s.fld clsPwr 0 R.PWR_CTL_PREWAKE = 1 ∧ (s.sleepOf 1).exit = true := by decide +kernel

/-- Cove 0 owns channel 0; the channel serves, is scrubbed and clears. -/
def tchan (clearing : Bool) : State :=
  ((({ tready with hb := { present := [8], chans := [(0, { st := 1, owner := 1, scrubPos := 2 ^ 25 - 1, clearing := clearing })] }, hs := { tready.hs with coves := [(0, { st := if clearing then 1 else 2 })] } } : State).setFldN
    clsCove 0 R.COVE_CHANNELS_n_CH 0 1).setFld clsCove 0 R.COVE_FRAMES_FB 8).setFld clsHbmc 0 R.HBMC_SCRUB_PERIOD 1
theorem witness_channel : ((tchan false).chan 0).serving = true ∧ ((tchan false).chanPa 0 (64 * (2 ^ 25 - 1))).isSome = true ∧ (tchan false).poison = [] ∧
    (tchan false).fld clsHbmc 0 R.HBMC_SCRUB_PERIOD ≠ 0 ∧ ((tchan false).chan 0).scrubPos = 2 ^ 25 - 1 ∧ ((tchan false).chan 0).clearing = false ∧ (tchan false).fld clsHbmc 0 R.HBMC_UE_VALID = 0 ∧
    (tchan false).fld clsHbmc 0 R.ERR_INJECT_ARM = 0 ∧ ((tchan true).chan 0).clearing = true ∧ ((tchan true).cove 0).st = 1 := by decide +kernel
theorem witness_expander : let s : State := { tready with hb := { tready.hb with expanders := [(5, 7, 30)] } }
    s.hb.expanders.find? (fun p => p.1 == 5) = some (5, 7, 30) ∧ 5 ∉ s.hb.expFailed ∧ s.fld clsEdge 7 R.EDGE_ERR_VALID = 0 ∧ (s.bucket 4 0).perm = false := by decide +kernel
theorem witness_walk : let s := (tstate tnop tgroup {} {}).setK 0 R.CORE_MAP_COVE_VALID 1
    s.kfld 0 R.CORE_MAP_COVE_VALID = 1 ∧ (s.core 0).walkCache = [] ∧ s.walk 0 0x1000 = .page tent ∧ s.walk 0 (2 ^ 40) = .fault (some (tbase + 16)) := by decide +kernel
theorem witness_lane : tready.laneUp (80 * 65536) = true ∧ (tready.lane 0).training = false ∧ (tready.bucket 3 (laneInst 0 33)).perm = false ∧ tready.logicalDie 0 = some 0 ∧
    (let s : State := tready.modLane 0 (fun l => { l with training := true, replays := 7 }); (s.lane 0).training = true ∧ 7 ≤ (s.lane 0).replays ∧ (s.lane 0).times = []) := by decide +kernel
/-- A mirrored commons of two channels; its first tile is being rewritten. -/
def tmirror : State :=
  ((({ tready with hs := { tready.hs with coves := [(64, { st := 2 })] }, ra := { tready.ra with rewriting := [8 * 2 ^ 31 / 4096] } } : State).setFldN clsCove 64 R.COVE_CHANNELS_n_CH 0 3).setFld clsCove 64
    R.COVE_FRAMES_FB 8).setFld clsCove 64 R.COMMONS_CFG_MIRROR 1 |>.setFld clsRas 0 R.RAS_CSCRUB_PERIOD_H 1
theorem witness_commons : 8 * 2 ^ 31 / 4096 ∈ tmirror.ra.rewriting ∧ tmirror.isCommons (8 * 2 ^ 31) = true ∧ tmirror.mirrored = true ∧ tmirror.tilePoisoned (8 * 2 ^ 31 + 2 * 2 ^ 30) = false ∧
    tmirror.retained 0 = none ∧ tmirror.net = [] ∧ tmirror.slices = [] ∧ tmirror.cores = [] ∧ tmirror.fld clsRas 0 R.RAS_CSCRUB_PERIOD_H ≠ 0 ∧
    524287 < tmirror.commonsTiles ∧ tmirror.tileCovered 524287 = false ∧ (tmirror.tileAt 524287).1 / 4096 ∉ tmirror.ra.rewriting ∧ tmirror.tileListed (tmirror.tileAt 524287).1 = false ∧
    tmirror.mem = [] := by decide +kernel

/-- Port 7 is the primary HOST port, up; cove 0 is active and serves frame 8; a translation and an access of the port wait. -/
def thost : State :=
  ((({ tready with
    hb := { present := [8], chans := [(0, { st := 1, owner := 1 })] }
    hs := { tready.hs with coves := [(0, { st := 2 })], edges := [(7, { up := true, cxl := true })], vfs := 1, masked := [5], accs := [{ port := 7, tag := 2 * 2 ^ 60 + 3, core := 0, op := 0, addr := 0, bytes := 0 }] } } : State).setFldN
    clsCove 0 R.COVE_CHANNELS_n_CH 0 1).setFld clsCove 0 R.COVE_FRAMES_FB 8).setFld clsEdge 7 R.EDGE_STATE_ROLE 1
theorem witness_host : thost.hostPortUp 7 = true ∧ thost.bar4Pa 7 (some 0) 4088 = some (8 * 2 ^ 31 + 4088) ∧ thost.bar4Pa 7 (some 0) (4088 + 8 - 1) = some (8 * 2 ^ 31 + 4095) ∧
    thost.bar4Mapped (some 0) (8 * 2 ^ 31 + 4088) = true ∧ thost.isCommons (8 * 2 ^ 31 + 4088) = false ∧ thost.isMgmt (8 * 2 ^ 31 + 4088) = false ∧
    thost.bar4Pa 7 none (2 ^ 60) = none ∧ (thost.edge 7).invals = [] ∧ (thost.edge 7).cxl = true ∧ thost.hs.cmds = [] ∧
    thost.hs.accs.find? (fun r => r.port == 7 && r.tag == (1 + 1) * 2 ^ 60 + 3) = thost.hs.accs.head? ∧ thost.primary = some 7 ∧ thost.vfOn 0 = true ∧ maskKey none 5 ∈ thost.hs.masked ∧
    thost.fld clsEdge 7 R.EDGE_ERR_VALID = 0 := by decide +kernel
theorem witness_uncached : thost.Uncached (8 * 2 ^ 31 + 4088) 8 :=
  ⟨by decide, by decide +kernel, fun _ => ⟨rfl, rfl⟩, fun p hp => by simp [thost, tready, State.reset, State.setFld, State.setFldN] at hp, fun a _ _ => ⟨by simp [State.poisoned, thost, tready, State.reset, State.setFld, State.setFldN], by simp [State.badTile, thost, tready, State.reset, State.setFld, State.setFldN]⟩⟩
theorem witness_coal : let s := (tready.setQ 0 3 R.Q_CFG_COAL_US 1).modQueue 0 3 (fun u => { u with armed := true, counted := 1 })
    (s.queue 0 3).armed = true ∧ (s.queue 0 3).counted ≠ 0 ∧ s.qfld 0 3 R.Q_CFG_COAL_US ≠ 0 ∧ s.fnOf 0 = none ∧ s.qfld 0 3 R.Q_CFG_VECTOR % 32 = 0 ∧ s.ready = true := by decide +kernel

/-! ### Witnesses of the statements about contexts, time and landings -/

/-- Context 4095 saves; core 0 holds a block of it whose group has stopped. -/
def tsave : State :=
  { tctx 2 with
    hs := { (tctx 2).hs with ctxs := [(4095, { st := 2, saving := true, bySw := true })] }
    cores := [(0, { groups := [(0, { occupied := true, live := 1 })], blocks := [(0, { launch := { ctx := 4095, cove := 63 }, ngrp := 1 })] })] }
theorem witness_save : (tsave.ctx 4095).saving = true ∧ tsave.holdingDom 4095 = none ∧ tsave.ctxQuiet 4095 = true ∧ (tsave.ctx 4095).eligible = false ∧ tsave.ctxsOf (tsave.coveOf 4095) = [4095] ∧
    (tsave.core 0).elq = [] ∧ (tsave.core 0).ofCtx 4095 = true ∧ (tsave.core 1).ofCtx 4095 = false ∧ (tsave.core 1).settleLand = tsave.core 1 := by decide +kernel
/-- The same block as an image that core 15 may take. -/
def timage : Image := { core := 15, body := { blocks := [(0, { launch := { ctx := 4095, cove := 63 }, ngrp := 1 })] } }
def trest : State := { (tctx 3).setFldN clsCove 63 R.COVE_CORES_n_CORE 0 (2 ^ 15) with hs := { (tctx 3).hs with ctxs := [(4095, { st := 3, eligible := true, images := [timage] })] } }
theorem witness_restore : (trest.ctx 4095).eligible = true ∧ (trest.ctx 4095).st = 3 ∧ (trest.ctx 4095).images = [timage] ∧ (trest.ctx 4095).shelf = [] ∧ timage.body.blocks ≠ [] ∧
    trest.takesImage 4095 15 = true ∧ trest.splitLines (15, timage) = [] ∧ trest.maintBusy 15 = false ∧ trest.xfld 4095 R.CTX_FAULT_VALID = 0 ∧ trest.hs.cmds = [] := by decide +kernel
def twaits : State := { tctx 1 with now := 51 * 10 ^ 6, hs := { (tctx 1).hs with ctxs := [(4095, { st := 1, waiting := true, eligible := true })] } }
theorem witness_horizon : (twaits.ctx 4095).st ≠ 0 ∧ (twaits.ctx 4095).waiting = true ∧ (twaits.ctx 4095).urgent = false ∧ twaits.isWaiting 4095 = true ∧
    (let n := twaits.xfld 4095 R.CTX_CFG_HORIZON_MS; (twaits.ctx 4095).waitFrom + (if n = 0 then 50 else min 1000 n) * 10 ^ 6 < twaits.now) ∧
    ((tctx 2).cove 63).st = 2 ∧ 4095 ∈ (tctx 2).ctxsOf 63 ∧ ((tctx 2).cove 63).sinceHalf + 100 < (tctx 2).halfLifeUs := by decide +kernel

/-- A port that trains its counter, and one message on it. -/
def tsync (align : Nat) (m : List SyncMsg) : State := { tready with ns := { align := align, tick := 64, missed := 65536, ports := [(23, { st := 6, rxSync := m })] } }
theorem witness_sync : (tsync 4 []).ns.tick % 64 = 0 ∧ (tsync 4 []).ns.lastSync ≠ some (tsync 4 []).ns.tick ∧ (tsync 4 []).ready = true ∧ (tsync 4 []).isMaster = false ∧
    2 ≤ (tsync 2 []).ns.missed ∧ (tsync 3 []).fld clsTide 0 R.TIDE_SYNC_CFG_HOLDOVER_LIMIT ≤ (tsync 3 []).ns.missed ∧
    (tsync 0 [⟨2 ^ 60, 64, false⟩]).popSync 23 1 = some (⟨2 ^ 60, 64, false⟩, tsync 0 []) ∧ (tsync 0 []).ns.heard = [] ∧ ((tsync 0 []).port 23).trained = true := by decide +kernel
theorem witness_sync_master : let s : State := { tready.setFld clsTide 0 R.TIDE_SYNC_CFG_MASTER 1 with ns := { align := 0, tick := 64, ports := [(23, { st := 7 })] } }
    s.isMaster = true ∧ s.followed = none ∧ s.ns.align ≠ 4 ∧ s.ns.ports.filter (fun x => x.1 == 23) = [(23, { st := 7 })] := by decide +kernel

/-- Slot 7 in a state, at a tick, with windows of 64 ticks and messages on port 0. -/
def tdom (tick : Nat) (d : Dom) (m : List SyncMsg) : State := { tready with ns := { tick := tick, doms := [(7, d)], ports := [(0, { st := 6, rxSync := m })] } }
theorem witness_dom_check : let s := tdom 0 { st := 2, nmod := 2, epoch := 64 } []
    (s.dom 7).checked = false ∧ -((s.dom 7).window : Int) ≤ s.progTick (s.dom 7) ∧ s.progTick (s.dom 7) < 0 := by decide +kernel
theorem witness_dom_epoch : let s := tdom 64 { st := 2, epoch := 64, nmod := 2, neigh := [0] } []
    0 ≤ s.progTick (s.dom 7) ∧ (s.dom 7).holdAt ≠ some 0 ∧ (s.dom 7).cmd = none ∧ 2 ≤ (s.dom 7).nmod ∧ (∃ x ∈ (s.dom 7).neigh.map portSide, ∀ c ∈ (s.dom 7).checks, portSide c.1 = x → c.2 = false) ∧
    (let u := tdom 64 { st := 2, epoch := 64, nmod := 2, neigh := [0], checks := [(0, true)] } []
      ∀ x ∈ (u.dom 7).neigh.map portSide, ∃ c ∈ (u.dom 7).checks, portSide c.1 = x ∧ c.2 = true) := by decide +kernel
theorem witness_dom_hold : let s := tdom 64 { st := 3, holdAt := some 64 } []
    (s.dom 7).holdAt = some 64 ∧ 64 ≤ s.progTick (s.dom 7) ∧
    (let u := tdom 64 { st := 6, resumeAt := 64 } []; (u.dom 7).st = 6 ∧ (u.dom 7).resumeAt ≤ u.ns.tick ∧ (u.ctx (u.dom 7).ctx).restoring = false) ∧
    (let u := tdom 64 { st := 3, tables := [{ src := .dom 7 0, kind := 0, target := 0, cove := 0, va := 0, count := 2, waitFrom := some 0 }] } [];
      (u.dom 7).tables[0]?.bind Table.waitFrom = some 0 ∧ (0 : Int) + ((u.dom 7).waitLimit * (u.dom 7).window : Nat) ≤ u.progTick (u.dom 7)) := by decide +kernel
theorem witness_dom_stall : let s : State := { tdom 64 { st := 3 } [] with
      cores := [(0, { groups := [(0, { occupied := true, hold := .waitLand 1, since := some 0 })], blocks := [(0, { launch := { tide := some 7 }, ngrp := 1 })] })] }
    (s.group 0 0).occupied = true ∧ (s.launchOf 0 0).tide = some 7 ∧ (s.group 0 0).since = some 0 ∧ (s.group 0 0).hold = .waitLand 1 ∧
      (0 : Int) + ((s.dom 7).waitLimit * (s.dom 7).window : Nat) ≤ s.progTick (s.dom 7) := by decide +kernel
theorem witness_dom_messages : ∀ n, n = 2 ∨ n = 3 ∨ n = 4 →
    let m : SyncMsg := { w0 := n * 2 ^ 60 + 5 * 2 ^ 32 + 9, w1 := 128 }
    let d : Dom := { st := 2, domainId := 5, hash := 9, epoch := 128 }
    (tdom 64 d [m]).popSync 0 n = some (m, tdom 64 d []) ∧ (tdom 64 d [m]).ns.doms.find? (fun e => e.2.st == 2 && e.2.domainId == bits m.w0 47 32 && e.2.hash == bits m.w0 31 0) = some (7, d) ∧
      d.hash = bits m.w0 31 0 ∧ d.epoch = (m.w1 : Int) := by
  rintro n (rfl | rfl | rfl) <;> decide +kernel

/-- A running table of two entries, the first to slot 0 of core 0, its credit present; an entry in flight; a landing. -/
def ttab : Table := { src := .dom 7 0, kind := 0, target := 15, cove := 0, va := 0x2000, count := 3, msets := [[0]] }
def ttile (credits : List Credit) (flights : List Flight) (landings : List LandMsg) (k : Core) : State :=
  { tstate tnop tgroup {} k with ns := { doms := [(7, { st := 3, tables := [ttab] })], credits := credits, flying := credits, flights := flights, landings := landings } }
def tcredit : Credit := { owner := 0x60F, core := 0, slot := 0 }
theorem witness_entry : let s := ttile [tcredit] [] [] {}
    s.table? (.dom 7 0) = some ttab ∧ s.mayStream ttab = true ∧ s.bufRead 0 0 0x2000 32 = .ok (List.replicate 32 0) false ∧ tileBad ttab 0 = none ∧
      s.locate 0 0 0 false = .dev tbase ∧ coherent (region tbase) = true ∧ (0 : Int) ≤ s.progTick (s.dom 7) ∧ s.engineLoad 15 < s.engineLimit 15 ∧
      (∀ c ∈ (([0] : List Nat).flatMap (fun c => (landSlots 0 0 32).map (fun k => ({ owner := 0x600 + 15, core := c, slot := k } : Credit)))), c ∈ s.ns.credits) ∧ tcredit ∈ s.ns.flying ∧ isPortNode 0x60F = false ∧
      isPortNode 0x630 = true := by decide +kernel
def tflight : Flight := { src := .dom 7 0, num := 0, words := [0, crc32c (List.replicate 32 0)], pa := tbase + 0x3000, cores := [0] }
theorem witness_seal : let s := ttile [] [tflight] [] {}
    s.ns.flights.find? (fun g => g.src == .dom 7 0 && g.num == 0) = some tflight ∧ s.tileListed tflight.pa = false ∧ tflight.pa / 4096 ∉ s.ra.badPrim ∧
      (cut tflight.pa (32 * (bits (tflight.words.getD 1 0) 38 32 + 1))).map (fun p => s.paRead 0 p.1 p.2) = [List.replicate 32 0].map (fun x => .ok x false) ∧
      crc32c [List.replicate 32 0].flatten = tflight.words.getD 1 0 % 2 ^ 32 ∧ s.mirrorOf tflight.pa = none ∧ s.ns.badTiles = [] := by decide +kernel
def tland (src : Src) : LandMsg := { node := 0x60F, core := 0, slot := 1, off := 63, data := List.replicate 32 7, poison := false, setf := true, mark := false, plan := 0, src := src, num := 0, dom := none }
theorem witness_landing : let s := ttile [] [] [tland (.cmd 0 0 0)] { landCount := 2, land := [(1, { owner := 0x60F })] }
    s.ns.landings.filter (fun m => m.core == 0 && m.slot == 1) = [tland (.cmd 0 0 0)] ∧ (∀ n ∈ landSlots 1 63 32, n < (s.core 0).landCount) ∧
      (∀ n ∈ landSlots 1 63 32, ((s.core 0).slot n).st ≠ 2 ∧ slotOwner 0 ((s.core 0).slot n).owner = 0x60F) ∧ s.table? (.cmd 0 0 0) = none ∧
      (s.landAt (tland (.cmd 0 0 0))).2 = true := by decide +kernel

/-! ### Witnesses of the statements about the links -/

theorem entry_of {x : LinkHead} {b : Table} {prog : Int} {p : Nat → Bool} (h : (match x with | .entry t v q => t == b && q == prog && p v | _ => false) = true) :
    ∃ v, x = .entry b v prog ∧ p v = true := by
  cases x <;> simp_all
/-- Entry 0 of a link table at VA 0x2000, its words 1 to 3, and a descriptor of 64 bytes at VA 0x3000. -/
def tltab (target : Nat) : Table := { src := .dom 7 0, kind := 1, target := target, cove := 0, va := 0x2000, count := 2 }
def tlink (target w1 w2 w3 d : Nat) (k : Core) : State :=
  let s := tstate tnop tgroup {} k
  { s with
    mem := (((s.mem.writeLE (tbase + 0x2008) 8 w1).writeLE (tbase + 0x2010) 8 w2).writeLE (tbase + 0x2018) 8 w3).writeLE (tbase + 0x3000) 16 d
    ns := { doms := [(7, { st := 3, tables := [tltab target] })], credits := [{ owner := 0x610, core := 0, slot := 0 }], geo := [(0, 1)] } }
theorem witness_linkCopy : let s := tlink 0x100 0 (2 ^ 24) 0 0 {}
    (∃ v, s.linkHead 7 0 = .entry (tltab 0x100) v 0 ∧ (decide (bits v 111 109 = 0 ∧ bits v 102 96 = 0 ∧ bits v 56 0 = 0 ∧ landSlots (bits v 135 128) (bits v 151 136) 32 = [0])) = true) ∧
      s.bufRead 0 0 0 32 = .ok (leBytes 8 (tbase + 2 ^ 21 + 1) ++ List.replicate 24 0) false ∧ (tltab 0x100).node = 0x610 :=
  ⟨entry_of (by decide +kernel), by decide +kernel, by decide⟩
theorem witness_linkMark : let s := tlink 0x100 (3 * 2 ^ 45) (2 ^ 24) 0 0 {}
    ∃ v, s.linkHead 7 0 = .entry (tltab 0x100) v 0 ∧ (decide (bits v 111 109 = 3 ∧ ({ owner := 0x610, core := bits v 121 112, slot := bits v 135 128 } : Credit) ∈ s.ns.credits)) = true :=
  entry_of (by decide +kernel)
/-- A network reduction of 16 elements with one source, at router 0. -/
def tredDesc : Nat := 0xD1 + 16 * 2 ^ 32 + 2 ^ 64
theorem witness_netred : let s := tlink 0x100 (2 * 2 ^ 45) 0 0x3000 tredDesc {}
    (∃ v, s.linkHead 7 0 = .entry (tltab 0x100) v 0 ∧ (decide (bits v 111 109 = 2 ∧ bits v 248 192 = 0x3000)) = true) ∧
      s.bufRead 0 0 0x3000 64 = .ok (leBytes 64 tredDesc) false ∧ bits tredDesc 63 32 = 16 ∧ s.redBad 0 tredDesc = none :=
  ⟨entry_of (by decide +kernel), by decide +kernel, by decide, by decide +kernel⟩
/-- A torus reduction of 16 elements along dimension 0, of two modules, from port 0. -/
def ttorDesc : Nat := 0xD2 + 2 ^ 8 + 4 * 2 ^ 12 + 4 * 2 ^ 16 + 16 * 2 ^ 32
theorem witness_linkRed : let s := tlink 0 (2 ^ 45) 0 0x3000 ttorDesc {}
    (∃ v, s.linkHead 7 0 = .entry (tltab 0) v 0 ∧ (decide (bits v 111 109 = 1 ∧ bits v 95 64 = 0)) = true) ∧ s.bufRead 0 0 0x3000 64 = .ok (leBytes 64 ttorDesc) false ∧
      s.ns.torus = none ∧ s.redFirst 0 0 = true ∧ s.torBad ttorDesc = none ∧ s.ns.readies = [] ∧ (s.bufRead 0 0 0 64 = .ok (s.mem.readBytes tbase 64) false) :=
  ⟨entry_of (by decide +kernel), by decide +kernel⟩
/-- A reduction that waits for its slots, and the same with its slots, one source at router 1. -/
def tred (alloc : Bool) : NetRed := { src := .dom 7 0, cove := 0, ctx := 0, words := tredDesc + 0x1000 * 2 ^ 192, root := 0, alloc := alloc, srcs := if alloc then [(0, false, 1)] else [] }
def treds (alloc : Bool) : State :=
  let s := tlink 0x100 0 0 0 0 {}
  { s with mem := s.mem.writeLE (tbase + 0x1008) 8 1, ns := { s.ns with reds := [tred alloc] } }
theorem witness_red_alloc : let s := treds false
    s.ns.reds.find? (fun r => !r.alloc && s.redMay r) = some (tred false) ∧ s.red? (.dom 7 0) 0 = some (tred false) ∧
      s.bufRead 0 0 0x1000 16 = .ok (leBytes 8 0 ++ leBytes 8 1) false ∧ parseSrcs (leBytes 8 0 ++ leBytes 8 1) 1 0 = (none, [(0, false, 1)]) ∧
      (∀ q ∈ (tred true).tree, (tred true).need q ≤ 256 ∧ s.fld clsNoc q R.NOC_RED_STATE_SLOTS_USED + (tred true).need q ≤ 256) := by decide +kernel
theorem witness_chunk : let s := treds true
    let r := tred true
    s.red? (.dom 7 0) 0 = some r ∧ 1 ∈ r.tree ∧ 1 ≠ r.root ∧ 0 < r.nchunks ∧ (1, 0) ∉ r.gone ∧ r.inputs 1 = [] ∧ s.fld clsNoc 1 R.ERR_INJECT_ARM = 0 ∧
      (match s.readOpers r 0 (r.locals 1) with | .ok l => l.length == 1 | .error _ => false) = true ∧
      (r.parts.filter (fun x => x.router == nextHop r.root 1 && x.low == r.low 1)).length < r.window := by decide +kernel
def ttor : TorRed := { src := .dom 7 0, cove := 0, words := ttorDesc, vals := List.replicate 16 0, left := 2 }
theorem witness_redStall : let s := tlink 0 0 0 0 0 {}
    (s.dom 7).st = 3 ∧ ({ s with ns := { s.ns with torus := some ttor, tick := 2 ^ 40 } } : State).ns.torus = some ttor ∧ (s.dom 7).limit ≤ ((2 ^ 40 : Nat) : Int) - ttor.since ∧ ttor.since + 7812500 ≤ 2 ^ 40 := by decide +kernel

/-- A port with one message. -/
def trx (p : Nat) (m : TwMsg) (e : Twp) : State :=
  { tready with ns := { ports := [(p, { e with st := 6, rx := [m] })], geo := [(0, 1)], peers := [{ txn := 255, cmd := (0, 0, 0) }] }, hs := { tready.hs with cmds := [{ ctx := 0, queue := 0, idx := 0, st := .running, desc := List.replicate 24 0 ++ leBytes 4 64 }] } }
theorem witness_messages : ∀ n, n = 3 ∨ n = 5 ∨ n = 6 → ((trx 23 { w0 := n * 2 ^ 60 + 255 * 2 ^ 24, w1 := 9 } {}).popMsg 23 n).map Prod.fst = some { w0 := n * 2 ^ 60 + 255 * 2 ^ 24, w1 := 9 } := by
  rintro n (rfl | rfl | rfl) <;> decide +kernel
def tchunk : TwMsg := { w0 := 4 * 2 ^ 60 + 2 ^ 29 + 7 * 2 ^ 16, w1 := 0, body := List.replicate 320 0 }
theorem witness_redChunk : ((trx 0 tchunk {}).popMsg 0 4).map Prod.fst = some tchunk ∧ (trx 0 tchunk {}).ns.torus = none ∧
    bits tchunk.w0 47 32 * 2 ^ 32 + bits tchunk.w0 31 30 * 2 ^ 30 + bits tchunk.w0 29 29 * 2 ^ 29 = ttor.key ∧ 0 < ttor.chunks 0 ∧ bits tchunk.w0 20 16 + 1 = ttor.count 0 0 ∧
    partnerPort 0 = outPort ttor.dim 0 0 ∧ tchunk.body.length = 40 * ttor.count 0 0 ∧ ttor.first 0 0 + ttor.count 0 0 ≤ ttor.vals.length ∧ 2 ≤ ttor.left ∧ ttor.pass = 1 := by decide +kernel
theorem witness_peer : let s := trx 23 { w0 := 6 * 2 ^ 60 + 255 * 2 ^ 24, w1 := 0 } {}
    s.peerHop 0 = none ∧ s.peerHop (2 ^ 10) = some (0, true) ∧ s.ns.peers.find? (fun x => x.txn == 255) = some { txn := 255, cmd := (0, 0, 0) } ∧ (s.cmdAt 0 0 0).isSome = true ∧
      (s.cmdAt 0 0 0).any (fun k => decide (k.pos < k.peerTotal)) = true ∧ (s.port 12).st ≠ 6 ∧
      (let u := (tcove 2).setFld clsCove 63 R.COVE_CFG_PEER_ACCEPT 1; (u.cove 63).st = 2 ∧ u.fld clsCove 63 R.COVE_CFG_PEER_ACCEPT = 1) := by decide +kernel
theorem witness_peerWait : let s : State := { tready with ns := { geo := [(0, 1)], peerWait := [(12, { w0 := 5 * 2 ^ 60 + 2 ^ 10, w1 := 0 })] } }
    (s.port 12).st ≠ 6 ∧ mtype { w0 := 5 * 2 ^ 60 + 2 ^ 10, w1 := 0 } = 5 ∧ s.peerHop (bits (5 * 2 ^ 60 + 2 ^ 10) 14 0) = some (0, true) := by decide +kernel

/-- Port 23 in a state, enabled in a torus of two modules in its dimension. -/
def ttwp (q : Twp) : State := ((({ tready with ns := { ports := [(23, q)] } } : State).setFld clsTwp 23 R.TWP_CFG_ENABLE 1).setFld clsTwp 24 R.TORUS_CFG_DZM1 1).setFld clsTwp 23 R.TWP_CFG_DEGRADE_OK 1
theorem witness_training : (∀ n, n = 1 ∨ n = 2 ∨ n = 3 ∨ n = 4 ∨ n = 5 ∨ n = 6 ∨ n = 7 ∨ n = 8 → ((ttwp { st := n }).port 23).st = n ∧ ((ttwp { st := n }).port 23).keep = false) ∧ (ttwp { st := 1 }).portOn 23 = true ∧
    (Cable.mk true 16 0).answers = true ∧ (Cable.mk false 17 0).answers = false ∧
    (List.range 9).filter (fun l => decide (1 < [1, 1].getD l 0) || ((ttwp {}).retiredLanes 23).contains l) = [] ∧
    (List.range 9).filter (fun l => decide (1 < [2, 0, 0, 0, 0, 0, 0, 0, 2].getD l 0) || ((ttwp {}).retiredLanes 23).contains l) = [0, 8] ∧
    (ttwp {}).fld clsTwp 23 R.TWP_CFG_DEGRADE_OK = 1 ∧ (ttwp {}).Reaches (tw clsTwp 23 0x100 7) clsTwp 23 0x100 ∧ (ttwp {}).fld clsTwp 23 R.LOCK_CFG_LOCK ≠ 1 :=
  ⟨by rintro n (rfl | rfl | rfl | rfl | rfl | rfl | rfl | rfl) <;> decide +kernel, by decide +kernel, rfl, rfl, by decide +kernel, by decide +kernel, by decide +kernel,
    reaches_of (by decide +kernel), by decide +kernel⟩
theorem witness_ident : let s := ttwp { st := 4 }
    let id : Ident := { serial := 2 ^ 32, coord := s.neighbour 23, sizes := coord15 (s.sizeReg 0 - 1) (s.sizeReg 1 - 1) (s.sizeReg 2 - 1), port := 11, stepping := 0 }
    id.port = partnerPort 23 ∧ id.coord = s.neighbour 23 := ⟨rfl, rfl⟩
def tframe : List Byte := let b := List.replicate 1024 0 ++ leBytes 8 (0 * 2 ^ 52) ++ List.replicate 48 (0 : Byte); b ++ leBytes 8 (crc64 b)
theorem witness_frame : ((ttwp { st := 6 }).port 23).st = 6 ∧ tframe.length = 1088 ∧ (ttwp { st := 6 }).fld clsTwp 23 R.ERR_INJECT_ARM = 0 ∧ crc64 (tframe.take 1080) = leNat (tframe.drop 1080) ∧
    bits (leNat ((tframe.drop 1024).take 8)) 63 52 = (((ttwp { st := 6 }).port 23).ackseq + 1) % 4096 ∧ bits (leNat ((tframe.drop 1024).take 8)) 37 36 ≠ 2 ∧ bit (leNat ((tframe.drop 1024).take 8)) 39 = false := by decide +kernel
theorem witness_replay : let q : Twp := { st := 6, kept := [{ fseq := 4095, replays := 256 }], recovers := [] }
    ((ttwp q).port 23).kept = { fseq := 4095, replays := 256 } :: [] ∧ (let n := (ttwp q).fld clsTwp 23 R.TWP_CFG_REPLAY_BUDGET; 0 < (if n = 0 then 256 else n) ∧ (if n = 0 then 256 else n) ≤ 256) ∧
      ((ttwp { st := 7 }).port 23).badLanes = [] ∧ ((ttwp { st := 7 }).port 23).forced = false ∧ (List.range 9).filter (fun l => decide (100 < [100, 101].getD l 0)) = [1] := by decide +kernel

/-! ### Witnesses of the statements about the matrix unit and the element engine -/

def tzeros (i : Ins) : List Opnd := [⟨.zero, i.d, false⟩, ⟨.zero, i.a, false⟩, ⟨.zero, i.b, false⟩, ⟨.zero, i.c, false⟩]
/-- The group in a region or not, tile 0 its own in class N, a block of 256 KiB. -/
def tmx (w : IWord) (region : Option Nat) (k : Core) : State :=
  (tstate w { tgroup with region := region, s := [(4, 4096)] } { tileMap := [(0, 32)] } k).modCore 0 (fun k => { k with blocks := k.blocks.map (fun b => (b.1, { b.2 with spLen := 2 ^ 18 })) })
def tbegin : IWord := tins 2 0x000 0 0 0 0 0 0
theorem witness_mxBegin : let s := tmx tbegin none {}
    ∃ u, s.Issues u tbegin (2, 0x000) (plainForm (s.view tbegin).i ((s.view tbegin).i.t == 0 && (s.view tbegin).i.q == 0) (tzeros (s.view tbegin).i)) ∧ (s.view tbegin).g.region = none :=
  issues_and _ (by decide +kernel) (by decide +kernel)
def tend : IWord := tins 2 0x001 0 0 0 0 0 0
theorem witness_mxEnd : let s := tmx tend (some 3) {}
    ∃ u, s.Issues u tend (2, 0x001) (plainForm (s.view tend).i ((s.view tend).i.t == 0 && (s.view tend).i.q == 0) (tzeros (s.view tend).i)) ∧
      ((s.view tend).g.region = some (s.view tend).g.m0 ∧ ∀ e ∈ (u.core 0).mxq, e.slot ≠ 0) :=
  issues_and _ (by decide +kernel) (by decide +kernel)
/-- An INT8 product whose second operand begins at 4096; a drain to INT32; zero, save and load of tile 0. -/
def tmma : IWord := tins 2 0x010 0 2 4 12 12 0
def mmaForm (z : Iss) : Form := plainForm z.i (!bit z.i.c 7 && (match z.i.mma with
    | none => false
    | some v => (!v.sc || v.grp.scalable) && (if v.grp == .fp64 then modeQual z.i else z.i.q == 0)))
  [⟨.acc, z.i.d, true⟩, ⟨.s (if bit z.i.c 6 then 2 else 1), z.i.a, false⟩, ⟨.s (if bit z.i.c 6 then 2 else 1), z.i.b, false⟩, ⟨.raw, z.i.c, false⟩]
def tdrain : IWord := tins 2 0x020 0 0 0 0 0 0
def drainForm (z : Iss) : Form := plainForm z.i (modeQual z.i && (match z.i.ty with
    | some f => drainTypes f && !(bits z.i.q 2 1 == 2 && f.isInt)
    | none => false))
  [⟨.s 1, z.i.d, false⟩, ⟨.acc, z.i.a, false⟩, ⟨.zero, z.i.b, false⟩, ⟨.zero, z.i.c, false⟩]
theorem witness_mma : let s := tmx tmma (some 3) {}
    let z := s.view tmma
    ∃ u, s.Issues u tmma (2, 0x010) (mmaForm z) ∧ (z.g.region = some z.g.m0 ∧ z.l.tileClass 0 ≠ 0 ∧ z.l.tileOwner 0 = z.g.gid ∧
      (z.i.mma.any (fun mw => classAccepts (z.l.tileClass 0) mw.grp mw.sc && decide (partFaults u z (mw.parts z) = []) && (u.core 0).landed (partSlots (mw.parts z)) &&
        decide (mxHold u z (partRanges (mw.parts z)) [] = .none))) = true) :=
  issues_and _ (by decide +kernel) (by decide +kernel)
theorem witness_mxDrain : let s := tmx tdrain (some 3) {}
    let z := s.view tdrain
    ∃ u, s.Issues u tdrain (2, 0x020) (drainForm z) ∧ (z.g.region = some z.g.m0 ∧ z.i.ty = some .int32 ∧ z.l.tileClass 0 ≠ 0 ∧ z.l.tileOwner 0 = z.g.gid ∧
      z.drainRange.1 + z.drainRange.2 ≤ (u.blockOf 0 0).spLen ∧ mxHold u z [] [z.drainRange] = .none) :=
  issues_and _ (by decide +kernel) (by decide +kernel)
def tzero : IWord := tins 2 0x021 0 0 0 0 0 0
def tsaveW : IWord := tins 2 0x022 0 2 0 0 0 0
def tloadW : IWord := tins 2 0x022 0 2 0 1 0 0
theorem witness_mxZero : let s := tmx tzero (some 3) {}
    let z := s.view tzero
    ∃ u, s.Issues u tzero (2, 0x021) (plainForm z.i (z.i.t == 0 && z.i.q == 0) [⟨.acc, z.i.d, true⟩, ⟨.zero, z.i.a, false⟩, ⟨.zero, z.i.b, false⟩, ⟨.zero, z.i.c, false⟩]) ∧
      (z.g.region = some z.g.m0 ∧ z.l.tileClass 0 ≠ 0 ∧ z.l.tileOwner 0 = z.g.gid ∧ mxHold u z [] [] = .none) :=
  issues_and _ (by decide +kernel) (by decide +kernel)
theorem witness_mxImages : ∀ p : IWord × Nat × Bool, p = (tsaveW, 0, false) ∨ p = (tloadW, 1, true) → let s := tmx p.1 (some 3) {}
    let z := s.view p.1
    ∃ u, s.Issues u p.1 (2, 0x022) (plainForm z.i (z.i.t == 0 && z.i.q == 0 && z.i.c == p.2.1) [⟨.acc, z.i.d, p.2.2⟩, ⟨.s 1, z.i.a, false⟩, ⟨.zero, z.i.b, false⟩, ⟨.raw, z.i.c, false⟩]) ∧
      (z.imageRange.1 + z.imageRange.2 ≤ (u.blockOf 0 0).spLen ∧ u.spMarkFaults 0 [((u.blockOf 0 0).spOff + z.imageRange.1, z.imageRange.2)] = [] ∧
        mxHold u z [z.imageRange] [] = .none ∧ mxHold u z [] [z.imageRange] = .none) := by
  rintro p (rfl | rfl) <;> exact issues_and _ (by decide +kernel) (by decide +kernel)
/-- The oldest entry of core 0's matrix queue. -/
def tentry (k : MxKind) : State := tmx tend (some 3) { mxq := [{ slot := 0, blk := 0, pc := 0, kind := k }] }
theorem witness_mxExecute : let s := tentry (.zero 0)
    (s.core 0).mxq = [{ slot := 0, blk := 0, pc := 0, kind := .zero 0 }] ∧ s.fld clsCore (s.corePage 0) R.ERR_INJECT_ARM = 0 ∧ classRows (((s.core 0).block 0).launch.tileClass 0) = 64 ∧
      mxPair .int8 .int8 = some .int8 ∧ MxGrp.int8.rows = 64 := by decide +kernel

/-- A program of one move from its INT32 stream 0 to O0, and a table of one entry. -/
def tprog : List Byte := [0xC5] ++ List.replicate 7 0 ++ leBytes 16 0x10 ++ leBytes 40 0x10 ++ leBytes 64 1
def ttable : List Byte := leBytes 64 0xC6 ++ leBytes 64 9
/-- A group with scalars for three elements: offsets 32, 0 and 64 of the scratchpad; the program and the table loaded. -/
def tel (w : IWord) (k : Core) : State :=
  tstate w { tgroup with s := [(2, 32), (4, 64), (6, 3), (12, 64), (16, 32), (18, 64), (24, 32), (26, 3)] } {} { k with elBuf := [(0, tprog)], elTab := [(64, ttable)] }
def compactForm (z : Iss) (fill : Bool) : Form :=
  plainForm z.i (if fill then z.i.q == 0 && compactType z.i.t && decide (z.i.c < 2) else z.i.q == 0 && compactType z.i.t)
    [⟨.s 1, z.i.d, true⟩, ⟨.s 3, z.i.a, false⟩, ⟨.s 1, z.i.b, false⟩, ⟨if fill then .raw else .zero, z.i.c, false⟩]
def telRun : IWord := tins 3 0x000 6 8 0 0 0 0
theorem witness_elRun : let s := tel telRun {}
    let z := s.view telRun
    let form := plainForm z.i (z.i.t == 0 && z.i.q == 0) [⟨.s 1, z.i.d, false⟩, ⟨.s 6, z.i.a, false⟩, ⟨.raw, z.i.b, false⟩, ⟨.raw, z.i.c, false⟩]
    ∃ u, s.Issues u telRun (3, 0x000) form ∧ (z.g.rs z.i.d = 3 ∧ (match u.checkRun z, (u.advanced telRun z form).checkRun z with
      | .ok p _ v, .ok _ _ _ => (v.core 0).landed (partSlots (p.slotParts 3 z.streams)) && decide (elHold v z (p.rdRanges 3 z.streams) (p.wrRanges 3 z.streams) = .none)
      | _, _ => false) = true) :=
  issues_and _ (by decide +kernel) (by decide +kernel)
/-- Three elements, and none: `n` names the scalar that holds their number. -/
def tcompact (fill : Bool) (n : Nat) : IWord := tins 3 (if fill then 2 else 1) 20 16 n 0 4 0
theorem witness_compact : ∀ fill : Bool, ∀ n, n = 6 ∨ n = 8 → let s := tel (tcompact fill n) {}
    let z := s.view (tcompact fill n)
    ∃ u, s.Issues u (tcompact fill n) (3, if fill then 2 else 1) (compactForm z fill) ∧ (z.g.rs z.i.b = (if n = 6 then 3 else 0) ∧ elRangeFaults u z z.compactRd z.compactWr = [] ∧
      elHold u z z.compactRd z.compactWr = .none ∧ overlaps (z.three 2) (wholeBytes .fp32 3) (z.three 1) 1 = false ∧
      overlaps (z.three 2) (wholeBytes .fp32 3) (z.three 0) (wholeBytes .fp32 3) = false ∧ (z.i.ty).getD .int8 = .fp32) := by
  rintro (_ | _) n (rfl | rfl) <;> exact issues_and _ (by decide +kernel) (by decide +kernel)
def treduce : IWord := tins 3 0x003 4 24 6 0 0 0
theorem witness_elReduce : let s := tel treduce {}
    let z := s.view treduce
    ∃ u, s.Issues u treduce (3, 0x003) (plainForm z.i (z.i.q == 0 && thirteen z.i.t && thirteen (z.i.c % 16) && decide (z.i.c < 64) &&
        !(bit z.i.c 5 && (z.i.ty).getD .int8 == .wes) && (!bit z.i.c 4 || scalable ((z.i.ty).getD .int8)))
        [⟨.s 1, z.i.d, false⟩, ⟨.s 3, z.i.a, false⟩, ⟨.s 1, z.i.b, false⟩, ⟨.raw, z.i.c, false⟩]) ∧
      (z.three 2 = 3 ∧ bit z.i.c 4 = false ∧ (∀ p ∈ z.reduceRd, ∀ q ∈ z.reduceWr, overlaps q.1 q.2 p.1 p.2 = false) ∧ elRangeFaults u z z.reduceRd z.reduceWr = [] ∧
        elHold u z z.reduceRd z.reduceWr = .none) :=
  issues_and _ (by decide +kernel) (by decide +kernel)
def tlut : IWord := tins 3 0x004 4 2 6 1 0 0
theorem witness_elLut : let s := tel tlut {}
    let z := s.view tlut
    let form := plainForm z.i (z.i.q == 0 && fmt32 z.i.t) [⟨.s 1, z.i.d, false⟩, ⟨.s 1, z.i.a, false⟩, ⟨.s 1, z.i.b, false⟩, ⟨.raw, z.i.c, false⟩]
    ∃ u, s.Issues u tlut (3, 0x004) form ∧ (z.g.rs z.i.b = 3 ∧ (match u.loadTab 0 z.g.quarter z.l z.i.c, (u.advanced tlut z form).loadTab 0 z.g.quarter z.l z.i.c with
      | .ok bs v, .ok _ _ => (z.lutRd ⟨bs⟩).all (fun p => z.lutWr.all (fun q => !overlaps q.1 q.2 p.1 p.2)) && decide (elRangeFaults v z (z.lutRd ⟨bs⟩) z.lutWr = []) &&
          decide (elHold u z (z.lutRd ⟨bs⟩) z.lutWr = .none)
      | _, _ => false) = true) :=
  issues_and _ (by decide +kernel) (by decide +kernel)
def telWait : IWord := tins 3 0x005 0 0 0 0 0 0
theorem witness_elWait : let s := tel telWait {}
    ∃ u, s.Issues u telWait (3, 0x005) (plainForm (s.view telWait).i ((s.view telWait).i.t == 0 && (s.view telWait).i.q == 0) (tzeros (s.view telWait).i)) ∧ ∀ e ∈ (u.core 0).elq, e.slot ≠ 0 :=
  issues_and _ (by decide +kernel) (by decide +kernel)
def telEntry (k : ElKind) : ElEntry := { slot := 0, blk := 0, pc := 0, kind := k, desc := [(0, tprog), (2, ttable)] }
theorem witness_elFinish : ∀ k ∈ [ElKind.compress .fp32 3 32 0 64 20, .expand .fp32 3 32 0 64 20 true, .reduce .int32 .int32 3 3 32 0 64 false false, .lut .int32 3 32 64 1,
      .run 3 [0, 0, 0, 0, 64, 0] 0 0],
    let s := tel telWait { elq := [telEntry k] }
    (s.core 0).elq = telEntry k :: [] ∧ s.fld clsCore (s.corePage 0) R.ERR_INJECT_ARM = 0 ∧ (telEntry k).gather = [] ∧
      ((⟨(lruGet (telEntry k).desc 0).getD []⟩ : Prog).sc 4).used = true ∧ ((⟨(lruGet (telEntry k).desc 0).getD []⟩ : Prog).sc 4).scaled = false ∧
      ((⟨(lruGet (telEntry k).desc 0).getD []⟩ : Prog).sc 5).used = false ∧ Fmt.int32 ≠ .wes := by decide +kernel
/-! ### Witnesses of the statements about homes and L1s -/

/-- Slice 511 with one line of frame 8 in a directory state, and one message. -/
def thline (d : Dir) : SLine := { present := true, valid := 15, dirty := 1, dir := d }
def tmsg (ty : MTy) (src mask flags : Nat) : Msg := { ty := ty, dst := 0x400 + 511, src := src, req := src, mask := mask, aux := mask, flags := flags, line := tpa / 128 }
def thome (d : Dir) (m : Msg) : State := { tready with net := [m], slices := [(511, { lines := [(tpa / 128, thline d)] })] }
/-- What HomeServesRequests asks of an idle line that holds the sectors of a request. -/
def tidle (s : State) (m : Msg) : Bool :=
  decide (m ∈ s.net ∧ m.dst = 0x400 + 511 ∧ (s.slice 511).txn m.line = none ∧ (s.slice 511).lineWaits m.line = false ∧ (s.slice 511).queue = [] ∧ region (m.line * 128) = .hbm 8 ∧
    s.isMgmt (m.line * 128) = false ∧ (s.hline 511 m.line).present = true ∧ (s.slice 511).ghost m.line = none ∧ s.fld clsSlice 511 R.ERR_INJECT_ARM = 0 ∧
    s.fld clsHome 511 R.ERR_INJECT_ARM = 0 ∧ (s.slice 511).txns.length < 48 ∧ m.mask &&& (15 - (s.hline 511 m.line).valid) = 0)
/-- The requests of core 7, one for each case, in the directory state the case names; core 9 shares or owns. -/
theorem witness_requests : ∀ q ∈ [(MTy.getS, {}, 2), (.getS, {}, 0), (.getS, { st := .s, ptr := [9] }, 0), (.getS, { st := .em, owner := 9 }, 0), (.getS, { st := .o, owner := 9, ptr := [3] }, 0),
      (.getM, {}, 0), (.getM, { st := .em, owner := 9 }, 0), (.upg, { st := .s, ptr := [7] }, 0), (.upg, { st := .s, ptr := [7, 9] }, 0), (.snoopRd, {}, 0), (.snoopRd, { st := .s, ptr := [9] }, 0), (.atomFar, {}, 0)],
    let m : Msg := { tmsg q.1 7 15 q.2.2 with op := .add, ops := [(5, 0)] }
    tidle (thome q.2.1 m) m = true ∧ q.2.1.owner ≠ m.src ∧ m.has Msg.fHELD = false ∧ (m.has Msg.fSONLY = (q.2.2 == 2)) ∧ m.commons = false ∧ m.has Msg.fOUTER = false ∧
      (thome q.2.1 m).fld clsHome 511 R.HOME_CFG_NO_E_GRANT ≠ 1 ∧ outerTier (m.line * 128) = false ∧ m.op ≠ .write ∧ needOf m q.2.1 &&& (15 - 15) = 0 ∧
      (m.ty = .upg → m.src ∈ q.2.1.ptr ∧ (((thome q.2.1 m).sharersOf q.2.1 m.cove m.commons).filter (fun k => k != m.src) = if q.2.1.ptr.length = 1 then [] else [9])) := by decide +kernel
theorem witness_puts : ∀ q ∈ [(MTy.putM, { st := .em, owner := 7 }), (.putO, { st := .o, owner := 7, ptr := [9] }), (.putE, { st := .em, owner := 7 }), (.putS, ({ st := .s, ptr := [7] } : Dir))],
    tidle (thome q.2 (tmsg q.1 7 15 0)) (tmsg q.1 7 15 0) = true ∧ (tmsg q.1 7 15 0).has Msg.fEBB = false ∧ q.2.isOwner 7 = (q.1 != .putS) ∧ (q.1 = .putS → q.2.isSharer 7 = true) := by decide +kernel
def tgrant : HTxn := { line := tpa / 128, kind := .invGrant, msg := some (tmsg .upg 7 15 0), sharers := [9] }
theorem witness_invAck : let m := { tmsg .invAck 9 0 0 with line := tpa / 128 }
    let s : State := { tready with net := [m], slices := [(511, { lines := [(tpa / 128, thline { st := .s, ptr := [7, 9] })], txns := [tgrant] })] }
    m ∈ s.net ∧ m.dst = 0x400 + 511 ∧ (s.slice 511).txn m.line = some tgrant ∧ tgrant.sharers = [m.src] ∧ m.mask = 0 ∧ m.has Msg.fPUT = false ∧ (s.slice 511).queue = [] := by decide +kernel
theorem chanOf_lt {s : State} {o : Owner} {a ch off : Nat} (hs : ∀ p ∈ s.hb.chans, p.1 < 1024) (h : s.chanOf o a = some (ch, off)) : ch < 1024 := by
  have hb : ∀ c, ∀ x ∈ s.coveChans c, x < 1024 := by
    intro c x hx
    simp only [State.coveChans, State.bitmap, List.mem_flatMap, List.mem_range] at hx
    obtain ⟨i, hi, hx⟩ := hx
    split at hx
    · cases hx
    · obtain ⟨j, hj, rfl⟩ := List.mem_map.mp hx
      have := List.mem_range.mp (List.mem_filter.mp hj).1
      omega
  have ho : ∀ x ∈ s.ownerChans o, x < 1024 := by
    cases o with
    | none => intro x hx; cases hx
    | cove c => exact hb c
    | commons => exact hb 64
    | mgmt =>
      intro x hx
      obtain ⟨p, hp, rfl⟩ := List.mem_map.mp hx
      exact hs p (List.mem_filter.mp hp).1
  have hl : ∀ k d i g n, localGroup (s.ownerChans o) i d k = some (g, n) → ∀ x ∈ g, x < 1024 := by
    intro k
    induction k with
    | zero => intro d i g n h; cases h
    | succ k ih =>
      intro d i g n h
      simp only [localGroup] at h
      split at h
      · cases h
        exact fun x hx => ho x (List.mem_filter.mp hx).1
      · exact ih _ _ _ _ h
  unfold State.chanOf at h
  simp only at h
  split at h
  · cases h
  · split at h
    · split at h
      · cases h
      · rename_i g k hg
        obtain ⟨c, hc, he⟩ := Option.map_eq_some_iff.mp h
        cases he
        exact hl _ _ _ _ _ hg _ (List.mem_of_getElem? hc)
    · obtain ⟨c, hc, he⟩ := Option.map_eq_some_iff.mp h
      cases he
      exact ho _ (List.mem_of_getElem? hc)
def tfill : HTxn := { line := tpa / 128, kind := .mem, msg := some (tmsg .getS 7 15 2), kept := 14 }
theorem witness_memoryData : let s : State := { tready with slices := [(511, { lines := [(tpa / 128, { present := true, valid := 1 })], txns := [tfill] })] };
    ((s.slice 511).txn (tpa / 128) = some tfill ∧ tfill.line = tpa / 128 ∧ tfill.kind = .mem ∧ (tmsg .getS 7 15 2).has Msg.fSONLY = true ∧ (tmsg .getS 7 15 2).mask < 16 ∧
      tfill.kept = (tmsg .getS 7 15 2).mask &&& (15 - (s.hline 511 (tpa / 128)).valid) ∧ (s.hline 511 (tpa / 128)).present = true ∧ (s.hline 511 (tpa / 128)).valid < 16 ∧
      (s.hline 511 (tpa / 128)).dir.st = .i ∧ (s.slice 511).ghost (tpa / 128) = none ∧ (s.slice 511).queue = [] ∧ region (tpa / 128 * 128) = .hbm 8 ∧ s.isMgmt (tpa / 128 * 128) = false ∧
      s.fld clsSlice 511 R.ERR_INJECT_ARM = 0 ∧ s.fld clsHome 511 R.ERR_INJECT_ARM = 0) ∧ ∀ o a ch off, s.chanOf o a = some (ch, off) → ch < 1024 :=
  ⟨by decide +kernel, fun _ _ _ _ h => chanOf_lt (by decide +kernel) h⟩
/-- A line the slice is to ebb, clean or dirty. -/
def tebb (v dirty : Nat) : State := { tready with slices := [(511, { lines := [(tpa / 128, { present := true, valid := 15, dirty := dirty })], ebbs := [(tpa / 128, v)] })] }
theorem witness_ebb : ∀ q ∈ [(4095, 0), (4096, 1)], let s := tebb q.1 q.2;
    (s.slice 511).ebbs.find? (fun e => e.1 == tpa / 128) = some (tpa / 128, q.1) ∧ (s.slice 511).txn (tpa / 128) = none ∧ (s.slice 511).txns.length < 48 ∧ (s.slice 511).queue = [] ∧
      (s.hline 511 (tpa / 128)).dir.st = .i ∧ (s.hline 511 (tpa / 128)).moored = false ∧ (s.slice 511).ghost (tpa / 128) = none ∧ (s.hline 511 (tpa / 128)).dirty = q.2 ∧
      s.fld clsSlice 511 R.GHOST_CFG_STRICT ≠ 1 ∧ (s.slice 511).ghosts.length < 4096 := by decide +kernel

/-- Core 15's L1 with one line, and one message for it. -/
def tl1 (st : LSt) (m : Msg) (k : Core) : State := { tready with net := [m], cores := [(15, { k with l1 := [(tpa / 128, { st := st, valid := 15, dirty := if st = .m then 1 else 0 })] })] }
def tto (ty : MTy) (aux flags : Nat) : Msg := { ty := ty, dst := 15, src := 0x400, req := 7, mask := 8, aux := aux, flags := flags, line := tpa / 128, data := List.replicate 32 3 }
theorem witness_probes : ∀ q ∈ [(MTy.fwdGetS, LSt.m, 0), (.fwdGetS, .o, 0), (.fwdGetS, .e, 0), (.fwdGetM, .m, 0), (.fwdGetM, .o, 0), (.fwdGetM, .e, 0), (.inv, .s, 0), (.inv, .m, 2 ^ Msg.fOWNER)],
    let m := tto q.1 0 q.2.2
    let s := tl1 q.2.1 m {}
    m ∈ s.net ∧ m.dst = 15 ∧ ((s.core 15).line m.line).st = q.2.1 ∧ (s.core 15).lineMisses m.line = [] ∧ m.has Msg.fSNP = false ∧ (q.1 = .inv → m.has Msg.fOWNER = (q.2.2 != 0)) := by decide +kernel
def treq : L1Req := { txn := 0, line := tpa / 128, ty := .getS, mask := 8, msg := tto .getS 0 0 }
def tmiss : MissReg := { sector := 4 * (tpa / 128) + 3, waiters := [0] }
theorem witness_data : ∀ q ∈ [(MTy.data, 1), (.dataExcl, 3), (.dataExcl, 4)], let m := tto q.1 q.2 0
    let s := tl1 .isD m { reqs := [treq], miss := [tmiss] }
    m ∈ s.net ∧ (s.core 15).reqs.find? (fun r => r.txn == m.txn && r.line == m.line) = some treq ∧ treq.stale = false ∧ ((s.core 15).line m.line).st = .isD ∧ m.has Msg.fFROMOWNER = false ∧ m.has Msg.fFWD = false ∧
      m.mask = 2 ^ 3 ∧ bit treq.mask 3 = true ∧ (s.core 15).missOf (4 * m.line + 3) = some tmiss ∧ m.has Msg.fGHOST = false := by decide +kernel
def tfar : MemOp := { id := 4, slot := 31, kind := .far, dst := 254, started := true, left := [tpa + 124] }
def tfarReq : L1Req := { treq with ty := .atomFar, op := 4, threads := [63], msg := { tto .atomFar 0 0 with offset := 124 } }
theorem witness_acks : (let s := tl1 .miP (tto .putAck 0 0) {}; putPending ((s.core 15).line (tpa / 128)).st = true ∧ ((s.core 15).line (tpa / 128)).ebbBy = false) ∧
    (∃ r ∈ ((tl1 .isD (tto .nack 0 0) { reqs := [treq] }).core 15).reqs, r.txn = 0 ∧ r.line = tpa / 128) ∧
    (let s := tl1 .i { tto .atomResp 0 0 with ops := [(5, 0)] } { reqs := [tfarReq], ops := [tfar] };
      (s.core 15).reqs.find? (fun r => r.txn == 0 && r.line == tpa / 128) = some tfarReq ∧ (s.core 15).ops = [tfar] ∧ tfarReq.op = tfar.id ∧ tfar.left = [tfarReq.line * 128 + tfarReq.msg.offset] ∧
        tfar.predicted = false ∧ tfar.olds = []) ∧
    (let s := tl1 .isD (tto .nack 0 0) { reqs := [{ treq with nacked := true, nacks := 8 }] };
      (s.core 15).reqs.find? (fun r => r.txn == 0 && r.nacked) = some { treq with nacked := true, nacks := 8 }) := by decide +kernel
def tloadOp : MemOp := { id := 4, slot := 31, kind := .load, started := true, left := [4 * (tpa / 128) + 3], acc := [⟨63, tpa + 124, 4, false⟩] }
def tready15 : MissReg := { tmiss with waiters := [4], ready := true, got := some (List.replicate 32 9) }
theorem witness_fill : let s := tl1 .s (tto .nack 0 0) { ops := [tloadOp], miss := [tready15], replay := [⟨4, tpa / 128⟩] };
    (s.core 15).ops = [tloadOp] ∧ tloadOp.kind = .load ∧ tloadOp.ebb = false ∧ s.fld clsCore (s.corePage 15) R.ERR_INJECT_ARM = 0 ∧ (s.core 15).missOf tready15.sector = some tready15 ∧
      tready15.once = false ∧ tready15.bufMask = 0 ∧ tready15.waiters = [tloadOp.id] ∧ tloadOp.left = [tready15.sector] ∧ ((s.core 15).line (tready15.sector / 4)).deferred = none ∧
      ((s.core 15).line (tready15.sector / 4)).ebbBy = false ∧ (s.core 15).maint = 0 ∧ (s.core 15).replay = ⟨tloadOp.id, tpa / 128⟩ :: [] ∧ (∀ x ∈ tloadOp.left, x / 4 = tpa / 128) := by decide +kernel
theorem witness_replayHit : let s := tl1 .s (tto .nack 0 0) { ops := [tloadOp], replay := [⟨4, tpa / 128⟩] }
    stable ((s.core 15).line (tpa / 128)).st = true ∧ (s.core 15).lineMisses (tpa / 128) = [] ∧ (∀ i ∈ tloadOp.left.map (fun x => x % 4), bit ((s.core 15).line (tpa / 128)).valid i = true) := by decide +kernel
/-! ### Witnesses of the statements about commands of queues -/

/-- Cove 0 runs context 0, whose buffer 0 is 4 KiB of INT8 at 0x4000 and buffer 1 the same at 0x8000; command 0 of its
queue 0 holds a descriptor, fetched or running. -/
def tbuf (base : Nat) : Nat := 12 * 2 ^ 60 + base + 4096 * 2 ^ 64 + 3 * 2 ^ 128
def tcmd (desc : Nat) (st : CSt) : Cmd := { ctx := 0, queue := 0, idx := 0, desc := leBytes 64 desc, st := st }
def thostq (hs : HostSt) (d : List Cmd) : State :=
  let s := tstate tnop tgroup {} {}
  (((({ s with
    mem := (s.mem.writeLE tpa 32 (tbuf 0x4000)).writeLE (tpa + 32) 32 (tbuf 0x8000)
    cores := []
    se := tready.se
    hs := { hs with coves := [(0, { st := 2 })], ctxs := [(0, { st := 2 })], cmds := d } } : State).setFld clsCove 0 R.COVE_CTX_COUNT 1).setX 0 R.CTX_BUFTAB_BASE 1).setX 0 R.CTX_BUFTAB_COUNT 2).setQ 0 3 R.Q_CFG_ENABLE 1
def tcq (desc : Nat) (st : CSt) : State := thostq {} [tcmd desc st]
/-- The first turn of a command, its body found in order. -/
def tstarts (s : State) (op : Nat) (k : Cmd) (b : Body) : Bool :=
  (match s.turn 0 0 0 op with | .first j => j == k | _ => false) && (match s.validate k b with | .ok _ => true | _ => false)
theorem starts_of {s : State} {op : Nat} {k : Cmd} {b : Body} (h : tstarts s op k b = true) : ∃ l, s.turn 0 0 0 op = .first k ∧ s.validate k b = .ok l := by
  simp only [tstarts, Bool.and_eq_true] at h
  cases ht : s.turn 0 0 0 op <;> cases hv : s.validate k b <;> simp_all
def tagain (s : State) (op : Nat) (k : Cmd) : Bool := match s.turn 0 0 0 op with | .again j => j == k | _ => false
theorem again_of {s : State} {op : Nat} {k : Cmd} (h : tagain s op k = true) : s.turn 0 0 0 op = .again k := by
  cases ht : s.turn 0 0 0 op <;> simp_all [tagain]

theorem witness_doorbell : (tcq 0 .running).doorbellCtx none (24 / 4096) = some 0 ∧ (tcq 0 .running).doorbellOpen none 0 3 = true ∧ bit (2 ^ 32 + 15) 32 = true ∧
    bits (2 ^ 32 + 15) 15 0 < (tcq 0 .running).ringSize 0 3 ∧ bit (2 ^ 32 + 15) 33 = false := by decide +kernel
theorem witness_fetch : let s := ((thostq {} []).setQ 0 3 R.Q_SQ_BASE_BASE 2).modQueue 0 3 (fun u => { u with sqHead := 15 })
    s.mayFetch 0 3 = true ∧ (s.queue 0 3).sqHead = 15 ∧ (s.queue 0 3).sqTail = (15 + 1) % s.ringSize 0 3 ∧ s.cqFree 0 3 = true ∧ s.qfld 0 3 R.Q_SQ_BASE_SPACE ≠ 1 ∧
      s.bufRead ((s.ctxCove 0).getD 0) 0 (2 * 4096 + 64 * 15) 64 = .ok (List.replicate 64 0) false ∧ (s.ctx 0).heldBack = false ∧ knownOpcode 0 = true := by decide +kernel
def thint : Nat := 0x24 + 2 ^ 64 + 1 * 2 ^ 96
def tdist : Nat := 0x28 + 16 * 2 ^ 128
theorem witness_short : (∃ l, (tcq 0 .fetched).turn 0 0 0 0 = .first (tcmd 0 .fetched) ∧ (tcq 0 .fetched).validate (tcmd 0 .fetched) {} = .ok l) ∧
    (∃ l, (tcq 0x14 .fetched).turn 0 0 0 0x14 = .first (tcmd 0x14 .fetched) ∧ (tcq 0x14 .fetched).validate (tcmd 0x14 .fetched) {} = .ok l) ∧
    ((tcq 0x14 .running).turn 0 0 0 0x14 = .again (tcmd 0x14 .running) ∧ (tcq 0x14 .running).xlateBusy 0 = false ∧ (tcq 0x14 .running).mayRun = true) ∧
    (∃ l, (tcq thint .fetched).turn 0 0 0 0x24 = .first (tcmd thint .fetched) ∧ (tcq thint .fetched).validate (tcmd thint .fetched) (hintBody (tcmd thint .fetched)) = .ok l) ∧
    (∃ l, (tcq tdist .fetched).turn 0 0 0 0x28 = .first (tcmd tdist .fetched) ∧ (tcq tdist .fetched).validate (tcmd tdist .fetched) (distBody (tcmd tdist .fetched)) = .ok l) :=
  ⟨starts_of (by decide +kernel), starts_of (by decide +kernel), ⟨again_of (by decide +kernel), by decide +kernel, by decide +kernel⟩, starts_of (by decide +kernel), starts_of (by decide +kernel)⟩
/-- What a write of a few bytes to buffer 1 answers. -/
theorem witness_write : (match (tcq 0 .running).bufWrite 0 0 0x4000 ((tcq 0 .running).distBytes (min tableBytes 16)) false with | .ok _ => true | _ => false) = true := by decide +kernel
/-- A launch record of one block of 65 threads in buffer 0; cove 0 has core 15. -/
def trecord : Nat := 2 ^ 22 + 2 ^ 128 + 2 ^ 192 + 2 ^ 256 + 65 * 2 ^ 320 + 4 * 2 ^ 344 + 2 ^ 384
def tlaunch : State := { tcq 1 .fetched with mem := (tcq 1 .fetched).mem.writeLE (tbase + 0x4000) 128 trecord }.setFldN clsCove 0 R.COVE_CORES_n_CORE 0 (2 ^ 15)
theorem witness_launch : (∃ l, tlaunch.turn 0 0 0 1 = .first (tcmd 1 .fetched) ∧ tlaunch.validate (tcmd 1 .fetched) (recordBody 128) = .ok l) ∧
    (match tlaunch.readRec 0 0 0x4000 128 with | .ok bs => bs == leBytes 128 trecord | _ => false) = true ∧ bits trecord 632 576 = 0 ∧
    (let r := recordLaunch trecord 0 0 0 .rn .sat;
      r.slotTab = 0 ∧ launchAllOnes trecord = none ∧ r.zero = false ∧ tlaunch.coveCoreBits 0 = [15] ∧ [15].any tlaunch.coreReserved = false ∧ launchBad trecord r = none) :=
  ⟨starts_of (by decide +kernel), by decide +kernel, by decide +kernel, by decide +kernel⟩
def tpend (split : Nat) : Pend := { launch := { recordLaunch trecord 0 0 0 .rn .sat with split := split }, next := 0, left := 1, stride := 1 }
def tblock (split : Nat) : State := { thostq {} [] with cores := [(15, { split := 4, waiting := [tpend split] })] }
theorem witness_place : let s := tblock 4;
    (s.core 15).waiting = tpend 4 :: [] ∧ s.maintBusy 15 = false ∧ s.mayPlace (tpend 4).launch = true ∧ s.reservedFor 15 (tpend 4).launch.tide = false ∧ (mget ({} : Sleep) s.pw.sleep 15).st = 0 ∧
      ((s.core 15).fits (tpend 4).launch).isSome = true := by decide +kernel
theorem witness_split : let s := tblock 5;
    (s.core 15).waiting = tpend 5 :: [] ∧ (s.core 15).blocks = [] ∧ (s.core 15).split ≠ (tpend 5).launch.split ∧ s.maintBusy 15 = false ∧ s.reservedFor 15 (tpend 5).launch.tide = false ∧
      (s.core 15).passing 5 = [] := by decide +kernel
/-- Commands on semaphore 0 of a cove that has one: set it to 7, wait for 7, and a waiter that holds its entry. -/
def tsem (desc : Nat) (st : CSt) (v : Nat) : State := ({ tcq desc st with hs := { (tcq desc st).hs with sems := [(0, v)] } } : State).setFld clsCove 0 R.COVE_SEM_COUNT 1
def tsignal : Nat := 0x20 + 7 * 2 ^ 192
def tsemw : Nat := 0x21 + 7 * 2 ^ 192
theorem witness_sem : (∃ l, (tsem tsignal .fetched 0).turn 0 0 0 0x20 = .first (tcmd tsignal .fetched) ∧ (tsem tsignal .fetched 0).validate (tcmd tsignal .fetched) (semBody (tcmd tsignal .fetched) (tsem tsignal .fetched 0) false) = .ok l) ∧
    (∀ v, v = 6 ∨ v = 7 → ∃ l, (tsem tsemw .fetched v).turn 0 0 0 0x21 = .first (tcmd tsemw .fetched) ∧ (tsem tsemw .fetched v).validate (tcmd tsemw .fetched) (semBody (tcmd tsemw .fetched) (tsem tsemw .fetched v) true) = .ok l) ∧
    (tcmd tsignal .fetched).semMem = false ∧ (tcmd tsemw .fetched).semHolds 6 = false ∧ (tcmd tsemw .fetched).semHolds 7 = true ∧ (tsem tsemw .fetched 6).sem 0 = 6 ∧ (tsem tsemw .fetched 6).semWaiters 0 < 64 ∧
    ((tsem tsemw .waiting 7).turn 0 0 0 0x21 = .again (tcmd tsemw .waiting) ∧ (tsem tsemw .waiting 7).mayWork (tcmd tsemw .waiting) = true) :=
  ⟨starts_of (by decide +kernel), by rintro v (rfl | rfl) <;> exact starts_of (by decide +kernel), by decide, by decide, by decide, by decide +kernel, by decide +kernel, again_of (by decide +kernel), by decide +kernel⟩
/-- A wait that times out after 1 us, and one on the 8 bytes of host memory that buffer 0 names. -/
def tpoll : Cmd := { tcmd (tsemw + 2 ^ 64) .waiting with a := { space := 2, base := 0x1000, bound := 8, r := true } }
def tpollS : State := { thost with cores := [], host := Mem.writeLE [] 0x1000 8 7, hs := { thost.hs with edges := [(7, { up := true })], ctxs := [(0, { st := 2 })], cmds := [tpoll] } }.setFld clsCove 0 R.COVE_CTX_COUNT 1
theorem witness_poll : tpollS.cmdAt 0 0 0 = some tpoll ∧ tpoll.opcode = 0x21 ∧ tpollS.mayWork tpoll = true ∧ tpoll.semMem = true ∧ tpoll.a.space = 2 ∧ tpollS.hostCxl (tpollS.coveOf 0) = false ∧
    (match tpollS.semRead tpoll with | .ok bs p => tpoll.semHolds (leNat bs) && !p | _ => false) = true := by decide +kernel
theorem witness_timeout : let k := tcmd (tsemw + 2 ^ 256) .waiting
    let s : State := { tsem 0 .running 0 with now := 1000, hs := { (tsem 0 .running 0).hs with cmds := [k] } }
    s.cmdAt 0 0 0 = some k ∧ k.opcode = 0x21 ∧ s.mayWork k = true ∧ k.num 32 4 = 1 ∧ k.since + 1000 * k.num 32 4 ≤ s.now := by decide +kernel
/-- First turns: a COPY of 16 elements, a FILL, a PEER_COPY to this module, a commons tile, an EBB of one line, a stream of one
entry with no multicast set, the two reductions, a carve, a MOOR and an UNMOOR of one line. -/
def tcopy : Nat := 0x02 + 2 ^ 128 + 16 * 2 ^ 192
def tfillC : Nat := 0x03 + 16 * 2 ^ 128
def tpeer : Nat := 0x04 + 16 * 2 ^ 192
def tcommons (op : Nat) : Nat := op + 2 ^ 192 + 2 ^ 256
def trange (op : Nat) : Nat := op + 2 ^ 128
def tstream : Nat := 0x08 + 2 ^ 128 + 2 ^ 192 + 2 ^ 224
def tred2 (op : Nat) : Nat := op + (if op = 0x0A then 2 ^ 128 else 0)
def tcarve : Nat := 0x10 + 12 * 2 ^ 64
/-- The module in a torus of two, with an active commons of two channels, a reduction record and a multicast table in buffers 0 and 1. -/
def tdata (desc : Nat) (st : CSt) (record : Nat) : State :=
  let s := ((tcq desc st).setFldN clsCove 64 R.COVE_CHANNELS_n_CH 0 (3 * 2 ^ 5)).setFldN clsCove 0 R.COVE_CORES_n_CORE 0 (2 ^ 15)
  { s.setFld clsCove 64 R.COVE_FRAMES_FB 32 with
    mem := (s.mem.writeLE (tbase + 0x4000) 64 record).writeLE (tbase + 0x8000) 8 (2 ^ 15)
    hs := { s.hs with coves := [(0, { st := 2 }), (64, { st := 2 })] }
    ns := { geo := [(0, 1)] } }
theorem witness_data_starts : (∃ l, (tdata tcopy .fetched 0).turn 0 0 0 2 = .first (tcmd tcopy .fetched) ∧ (tdata tcopy .fetched 0).validate (tcmd tcopy .fetched) (copyBody (tcmd tcopy .fetched)) = .ok l) ∧
    (∃ l, (tdata tfillC .fetched 0).turn 0 0 0 3 = .first (tcmd tfillC .fetched) ∧ (tdata tfillC .fetched 0).validate (tcmd tfillC .fetched) (fillBody (tcmd tfillC .fetched)) = .ok l) ∧
    (∃ l, (tdata tpeer .fetched 0).turn 0 0 0 4 = .first (tcmd tpeer .fetched) ∧ (tdata tpeer .fetched 0).validate (tcmd tpeer .fetched) ((tdata tpeer .fetched 0).peerBody (tcmd tpeer .fetched)) = .ok l) ∧
    (∃ l, (tdata tstream .fetched 0).turn 0 0 0 8 = .first (tcmd tstream .fetched) ∧ (tdata tstream .fetched 0).validate (tcmd tstream .fetched) (spindleBody (tcmd tstream .fetched)) = .ok l) ∧
    (∃ l, (tdata tcarve .fetched 0).turn 0 0 0 0x10 = .first (tcmd tcarve .fetched) ∧ (tdata tcarve .fetched 0).validate (tcmd tcarve .fetched) (carveBody (tcmd tcarve .fetched)) = .ok l) :=
  ⟨starts_of (by decide +kernel), starts_of (by decide +kernel), starts_of (by decide +kernel), starts_of (by decide +kernel), starts_of (by decide +kernel)⟩
theorem witness_more_starts : (∀ op, op = 0x15 ∨ op = 0x16 → ∃ l, (tdata (tcommons op) .fetched 0).turn 0 0 0 op = .first (tcmd (tcommons op) .fetched) ∧
      (tdata (tcommons op) .fetched 0).validate (tcmd (tcommons op) .fetched) (commonsBody (tcmd (tcommons op) .fetched)) = .ok l) ∧
    (∀ op, op = 0x11 ∨ op = 0x12 ∨ op = 0x13 → ∃ l, (tdata (trange op) .fetched 0).turn 0 0 0 op = .first (tcmd (trange op) .fetched) ∧
      (tdata (trange op) .fetched 0).validate (tcmd (trange op) .fetched) (rangeBody (tcmd (trange op) .fetched) (tdata (trange op) .fetched 0)) = .ok l) ∧
    (∃ l, (tdata (tred2 9) .fetched tredDesc).turn 0 0 0 9 = .first (tcmd (tred2 9) .fetched) ∧ (tdata (tred2 9) .fetched tredDesc).validate (tcmd (tred2 9) .fetched) (recordBody 64) = .ok l) ∧
    (∃ l, (tdata (tred2 10) .fetched ttorDesc).turn 0 0 0 10 = .first (tcmd (tred2 10) .fetched) ∧ (tdata (tred2 10) .fetched ttorDesc).validate (tcmd (tred2 10) .fetched) torusBody = .ok l) :=
  ⟨by rintro op (rfl | rfl) <;> exact starts_of (by decide +kernel), by rintro op (rfl | rfl | rfl) <;> exact starts_of (by decide +kernel), starts_of (by decide +kernel), starts_of (by decide +kernel)⟩
def tbufA : Buf := { base := 0x4000, bound := 4096, r := true, w := true }
def tbufB : Buf := { tbufA with base := 0x8000 }
theorem witness_start_rules : let s := tdata (tcommons 0x15) .fetched tredDesc
    let c := { tcmd tstream .fetched with a := tbufA, b := tbufB }
    (s.cove 64).st = 2 ∧ 0 + 4096 * 1 ≤ s.commonsBytes ∧ (match s.rangeLines 0 tbufA 1 true true with | .ok l => l == [(tbase + 0x4000) / 128] | _ => false) = true ∧
      (tdata tstream .fetched 0).streamTurn c = true ∧ (match (tdata tstream .fetched 0).readRec 0 0 0x8000 (128 * 1) with | .ok bs => (s.setBad 0 (parseSets bs 1)).isNone | _ => false) = true ∧
      (match s.readRec 0 0 0x4000 64 with | .ok bs => leNat bs == tredDesc | _ => false) = true ∧ bits tredDesc 63 32 = 16 ∧ s.redBad 0 tredDesc = none ∧
      s.torBad ttorDesc = none ∧ s.ns.torus = none ∧ bytesOf .int8 0 + bytesOf ((Fmt.ofCode (bits ttorDesc 15 12)).getD .int8) (bits ttorDesc 63 32) ≤ tbufB.bound ∧
      (match s.torStart (torOf (.cmd 0 0 0) 0 0 ttorDesc 0x8000 0 .rn .sat (s.torPort ttorDesc) s.myCoord) with | .ok _ => true | _ => false) = true ∧
      s.shelfInUse 0 = false ∧ (s.carveTo 0 12).isSome = true :=
  ⟨by decide +kernel, by decide +kernel, by decide +kernel, by decide +kernel, by decide +kernel, by decide +kernel, by decide +kernel, by decide +kernel, by decide +kernel, by decide +kernel, by decide +kernel, by decide +kernel, by decide +kernel, by decide +kernel⟩
/-- Cove 0 has slice 0 and a budget of one line; the line of buffer 0 lies there, pinned or not. -/
def tmoor (op : Nat) (moored : Bool) : State :=
  let s := ((tdata (trange op) .fetched 0).setFldN clsCove 0 R.COVE_SLICES_n_SL 0 1).setFld clsCove 0 R.COVE_MOOR_BUDGET 1
  { s with slices := [(0, { lines := [((tbase + 0x4000) / 128, { present := true, valid := 15, moored := moored, set := lineSet ((tbase + 0x4000) / 128) })] })] }
theorem witness_moor : let s := tmoor 0x11 false
    let ls := [(tbase + 0x4000) / 128];
    (match s.rangeLines 0 tbufA 1 true false with | .ok l => l == ls | _ => false) = true ∧ s.home 0 ((tbase + 0x4000) / 128) = 0 ∧ s.moorBudget 0 ls 0 = true ∧ s.moorBudget 0 ls 64 = true ∧
      s.moorFullSlices 0 ls = [] ∧ (s.moorLine 0 ((tbase + 0x4000) / 128)).isSome = true ∧ (s.hline 0 ((tbase + 0x4000) / 128)).present = true ∧
      ((tmoor 0x12 true).hline 0 ((tbase + 0x4000) / 128)).moored = true ∧ (∀ t ∈ (s.slice 0).sets, 12 + (s.slice 0).mooredIn t ≤ 12) := by decide +kernel
/-- Running commands, their buffers validated. -/
def trun (desc : Nat) : Cmd := { tcmd desc .running with a := tbufA, b := tbufB }
def trunS (desc : Nat) : State := { tdata desc .running 0 with hs := { (tdata desc .running 0).hs with cmds := [trun desc] } }
theorem witness_copy_run : (trunS tcopy).turn 0 0 0 2 = .again (trun tcopy) ∧ (trunS tcopy).mayWork (trun tcopy) = true ∧ tbufB.granule 0 16 = 16 ∧
    (match (trunS tcopy).readElems 0 tbufA 0 16 with | .ok es => (match ((trunS tcopy).noteBuf 0x610 0 0 (tbufA.at 0) (tbufA.span 0 16)).writeElems 0 tbufB 0
        (((es.map (fun e => copyConvert tbufA.fmt tbufB.fmt .rn .sat e.1)).map Rounded.bits).zip (es.map Prod.snd)) with | .ok (.ok _) => true | _ => false) | _ => false) = true :=
  ⟨again_of (by decide +kernel), by decide +kernel, by decide +kernel, by decide +kernel⟩
theorem witness_fill_run : (trunS tfillC).turn 0 0 0 3 = .again (trun tfillC) ∧ (trunS tfillC).mayWork (trun tfillC) = true ∧
    (match (trunS tfillC).writeElems 0 tbufA 0 (List.replicate 16 (0, false)) with | .ok (.ok _) => true | _ => false) = true :=
  ⟨again_of (by decide +kernel), by decide +kernel, by decide +kernel⟩
def tpeerX : Nat := tpeer + 2 ^ 10 * 2 ^ 224
theorem witness_peer_run : (trunS tpeerX).turn 0 0 0 4 = .again (trun tpeerX) ∧ (trun tpeerX).pos < (trun tpeerX).peerTotal ∧ (trunS tpeerX).freeTxn.isSome = true ∧
    (trunS tpeerX).peerHop ((trun tpeerX).num 28 2 % 2 ^ 15) = some (0, true) ∧ (match (trunS tpeerX).bufRead 0 0 0x4000 (peerPart 0x4000 16) with | .ok _ p => !p | _ => false) = true :=
  ⟨again_of (by decide +kernel), by decide +kernel, by decide +kernel, by decide +kernel, by decide +kernel⟩
theorem witness_ebb_run : (trunS (trange 0x13)).turn 0 0 0 0x13 = .again (trun (trange 0x13)) ∧ (trunS (trange 0x13)).walk 0 (sx57 (0x4000 + 128 * 0)) = .page tent ∧
    (trunS (trange 0x13)).lineBusy ((tent.pa + 0x4000 % 2 ^ tent.shift) / 128) = false :=
  ⟨again_of (by decide +kernel), by decide +kernel, by decide +kernel⟩
/-- CRC-32C over zeros, every 128 bytes of a tile. -/
def tcrcs : List Nat := [0xffffffff, 0xf7d89b24, 0x478d4e6f, 0x4509d0c9, 0xcf03123f, 0x1fd80331, 0xc5c4c2f9, 0xd77c4c0, 0x11512183, 0xa8448891, 0x72802fed,
  0x6b47581e, 0xa6fd2d2, 0xfbd7265a, 0x5bcb999c, 0x50e61ffc, 0x5b767cb0, 0x22b79a12, 0x13ca39cb, 0xe41fc7cf, 0x4df00a81, 0x278b2fa4, 0x24571252, 0xd84843ae,
  0xdf52be5c, 0xf18f24b4, 0xa82160e, 0x17ab347e, 0xf76f41ea, 0x81bd34d5, 0x142ac051, 0x54af813b, 0x6706be76]
theorem tcrcs_next : ∀ i, i < 32 → crcBytes 0x82F63B78 (tcrcs.getD i 0) (List.replicate 128 0) = tcrcs.getD (i + 1) 0 := by decide +kernel
theorem crcBytes_append (p c : Nat) (a b : List Byte) : crcBytes p c (a ++ b) = crcBytes p (crcBytes p c a) b := List.foldl_append
theorem tcrcs_all (n : Nat) (h : n ≤ 32) : crcBytes 0x82F63B78 0xFFFFFFFF (List.replicate (128 * n) 0) = tcrcs.getD n 0 := by
  induction n with
  | zero => rfl
  | succ n ih =>
    rw [show 128 * (n + 1) = 128 * n + 128 by omega, ← List.replicate_append_replicate, crcBytes_append, ih (by omega)]
    exact tcrcs_next n (by omega)
/-- The seal of a tile of zeros stands in buffer 1. -/
def tseal : Nat := 0x98F94189
theorem tseal_crc : crc32c (List.replicate 4096 0) = tseal := by rw [crc32c, show (4096 : Nat) = 128 * 32 by rfl, tcrcs_all 32 (by omega)]; rfl
def ttileS (op : Nat) : State := { trunS (tcommons op) with mem := (trunS (tcommons op)).mem.writeLE (tbase + 0x8000) 8 tseal }
theorem witness_tile_turn : ∀ op, op = 0x15 ∨ op = 0x16 → (ttileS op).turn 0 0 0 op = .again (trun (tcommons op)) := by
  rintro op (rfl | rfl) <;> exact again_of (by decide +kernel)
/-- A read that gives these bytes, none of them poisoned. -/
def tgives : Rd → List Byte → Bool
  | .ok b p, c => !p && b == c
  | _, _ => false
theorem tgives_ok {r : Rd} {b : List Byte} (h : tgives r b = true) : r = .ok b false := by
  cases r <;> simp_all [tgives]
theorem rangeRead_append {s : State} {c space : Nat} {l m : List (Nat × Nat)} {x y : List Byte} (h : s.rangeRead c space l = .ok x false)
    (g : s.rangeRead c space m = .ok y false) : s.rangeRead c space (l ++ m) = .ok (x ++ y) false := by
  induction l generalizing x with
  | nil => simp_all [State.rangeRead]
  | cons p l ih =>
    rw [State.rangeRead] at h
    rw [List.cons_append, State.rangeRead]
    unfold Rd.then at *
    split at h
    · split at h
      · rename_i _ b p _ _ b' p' h2
        simp only [Rd.ok.injEq, Bool.or_eq_false_iff] at h
        obtain ⟨rfl, rfl, rfl⟩ := h
        simp [ih h2]
      · simp_all
    · simp_all
/-- The pieces of the tile in buffer 0, 8 at a time. -/
def ttileCut (i : Nat) : List (Nat × Nat) := ((cut 0x4000 4096).drop (8 * i)).take 8
theorem ttile_all : cut 0x4000 4096 = ttileCut 0 ++ (ttileCut 1 ++ (ttileCut 2 ++ ttileCut 3)) := by decide +kernel
theorem ttile_read0 : tgives ((ttileS 0x15).rangeRead 0 0 (ttileCut 0)) (List.replicate 1024 0) = true := by decide +kernel
theorem ttile_read1 : tgives ((ttileS 0x15).rangeRead 0 0 (ttileCut 1)) (List.replicate 1024 0) = true := by decide +kernel
theorem ttile_read2 : tgives ((ttileS 0x15).rangeRead 0 0 (ttileCut 2)) (List.replicate 1024 0) = true := by decide +kernel
theorem ttile_read3 : tgives ((ttileS 0x15).rangeRead 0 0 (ttileCut 3)) (List.replicate 1024 0) = true := by decide +kernel
theorem ttile_read : (ttileS 0x15).bufRead 0 0 0x4000 4096 = .ok (List.replicate 4096 0) false := by
  rw [State.bufRead, ttile_all, rangeRead_append (tgives_ok ttile_read0)
    (rangeRead_append (tgives_ok ttile_read1) (rangeRead_append (tgives_ok ttile_read2) (tgives_ok ttile_read3)))]
  simp only [List.replicate_append_replicate]
/-- The lines that the reads of the seal and of the tile's first `k` lines leave in slice 0. -/
def tnoted (k : Nat) : State :=
  let x : SLine := { present := true, valid := 15, ref := true }
  let ls := (List.range k).map (fun i => 2 ^ 27 + 128 + i)
  let n := fun i => (ls.filter (fun l => lineSet l == 80 + i)).length
  { ttileS 0x15 with slices := [(0, {
    lines := ls.map (fun l => (l, { x with set := lineSet l, way := [0, 1, 0, 1, 0, 0, 0, 1].getD (l % 8) 0 })) ++
      [(2 ^ 27 + 256, { x with set := 161, valid := 3, data := [(0, 0x89), (1, 0x41), (2, 0xf9), (3, 0x98)] })]
    rot := ((List.range 20).filter (fun i => n i != 0)).map (fun i => (80 + i, n i)) ++ [(161, 1)] })] }
theorem tnoted_zero : (ttileS 0x15).noteBuf 0x610 0 0 0x8000 4 = tnoted 0 := by decide +kernel
/-- One piece's read noted. -/
def tnote (s : State) (p : Nat × Nat) : State := match s.locate 0 0 p.1 false with
  | .dev pa => s.noteRead 0x610 0 pa p.2
  | _ => s
theorem tnoted_step0 : (ttileCut 0).foldl tnote (tnoted 0) = tnoted 8 := by decide +kernel
theorem tnoted_step1 : (ttileCut 1).foldl tnote (tnoted 8) = tnoted 16 := by decide +kernel
theorem tnoted_step2 : (ttileCut 2).foldl tnote (tnoted 16) = tnoted 24 := by decide +kernel
theorem tnoted_step3 : (ttileCut 3).foldl tnote (tnoted 24) = tnoted 32 := by decide +kernel
theorem tnoted_all : ((ttileS 0x15).noteBuf 0x610 0 0 0x8000 4).noteBuf 0x610 0 0 0x4000 4096 = tnoted 32 := by
  rw [tnoted_zero]
  show (cut 0x4000 4096).foldl tnote (tnoted 0) = _
  rw [ttile_all, List.foldl_append, List.foldl_append, List.foldl_append, tnoted_step0, tnoted_step1, tnoted_step2, tnoted_step3]
/-- A line of zeros put where memory holds zeros leaves the machine as it is. -/
def ttilePuts (i : Nat) : Bool := ((cut (2 ^ 36) 4096).drop (8 * i)).take 8 |>.all (fun p => !(tnoted 32).lineBusy (p.1 / 128) && p.2 == 128 &&
  decide ((tnoted 32).linePut 0 p.1 (List.replicate 128 0) false = tnoted 32))
theorem ttilePuts0 : ttilePuts 0 = true := by decide +kernel
theorem ttilePuts1 : ttilePuts 1 = true := by decide +kernel
theorem ttilePuts2 : ttilePuts 2 = true := by decide +kernel
theorem ttilePuts3 : ttilePuts 3 = true := by decide +kernel
theorem ttilePieces : cut (2 ^ 36) 4096 = (List.range 4).flatMap (fun i => ((cut (2 ^ 36) 4096).drop (8 * i)).take 8) ∧
    (cut (2 ^ 36) 4096).all (fun p => decide (2 ^ 36 ≤ p.1) && decide (p.1 + p.2 ≤ 2 ^ 36 + 4096)) = true := by decide +kernel
theorem ttilePut (p : Nat × Nat) (h : p ∈ cut (2 ^ 36) 4096) : p.2 = 128 ∧ p.1 + 128 ≤ 2 ^ 36 + 4096 ∧ (tnoted 32).lineBusy (p.1 / 128) = false ∧
    (tnoted 32).linePut 0 p.1 (List.replicate 128 0) false = tnoted 32 := by
  have hb := List.all_eq_true.mp ttilePieces.2 p h
  have ht : ∀ i, i < 4 → ttilePuts i = true := by
    intro i hi
    match i, hi with
    | 0, _ => exact ttilePuts0
    | 1, _ => exact ttilePuts1
    | 2, _ => exact ttilePuts2
    | 3, _ => exact ttilePuts3
  rw [ttilePieces.1, List.mem_flatMap] at h
  obtain ⟨i, hi, h⟩ := h
  have := List.all_eq_true.mp (ht i (List.mem_range.mp hi)) p h
  simp only [Bool.and_eq_true, Bool.not_eq_true', beq_iff_eq, decide_eq_true_eq] at this hb
  obtain ⟨⟨h1, h2⟩, h3⟩ := this
  exact ⟨h2, by omega, h1, h3⟩
theorem ttilePut_all : (tnoted 32).putLines 0 (2 ^ 36) (List.replicate 4096 0) = some (tnoted 32) := by
  have : ∀ l : List (Nat × Nat), (∀ p ∈ l, p ∈ cut (2 ^ 36) 4096) → l.foldl (fun r p => match r with
      | none => none
      | some s => if s.lineBusy (p.1 / 128) then none
        else some (s.linePut 0 p.1 (((List.replicate 4096 (0 : Byte)).drop (p.1 - 2 ^ 36)).take p.2) false)) (some (tnoted 32)) = some (tnoted 32) := by
    intro l
    induction l with
    | nil => intro _; rfl
    | cons p l ih =>
      intro h
      obtain ⟨h1, h2, h3, h4⟩ := ttilePut p (h p (by simp))
      have e : ((List.replicate 4096 (0 : Byte)).drop (p.1 - 2 ^ 36)).take p.2 = List.replicate 128 0 := by
        rw [List.drop_replicate, List.take_replicate, h1, show min 128 (4096 - (p.1 - 2 ^ 36)) = 128 by omega]
      rw [List.foldl_cons]
      dsimp only
      rw [e, h3, h4]
      exact ih (fun q hq => h q (by simp [hq]))
  rw [State.putLines, List.length_replicate]
  exact this _ (fun _ h => h)
theorem storeTile_some {s s1 : State} {c d pa w : Nat} {bs : List Byte} (h1 : s.fld clsCove 64 R.COVE_FRAMES_FB * 2 ^ 31 + d = pa)
    (h2 : s.putLines c pa bs = some s1) (h3 : s1.fld clsCove 64 R.COMMONS_CFG_MIRROR = 0) : (s.storeTile c d bs w).isSome = true := by
  simp only [State.storeTile, h1, h2, h3]
  rw [if_neg (by decide), Option.map_some, Option.isSome_some]
/-- Reading the seal and the tile and storing it: what the result of a COMMONS_LOAD's tile asks. -/
theorem witness_tile_reads : tgives ((ttileS 0x15).bufRead 0 0 0x8000 4) [0x89, 0x41, 0xf9, 0x98] = true ∧
    (ttileS 0x15).bufRead 0 0 0x4000 4096 = .ok (List.replicate 4096 0) false ∧ crc32c (List.replicate 4096 0) = leNat [0x89, 0x41, 0xf9, 0x98] ∧
    ((((ttileS 0x15).noteBuf 0x610 0 0 0x8000 4).noteBuf 0x610 0 0 0x4000 4096).storeTile 0 0 (List.replicate 4096 0) (leNat [0x89, 0x41, 0xf9, 0x98])).isSome = true := by
  refine ⟨by decide +kernel, ttile_read, tseal_crc.trans (by decide +kernel), ?_⟩
  rw [tnoted_all]
  exact storeTile_some (by decide +kernel) ttilePut_all (by decide +kernel)
/-- TIDE commands on slot 7 of context 0: a load of an image of one CODE section for core 15, a start at tick 256, a hold, a
resume at tick 192 of a program held at 64, an abort. -/
def timage1 : Nat := 0xE7 + 2 ^ 8 + 4 * 2 ^ 16 + 2 ^ 24 + 2 ^ 112 + 2 ^ 120 + 2 ^ 128
def tcode : Nat := 1 + 15 * 2 ^ 16 + 2 ^ 32 + 0x8000 * 2 ^ 64
def tload : Nat := 0x18 + 7 * 2 ^ 128
def tstart : Nat := 0x19 + 7 * 2 ^ 64 + 256 * 2 ^ 128
def tslot (op : Nat) : Nat := op + 7 * 2 ^ 64
def tresume : Nat := 0x1B + 7 * 2 ^ 64 + 192 * 2 ^ 128 + 64 * 2 ^ 192
def ttide (desc ctx : Nat) (d : Dom) (busy : Bool) : State :=
  let s := (tcq desc .fetched).setFldN clsCove 0 R.COVE_CORES_n_CORE 0 (2 ^ 15)
  { s with
    mem := ((s.mem.writeLE (tbase + 0x4000) 64 timage1).writeLE (tbase + 0x4040) 16 tcode).writeLE (tbase + 0x8000) 128 trecord
    cores := if busy then [(15, { blocks := [(0, {})] })] else []
    hs := { s.hs with ctxs := [(0, { st := ctx })] }
    ns := { tick := 64, doms := [(7, d)] } }
theorem witness_tideLoad : (∃ l, (ttide tload 2 { st := 1 } false).turn 0 0 0 0x18 = .first (tcmd tload .fetched) ∧
      (ttide tload 2 { st := 1 } false).validate (tcmd tload .fetched) (loadBody (ttide tload 2 { st := 1 } false) (tcmd tload .fetched)) = .ok l) ∧
    ∀ busy, (match (ttide tload 2 { st := 1 } busy).loadImage { tcmd tload .fetched with a := tbufA } 7 with
      | .ok m => m.cores == [15] && m.launches.length == 1 && m.cores.all (fun c => ((ttide tload 2 { st := 1 } busy).coveCoreBits m.cove).contains c) &&
        !(ttide tload 2 { st := 1 } busy).coresTaken 7 m.cores && (ttide tload 2 { st := 1 } busy).coresBusy m.cores == busy
      | _ => false) = true :=
  ⟨starts_of (by decide +kernel), by rintro (_ | _) <;> decide +kernel⟩
def tloaded : Dom := { st := 1, nmod := 2, cores := [15], launches := [{ (tpend 4).launch with cores := [15], tide := some 7 }] }
theorem witness_tideStart : let s : State := { ttide tstart 2 tloaded false with ns := { (ttide tstart 2 tloaded false).ns with align := alAligned } }
    (∃ l, s.turn 0 0 0 0x19 = .first (tcmd tstart .fetched) ∧ s.validate (tcmd tstart .fetched) (startBody s (tcmd tstart .fetched)) = .ok l) ∧
      ((tcmd tstart .fetched).num 16 8 % (s.dom 7).window = 0 ∧ (s.dom 7).st = 1 ∧ (s.dom 7).cmd = none ∧ s.ns.align = alAligned ∧ s.coresTaken 7 (s.dom 7).cores = false ∧
        s.coresBusy (s.dom 7).cores = false ∧ s.ahead (s.dom 7) 256 = true ∧ 0 < ((tpend 4).launch.blocks + 1 - 1 - 0) / 1) :=
  ⟨starts_of (by decide +kernel), by decide +kernel⟩
theorem witness_tideHold : ∀ st, st = 2 ∨ st = 3 → let s := ttide (tslot 0x1A) 2 { st := st } false
    (∃ l, s.turn 0 0 0 0x1A = .first (tcmd (tslot 0x1A) .fetched) ∧ s.validate (tcmd (tslot 0x1A) .fetched) (holdBody s (tcmd (tslot 0x1A) .fetched)) = .ok l) ∧
      ((s.ctx 0).open = true ∧ (s.dom 7).holdAt = none) := by
  rintro st (rfl | rfl) <;> exact ⟨starts_of (by decide +kernel), by decide +kernel⟩
theorem witness_tideResume : let s := ttide tresume 3 { st := 5, boundary := some 64 } false
    (∃ l, s.turn 0 0 0 0x1B = .first (tcmd tresume .fetched) ∧ s.validate (tcmd tresume .fetched) (resumeBody s (tcmd tresume .fetched)) = .ok l) ∧
      ((tcmd tresume .fetched).num 16 8 % (s.dom 7).window = 0 ∧ (s.dom 7).boundary.getD 0 ≤ (tcmd tresume .fetched).num 24 4 ∧ (s.ctx 0).st = 3 ∧ (s.dom 7).st = 5 ∧ s.ahead (s.dom 7) 192 = true) :=
  ⟨starts_of (by decide +kernel), by decide +kernel⟩
theorem witness_tideAbort : ∀ st, st = 1 ∨ st = 2 → let s := ttide (tslot 0x1C) 2 { st := st } false
    (∃ l, s.turn 0 0 0 0x1C = .first (tcmd (tslot 0x1C) .fetched) ∧ s.validate (tcmd (tslot 0x1C) .fetched) (holdBody s (tcmd (tslot 0x1C) .fetched)) = .ok l) ∧ s.loadedCmd 7 = none := by
  rintro st (rfl | rfl) <;> exact ⟨starts_of (by decide +kernel), by decide +kernel⟩

end Sys2Proof.Machine
end

section
/-! SUPPORT. Register fields: what a write of a field reads as, which fields a run of writes can touch, and what the
rules for event counts say of the claims' terms. -/

namespace Sys2Proof.Machine

/-! ### Keys of one page -/

/-- Two fields of one page share a key only where their register bits coincide. -/
theorem fkey_page_eq_iff {cls inst : Nat} {f g : Fld} {d e : Nat} :
    fkey cls inst f d = fkey cls inst g e ↔ (f.off + d) * 64 + f.lo = (g.off + e) * 64 + g.lo := by
  unfold fkey; omega

/-- Fields of pages whose numbers differ have different keys, where both lie inside their page. -/
theorem fkey_ne_of_page {cls inst cls' inst' : Nat} {f g : Fld} {d e : Nat} (hf : (f.off + d) * 64 + f.lo < 2 ^ 18)
    (hg : (g.off + e) * 64 + g.lo < 2 ^ 18) (h : cls * 2 ^ 11 + inst ≠ cls' * 2 ^ 11 + inst') : fkey cls inst f d ≠ fkey cls' inst' g e := by
  unfold fkey; omega

/-! ### Reading a field after a write -/

theorem State.fldN_setFldN_self (s : State) (cls inst : Nat) (f : Fld) (d v : Nat) :
    (s.setFldN cls inst f d v).fldN cls inst f d = v % 2 ^ (f.hi + 1 - f.lo) := mget_mset_self _ _ _

theorem State.fldN_setFldN_ne (s : State) {cls inst cls' inst' : Nat} {f g : Fld} {d e : Nat} (v : Nat)
    (h : fkey cls' inst' g e ≠ fkey cls inst f d) : (s.setFldN cls inst f d v).fldN cls' inst' g e = s.fldN cls' inst' g e :=
  mget_mset_default _ _ _ _ h

theorem State.fld_setFld_self (s : State) (cls inst : Nat) (f : Fld) (v : Nat) :
    (s.setFld cls inst f v).fld cls inst f = v % 2 ^ (f.hi + 1 - f.lo) := s.fldN_setFldN_self cls inst f 0 v

/-- A field of the page that the write does not name reads as before; the bits are compared by computation. -/
theorem State.fldN_setFldN_page (s : State) {cls inst : Nat} {f g : Fld} {d e : Nat} (v : Nat)
    (h : (g.off + e) * 64 + g.lo ≠ (f.off + d) * 64 + f.lo) : (s.setFldN cls inst f d v).fldN cls inst g e = s.fldN cls inst g e :=
  s.fldN_setFldN_ne v (fkey_page_eq_iff.not.2 h)

theorem State.fld_setFldN_page (s : State) {cls inst : Nat} {f g : Fld} {d : Nat} (v : Nat)
    (h : g.off * 64 + g.lo ≠ (f.off + d) * 64 + f.lo) : (s.setFldN cls inst f d v).fld cls inst g = s.fld cls inst g :=
  s.fldN_setFldN_page v h

theorem State.fld_setFld_page (s : State) {cls inst : Nat} {f g : Fld} (v : Nat) (h : g.off * 64 + g.lo ≠ f.off * 64 + f.lo) :
    (s.setFld cls inst f v).fld cls inst g = s.fld cls inst g :=
  s.fldN_setFldN_page (d := 0) (e := 0) v (by simpa only [Nat.add_zero] using h)

/-- Only the value modulo the field's width counts. -/
theorem State.setFldN_congr (s : State) (cls inst : Nat) (f : Fld) (d : Nat) {v w : Nat}
    (h : v % 2 ^ (f.hi + 1 - f.lo) = w % 2 ^ (f.hi + 1 - f.lo)) : s.setFldN cls inst f d v = s.setFldN cls inst f d w := by
  simp only [State.setFldN, h]

theorem bits_mod (v hi lo : Nat) : bits v hi lo % 2 ^ (hi + 1 - lo) = bits v hi lo := Nat.mod_mod _ _

/-! ### Which fields a run of writes can touch -/

theorem OnlyFields.refl (s : State) (ks : List Nat) : OnlyFields s s ks := ⟨rfl, fun _ _ _ => rfl⟩

theorem OnlyFields.trans {s t u : State} {ks : List Nat} (h : OnlyFields s t ks) (k : OnlyFields t u ks) : OnlyFields s u ks := by
  refine ⟨?_, fun d j hj => (k.2 d j hj).trans (h.2 d j hj)⟩
  rw [k.1, h.1]

theorem OnlyFields.mono {s t : State} {ks js : List Nat} (h : OnlyFields s t ks) (hk : ks ⊆ js) : OnlyFields s t js :=
  ⟨h.1, fun d j hj => h.2 d j (fun hm => hj (hk hm))⟩

theorem OnlyFields.setFldN {s t : State} {ks : List Nat} (h : OnlyFields s t ks) {cls inst : Nat} {f : Fld} {d : Nat} (v : Nat)
    (hk : fkey cls inst f d ∈ ks) : OnlyFields s (t.setFldN cls inst f d v) ks :=
  h.trans ⟨rfl, fun _ _ hj => mget_mset_default _ _ _ _ (fun e => hj (e ▸ hk))⟩

/-- The writes of several fields of a page touch those fields alone. -/
theorem OnlyFields.setFlds {s t : State} {ks : List Nat} (h : OnlyFields s t ks) {cls inst : Nat} {l : List (Fld × Nat)}
    (hk : ∀ p ∈ l, fkey cls inst p.1 0 ∈ ks) : OnlyFields s (t.setFlds cls inst l) ks := by
  induction l generalizing t with
  | nil => exact h
  | cons p l ih =>
    exact ih (h.setFldN p.2 (hk p List.mem_cons_self)) (fun q hq => hk q (List.mem_cons_of_mem _ hq))

theorem OnlyFields.fldN {s t : State} {ks : List Nat} (h : OnlyFields s t ks) {cls inst : Nat} {f : Fld} {d : Nat}
    (hk : fkey cls inst f d ∉ ks) : t.fldN cls inst f d = s.fldN cls inst f d := h.2 _ _ hk

theorem OnlyFields.fld {s t : State} {ks : List Nat} (h : OnlyFields s t ks) {cls inst : Nat} {f : Fld}
    (hk : fkey cls inst f 0 ∉ ks) : t.fld cls inst f = s.fld cls inst f := h.2 _ _ hk

/-! ### Event counts -/

theorem mem_countKeys {cls inst k : Nat} : k ∈ countKeys cls inst ↔ ∃ n < 4, k = fkey cls inst R.EVT_COUNT_n_COUNT (0x20 * n) := by
  simp only [countKeys, List.mem_map, List.mem_range, eq_comm]

theorem Counted.sameFields {s t : State} {cls inst : Nat} (h : Counted s t cls inst) : SameFields s t (countKeys cls inst) :=
  fun d k hk => h.regs d k (fun n hn e => hk (mem_countKeys.2 ⟨n, hn, e⟩))

theorem State.count_onlyFields (s : State) (cls inst code n : Nat) : OnlyFields s (s.count cls inst code n) (countKeys cls inst) :=
  ⟨(s.count_counted cls inst code n).rest, (s.count_counted cls inst code n).sameFields⟩

/-- A page's counts are none of the fields of a page with another number. -/
theorem fkey_notMem_countKeys {cls inst cls' inst' : Nat} {f : Fld} {d : Nat} (hf : (f.off + d) * 64 + f.lo < 2 ^ 18)
    (h : cls * 2 ^ 11 + inst ≠ cls' * 2 ^ 11 + inst') : fkey cls inst f d ∉ countKeys cls' inst' := by
  intro hm
  obtain ⟨n, hn, e⟩ := mem_countKeys.1 hm
  have hc : (R.EVT_COUNT_n_COUNT.off + 0x20 * n) * 64 + R.EVT_COUNT_n_COUNT.lo < 2 ^ 18 := by
    simp only [R.EVT_COUNT_n_COUNT]; omega
  exact fkey_ne_of_page hf hc h e

end Sys2Proof.Machine
end

section
/-! SUPPORT. The path of a 64-bit register write of the PF (R6 to R11, R571, R572): the place it reaches, the register
there, and what each access code does with it. -/

namespace Sys2Proof.Machine

/-! ### A write of all 64 bits -/

/-- What a write of 64 bits carries. -/
def Wdata.whole (v : Nat) : Wdata := ⟨v, 2 ^ 64 - 1⟩

/-- A field of a 64-bit register: its bits are in order and below 64. -/
def Fld.fits (f : Fld) : Bool := decide (f.lo ≤ f.hi) && decide (f.hi < 64)

theorem testBit_bits (v hi lo i : Nat) : (bits v hi lo).testBit i = (decide (i < hi + 1 - lo) && v.testBit (i + lo)) := by
  rw [bits, Nat.testBit_mod_two_pow, Nat.testBit_div_two_pow]

theorem bits_wholeMask {f : Fld} (h : f.fits = true) : bits (2 ^ 64 - 1) f.hi f.lo = 2 ^ (f.hi + 1 - f.lo) - 1 := by
  simp only [Fld.fits, Bool.and_eq_true, decide_eq_true_eq] at h
  refine Nat.eq_of_testBit_eq fun i => ?_
  rw [testBit_bits, Nat.testBit_two_pow_sub_one, Nat.testBit_two_pow_sub_one]
  by_cases hi : i < f.hi + 1 - f.lo
  · simp only [hi, decide_true, Bool.true_and, decide_eq_true_eq]; omega
  · simp only [hi, decide_false, Bool.false_and]

theorem Wdata.whole_covers (v : Nat) {f : Fld} (h : f.fits = true) : (Wdata.whole v).covers f = true := by
  have hw : 2 ^ 1 ≤ 2 ^ (f.hi + 1 - f.lo) := by
    simp only [Fld.fits, Bool.and_eq_true, decide_eq_true_eq] at h
    exact Nat.pow_le_pow_right (by omega) (by omega)
  simp only [Wdata.covers, Wdata.whole, bits_wholeMask h, bne_iff_ne]
  omega

theorem Wdata.whole_ones (v : Nat) {f : Fld} (h : f.fits = true) : (Wdata.whole v).ones f = bits v f.hi f.lo := by
  rw [Wdata.ones, Wdata.whole, bits_wholeMask h, Nat.and_two_pow_sub_one_eq_mod, bits_mod]

/-- A whole write replaces a field, whatever it held. -/
theorem Wdata.whole_merge (v old : Nat) {f : Fld} (h : f.fits = true) :
    (Wdata.whole v).merge f old % 2 ^ (f.hi + 1 - f.lo) = bits v f.hi f.lo := by
  refine Nat.eq_of_testBit_eq fun i => ?_
  simp only [Wdata.merge, Wdata.whole, bits_wholeMask h, Nat.testBit_mod_two_pow, Nat.testBit_or, Nat.testBit_xor, Nat.testBit_and,
    Nat.testBit_two_pow_sub_one, testBit_bits]
  by_cases hi : i < f.hi + 1 - f.lo <;> simp [hi]

theorem Wdata.whole_sets (v : Nat) {f : Fld} (h : f.fits = true) (h1 : f.hi = f.lo) : (Wdata.whole v).sets f = bit v f.lo := by
  rw [Wdata.sets, Wdata.whole_ones v h, h1, bits, show f.lo + 1 - f.lo = 1 by omega, bit, Nat.testBit_eq_decide_div_mod_eq, Nat.pow_one]
  exact Bool.beq_eq_decide_eq _ _

/-! ### One field by its access code (Table 0-4) -/

section
variable (s : State) (cls inst e v : Nat) {f : Fld} (h : f.fits = true)

theorem State.writeFld_ro (d : Wdata) (f : Fld) : s.writeFld cls inst e d ⟨f, .ro⟩ = s := by
  simp only [State.writeFld, ite_self]

theorem State.writeFld_wo (d : Wdata) (f : Fld) : s.writeFld cls inst e d ⟨f, .wo⟩ = s := by
  simp only [State.writeFld, ite_self]

include h

theorem State.writeFld_rw : s.writeFld cls inst e (.whole v) ⟨f, .rw⟩ = s.setFldN cls inst f e (bits v f.hi f.lo) := by
  simp only [State.writeFld, Wdata.whole_covers v h, Bool.not_true, Bool.false_eq_true, if_false]
  exact s.setFldN_congr cls inst f e ((Wdata.whole_merge v _ h).trans (bits_mod v f.hi f.lo).symm)

theorem State.writeFld_rw1c : s.writeFld cls inst e (.whole v) ⟨f, .rw1c⟩ =
    s.setFldN cls inst f e (s.fldN cls inst f e ^^^ (s.fldN cls inst f e &&& bits v f.hi f.lo)) := by
  simp only [State.writeFld, Wdata.whole_covers v h, Wdata.whole_ones v h, Bool.not_true, Bool.false_eq_true, if_false]

theorem State.writeFld_wl : s.writeFld cls inst e (.whole v) ⟨f, .wl⟩ = if fkey cls inst f e ∈ s.wl then s else
    { s.setFldN cls inst f e (bits v f.hi f.lo) with wl := sadd (fkey cls inst f e) s.wl } := by
  simp only [State.writeFld, Wdata.whole_covers v h, Bool.not_true, Bool.false_eq_true, if_false, List.contains_iff_mem]
  rw [s.setFldN_congr cls inst f e ((Wdata.whole_merge v _ h).trans (bits_mod v f.hi f.lo).symm)]

end

/-! ### Where a write arrives -/

/-- The classes of Table 21-1 end below 19, their instances below 2,048. -/
theorem classMax_bounds {cls n : Nat} (h : classMax cls = some n) : cls ≤ 18 ∧ n ≤ 2047 := by
  by_cases hc : cls ≤ 18
  · refine ⟨hc, ?_⟩
    interval_cases cls <;> cases h <;> decide
  · obtain ⟨k, rfl⟩ : ∃ k, cls = k + 19 := ⟨cls - 19, by omega⟩
    cases h

section
variable {s : State} {w : RegW} {cls inst off : Nat} (h : s.Reaches w cls inst off)
include h

theorem State.Reaches.wdata : wdata w = .whole w.val := by
  simp only [Sys2Proof.Machine.wdata, h.size, if_true, Wdata.whole, Nat.mod_eq_of_lt h.val]

theorem State.Reaches.pfPlace : pfPlace w.off = .page cls inst off := by
  obtain ⟨n, hn, hi⟩ := h.page
  obtain ⟨hcls, hmax⟩ := classMax_bounds hn
  have hoff := h.aligned.2
  have ha := h.addr
  have hc : w.off / 2 ^ 23 = cls := by omega
  have hinst : w.off / 2 ^ 12 % 2 ^ 11 = inst := by omega
  have hbyte : w.off % 4096 = off := by omega
  simp only [Sys2Proof.Machine.pfPlace, hc, hinst, hbyte, hn, hi, if_true]

theorem State.Reaches.place : s.place w = .page cls inst off := by
  obtain ⟨n, hn, hi⟩ := h.page
  obtain ⟨hcls, hmax⟩ := classMax_bounds hn
  obtain ⟨h8, hoff⟩ := h.aligned
  have ha := h.addr
  have hb : bar0Access w.off w.size = true := by
    have h8' : w.off % 8 = 0 := by omega
    simp [bar0Access, h.size, h8']
  have hlt : ¬ 2 ^ 28 ≤ w.off := by omega
  simp only [State.place, hb, h.ready, h.fn, hlt, Bool.not_true, Bool.false_eq_true, if_false, h.pfPlace]

/-- The row of a register takes the write when the page, the register and the data are its own. -/
theorem State.Reaches.hits (p : Nat → Bool) (f : Fld) (stride count : Nat) (ok : Wdata → Bool) :
    s.hits w p f stride count ok = (p cls && decide (f.off ≤ off) &&
      (if stride = 0 then off == f.off else (off - f.off) % stride == 0 && decide ((off - f.off) / stride < count)) && ok (.whole w.val)) := by
  have h8 : off / 8 * 8 = off := by have := h.aligned.1; omega
  simp only [State.hits, h.place, h8, h.wdata]

/-- A write of a register of the page: refused when the register is locked, else performed (R577). -/
theorem State.Reaches.regWrite {r : RegDef} {i : Nat} (hr : regAt cls inst off = some (r, i)) :
    s.regWrite w = if s.lockedReg cls inst r = true then s.count clsSys 0 Ev.SYS_BAR0_LOCKED_WRITE 1
      else s.writeReg cls inst (r.stride * i) (.whole w.val) r false := by
  have h8 : off / 8 * 8 = off := by have := h.aligned.1; omega
  simp only [State.regWrite, h.place, State.pageWrite, h8, hr, h.live, Bool.not_true, Bool.false_eq_true, if_false, h.awake, h.wdata,
    h.fn, Option.isSome_none]

/-- A write of a header register that is not locked (R574). -/
theorem State.Reaches.regWrite_header {r : RegDef} {i : Nat} (hr : regAt cls inst off = some (r, i)) (h100 : r.off < 0x100)
    (hl : s.lockedReg cls inst r = false) :
    s.regWrite w = (r.fields.foldl (fun t f => t.writeFld cls inst (r.stride * i) (.whole w.val) f) s).headerEffect cls inst (r.stride * i)
      (.whole w.val) r.off := by
  rw [h.regWrite hr, hl, if_neg Bool.false_ne_true, State.writeReg, if_pos h100, State.writeFlds, List.filter_true]

end

/-- The registers of the header that are no ERR_INJECT are never locked. -/
theorem State.lockedReg_eq_false (s : State) (cls inst : Nat) {r : RegDef} (hl : r.lock = false) (ho : r.off ≠ R.ERR_INJECT_ARM.off) :
    s.lockedReg cls inst r = false := by
  simp [State.lockedReg, hl, ho]

end Sys2Proof.Machine
end

section
/-! SUPPORT. The registers of the common header (R574 to R578): what a 64-bit write of each does, as a run of field writes. -/

namespace Sys2Proof.Machine

/-! ### Which register of the header an offset names -/

theorem regAt_unitId (cls inst : Nat) : regAt cls inst 0x000 = some (regsHdr[0], 0) := rfl
theorem regAt_unitCtrl (cls inst : Nat) : regAt cls inst 0x010 = some (regsHdr[2], 0) := rfl
theorem regAt_errStatus (cls inst : Nat) : regAt cls inst 0x020 = some (regsHdr[4], 0) := rfl
theorem regAt_errEnable (cls inst : Nat) : regAt cls inst 0x028 = some (regsHdr[5], 0) := rfl
theorem regAt_errInject (cls inst : Nat) : regAt cls inst 0x038 = some (regsHdr[7], 0) := rfl
theorem regAt_lock (cls inst : Nat) : regAt cls inst 0x048 = some (regsHdr[9], 0) := rfl
theorem regAt_evtSel (cls inst : Nat) : ∀ n < 4, regAt cls inst (0x080 + 0x20 * n) = some (regsHdr[10], n)
  | 0, _ => rfl
  | 1, _ => rfl
  | 2, _ => rfl
  | 3, _ => rfl

/-- The four event counts of a page go to zero one after the other. -/
theorem State.clearCounts_eq (s : State) (cls inst : Nat) : s.clearCounts cls inst =
    (((s.setFldN cls inst R.EVT_COUNT_n_COUNT 0 0).setFldN cls inst R.EVT_COUNT_n_COUNT (0x20 * 1) 0).setFldN cls inst R.EVT_COUNT_n_COUNT
      (0x20 * 2) 0).setFldN cls inst R.EVT_COUNT_n_COUNT (0x20 * 3) 0 := rfl

/-- The two error counts of a page go to zero. -/
def State.clearErrs (s : State) (cls inst : Nat) : State := s.setFlds cls inst [(R.ERR_COUNT_TOTAL, 0), (R.ERR_COUNT_UNRECORDED, 0)]

/-- One bit of ERR_STATUS written: a 1 clears it. -/
def State.clearBit (s : State) (cls inst v b : Nat) : State := s.writeFld cls inst 0 (.whole v) ⟨errFld b, .rw1c⟩

/-- Of the header registers only UNIT_CTRL, ERR_STATUS and EVT_SEL_n do more than their fields say. -/
theorem State.headerEffect_plain (s : State) (cls inst e : Nat) (d : Wdata) {off : Nat}
    (h : off ≠ R.UNIT_CTRL_EVT_CLR.off ∧ off ≠ R.ERR_STATUS_CE.off ∧ off ≠ R.EVT_SEL_n_CODE.off) : s.headerEffect cls inst e d off = s := by
  obtain ⟨hc, he, hs⟩ := h
  simp only [State.headerEffect, hc, he, hs, if_false]

/-! ### What a write of each register does -/

section
variable {s : State} {w : RegW} {cls inst : Nat}

/-- The fields of a header register that is never locked and has no effect of its own, each by its access code. -/
theorem State.Reaches.regWrite_plain {off : Nat} {r : RegDef} (h : s.Reaches w cls inst off) (hr : regAt cls inst off = some (r, 0))
    (hl : s.lockedReg cls inst r = false)
    (ho : r.off < 0x100 ∧ r.off ≠ R.UNIT_CTRL_EVT_CLR.off ∧ r.off ≠ R.ERR_STATUS_CE.off ∧ r.off ≠ R.EVT_SEL_n_CODE.off) :
    s.regWrite w = r.fields.foldl (fun t f => t.writeFld cls inst 0 (.whole w.val) f) s := by
  rw [h.regWrite_header hr ho.1 hl, State.headerEffect_plain _ _ _ _ _ ho.2, Nat.mul_zero]

theorem State.regWrite_evtSel {n : Nat} (hn : n < 4) (h : s.Reaches w cls inst (0x080 + 0x20 * n)) :
    s.regWrite w = (s.setFldN cls inst R.EVT_SEL_n_CODE (0x20 * n) (bits w.val 7 0)).setFldN cls inst R.EVT_COUNT_n_COUNT (0x20 * n) 0 := by
  rw [h.regWrite_header (regAt_evtSel cls inst n hn) (by decide) (s.lockedReg_eq_false cls inst rfl (by decide))]
  show State.headerEffect (s.writeFld cls inst (0x20 * n) (.whole w.val) ⟨R.EVT_SEL_n_CODE, .rw⟩) cls inst (0x20 * n) (.whole w.val)
    R.EVT_SEL_n_CODE.off = _
  rw [State.writeFld_rw _ _ _ _ _ (by decide), State.headerEffect, if_neg (by decide), if_neg (by decide), if_pos rfl,
    if_pos (Wdata.whole_covers _ (by decide))]
  rfl

theorem State.regWrite_unitCtrl (h : s.Reaches w cls inst 0x010) :
    s.regWrite w =
      (let t := s.setFldN cls inst R.UNIT_CTRL_EVT_FREEZE 0 (bits w.val 1 1)
       let t := if bit w.val R.UNIT_CTRL_EVT_CLR.lo = true then t.clearCounts cls inst else t
       if bit w.val R.UNIT_CTRL_ERRCNT_CLR.lo = true then t.clearErrs cls inst else t) := by
  rw [h.regWrite_header (regAt_unitCtrl cls inst) (by decide) (s.lockedReg_eq_false cls inst rfl (by decide))]
  show State.headerEffect (((s.writeFld cls inst 0 (.whole w.val) ⟨R.UNIT_CTRL_ERRCNT_CLR, .wo⟩).writeFld cls inst 0 (.whole w.val)
    ⟨R.UNIT_CTRL_EVT_FREEZE, .rw⟩).writeFld cls inst 0 (.whole w.val) ⟨R.UNIT_CTRL_EVT_CLR, .wo⟩) cls inst 0 (.whole w.val)
    R.UNIT_CTRL_EVT_CLR.off = _
  rw [State.writeFld_wo, State.writeFld_wo, State.writeFld_rw _ _ _ _ _ (by decide), State.headerEffect, if_pos rfl,
    Wdata.whole_sets _ (by decide) rfl, Wdata.whole_sets _ (by decide) rfl]
  rfl

theorem State.regWrite_lock (h : s.Reaches w cls inst 0x048) :
    s.regWrite w = (s.writeFld cls inst 0 (.whole w.val) ⟨R.LOCK_INJECT_LOCK, .wl⟩).writeFld cls inst 0 (.whole w.val) ⟨R.LOCK_CFG_LOCK, .wl⟩ :=
  h.regWrite_plain (regAt_lock cls inst) (s.lockedReg_eq_false cls inst rfl (by decide)) (by decide)

theorem State.regWrite_errInject (h : s.Reaches w cls inst 0x038) (hl : s.fld cls inst R.LOCK_INJECT_LOCK ≠ 1) :
    s.regWrite w = (s.setFldN cls inst R.ERR_INJECT_ARM 0 (bits w.val 8 8)).setFldN cls inst R.ERR_INJECT_KIND 0 (bits w.val 1 0) := by
  have hlock : s.lockedReg cls inst regsHdr[7] = false := by
    have hn : (regsHdr[7] : RegDef).lock = false := rfl
    simp [State.lockedReg, hn, hl]
  rw [h.regWrite_plain (regAt_errInject cls inst) hlock (by decide)]
  show (s.writeFld cls inst 0 (.whole w.val) ⟨R.ERR_INJECT_ARM, .rw⟩).writeFld cls inst 0 (.whole w.val) ⟨R.ERR_INJECT_KIND, .rw⟩ = _
  rw [State.writeFld_rw _ _ _ _ _ (by decide), State.writeFld_rw _ _ _ _ _ (by decide)]
  rfl

theorem State.regWrite_errEnable (h : s.Reaches w cls inst 0x028) :
    s.regWrite w = s.setFldN cls inst R.ERR_ENABLE_EN 0 (bits w.val 5 0) := by
  rw [h.regWrite_plain (regAt_errEnable cls inst) (s.lockedReg_eq_false cls inst rfl (by decide)) (by decide)]
  exact s.writeFld_rw cls inst 0 w.val (f := R.ERR_ENABLE_EN) (by decide)

/-- Every field of UNIT_ID is read-only. -/
theorem State.regWrite_unitId (h : s.Reaches w cls inst 0x000) : s.regWrite w = s := by
  rw [h.regWrite_plain (regAt_unitId cls inst) (s.lockedReg_eq_false cls inst rfl (by decide)) (by decide)]
  have hro : ∀ f ∈ (regsHdr[0] : RegDef).fields, s.writeFld cls inst 0 (.whole w.val) f = s := by
    rintro ⟨f, a⟩ hf
    obtain rfl : a = .ro := (by decide : ∀ f ∈ (regsHdr[0] : RegDef).fields, f.acc = .ro) _ hf
    exact s.writeFld_ro cls inst 0 _ f
  exact List.foldlRecOn (motive := fun t => t = s) _ _ rfl (fun t ht f hf => by rw [ht]; exact hro f hf)

/-- ERR_STATUS: bit by bit cleared where the write gives 1, and ERR_FIRST.VALID with the last of them (R575). -/
theorem State.regWrite_errStatus (h : s.Reaches w cls inst 0x020) :
    s.regWrite w = (let t := [5, 4, 3, 2, 1, 0].foldl (fun t b => t.clearBit cls inst w.val b) s
      if t.errStatus cls inst = 0 then t.setFldN cls inst R.ERR_FIRST_VALID 0 0 else t) := by
  rw [h.regWrite_header (regAt_errStatus cls inst) (by decide) (s.lockedReg_eq_false cls inst rfl (by decide))]
  show State.headerEffect ([5, 4, 3, 2, 1, 0].foldl (fun t b => t.clearBit cls inst w.val b) s) cls inst 0
    (.whole w.val) R.ERR_STATUS_CE.off = _
  rw [State.headerEffect, if_neg (by decide), if_pos rfl]
  rfl

end

end Sys2Proof.Machine
end

section
/-! PROOF. EVT_SEL, EVT_CLR, ERRCNT_CLR, LOCK and ERR_INJECT on the common header (O28). -/

namespace Sys2Proof.Machine

/-! ### The writes of UNIT_CTRL -/

theorem State.clearCounts_onlyFields (s : State) (cls inst : Nat) : OnlyFields s (s.clearCounts cls inst) (countKeys cls inst) :=
  (((((OnlyFields.refl s _).setFldN 0 (mem_countKeys.2 ⟨0, by decide, rfl⟩)).setFldN 0 (mem_countKeys.2 ⟨1, by decide, rfl⟩)).setFldN 0
    (mem_countKeys.2 ⟨2, by decide, rfl⟩)).setFldN 0 (mem_countKeys.2 ⟨3, by decide, rfl⟩))

theorem State.clearCounts_count (s : State) (cls inst : Nat) :
    ∀ n < 4, (s.clearCounts cls inst).fldN cls inst R.EVT_COUNT_n_COUNT (0x20 * n) = 0 := by
  intro n hn
  rw [State.clearCounts_eq]
  by_cases h3 : n = 3
  · rw [h3, State.fldN_setFldN_self]; rfl
  rw [State.fldN_setFldN_page _ _ (by simp only [R.EVT_COUNT_n_COUNT]; omega)]
  by_cases h2 : n = 2
  · rw [h2, State.fldN_setFldN_self]; rfl
  rw [State.fldN_setFldN_page _ _ (by simp only [R.EVT_COUNT_n_COUNT]; omega)]
  by_cases h1 : n = 1
  · rw [h1, State.fldN_setFldN_self]; rfl
  rw [State.fldN_setFldN_page _ _ (by simp only [R.EVT_COUNT_n_COUNT]; omega), show n = 0 by omega]
  exact State.fldN_setFldN_self _ _ _ _ _ _

/-- The keys of the two error counts of a page. -/
def errCountKeys (cls inst : Nat) : List Nat := [fkey cls inst R.ERR_COUNT_TOTAL 0, fkey cls inst R.ERR_COUNT_UNRECORDED 0]

theorem State.clearErrs_onlyFields (s : State) (cls inst : Nat) : OnlyFields s (s.clearErrs cls inst) (errCountKeys cls inst) :=
  (OnlyFields.refl s _).setFlds (by simp [errCountKeys])

theorem State.clearErrs_total (s : State) (cls inst : Nat) : (s.clearErrs cls inst).fld cls inst R.ERR_COUNT_TOTAL = 0 :=
  (State.fld_setFldN_page _ _ (by decide)).trans (State.fld_setFld_self _ _ _ _ _)

theorem State.clearErrs_unrecorded (s : State) (cls inst : Nat) : (s.clearErrs cls inst).fld cls inst R.ERR_COUNT_UNRECORDED = 0 :=
  State.fld_setFld_self _ _ _ _ _

theorem fkey_notMem_errCountKeys {cls inst : Nat} {f : Fld} {d : Nat} (h : (f.off + d) * 64 + f.lo ≠ 0x040 * 64 ∧ (f.off + d) * 64 + f.lo ≠ 0x040 * 64 + 32) :
    fkey cls inst f d ∉ errCountKeys cls inst := by
  simp only [errCountKeys, List.mem_cons, List.not_mem_nil, or_false, not_or, fkey_page_eq_iff]
  exact h

/-- What a write of UNIT_CTRL leaves: the counts it clears at zero, EVT_FREEZE as written, the rest as it was (R574, R578). -/
structure CtrlWritten (s t : State) (w : RegW) (cls inst : Nat) : Prop where
  counts : bit w.val R.UNIT_CTRL_EVT_CLR.lo = true → ∀ n < 4, t.fldN cls inst R.EVT_COUNT_n_COUNT (0x20 * n) = 0
  errs : bit w.val R.UNIT_CTRL_ERRCNT_CLR.lo = true → t.fld cls inst R.ERR_COUNT_TOTAL = 0 ∧ t.fld cls inst R.ERR_COUNT_UNRECORDED = 0
  freeze : t.fld cls inst R.UNIT_CTRL_EVT_FREEZE = bits w.val R.UNIT_CTRL_EVT_FREEZE.hi R.UNIT_CTRL_EVT_FREEZE.lo
  only : OnlyFields s t (fkey cls inst R.UNIT_CTRL_EVT_FREEZE 0 ::
    ((if bit w.val R.UNIT_CTRL_EVT_CLR.lo = true then countKeys cls inst else []) ++
     (if bit w.val R.UNIT_CTRL_ERRCNT_CLR.lo = true then errCountKeys cls inst else [])))

theorem State.regWrite_unitCtrl_written {s : State} {w : RegW} {cls inst : Nat} (h : s.Reaches w cls inst 0x010) :
    CtrlWritten s (s.regWrite w) w cls inst := by
  rw [State.regWrite_unitCtrl h]
  set t := s.setFldN cls inst R.UNIT_CTRL_EVT_FREEZE 0 (bits w.val 1 1) with ht
  set u := if bit w.val R.UNIT_CTRL_EVT_CLR.lo = true then t.clearCounts cls inst else t with hu
  set v := if bit w.val R.UNIT_CTRL_ERRCNT_CLR.lo = true then u.clearErrs cls inst else u with hv
  have tu : OnlyFields t u (if bit w.val R.UNIT_CTRL_EVT_CLR.lo = true then countKeys cls inst else []) := by
    rw [hu]; split
    · exact t.clearCounts_onlyFields cls inst
    · exact OnlyFields.refl t []
  have uv : OnlyFields u v (if bit w.val R.UNIT_CTRL_ERRCNT_CLR.lo = true then errCountKeys cls inst else []) := by
    rw [hv]; split
    · exact u.clearErrs_onlyFields cls inst
    · exact OnlyFields.refl u []
  have uv' : OnlyFields u v (errCountKeys cls inst) := uv.mono (by split <;> simp)
  have tu' : OnlyFields t u (countKeys cls inst) := tu.mono (by split <;> simp)
  refine ⟨fun hb n hn => ?_, fun hb => ?_, ?_, ?_⟩
  · rw [uv'.fldN (fkey_notMem_errCountKeys (by simp only [R.EVT_COUNT_n_COUNT]; omega)), hu, if_pos hb]
    exact t.clearCounts_count cls inst n hn
  · rw [hv, if_pos hb]
    exact ⟨u.clearErrs_total cls inst, u.clearErrs_unrecorded cls inst⟩
  · have hk : fkey cls inst R.UNIT_CTRL_EVT_FREEZE 0 ∉ countKeys cls inst := fun hm => by
      obtain ⟨n, -, e⟩ := mem_countKeys.1 hm
      rw [fkey_page_eq_iff] at e
      simp only [R.UNIT_CTRL_EVT_FREEZE, R.EVT_COUNT_n_COUNT] at e
      omega
    rw [uv'.fld (fkey_notMem_errCountKeys (by decide)), tu'.fld hk]
    exact (s.fldN_setFldN_self _ _ _ _ _).trans (bits_mod _ _ _)
  · have st : OnlyFields s t [fkey cls inst R.UNIT_CTRL_EVT_FREEZE 0] := (OnlyFields.refl s _).setFldN _ List.mem_cons_self
    exact ((st.mono (by simp)).trans (tu.mono (by simp))).trans (uv.mono (by simp))

/-! ### The write of LOCK -/

theorem mem_sadd {j k : Nat} {l : List Nat} : j ∈ sadd k l ↔ j = k ∨ j ∈ l := by
  induction l with
  | nil => simp [sadd]
  | cons i l ih =>
    unfold sadd
    split
    · simp
    · split
      · next h => simp [h]
      · simp only [List.mem_cons, ih]; tauto

/-- A write-once field after a write of all its register: one that is open takes its bits and is fixed, a fixed one stays (R577). -/
structure WroteOnce (s t : State) (cls inst : Nat) (f : Fld) (v : Nat) : Prop where
  fresh : fkey cls inst f 0 ∉ s.wl → t.fld cls inst f = v ∧ fkey cls inst f 0 ∈ t.wl
  fixed : fkey cls inst f 0 ∈ s.wl → t.fld cls inst f = s.fld cls inst f
  rest : t = { s with regs := t.regs, wl := t.wl }
  regs : SameFields s t [fkey cls inst f 0]
  wl : ∀ k, k ≠ fkey cls inst f 0 → (k ∈ t.wl ↔ k ∈ s.wl)

theorem State.writeFld_wroteOnce (s : State) (cls inst v : Nat) {f : Fld} (h : f.fits = true) :
    WroteOnce s (s.writeFld cls inst 0 (.whole v) ⟨f, .wl⟩) cls inst f (bits v f.hi f.lo) := by
  rw [State.writeFld_wl s cls inst 0 v h]
  split
  · next hk => exact ⟨fun hn => absurd hk hn, fun _ => rfl, rfl, fun _ _ _ => rfl, fun _ _ => Iff.rfl⟩
  · next hk =>
    refine ⟨fun _ => ⟨?_, mem_sadd.2 (.inl rfl)⟩, fun hm => absurd hm hk, rfl, fun d k hj => ?_, fun k hj => ?_⟩
    · exact (s.fldN_setFldN_self _ _ _ _ _).trans (bits_mod _ _ _)
    · exact mget_mset_default _ _ _ _ (by simpa using hj)
    · simp only [mem_sadd, hj, false_or]

/-- Two write-once fields of one register, one after the other. -/
theorem WroteOnce.pair {s t u : State} {cls inst v v' : Nat} {f g : Fld} (h : WroteOnce s t cls inst f v) (k : WroteOnce t u cls inst g v')
    (hfg : fkey cls inst f 0 ≠ fkey cls inst g 0) :
    ((fkey cls inst f 0 ∉ s.wl → u.fld cls inst f = v ∧ fkey cls inst f 0 ∈ u.wl) ∧ (fkey cls inst f 0 ∈ s.wl → u.fld cls inst f = s.fld cls inst f)) ∧
    ((fkey cls inst g 0 ∉ s.wl → u.fld cls inst g = v' ∧ fkey cls inst g 0 ∈ u.wl) ∧ (fkey cls inst g 0 ∈ s.wl → u.fld cls inst g = s.fld cls inst g)) ∧
    u = { s with regs := u.regs, wl := u.wl } ∧ SameFields s u [fkey cls inst g 0, fkey cls inst f 0] := by
  have uf : u.fld cls inst f = t.fld cls inst f := k.regs _ _ (by simpa using hfg)
  have tg : t.fld cls inst g = s.fld cls inst g := h.regs _ _ (by simpa using hfg.symm)
  refine ⟨⟨fun hn => ?_, fun hm => uf.trans (h.fixed hm)⟩, ⟨fun hn => k.fresh (fun hm => hn ((h.wl _ hfg.symm).1 hm)),
    fun hm => (k.fixed ((h.wl _ hfg.symm).2 hm)).trans tg⟩, ?_, fun d j hj => ?_⟩
  · exact ⟨uf.trans (h.fresh hn).1, (k.wl _ hfg).2 (h.fresh hn).2⟩
  · rw [k.rest, h.rest]
  · simp only [List.mem_cons, List.not_mem_nil, or_false, not_or] at hj
    exact (k.regs d j (by simp [hj.1])).trans (h.regs d j (by simp [hj.2]))

/-! ### The rows -/

section
variable {s : State} {w : RegW} {cls inst : Nat}

theorem State.writeIf_of {b : Bool} (hb : b = true) : s.writeIf b w = .next (s.regWrite w) := by rw [hb]; rfl

theorem exec_evtSel {n : Nat} (hn : n < 4) (h : s.Reaches w cls inst (0x080 + 0x20 * n)) : exec (.evtSel w) s = .next (s.regWrite w) :=
  State.writeIf_of (by
    rw [h.hits]
    simp only [R.EVT_SEL_n_CODE, Nat.le_add_right, Nat.add_sub_cancel_left, decide_true, Bool.and_true, Bool.true_and]
    simp [hn])

theorem exec_evtClr (h : s.Reaches w cls inst 0x010) (hb : bit w.val R.UNIT_CTRL_EVT_CLR.lo = true) :
    exec (.evtClr w) s = .next (s.regWrite w) :=
  State.writeIf_of (by rw [h.hits, Wdata.whole_sets _ (by decide) rfl, hb]; rfl)

theorem exec_errcntClr (h : s.Reaches w cls inst 0x010) (hb : bit w.val R.UNIT_CTRL_ERRCNT_CLR.lo = true) :
    exec (.errcntClr w) s = .next (s.regWrite w) :=
  State.writeIf_of (by rw [h.hits, Wdata.whole_sets _ (by decide) rfl, hb]; rfl)

theorem exec_lock (h : s.Reaches w cls inst 0x048) : exec (.lock w) s = .next (s.regWrite w) :=
  State.writeIf_of (by rw [h.hits]; rfl)

theorem exec_errInject (h : s.Reaches w cls inst 0x038) : exec (.errInject w) s = .next (s.regWrite w) :=
  State.writeIf_of (by rw [h.hits]; rfl)

theorem evtSel_writes {n : Nat} (hn : n < 4) (h : s.Reaches w cls inst (0x080 + 0x20 * n)) :
    ∃ t, exec (.evtSel w) s = .next t ∧ t.fldN cls inst R.EVT_SEL_n_CODE (0x20 * n) = w.val % 256 ∧
      t.fldN cls inst R.EVT_COUNT_n_COUNT (0x20 * n) = 0 ∧
      OnlyFields s t [fkey cls inst R.EVT_SEL_n_CODE (0x20 * n), fkey cls inst R.EVT_COUNT_n_COUNT (0x20 * n)] := by
  refine ⟨_, exec_evtSel hn h, ?_, ?_, ?_⟩ <;> rw [State.regWrite_evtSel hn h]
  · rw [State.fldN_setFldN_page _ _ (by simp only [R.EVT_SEL_n_CODE, R.EVT_COUNT_n_COUNT]; omega), State.fldN_setFldN_self]
    simp [bits, R.EVT_SEL_n_CODE]
  · exact (State.fldN_setFldN_self _ _ _ _ _ _).trans (Nat.zero_mod _)
  · exact ((OnlyFields.refl s _).setFldN _ (by simp)).setFldN _ (by simp)

theorem errInject_writes (h : s.Reaches w cls inst 0x038) (hl : s.fld cls inst R.LOCK_INJECT_LOCK ≠ 1) :
    ∃ t, exec (.errInject w) s = .next t ∧ t.fld cls inst R.ERR_INJECT_ARM = bits w.val 8 8 ∧
      t.fld cls inst R.ERR_INJECT_KIND = bits w.val 1 0 ∧ OnlyFields s t [fkey cls inst R.ERR_INJECT_ARM 0, fkey cls inst R.ERR_INJECT_KIND 0] := by
  refine ⟨_, exec_errInject h, ?_, ?_, ?_⟩ <;> rw [State.regWrite_errInject h hl]
  · rw [State.fld_setFldN_page _ _ (by decide)]
    exact (State.fldN_setFldN_self _ _ _ _ _ _).trans (bits_mod _ _ _)
  · exact (State.fldN_setFldN_self _ _ _ _ _ _).trans (bits_mod _ _ _)
  · exact ((OnlyFields.refl s _).setFldN _ (by simp)).setFldN _ (by simp)

theorem lock_writes (h : s.Reaches w cls inst 0x048) :
    ∃ t, exec (.lock w) s = .next t ∧
      (∀ f, f = R.LOCK_CFG_LOCK ∨ f = R.LOCK_INJECT_LOCK →
        (fkey cls inst f 0 ∉ s.wl → t.fld cls inst f = bits w.val f.hi f.lo ∧ fkey cls inst f 0 ∈ t.wl) ∧
        (fkey cls inst f 0 ∈ s.wl → t.fld cls inst f = s.fld cls inst f)) ∧
      t = { s with regs := t.regs, wl := t.wl } ∧ SameFields s t [fkey cls inst R.LOCK_CFG_LOCK 0, fkey cls inst R.LOCK_INJECT_LOCK 0] := by
  obtain ⟨inject, cfg, rest, same⟩ := (s.writeFld_wroteOnce cls inst w.val (f := R.LOCK_INJECT_LOCK) (by decide)).pair
    (State.writeFld_wroteOnce _ cls inst w.val (f := R.LOCK_CFG_LOCK) (by decide)) (fkey_page_eq_iff.not.2 (by decide))
  rw [← State.regWrite_lock h] at inject cfg rest same
  refine ⟨_, exec_lock h, ?_, rest, same⟩
  rintro f (rfl | rfl)
  · exact cfg
  · exact inject

end

/-- Settles O28: each row performs its write (R9), and the write is a run of field writes of the page's header. -/
theorem headerCommandsWrite : Obligations.HeaderCommandsWrite := by
  unfold Obligations.HeaderCommandsWrite
  intro w s cls inst
  refine ⟨fun n hn h => evtSel_writes hn h, fun h hb => ?_, fun h hb => ?_, lock_writes, errInject_writes⟩
  · obtain ⟨counts, -, freeze, only⟩ := State.regWrite_unitCtrl_written h
    rw [if_pos hb] at only
    exact ⟨_, exec_evtClr h hb, counts hb, freeze, only⟩
  · obtain ⟨-, errs, -, only⟩ := State.regWrite_unitCtrl_written h
    rw [if_pos hb] at only
    exact ⟨_, exec_errcntClr h hb, (errs hb).1, (errs hb).2, only.mono (List.cons_subset_cons _ List.perm_append_comm.subset)⟩

end Sys2Proof.Machine
end

section
/-! PROOF. A register write by access code, in a lock, out of shape and before READY (O29). -/

namespace Sys2Proof.Machine

/-! ### ERR_STATUS: bits cleared by writing 1 -/

theorem errFld_bits : ∀ b < 6, (errFld b).off = 0x020 ∧ (errFld b).lo = b ∧ (errFld b).hi = b := by decide

theorem errFld_fits : ∀ b < 6, (errFld b).fits = true := by decide

theorem errFld_key_ne {cls inst a b : Nat} (ha : a < 6) (hb : b < 6) (h : a ≠ b) : fkey cls inst (errFld a) 0 ≠ fkey cls inst (errFld b) 0 := by
  rw [Ne, fkey_page_eq_iff, (errFld_bits a ha).1, (errFld_bits a ha).2.1, (errFld_bits b hb).1, (errFld_bits b hb).2.1]
  omega

/-- A one-bit field written with a 1 is cleared, with a 0 it keeps its bit. -/
theorem xor_and_bit_mod_two (x v k : Nat) : (x ^^^ (x &&& bits v k k)) % 2 = if bit v k = true then 0 else x % 2 := by
  have hb : bits v k k = if bit v k = true then 1 else 0 := by
    rw [bits, show k + 1 - k = 1 by omega, bit, Nat.testBit_eq_decide_div_mod_eq]
    simp only [Nat.pow_one, decide_eq_true_eq]
    split <;> omega
  rw [hb, Nat.xor_mod_two_eq]
  split
  · rw [Nat.and_one_is_mod]; omega
  · rw [Nat.and_zero]; omega

theorem State.clearBit_self (s : State) (cls inst v : Nat) {b : Nat} (hb : b < 6) :
    (s.clearBit cls inst v b).fld cls inst (errFld b) = if bit v (errFld b).lo = true then 0 else s.fld cls inst (errFld b) % 2 := by
  obtain ⟨-, hlo, hhi⟩ := errFld_bits b hb
  rw [State.clearBit, State.writeFld_rw1c s cls inst 0 v (errFld_fits b hb)]
  refine (s.fldN_setFldN_self _ _ _ _ _).trans ?_
  rw [hhi, hlo, show b + 1 - b = 1 by omega, Nat.pow_one, xor_and_bit_mod_two]
  rfl

theorem State.clearBit_onlyFields (s : State) (cls inst v b : Nat) (hb : b < 6) :
    OnlyFields s (s.clearBit cls inst v b) [fkey cls inst (errFld b) 0] := by
  rw [State.clearBit, State.writeFld_rw1c s cls inst 0 v (errFld_fits b hb)]
  exact (OnlyFields.refl s _).setFldN _ List.mem_cons_self

/-- Bits of ERR_STATUS written one after the other: each takes its own bit of the write. -/
theorem State.clearBits (cls inst v : Nat) (l : List Nat) (hl : l.Nodup) (h6 : ∀ b ∈ l, b < 6) (s : State) :
    OnlyFields s (l.foldl (fun t b => t.clearBit cls inst v b) s) (l.map (fun b => fkey cls inst (errFld b) 0)) ∧
    ∀ b ∈ l, (l.foldl (fun t b => t.clearBit cls inst v b) s).fld cls inst (errFld b) =
      if bit v (errFld b).lo = true then 0 else s.fld cls inst (errFld b) % 2 := by
  induction l generalizing s with
  | nil => exact ⟨OnlyFields.refl s _, fun _ hb => absurd hb List.not_mem_nil⟩
  | cons a l ih =>
    obtain ⟨hal, hl'⟩ := List.nodup_cons.1 hl
    have ha : a < 6 := h6 a List.mem_cons_self
    have h6' : ∀ b ∈ l, b < 6 := fun b hb => h6 b (List.mem_cons_of_mem _ hb)
    obtain ⟨only, value⟩ := ih hl' h6' (s.clearBit cls inst v a)
    have first := s.clearBit_onlyFields cls inst v a ha
    refine ⟨(first.mono (by simp)).trans (only.mono (List.subset_cons_self _ _)), fun b hb => ?_⟩
    rw [List.foldl_cons]
    rcases List.mem_cons.1 hb with rfl | hb
    · rw [only.fld, s.clearBit_self cls inst v ha]
      simp only [List.mem_map, not_exists, not_and]
      exact fun c hc => errFld_key_ne (h6' c hc) ha (fun e => hal (e ▸ hc))
    · have hne : b ≠ a := fun e => hal (e ▸ hb)
      rw [value b hb, first.fld (by simpa using errFld_key_ne (h6' b hb) ha hne)]

/-- ERR_FIRST is no part of ERR_STATUS. -/
theorem State.errStatus_setFirst (s : State) (cls inst v : Nat) : (s.setFldN cls inst R.ERR_FIRST_VALID 0 v).errStatus cls inst = s.errStatus cls inst := by
  unfold State.errStatus
  iterate 6 rw [State.fld_setFldN_page _ _ (by decide)]

section
variable {s : State} {w : RegW} {cls inst : Nat}

theorem exec_registerWrite (w : RegW) (s : State) : exec (.registerWrite w) s = .next (s.regWrite w) := rfl

theorem errStatus_writes (h : s.Reaches w cls inst 0x020) : ∃ t, exec (.registerWrite w) s = .next t ∧
    (∀ b < 6, t.fld cls inst (errFld b) = (if bit w.val (errFld b).lo then 0 else s.fld cls inst (errFld b) % 2)) ∧
    (t.errStatus cls inst = 0 → t.fld cls inst R.ERR_FIRST_VALID = 0) ∧
    (t.errStatus cls inst ≠ 0 → t.fld cls inst R.ERR_FIRST_VALID = s.fld cls inst R.ERR_FIRST_VALID) ∧
    OnlyFields s t (fkey cls inst R.ERR_FIRST_VALID 0 :: (List.range 6).map (fun b => fkey cls inst (errFld b) 0)) := by
  obtain ⟨only, value⟩ := State.clearBits cls inst w.val [5, 4, 3, 2, 1, 0] (by decide) (by decide) s
  have hw := State.regWrite_errStatus h
  set u := [5, 4, 3, 2, 1, 0].foldl (fun t b => t.clearBit cls inst w.val b) s
  have mem6 : ∀ b < 6, b ∈ [5, 4, 3, 2, 1, 0] := by decide
  have first : u.fld cls inst R.ERR_FIRST_VALID = s.fld cls inst R.ERR_FIRST_VALID := only.fld (by
    simp only [List.mem_map, not_exists, not_and, fkey_page_eq_iff]
    decide)
  have only' : OnlyFields s u (fkey cls inst R.ERR_FIRST_VALID 0 :: (List.range 6).map (fun b => fkey cls inst (errFld b) 0)) :=
    only.mono (List.subset_cons_of_subset _ (List.map_subset _ (by decide)))
  refine ⟨_, (exec_registerWrite w s).trans (congrArg _ hw), ?_⟩
  by_cases hz : u.errStatus cls inst = 0
  · rw [if_pos hz]
    refine ⟨fun b hb => ?_, fun _ => (State.fldN_setFldN_self _ _ _ _ _ _).trans (Nat.zero_mod _), fun hn => absurd hz ?_, only'.setFldN _ List.mem_cons_self⟩
    · rw [State.fld_setFldN_page _ _ ((by decide : ∀ b < 6, (errFld b).off * 64 + (errFld b).lo ≠
        (R.ERR_FIRST_VALID.off + 0) * 64 + R.ERR_FIRST_VALID.lo) b hb)]
      exact value b (mem6 b hb)
    · rwa [State.errStatus_setFirst] at hn
  · rw [if_neg hz]
    exact ⟨fun b hb => value b (mem6 b hb), fun h0 => absurd h0 hz, fun _ => first, only'⟩

theorem errEnable_writes (h : s.Reaches w cls inst 0x028) : ∃ t, exec (.registerWrite w) s = .next t ∧
    t.fld cls inst R.ERR_ENABLE_EN = w.val % 64 ∧ OnlyFields s t [fkey cls inst R.ERR_ENABLE_EN 0] := by
  refine ⟨_, exec_registerWrite w s, ?_, ?_⟩ <;> rw [State.regWrite_errEnable h]
  · refine (State.fldN_setFldN_self _ _ _ _ _ _).trans ?_
    simp [bits, R.ERR_ENABLE_EN]
  · exact (OnlyFields.refl s _).setFldN _ List.mem_cons_self

end

/-! ### Registers of a unit -/

/-- Where every register of a class stands on all instances, an offset finds one of the whole table. -/
theorem regAt_of_everywhere {cls inst byte n : Nat} (h100 : 0x100 ≤ byte) (h : ∀ r ∈ unitRegs cls, r.lo = 0 ∧ r.hi = n) (hi : inst ≤ n) :
    regAt cls inst byte = ((unitRegs cls).find? (fun r =>
      decide (r.off ≤ byte) && (if r.stride = 0 then byte == r.off
        else (byte - r.off) % r.stride == 0 && decide ((byte - r.off) / r.stride < r.count)))).map
      (fun r => (r, if r.stride = 0 then 0 else (byte - r.off) / r.stride)) := by
  have hall : (unitRegs cls).filter (fun r => decide (r.lo ≤ inst) && decide (inst ≤ r.hi)) = unitRegs cls :=
    List.filter_eq_self.2 (fun r hr => by simp only [(h r hr).1, (h r hr).2, Nat.zero_le, hi, decide_true, Bool.and_self])
  rw [regAt, if_neg (by omega), hall]

/-- ATOM_CTL is under CFG_LOCK on every core's page (R577). -/
theorem regAt_atomCtl {inst : Nat} (hi : inst ≤ 1279) : ∃ r, regAt clsCore inst 0x500 = some (r, 0) ∧ r.lock = true :=
  ⟨_, (regAt_of_everywhere (by decide) (by decide : ∀ r ∈ unitRegs clsCore, r.lo = 0 ∧ r.hi = 1279) hi).trans rfl, rfl⟩

theorem State.regWrite_locked_atomCtl {s : State} {w : RegW} {inst : Nat} (h : s.Reaches w clsCore inst 0x500)
    (hl : s.fld clsCore inst R.LOCK_CFG_LOCK = 1) : s.regWrite w = s.count clsSys 0 Ev.SYS_BAR0_LOCKED_WRITE 1 := by
  obtain ⟨n, hn, hi⟩ := h.page
  obtain rfl : 1279 = n := Option.some.inj hn
  obtain ⟨r, hr, hlock⟩ := regAt_atomCtl hi
  rw [h.regWrite hr, if_pos (by simp [State.lockedReg, hlock, hl])]

/-! ### Writes that reach no register -/

theorem State.regWrite_unsupported {s : State} {w : RegW} (h : bar0Access w.off w.size = false) :
    s.regWrite w = s.emit { kind := outUnsupported, a := 0, b := w.off } := by
  have hp : s.place w = .unsupported := by simp [State.place, h]
  rw [State.regWrite, hp]

theorem State.regWrite_beforeReady {s : State} {w : RegW} (h : bar0Access w.off w.size = true) (hr : s.ready = false) : s.regWrite w = s := by
  have hp : s.place w = .dropped := by simp [State.place, h, hr]
  rw [State.regWrite, hp]

/-- Settles O29: REGISTER_WRITE performs the write, whose place is decided before any field is touched (R10, R534), and a
register's fields follow their access codes unless it is locked. -/
theorem registerWritesByAccessCode : Obligations.RegisterWritesByAccessCode := by
  unfold Obligations.RegisterWritesByAccessCode
  intro w s cls inst
  simp only [exec_registerWrite]
  refine ⟨errEnable_writes, errStatus_writes, fun h => ?_, fun h hl => ?_, fun h => ?_, fun h hr => ?_⟩
  · rw [State.regWrite_unitId h]
  · rw [State.regWrite_locked_atomCtl h hl]
  · exact ⟨_, congrArg _ (State.regWrite_unsupported h), rfl, rfl⟩
  · rw [State.regWrite_beforeReady h hr]

end Sys2Proof.Machine
end

section
/-! PROOF. The SPDM requests outside a session (O34). -/

namespace Sys2Proof.Machine

/-- A state whose responder's state is replaced. -/
def State.withSpdm (s : State) (q : Spdm) : State := { s with se := { s.se with spdm := q } }

/-- What a request is answered with: from a state `x`, the code, the error and the bytes; only event counts of the SEC page
change beside. -/
theorem State.spdmReply_replied (x : State) (cmd err : Nat) (data : List Byte) :
    Replied x (x.spdmReply cmd err data) { kind := outSpdm, a := cmd, b := err, data := data } clsSec 0 := by
  obtain ⟨rest, regs⟩ := x.count_onlyFields clsSec 0 Ev.SEC_SPDM_REQUESTS 1
  refine ⟨?_, regs⟩
  rw [State.spdmReply, State.emit, rest]

/-- A request whose meaning is a reply from `x` is answered as the claims say. -/
theorem answered {c : Instr} {s x : State} {cmd err : Nat} {data : List Byte} (h : exec c s = .next (x.spdmReply cmd err data)) :
    ∃ t, exec c s = .next t ∧ Replied x t { kind := outSpdm, a := cmd, b := err, data := data } clsSec 0 :=
  ⟨_, h, x.spdmReply_replied cmd err data⟩

section
variable {s : State} (up : s.spdmUp = true)
include up

/-! ### The negotiation -/

theorem exec_getVersion (msg : List Byte) :
    exec (.getVersion msg) s = .next ((s.withSpdm { step := 1 }).spdmReply Sp.version 0 (spdmVersions (argOf msg))) := by
  show execGetVersion msg s = _
  rw [execGetVersion, up]
  rfl

theorem exec_getCapabilities (msg : List Byte) : exec (.getCapabilities msg) s = .next (if s.se.spdm.step = 1
    then (s.withSpdm { s.se.spdm with step := 2 }).spdmReply Sp.capabilities 0 (spdmCapabilities (argOf msg))
    else s.spdmReply Sp.capabilities Er.unexpected []) := by
  show execGetCapabilities msg s = _
  rw [execGetCapabilities, up]
  by_cases h : s.se.spdm.step = 1
  · simp only [h, Bool.not_true, Bool.false_eq_true, if_false, ne_eq, not_true, if_true]; rfl
  · simp only [h, Bool.not_true, Bool.false_eq_true, if_false, ne_eq, not_false_eq_true, if_true]

theorem exec_negotiateAlgorithms (msg : List Byte) : exec (.negotiateAlgorithms msg) s = .next (if s.se.spdm.step = 2
    then (s.withSpdm { s.se.spdm with step := 3 }).spdmReply Sp.algorithms 0 (spdmAlgorithms (argOf msg))
    else s.spdmReply Sp.algorithms Er.unexpected []) := by
  show execNegotiateAlgorithms msg s = _
  rw [execNegotiateAlgorithms, up]
  by_cases h : s.se.spdm.step = 2
  · simp only [h, Bool.not_true, Bool.false_eq_true, if_false, ne_eq, not_true, if_true]; rfl
  · simp only [h, Bool.not_true, Bool.false_eq_true, if_false, ne_eq, not_false_eq_true, if_true]

/-! ### Requests that need the negotiation -/

theorem State.negotiated_early (cmd : Nat) (f : State → State) (h : s.se.spdm.step < 3) :
    s.negotiated cmd f = s.spdmReply cmd Er.unexpected [] := by
  rw [State.negotiated, up, if_neg (by decide), if_pos h]

theorem State.negotiated_done (cmd : Nat) (f : State → State) (h : 3 ≤ s.se.spdm.step) : s.negotiated cmd f = f s := by
  rw [State.negotiated, up, if_neg (by decide), if_neg (by omega)]

theorem getDigests_early (msg : List Byte) (h : s.se.spdm.step < 3) :
    exec (.getDigests msg) s = .next (s.spdmReply Sp.digests Er.unexpected []) :=
  congrArg _ (State.negotiated_early up _ _ h)

theorem getMeasurements_early (i : Nat) (raw : Bool) (h : s.se.spdm.step < 3) :
    exec (.getMeasurements i raw) s = .next (s.spdmReply Sp.measurements Er.unexpected []) :=
  congrArg _ (State.negotiated_early up _ _ h)

variable (done : 3 ≤ s.se.spdm.step)
include done

theorem getDigests_done (msg : List Byte) :
    exec (.getDigests msg) s = .next (s.spdmReply Sp.digests 0 (replyBytes Sp.digests (argOf msg) 48)) :=
  congrArg _ (State.negotiated_done up _ _ done)

theorem getCertificate_done (msg : List Byte) : exec (.getCertificate msg) s = .next (if (msg.getD 2 0).toNat % 16 ≠ 0
    then s.spdmReply Sp.certificate Er.invalid [] else s.spdmReply Sp.certificate 0 (replyBytes Sp.certificate (argOf msg) 1024)) :=
  congrArg _ (State.negotiated_done up _ _ done)

theorem challenge_done (msg : List Byte) : exec (.challenge msg) s = .next (if (msg.getD 2 0).toNat % 16 ≠ 0
    then s.spdmReply Sp.challenge Er.invalid []
    else (s.withSpdm { s.se.spdm with challenged := true }).spdmReply Sp.challenge 0 (replyBytes Sp.challenge (argOf msg) 212)) :=
  congrArg _ (State.negotiated_done up _ _ done)

theorem getMeasurements_done {i : Nat} {raw : Bool} {err : Nat} {data : List Byte} (hm : s.measurement i raw = (err, data)) :
    exec (.getMeasurements i raw) s = .next (s.spdmReply Sp.measurements err data) := by
  refine (congrArg _ (State.negotiated_done up _ _ done)).trans ?_
  simp only [hm]

end

/-! ### Measurements by index (Table 19-6) -/

theorem State.measurement_absent {s : State} {i : Nat} (h : s.measured i = none) (raw : Bool) : s.measurement i raw = (Er.invalid, []) := by
  rw [State.measurement, h]

section
variable {s : State} {i : Nat} {l : List Nat} (h : s.measured i = some l) (hr : s.ready = true)
include h hr

theorem State.measurement_digest (hf : s.measuresFree i = false) : s.measurement i false = (0, Config.measurement i l) := by
  simp [State.measurement, h, hr, hf]

theorem State.measurement_raw : s.measurement i true = if i = 3 ∨ i = 6 then (0, l.flatMap (leBytes 8)) else (Er.invalid, []) := by
  simp [State.measurement, h, hr]

end

/-- Settles O34: each request is one reply from the responder's next state (R543, R544), and a reply changes nothing but the
output and the counts of the SEC page. -/
theorem attestationNegotiation : Obligations.AttestationNegotiation := by
  unfold Obligations.AttestationNegotiation
  intro s msg i l up p put ans bytes
  refine ⟨answered (exec_getVersion up msg), fun h => ?_, fun h => ?_, fun h => ?_, fun h => ?_, fun h => ?_, fun done => ?_⟩
  · exact answered ((exec_getCapabilities up msg).trans (by rw [if_pos h]; rfl))
  · exact answered ((exec_getCapabilities up msg).trans (by rw [if_neg h]))
  · exact answered ((exec_negotiateAlgorithms up msg).trans (by rw [if_pos h]; rfl))
  · exact answered ((exec_negotiateAlgorithms up msg).trans (by rw [if_neg h]))
  · exact ⟨answered (getDigests_early up msg h), answered (getMeasurements_early up i false h)⟩
  · refine ⟨answered (getDigests_done up done msg), fun h0 => ⟨?_, ?_⟩, fun h0 => ⟨?_, ?_⟩, fun hm raw => ?_, fun hm hr hf => ?_,
      fun hm hr h36 => ?_, fun hm hr h3 h6 => ?_⟩
    · exact answered ((getCertificate_done up done msg).trans (by rw [if_neg (not_not.2 h0)]))
    · exact answered ((challenge_done up done msg).trans (by rw [if_neg (not_not.2 h0)]; rfl))
    · exact answered ((getCertificate_done up done msg).trans (by rw [if_pos h0]))
    · exact answered ((challenge_done up done msg).trans (by rw [if_pos h0]))
    · exact answered (getMeasurements_done up done (State.measurement_absent hm raw))
    · exact answered (getMeasurements_done up done (State.measurement_digest hm hr hf))
    · exact answered (getMeasurements_done up done ((State.measurement_raw hm hr).trans (if_pos h36)))
    · exact answered (getMeasurements_done up done ((State.measurement_raw hm hr).trans (if_neg (by tauto))))

end Sys2Proof.Machine
end

section
/-! SUPPORT. Reads of the module's units after an update of one of them, folds of updates, what raising a vector, an error
record and a fold of field writes leave (R456, R459, Table 21-3). -/

namespace Sys2Proof.Machine

/-! ### Units after an update -/

section
variable (s : State) {n m : Nat}

theorem State.edge_modEdge (n : Nat) (f : Edge → Edge) : (s.modEdge n f).edge n = f (s.edge n) := mget_mset_self _ _ _
theorem State.edge_modEdge_ne (f : Edge → Edge) (h : m ≠ n) : (s.modEdge n f).edge m = s.edge m := mget_mset_ne _ _ h
theorem State.cove_modCove (n : Nat) (f : Cove → Cove) : (s.modCove n f).cove n = f (s.cove n) := mget_mset_self _ _ _
theorem State.cove_modCove_ne (f : Cove → Cove) (h : m ≠ n) : (s.modCove n f).cove m = s.cove m := mget_mset_ne _ _ h
theorem State.slice_modSlice (n : Nat) (f : Slice → Slice) : (s.modSlice n f).slice n = f (s.slice n) := mget_mset_self _ _ _
theorem State.slice_modSlice_ne (f : Slice → Slice) (h : m ≠ n) : (s.modSlice n f).slice m = s.slice m := mget_mset_ne _ _ h
theorem State.ctx_modCtx (n : Nat) (f : Ctx → Ctx) : (s.modCtx n f).ctx n = f (s.ctx n) := mget_mset_self _ _ _
theorem State.ctx_modCtx_ne (f : Ctx → Ctx) (h : m ≠ n) : (s.modCtx n f).ctx m = s.ctx m := mget_mset_ne _ _ h

theorem State.queue_modQueue (x q : Nat) (f : Queue → Queue) : (s.modQueue x q f).queue x q = f (s.queue x q) := by
  simp only [State.queue, State.modQueue, State.ctx_modCtx, mget_mset_self]

theorem State.queue_modQueue_ne {x q y p : Nat} (f : Queue → Queue) (h : y ≠ x ∨ p ≠ q) : (s.modQueue x q f).queue y p = s.queue y p := by
  by_cases hy : y = x
  · subst hy
    have hp : p ≠ q := h.resolve_left (not_not.2 rfl)
    simp only [State.queue, State.modQueue, State.ctx_modCtx, mget_mset_ne _ _ hp]
  · simp only [State.queue, State.modQueue, State.ctx_modCtx_ne s _ hy]

end

theorem mem_sdel {j k : Nat} {l : List Nat} : j ∈ sdel k l ↔ j ≠ k ∧ j ∈ l := by
  simp [sdel, and_comm]

theorem mget_mdrop {α : Type} (d : α) (m : List (Nat × α)) (f : Nat → Bool) (k : Nat) :
    mget d (mdrop m f) k = if f k = true then d else mget d m k := by
  induction m with
  | nil => simp [mdrop, mget]
  | cons p m ih => grind [mdrop, mget]

/-! ### Folds -/

/-- A relation that holds of no step and of two steps in a row holds of a fold whose every step meets it. -/
theorem foldl_rel {α β : Type} {P : α → α → Prop} (refl : ∀ a, P a a) (trans : ∀ {a b c}, P a b → P b c → P a c) {f : α → β → α}
    (step : ∀ a x, P a (f a x)) (l : List β) (a : α) : P a (l.foldl f a) :=
  List.foldlRecOn (motive := fun b => P a b) l f (refl a) (fun b hb x _ => trans hb (step b x))

/-- A map filled at a list of keys. -/
theorem mget_foldl_mset {g : Nat → Nat} (l : List Nat) (m : List (Nat × Nat)) (k : Nat) :
    mget 0 (l.foldl (fun m j => mset 0 m j (g j)) m) k = if k ∈ l then g k else mget 0 m k := by
  induction l generalizing m with
  | nil => rfl
  | cons j l ih =>
    rw [List.foldl_cons, ih]
    by_cases hl : k ∈ l
    · rw [if_pos hl, if_pos (List.mem_cons_of_mem _ hl)]
    · by_cases hj : k = j
      · rw [if_neg hl, hj, mget_mset_self, if_pos List.mem_cons_self]
      · rw [if_neg hl, mget_mset_ne _ _ hj, if_neg (by simp [hj, hl])]

/-- Fields of a page written one after the other, no two with the same bits, read as written. -/
theorem State.fld_setFlds {l : List (Fld × Nat)} (hl : l.Pairwise (fun p q => p.1.off * 64 + p.1.lo ≠ q.1.off * 64 + q.1.lo)) {f : Fld} {v : Nat}
    (hm : (f, v) ∈ l) (s : State) (cls inst : Nat) : (s.setFlds cls inst l).fld cls inst f = v % 2 ^ (f.hi + 1 - f.lo) := by
  induction l generalizing s with
  | nil => exact absurd hm List.not_mem_nil
  | cons p l ih =>
    obtain ⟨hp, hl'⟩ := List.pairwise_cons.1 hl
    rcases List.mem_cons.1 hm with rfl | hm
    · have only : OnlyFields (s.setFld cls inst f v) ((s.setFld cls inst f v).setFlds cls inst l) (l.map (fun q => fkey cls inst q.1 0)) :=
        (OnlyFields.refl _ _).setFlds (fun q hq => List.mem_map_of_mem (f := fun q : Fld × Nat => fkey cls inst q.1 0) hq)
      refine (only.fld ?_).trans (s.fld_setFld_self cls inst f v)
      simp only [List.mem_map, not_exists, not_and, fkey_page_eq_iff, Nat.add_zero]
      exact fun q hq => (hp q hq).symm
    · exact ih hl' hm _

/-! ### Error records (Table 21-3) -/

/-- The fields that an error event touches beside its own register. -/
def raiseFlds : List Fld :=
  (List.range 6).map errFld ++ [R.ERR_FIRST_VALID, R.ERR_FIRST_BIT, R.ERR_FIRST_TICK, R.ERR_COUNT_TOTAL, R.ERR_COUNT_UNRECORDED]

def raiseKeys (cls inst : Nat) : List Nat := raiseFlds.map (fun f => fkey cls inst f 0)

theorem mem_raiseKeys {cls inst : Nat} {f : Fld} (h : f ∈ raiseFlds) : fkey cls inst f 0 ∈ raiseKeys cls inst :=
  List.mem_map_of_mem (f := fun f => fkey cls inst f 0) h

/-- They all stand in the header, below LOCK. -/
theorem fkey_notMem_raiseKeys {cls inst : Nat} {f : Fld} (h : 0x048 ≤ f.off) : fkey cls inst f 0 ∉ raiseKeys cls inst := by
  have low : ∀ g ∈ raiseFlds, g.off * 64 + g.lo < 0x048 * 64 := by decide
  simp only [raiseKeys, List.mem_map, not_exists, not_and, fkey_page_eq_iff]
  intro g hg
  have := low g hg
  omega

theorem errFld_mem_raiseFlds : ∀ b, errFld b ∈ raiseFlds
  | 0 | 1 | 2 | 3 | 4 => by decide
  | _ + 5 => by
    show R.ERR_STATUS_INJECTED ∈ raiseFlds
    decide

theorem State.errBit_onlyFields (s : State) (cls inst b : Nat) : OnlyFields s (s.errBit cls inst b) (raiseKeys cls inst) := by
  have first : OnlyFields s (if s.errStatus cls inst = 0 then
      s.setFlds cls inst [(R.ERR_FIRST_VALID, 1), (R.ERR_FIRST_BIT, b), (R.ERR_FIRST_TICK, s.tide)] else s) (raiseKeys cls inst) := by
    split
    · refine (OnlyFields.refl s _).setFlds (fun p hp => mem_raiseKeys ?_)
      have names : p.1 ∈ [R.ERR_FIRST_VALID, R.ERR_FIRST_BIT, R.ERR_FIRST_TICK] := List.mem_map_of_mem (f := Prod.fst) hp
      exact (by decide : [R.ERR_FIRST_VALID, R.ERR_FIRST_BIT, R.ERR_FIRST_TICK] ⊆ raiseFlds) names
    · exact OnlyFields.refl s _
  exact first.setFldN 1 (mem_raiseKeys (errFld_mem_raiseFlds b))

theorem State.raise_onlyFields (s : State) (cls inst b : Nat) (r : Bool) : OnlyFields s (s.raise cls inst b r) (raiseKeys cls inst) := by
  have first := (s.errBit_onlyFields cls inst b).setFldN (satAdd 32 ((s.errBit cls inst b).fld cls inst R.ERR_COUNT_TOTAL) 1)
    (mem_raiseKeys (f := R.ERR_COUNT_TOTAL) (by decide))
  unfold State.raise
  split
  · exact first
  · exact (first.trans (State.errBit_onlyFields _ cls inst 3)).setFldN _ (mem_raiseKeys (f := R.ERR_COUNT_UNRECORDED) (by decide))

/-- A recorded event changes register fields alone. -/
theorem State.record_rest (s : State) (cls inst b : Nat) (v : Fld) (l : List (Fld × Nat)) :
    s.record cls inst b v l = { s with regs := (s.record cls inst b v l).regs } := by
  have only : OnlyFields s (s.record cls inst b v l) (fkey cls inst v 0 :: l.map (fun p => fkey cls inst p.1 0) ++ raiseKeys cls inst) := by
    unfold State.record
    split
    · have fields : OnlyFields s (s.setFlds cls inst l) (l.map (fun p => fkey cls inst p.1 0)) :=
        (OnlyFields.refl s _).setFlds (fun q hq => List.mem_map_of_mem (f := fun q : Fld × Nat => fkey cls inst q.1 0) hq)
      exact ((fields.mono (by simp)).setFldN 1 (by simp)).trans ((State.raise_onlyFields _ cls inst b true).mono (by simp))
    · exact (s.raise_onlyFields cls inst b false).mono (by simp)
  exact only.1

/-- The first event of an ERR register outside the header: VALID is set and the fields are as recorded. -/
theorem State.record_first {s : State} {cls inst b : Nat} {v : Fld} {l : List (Fld × Nat)} (h0 : s.fld cls inst v = 0)
    (hl : l.Pairwise (fun p q => p.1.off * 64 + p.1.lo ≠ q.1.off * 64 + q.1.lo)) (hv : 0x048 ≤ v.off) :
    (s.record cls inst b v l).fld cls inst v = 1 % 2 ^ (v.hi + 1 - v.lo) ∧
    ∀ f x, (f, x) ∈ l → 0x048 ≤ f.off → f.off * 64 + f.lo ≠ v.off * 64 + v.lo →
      (s.record cls inst b v l).fld cls inst f = x % 2 ^ (f.hi + 1 - f.lo) := by
  have only := ((s.setFlds cls inst l).setFld cls inst v 1).raise_onlyFields cls inst b true
  rw [State.record, if_pos h0]
  refine ⟨(only.fld (fkey_notMem_raiseKeys hv)).trans (State.fld_setFld_self _ _ _ _ _), fun f x hm hf hne => ?_⟩
  rw [only.fld (fkey_notMem_raiseKeys hf), State.fld_setFld_page _ _ hne, State.fld_setFlds hl hm s cls inst]

/-! ### Raising a vector (R456) -/

section
variable {s : State} {v c : Nat}

theorem State.raiseVector_rest (s : State) (fn : Option Nat) (v : Nat) :
    s.raiseVector fn v = { s with hs := { s.hs with msixPend := (s.raiseVector fn v).hs.msixPend, out := (s.raiseVector fn v).hs.out } } := by
  cases fn with
  | none =>
    unfold State.raiseVector
    split_ifs <;> rfl
  | some c =>
    unfold State.raiseVector
    dsimp only
    split_ifs <;> rfl

/-- A pool entry of the PF's own that is not masked is sent. -/
theorem State.raiseVector_pf (hv : v % 32 = 0 ∨ s.vfOn (v / 32) = false) (hm : v ∉ s.hs.masked) :
    s.raiseVector none v = s.emit { kind := outMsix, a := v } := by
  have fires : (decide (v % 32 ≠ 0) && s.vfOn (v / 32)) = false := by rcases hv with h | h <;> simp [h]
  simp only [State.raiseVector, fires, List.contains_iff_mem, hm, Bool.false_eq_true, if_false]

/-- A masked one is pending. -/
theorem State.raiseVector_pf_masked (hv : v % 32 = 0 ∨ s.vfOn (v / 32) = false) (hm : v ∈ s.hs.masked) :
    s.raiseVector none v = { s with hs := { s.hs with msixPend := sadd v s.hs.msixPend } } := by
  have fires : (decide (v % 32 ≠ 0) && s.vfOn (v / 32)) = false := by rcases hv with h | h <;> simp [h]
  simp only [State.raiseVector, fires, List.contains_iff_mem, hm, Bool.false_eq_true, if_false, if_true]

theorem State.raiseVector_vf (hm : maskKey (some c) v ∉ s.hs.masked) :
    s.raiseVector (some c) v = s.emit { kind := outMsix, a := 32 * c + 1 + v, b := c + 1 } := by
  have hm' : 4096 + (32 * c + 1 + v) ∉ s.hs.masked := fun h => hm (by simp only [maskKey]; rwa [Nat.add_assoc, Nat.add_assoc] at *)
  simp only [State.raiseVector, List.contains_iff_mem, hm', if_false]

end

end Sys2Proof.Machine
end

section
/-! PROOF. Links of the edge ports, function level reset, interrupts, configuration requests, occupancy figures (O45). -/

namespace Sys2Proof.Machine

/-! ### Links (R458) -/

theorem linkUp_takes (s : State) (port speed width : Nat) (flit cxl : Bool) (hp : port < 8) (hoff : s.se.off = false) (hrec : s.se.recovery = false)
    (hrole : s.fld clsEdge port R.EDGE_STATE_ROLE = 1 ∨ s.fld clsEdge port R.EDGE_STATE_ROLE = 2) (h1 : 1 ≤ speed) (h6 : speed ≤ 6) (hw : width ≤ 4) :
    exec (.linkUp port speed width flit cxl) s =
      .next (s.modEdge port (fun e => { e with up := true, flit := flit, cxl := cxl, speed := speed, width := width })) := by
  have r0 : s.fld clsEdge port R.EDGE_STATE_ROLE ≠ 0 := by omega
  have r3 : s.fld clsEdge port R.EDGE_STATE_ROLE ≠ 3 := by omega
  show execLinkUp port speed width flit cxl s = _
  simp only [execLinkUp, hoff, hrec, r0, r3, Nat.not_le.2 hp, Nat.not_lt.2 h6, Nat.not_lt.2 hw, Nat.ne_of_gt h1, decide_false,
    Bool.or_self, Bool.false_eq_true, if_false]

/-- A link that goes down with no access outstanding on its port and no command that names host memory. -/
theorem State.hostLinkLoss_idle {s : State} {port : Nat} (ha : ∀ r ∈ s.hs.accs, r.port ≠ port)
    (hc : ∀ k ∈ s.hs.cmds, k.a.space ≠ 2 ∧ k.b.space ≠ 2 ∧ k.c.space ≠ 2) :
    s.hostLinkLoss port = (s.modEdge port (fun e => { e with up := false, atc := [], invals := [] })).edgeErr port 3 0 0 := by
  set u := (s.modEdge port (fun e => { e with up := false, atc := [], invals := [] })).edgeErr port 3 0 0 with hu
  have rest : u = { s.modEdge port (fun e => { e with up := false, atc := [], invals := [] }) with regs := u.regs } := State.record_rest _ _ _ _ _ _
  have accs : u.hs.accs = s.hs.accs := by rw [rest]; rfl
  have cmds : u.hs.cmds = s.hs.cmds := by rw [rest]; rfl
  have mine : u.hs.accs.filter (fun a => a.port == port) = [] := by
    simpa [accs, List.filter_eq_nil_iff] using ha
  have others : u.hs.accs.filter (fun a => a.port != port) = u.hs.accs := by
    simpa [accs, List.filter_eq_self] using ha
  have unused : ∀ t : State, u.hs.cmds.filter (fun k => t.usesPort port k) = [] := by
    intro t
    rw [cmds, List.filter_eq_nil_iff]
    intro k hk
    obtain ⟨ka, kb, kc⟩ := hc k hk
    simp [State.usesPort, ka, kb, kc]
  rw [State.hostLinkLoss]
  simp only [← hu, mine, others, List.filter_nil, List.foldl_nil, unused]

theorem hostLinkDown_idle {s : State} {port : Nat} (hup : s.hostPortUp port = true) (ha : ∀ r ∈ s.hs.accs, r.port ≠ port)
    (hc : ∀ k ∈ s.hs.cmds, k.a.space ≠ 2 ∧ k.b.space ≠ 2 ∧ k.c.space ≠ 2) : ∃ t, exec (.hostLinkDown port) s = .next t ∧
      t.edge port = { s.edge port with up := false, atc := [], invals := [] } ∧ (∀ q, q ≠ port → t.edge q = s.edge q) ∧
      (s.fld clsEdge port R.EDGE_ERR_VALID = 0 → t.fld clsEdge port R.EDGE_ERR_VALID = 1 ∧ t.fld clsEdge port R.EDGE_ERR_KIND = 3) ∧
      t = { s with regs := t.regs, hs := { s.hs with edges := t.hs.edges } } := by
  set d := s.modEdge port (fun e => { e with up := false, atc := [], invals := [] }) with hd
  have he : exec (.hostLinkDown port) s = .next (d.edgeErr port 3 0 0) := by
    show execHostLinkDown port s = _
    rw [execHostLinkDown, if_pos hup, State.hostLinkLoss_idle ha hc]
  have rest : d.edgeErr port 3 0 0 = { d with regs := (d.edgeErr port 3 0 0).regs } := State.record_rest _ _ _ _ _ _
  have edges : (d.edgeErr port 3 0 0).hs.edges = d.hs.edges := by rw [rest]
  have edge : ∀ q, (d.edgeErr port 3 0 0).edge q = d.edge q := fun q => by rw [State.edge, edges, State.edge]
  refine ⟨_, he, ?_, fun q hq => ?_, fun h0 => ?_, ?_⟩
  · rw [edge, hd, State.edge_modEdge]
  · rw [edge, hd, State.edge_modEdge_ne _ _ hq]
  · obtain ⟨valid, fields⟩ := State.record_first (s := d) (cls := clsEdge) (inst := port) (b := 1) (v := R.EDGE_ERR_VALID)
      (l := [(R.EDGE_ERR_KIND, 3), (R.EDGE_ERR_RID, 0), (R.EDGE_ERR_INFO, 0 % 2 ^ 32)]) h0 (by decide) (by decide)
    exact ⟨valid, fields R.EDGE_ERR_KIND 3 (by decide) (by decide) (by decide)⟩
  · rw [rest]; rfl

/-! ### Function level reset (R458, R465) -/

/-- Slices and register fields alone differ, and a slice without ghosts stays without. -/
structure GhostsEnd (s t : State) : Prop where
  rest : t = { s with regs := t.regs, slices := t.slices }
  ghosts : ∀ h, (s.slice h).ghosts = [] → (t.slice h).ghosts = []

theorem GhostsEnd.refl (s : State) : GhostsEnd s s := ⟨rfl, fun _ h => h⟩

theorem GhostsEnd.trans {s t u : State} (h : GhostsEnd s t) (k : GhostsEnd t u) : GhostsEnd s u := by
  refine ⟨?_, fun x hx => k.ghosts x (h.ghosts x hx)⟩
  rw [k.rest, h.rest]

theorem GhostsEnd.of_count (s : State) (cls inst code n : Nat) : GhostsEnd s (s.count cls inst code n) := by
  have rest := (s.count_counted cls inst code n).rest
  have slices : (s.count cls inst code n).slices = s.slices := by rw [rest]
  exact ⟨by rw [rest], fun h hh => by rwa [State.slice, slices]⟩

theorem GhostsEnd.of_modSlice (s : State) (n : Nat) {f : Slice → Slice} (hf : ∀ y : Slice, y.ghosts = [] → (f y).ghosts = []) :
    GhostsEnd s (s.modSlice n f) := by
  refine ⟨rfl, fun h hh => ?_⟩
  by_cases e : h = n
  · subst e; rw [State.slice_modSlice]; exact hf _ hh
  · rwa [State.slice_modSlice_ne _ _ e]

/-- The ghosts of one slice end, with the count of them. -/
def State.endSliceGhosts (s : State) (h : Nat) : State :=
  (s.count clsSlice h Ev.SLICE_GHOST_END_CMD (s.slice h).ghosts.length).modSlice h (fun y => { y with ghosts := [] })

theorem State.endSliceGhosts_ghostsEnd (s : State) (h : Nat) : GhostsEnd s (s.endSliceGhosts h) :=
  (GhostsEnd.of_count s _ _ _ _).trans (GhostsEnd.of_modSlice _ h (fun _ _ => rfl))

theorem State.endSliceGhosts_self (s : State) (h : Nat) : ((s.endSliceGhosts h).slice h).ghosts = [] := by
  rw [State.endSliceGhosts, State.slice_modSlice]

theorem foldl_endSliceGhosts (l : List Nat) (s : State) :
    GhostsEnd s (l.foldl State.endSliceGhosts s) ∧ ∀ h ∈ l, ((l.foldl State.endSliceGhosts s).slice h).ghosts = [] := by
  have all : ∀ (l : List Nat) (s : State), GhostsEnd s (l.foldl State.endSliceGhosts s) := fun l s =>
    foldl_rel GhostsEnd.refl GhostsEnd.trans State.endSliceGhosts_ghostsEnd l s
  refine ⟨all l s, ?_⟩
  induction l generalizing s with
  | nil => exact fun h hm => absurd hm List.not_mem_nil
  | cons j l ih =>
    intro h hm
    rcases List.mem_cons.1 hm with rfl | hm
    · exact (all l (s.endSliceGhosts h)).ghosts h (s.endSliceGhosts_self h)
    · exact ih (s.endSliceGhosts j) h hm

theorem State.endAllGhosts_ends (s : State) (c : Nat) :
    GhostsEnd s (s.endAllGhosts c) ∧ ∀ h ∈ s.coveSlices c, ((s.endAllGhosts c).slice h).ghosts = [] :=
  foldl_endSliceGhosts (s.coveSlices c) s

/-- Unmooring touches the lines of slices, event counts and the cove's count of moored lines. -/
theorem State.unmoorAll_ends (s : State) (c : Nat) : ∃ u, GhostsEnd s u ∧ s.unmoorAll c = u.modCove c (fun v => { v with moored := 0 }) := by
  refine ⟨_, foldl_rel GhostsEnd.refl GhostsEnd.trans (fun t h => ?_) (s.coveSlices c) s, rfl⟩
  refine foldl_rel GhostsEnd.refl GhostsEnd.trans (fun a p => ?_) _ t
  refine GhostsEnd.trans ?_ (GhostsEnd.of_count _ _ _ _ _)
  exact GhostsEnd.of_modSlice a h (fun _ hy => hy)

theorem State.read_zeroShelf (s : State) (c a : Nat) :
    (s.zeroShelf c).mem.read a = if shelfBase c ≤ a ∧ a < shelfBase c + 2 ^ 32 then 0 else s.mem.read a := by
  simp only [State.zeroShelf, Mem.read, mget_mdrop, Bool.and_eq_true, decide_eq_true_eq]
  rfl

/-- With every context FREE a cove has none. -/
theorem State.ctxsOf_free {s : State} (h : ∀ p ∈ s.hs.ctxs, p.2.st = 0) (c : Nat) : s.ctxsOf c = [] := by
  have none_ : s.hs.ctxs.filter (fun p => p.2.st != 0) = [] := by
    simpa [List.filter_eq_nil_iff] using h
  rw [State.ctxsOf, none_]
  rfl

/-- RESET of a cove whose contexts are FREE. -/
theorem State.resetCove_idle {s : State} {c : Nat} (h : ∀ p ∈ s.hs.ctxs, p.2.st = 0) :
    ((s.resetCove c).cove c).st = 2 ∧ ((s.resetCove c).cove c).poolUsed = 0 ∧ (∀ j ∈ s.coveSlices c, ((s.resetCove c).slice j).ghosts = []) ∧
    (∀ a, (s.resetCove c).mem.read a = if shelfBase c ≤ a ∧ a < shelfBase c + 2 ^ 32 then 0 else s.mem.read a) ∧
    (∀ d, d ≠ c → (s.resetCove c).cove d = s.cove d) ∧ (s.resetCove c).cores = s.cores := by
  set a := s.modCove c (fun v => { v with st := 3 }) with ha
  obtain ⟨hab, ended⟩ := a.endAllGhosts_ends c
  set b := a.endAllGhosts c
  obtain ⟨u, hbu, hu⟩ := b.unmoorAll_ends c
  have reset : s.resetCove c = ((u.modCove c (fun v => { v with moored := 0 })).zeroShelf c).modCove c (fun v => { v with st := 2, poolUsed := 0 }) := by
    rw [State.resetCove, State.ctxsOf_free h]
    show ((b.unmoorAll c).zeroShelf c).modCove c _ = _
    rw [hu]
  have hau := hab.trans hbu
  have coves : u.hs = a.hs := by rw [hau.rest]
  have mem : u.mem = s.mem := by rw [hau.rest]; rfl
  have cores : u.cores = s.cores := by rw [hau.rest]; rfl
  have zeroed : ∀ (t : State) (d : Nat), (t.zeroShelf c).cove d = t.cove d := fun _ _ => rfl
  rw [reset]
  refine ⟨by rw [State.cove_modCove], by rw [State.cove_modCove], fun j hj => hbu.ghosts j (ended j hj), fun x => ?_, fun d hd => ?_, cores⟩
  · refine (State.read_zeroShelf (u.modCove c (fun v => { v with moored := 0 })) c x).trans ?_
    rw [← mem]
    rfl
  · rw [State.cove_modCove_ne _ _ hd, zeroed, State.cove_modCove_ne _ _ hd, State.cove, coves]
    exact State.cove_modCove_ne s _ hd

theorem exec_functionLevelReset {s : State} {c : Nat} (hv : s.vfOn c = true) (hst : (s.cove c).st = 2) :
    exec (.functionLevelReset c) s = .next (s.resetCove c) := by
  show execFunctionLevelReset c s = _
  simp only [execFunctionLevelReset, hv, hst, decide_true, Bool.and_self, if_true]

end Sys2Proof.Machine
end

section
/-! PROOF. Interrupts by time and by unmasking, configuration requests, occupancy figures (O45). -/

namespace Sys2Proof.Machine

/-! ### Interrupts of a queue (R457) -/

/-- What sending an interrupt can change: event counts, what is pending and for whom, and what is sent out. -/
def Sent (s t : State) : Prop :=
  t = { s with regs := t.regs, hs := { s.hs with msixPend := t.hs.msixPend, pendFrom := t.hs.pendFrom, out := t.hs.out } }

theorem State.raiseVector_sent (s : State) (fn : Option Nat) (v : Nat) : Sent s (s.raiseVector fn v) := by
  rw [Sent, State.raiseVector_rest]

theorem Sent.count {s t : State} (h : Sent s t) (cls inst code n : Nat) :
    Sent s (t.count cls inst code n) ∧ (t.count cls inst code n).hs = t.hs := by
  have rest := (t.count_counted cls inst code n).rest
  have hs : (t.count cls inst code n).hs = t.hs := by rw [rest]
  refine ⟨?_, hs⟩
  rw [Sent, hs, rest, h]

/-- What the interrupt of a queue sends, before its count of completions restarts. -/
def State.sendIntr (s : State) (x q : Nat) : State :=
  let k := maskKey (s.fnOf x) (s.qfld x q R.Q_CFG_VECTOR)
  let r := s.raiseVector (s.fnOf x) (s.qfld x q R.Q_CFG_VECTOR)
  if !s.vectorFires (s.fnOf x) (s.qfld x q R.Q_CFG_VECTOR) then r
  else if !s.hs.masked.contains k then r.qcount x Ev.CMDQ_INTERRUPTS 1
  else if s.hs.msixPend.contains k then r
  else { r with hs := { r.hs with pendFrom := mset 0 s.hs.pendFrom k (x + 1) } }

theorem State.queueIntr_eq (s : State) (x q : Nat) :
    s.queueIntr x q = (s.sendIntr x q).modQueue x q (fun u => { u with counted := 0, armed := false }) := rfl

theorem State.sendIntr_sent (s : State) (x q : Nat) : Sent s (s.sendIntr x q) ∧
    (s.sendIntr x q).hs.out = (s.raiseVector (s.fnOf x) (s.qfld x q R.Q_CFG_VECTOR)).hs.out ∧
    (s.sendIntr x q).hs.msixPend = (s.raiseVector (s.fnOf x) (s.qfld x q R.Q_CFG_VECTOR)).hs.msixPend := by
  have sent := s.raiseVector_sent (s.fnOf x) (s.qfld x q R.Q_CFG_VECTOR)
  obtain ⟨counted, hs⟩ := sent.count clsCmdq (x / 2) Ev.CMDQ_INTERRUPTS 1
  unfold State.sendIntr
  dsimp only
  split_ifs
  · exact ⟨sent, rfl, rfl⟩
  · exact ⟨counted, congrArg _ hs, congrArg _ hs⟩
  · exact ⟨sent, rfl, rfl⟩
  · refine ⟨?_, rfl, rfl⟩
    rw [Sent] at sent ⊢
    rw [sent]

theorem exec_coalUs {s : State} {x q : Nat} (ha : (s.queue x q).armed = true) (hc : (s.queue x q).counted ≠ 0)
    (hu : s.qfld x q R.Q_CFG_COAL_US ≠ 0) : exec (.coalUs x q) s = .next (s.queueIntr x q) := by
  show execCoalUs x q s = _
  simp [execCoalUs, ha, hc, hu]

/-- What a queue's interrupt leaves: its queue with a fresh count, other queues, memory and cores as they were, and its
vector raised. -/
theorem State.queueIntr_effect (s : State) (x q : Nat) :
    (s.queueIntr x q).queue x q = { s.queue x q with counted := 0, armed := false } ∧
    (∀ y p, y ≠ x ∨ p ≠ q → (s.queueIntr x q).queue y p = s.queue y p) ∧ (s.queueIntr x q).mem = s.mem ∧ (s.queueIntr x q).cores = s.cores ∧
    (s.queueIntr x q).hs.out = (s.raiseVector (s.fnOf x) (s.qfld x q R.Q_CFG_VECTOR)).hs.out ∧
    (s.queueIntr x q).hs.msixPend = (s.raiseVector (s.fnOf x) (s.qfld x q R.Q_CFG_VECTOR)).hs.msixPend := by
  obtain ⟨sent, out, pend⟩ := s.sendIntr_sent x q
  rw [Sent] at sent
  have queues : ∀ y p, (s.sendIntr x q).queue y p = s.queue y p := fun y p => by rw [sent]; rfl
  rw [State.queueIntr_eq]
  refine ⟨?_, fun y p hn => ?_, ?_, ?_, out, pend⟩
  · rw [State.queue_modQueue, queues]
  · rw [State.queue_modQueue_ne _ _ hn, queues]
  · show (s.sendIntr x q).mem = _
    rw [sent]
  · show (s.sendIntr x q).cores = _
    rw [sent]

theorem coalUs_sends (s : State) (x q : Nat) (ha : (s.queue x q).armed = true) (hc : (s.queue x q).counted ≠ 0)
    (hu : s.qfld x q R.Q_CFG_COAL_US ≠ 0) :
    let v := s.qfld x q R.Q_CFG_VECTOR
    ∃ t, exec (.coalUs x q) s = .next t ∧ t.queue x q = { s.queue x q with counted := 0, armed := false } ∧
      (∀ y p, y ≠ x ∨ p ≠ q → t.queue y p = s.queue y p) ∧ t.mem = s.mem ∧ t.cores = s.cores ∧
      (s.fnOf x = none → v % 32 = 0 ∨ s.vfOn (v / 32) = false → v ∉ s.hs.masked → t.hs.out = s.hs.out ++ [{ kind := outMsix, a := v }]) ∧
      (s.fnOf x = none → v % 32 = 0 ∨ s.vfOn (v / 32) = false → v ∈ s.hs.masked → t.hs.out = s.hs.out ∧ v ∈ t.hs.msixPend) := by
  obtain ⟨fresh, others, mem, cores, out, pend⟩ := s.queueIntr_effect x q
  refine ⟨_, exec_coalUs ha hc hu, fresh, others, mem, cores, fun hf hv hm => ?_, fun hf hv hm => ⟨?_, ?_⟩⟩
  · rw [out, hf, State.raiseVector_pf hv hm]; rfl
  · rw [out, hf, State.raiseVector_pf_masked hv hm]
  · rw [pend, hf, State.raiseVector_pf_masked hv hm]
    exact mem_sadd.2 (.inl rfl)

/-! ### Unmasking a vector (R456) -/

/-- The vector's mask and pending entry are gone. -/
def State.unmasked (s : State) (k : Nat) : State := { s with hs := { s.hs with masked := sdel k s.hs.masked, msixPend := sdel k s.hs.msixPend } }

/-- Unmasked, and the record of who raised it is gone too; the raiser's page counts the interrupt that is now sent. -/
def State.unmaskedCounted (s : State) (vf : Option Nat) (v k : Nat) : State :=
  let u : State := { s.unmasked k with hs := { (s.unmasked k).hs with pendFrom := mset 0 s.hs.pendFrom k 0 } }
  if mget 0 s.hs.pendFrom k ≠ 0 && s.vectorFires vf v then u.qcount (mget 0 s.hs.pendFrom k - 1) Ev.CMDQ_INTERRUPTS 1 else u

theorem exec_vectorUnmask {s : State} {vf : Option Nat} {v : Nat} (hk : maskKey vf v ∈ s.hs.masked) :
    exec (.vectorUnmask vf v) s = .next (if maskKey vf v ∈ s.hs.msixPend
      then (s.unmaskedCounted vf v (maskKey vf v)).raiseVector vf v else s.unmasked (maskKey vf v)) := by
  have hk' : s.hs.masked.contains (maskKey vf v) = true := List.contains_iff_mem.2 hk
  show execVectorUnmask vf v s = _
  by_cases hp : maskKey vf v ∈ s.hs.msixPend
  · have hp' : s.hs.msixPend.contains (maskKey vf v) = true := List.contains_iff_mem.2 hp
    rw [if_pos hp]
    simp only [execVectorUnmask, hk', hp', Bool.not_true, Bool.false_eq_true, if_false, if_true]
    rfl
  · have hp' : s.hs.msixPend.contains (maskKey vf v) = false := by simpa using hp
    rw [if_neg hp]
    simp only [execVectorUnmask, hk', hp', Bool.not_true, Bool.false_eq_true, if_false]
    rfl

/-- Counting for the raiser changes event counts alone. -/
theorem State.unmaskedCounted_eq (s : State) (vf : Option Nat) (v k : Nat) : s.unmaskedCounted vf v k =
    { s with regs := (s.unmaskedCounted vf v k).regs, hs := { s.hs with
      masked := sdel k s.hs.masked, msixPend := sdel k s.hs.msixPend, pendFrom := mset 0 s.hs.pendFrom k 0 } } := by
  unfold State.unmaskedCounted
  dsimp only
  split
  · exact (State.count_counted _ _ _ _ _).rest
  · rfl

theorem State.unmaskedCounted_regs {s : State} {k : Nat} (h : mget 0 s.hs.pendFrom k = 0) (vf : Option Nat) (v : Nat) :
    (s.unmaskedCounted vf v k).regs = s.regs := by
  simp only [State.unmaskedCounted, h, ne_eq, not_true, decide_false, Bool.false_and, Bool.false_eq_true, if_false]
  rfl

theorem vectorUnmask_sends (s : State) (vf : Option Nat) (v : Nat) :
    let k := maskKey vf v
    k ∈ s.hs.masked → ∃ t, exec (.vectorUnmask vf v) s = .next t ∧ (∀ j, j ∈ t.hs.masked ↔ j ≠ k ∧ j ∈ s.hs.masked) ∧
      t = { s with
        regs := t.regs, hs := { s.hs with masked := t.hs.masked, msixPend := t.hs.msixPend, pendFrom := t.hs.pendFrom, out := t.hs.out } } ∧
      (mget 0 s.hs.pendFrom k = 0 → t.regs = s.regs) ∧
      (k ∉ s.hs.msixPend → t.hs.out = s.hs.out) ∧
      (k ∈ s.hs.msixPend → vf = none → v % 32 = 0 → t.hs.out = s.hs.out ++ [{ kind := outMsix, a := v }]) ∧
      (∀ c, k ∈ s.hs.msixPend → vf = some c → t.hs.out = s.hs.out ++ [{ kind := outMsix, a := 32 * c + 1 + v, b := c + 1 }]) := by
  intro k hk
  refine ⟨_, exec_vectorUnmask hk, ?_⟩
  by_cases hp : k ∈ s.hs.msixPend
  · rw [if_pos hp]
    set u := s.unmaskedCounted vf v k with hu
    have eq := s.unmaskedCounted_eq vf v k
    rw [← hu] at eq
    have masked : u.hs.masked = sdel k s.hs.masked := by rw [eq]
    have out : u.hs.out = s.hs.out := by rw [eq]
    have clear : k ∉ u.hs.masked := by rw [masked, mem_sdel]; exact fun h => h.1 rfl
    have rest := u.raiseVector_rest vf v
    refine ⟨fun j => ?_, ?_, fun h0 => ?_, fun hn => absurd hp hn, fun _ hf hv => ?_, fun c _ hf => ?_⟩
    · rw [rest, masked, mem_sdel]
    · rw [rest, eq]
    · rw [rest]
      exact State.unmaskedCounted_regs h0 vf v
    · subst hf
      rw [State.raiseVector_pf (.inl hv) clear, ← out]; rfl
    · subst hf
      rw [State.raiseVector_vf clear, ← out]; rfl
  · rw [if_neg hp]
    exact ⟨fun _ => mem_sdel, rfl, fun _ => rfl, fun _ => rfl, fun h => absurd h hp, fun _ h => absurd h hp⟩

/-! ### Configuration requests of the primary port (R3, R427, R430) -/

section
variable {s : State} {port : Nat} (up : s.hostPortUp port = true) (prim : s.primary = some port)
include up prim

/-- The primary port answers a request with the bytes the request asks for. -/
theorem configurationRequest_effect (a b : Nat) :
    let r := fun (req : Nat) => s.said { kind := outConfig, a := port, b := req, data := [] }
    (a ≤ 64 → exec (.configurationRequest port 0 a b) s = .next { r 0 with hs := { (r 0).hs with vfs := a } }) ∧
    (a < 64 → exec (.configurationRequest port 1 a b) s = .next ((r 1).modCove a (fun c => { c with ats := b != 0 }))) ∧
    (28 ≤ a → a ≤ 41 → exec (.configurationRequest port 2 a b) s = .next { r 2 with hs := { (r 2).hs with bar4Log := a } }) ∧
    (28 ≤ a → a ≤ 36 → exec (.configurationRequest port 3 a b) s = .next { r 3 with hs := { (r 3).hs with vfBar4Log := a } }) ∧
    (1 ≤ a → a ≤ 64 → b < 31 → exec (.configurationRequest port 4 a b) s =
      .next { r 4 with hs := { (r 4).hs with masked := sadd (maskKey (some (a - 1)) b) s.hs.masked } }) ∧
    exec (.configurationRequest port 6 a b) s =
      .next (s.said { kind := outConfig, a := port, b := 6, data := [if a ∈ extCapabilities true then 1 else 0] }) := by
  have main : (s.primary == some port) = true := by rw [prim]; exact beq_self_eq_true _
  have run : ∀ req, exec (.configurationRequest port req a b) s = execConfigurationRequest port req a b s := fun _ => rfl
  refine ⟨fun h => ?_, fun h => ?_, fun h h' => ?_, fun h h' => ?_, fun h h' h'' => ?_, ?_⟩ <;> rw [run] <;>
    simp only [execConfigurationRequest, up, main, Bool.not_true, Bool.false_eq_true, if_false, Bool.true_and]
  · simp only [h, decide_true, if_true]; rfl
  · simp only [h, decide_true, if_true]; rfl
  · simp only [h, h', decide_true, Bool.and_self, if_true]; rfl
  · simp only [h, h', decide_true, Bool.and_self, if_true]; rfl
  · have h0 : a ≠ 0 := by omega
    simp only [h0, h', h'', decide_true, Bool.and_self, if_true, if_false]; rfl
  · simp only [List.contains_iff_mem]; rfl

end

/-! ### Occupancy figures (R338, R339, R580) -/

/-- The figure of a router in a list of figures: 56 bits, zero where there is none. -/
def occFigure (occ : List (Nat × Nat)) (r : Nat) : Nat := match occ.find? (fun p => p.1 == r) with | some p => p.2 % 2 ^ 56 | none => 0

/-- The fields of NOC_LINK_OCC. -/
def occFlds : List Fld :=
  [R.NOC_LINK_OCC_N, R.NOC_LINK_OCC_E, R.NOC_LINK_OCC_S, R.NOC_LINK_OCC_W, R.NOC_LINK_OCC_CORE, R.NOC_LINK_OCC_SLICE, R.NOC_LINK_OCC_IO]

theorem occFields_eq (v : Nat) : occFields v = occFlds.map (fun f => (f, bits v f.hi f.lo)) := rfl

theorem State.setOcc_onlyFields (s : State) (r v : Nat) :
    OnlyFields s (s.setFlds clsNoc r (occFields v)) (occFlds.map (fun f => fkey clsNoc r f 0)) := by
  refine (OnlyFields.refl s _).setFlds (fun p hp => ?_)
  obtain ⟨f, hf, rfl⟩ := List.mem_map.1 (occFields_eq v ▸ hp)
  exact List.mem_map_of_mem (f := fun f => fkey clsNoc r f 0) hf

theorem State.setOcc_self (s : State) (r v : Nat) {f : Fld} (hf : f ∈ occFlds) :
    (s.setFlds clsNoc r (occFields v)).fld clsNoc r f = bits v f.hi f.lo := by
  have distinct : (occFields v).Pairwise (fun p q => p.1.off * 64 + p.1.lo ≠ q.1.off * 64 + q.1.lo) := by
    rw [occFields_eq, List.pairwise_map]
    exact (by decide : occFlds.Pairwise (fun f g => f.off * 64 + f.lo ≠ g.off * 64 + g.lo))
  have mem : (f, bits v f.hi f.lo) ∈ occFields v := by
    rw [occFields_eq]
    exact List.mem_map_of_mem (f := fun f : Fld => (f, bits v f.hi f.lo)) hf
  rw [State.fld_setFlds distinct mem, bits_mod]

theorem State.setOcc_ne (s : State) {r j : Nat} (v : Nat) (h : r ≠ j) {f : Fld} (hf : f ∈ occFlds) :
    (s.setFlds clsNoc j (occFields v)).fld clsNoc r f = s.fld clsNoc r f := by
  have low : ∀ g ∈ occFlds, (g.off + 0) * 64 + g.lo < 2 ^ 18 := by decide
  refine (s.setOcc_onlyFields j v).fld ?_
  simp only [List.mem_map, not_exists, not_and]
  exact fun g hg => fkey_ne_of_page (low g hg) (low f hf) (by omega)

/-- The figures of some routers written to their pages. -/
def State.putOcc (s : State) (occ : List (Nat × Nat)) (l : List Nat) : State :=
  l.foldl (fun s r => s.setFlds clsNoc r (occFields (occFigure occ r))) s

theorem State.putOcc_rest (s : State) (occ : List (Nat × Nat)) (l : List Nat) : s.putOcc occ l = { s with regs := (s.putOcc occ l).regs } :=
  foldl_rel (P := fun s t : State => t = { s with regs := t.regs }) (fun _ => rfl) (fun h k => by rw [k, h])
    (fun t r => (t.setOcc_onlyFields r _).1) l s

theorem State.putOcc_page (occ : List (Nat × Nat)) (r : Nat) {f : Fld} (hf : f ∈ occFlds) (l : List Nat) (s : State) :
    (s.putOcc occ l).fld clsNoc r f = if r ∈ l then bits (occFigure occ r) f.hi f.lo else s.fld clsNoc r f := by
  induction l generalizing s with
  | nil => rfl
  | cons j l ih =>
    rw [State.putOcc, List.foldl_cons, ← State.putOcc, ih]
    by_cases hl : r ∈ l
    · rw [if_pos hl, if_pos (List.mem_cons_of_mem _ hl)]
    · by_cases hj : r = j
      · rw [if_neg hl, ← hj, s.setOcc_self r _ hf, if_pos List.mem_cons_self]
      · rw [if_neg hl, s.setOcc_ne _ hj hf, if_neg (by simp [hj, hl])]

/-- The distance table's copy of the figures, and its generation. -/
def State.withOcc (u : State) (occ : List (Nat × Nat)) (gen : Nat) : State :=
  { u with occ := (List.range 32).foldl (fun m i => mset 0 m i (occFigure occ (portRouter i))) [], occGen := gen }

theorem State.withOcc_regs (u : State) (occ : List (Nat × Nat)) (gen : Nat) : (u.withOcc occ gen).regs = u.regs := rfl
theorem State.withOcc_occGen (u : State) (occ : List (Nat × Nat)) (gen : Nat) : (u.withOcc occ gen).occGen = gen := rfl
theorem State.withOcc_rest (u : State) (occ : List (Nat × Nat)) (gen : Nat) :
    u.withOcc occ gen = { u with occ := (u.withOcc occ gen).occ, occGen := gen } := rfl
theorem State.withOcc_entry (u : State) (occ : List (Nat × Nat)) (gen : Nat) {i : Nat} (hi : i < 32) :
    mget 0 (u.withOcc occ gen).occ i = occFigure occ (portRouter i) :=
  (mget_foldl_mset (g := fun i => occFigure occ (portRouter i)) (List.range 32) [] i).trans (if_pos (List.mem_range.2 hi))

theorem exec_occUpdates {s : State} (hr : s.ready = true) (occ : List (Nat × Nat)) :
    exec (.occUpdates occ) s =
      .next (((s.putOcc occ (List.range 256)).withOcc occ (s.occGen + 1)).count clsDist 0 Ev.DIST_OCC_UPDATES 1) := by
  have gen : (s.putOcc occ (List.range 256)).occGen = s.occGen := by rw [State.putOcc_rest]
  show execOccUpdates occ s = _
  simp only [execOccUpdates, hr, Bool.not_true, Bool.false_eq_true, if_false, ← gen]
  rfl

theorem occUpdates_copies (s : State) (occ : List (Nat × Nat)) (hr : s.ready = true) :
    ∃ t, exec (.occUpdates occ) s = .next t ∧ t.occGen = s.occGen + 1 ∧ (∀ i < 32, mget 0 t.occ i = occFigure occ (portRouter i)) ∧
      (∀ r < 256, ∀ f ∈ occFlds, t.fld clsNoc r f = bits (occFigure occ r) f.hi f.lo) ∧ t = { s with regs := t.regs, occ := t.occ, occGen := t.occGen } := by
  have put := s.putOcc_rest occ (List.range 256)
  have page := fun r (hr : r < 256) f (hf : f ∈ occFlds) => (s.putOcc_page occ r hf (List.range 256)).trans (if_pos (List.mem_range.2 hr))
  refine ⟨_, exec_occUpdates hr occ, ?_⟩
  generalize s.putOcc occ (List.range 256) = u at put page
  obtain ⟨rest, same⟩ := (u.withOcc occ (s.occGen + 1)).count_onlyFields clsDist 0 Ev.DIST_OCC_UPDATES 1
  refine ⟨by rw [rest, State.withOcc_occGen], fun i hi => ?_, fun r hr f hf => ?_, ?_⟩
  · rw [rest, State.withOcc_entry u occ _ hi]
  · have low : ∀ g ∈ occFlds, (g.off + 0) * 64 + g.lo < 2 ^ 18 := by decide
    have hk : fkey clsNoc r f 0 ∉ countKeys clsDist 0 := fkey_notMem_countKeys (low f hf) (by simp only [clsNoc, clsDist]; omega)
    rw [State.fld, State.fldN, same _ _ hk, State.withOcc_regs]
    exact page r hr f hf
  · rw [rest, State.withOcc_rest, put]

/-- Settles O45: each command's effect is the one its lemma names; a reset cove without contexts loses its ghosts and its
shelf scratch, an interrupt is its vector raised, an occupancy update a run of field writes. -/
theorem linksFunctionsAndInterrupts : Obligations.LinksFunctionsAndInterrupts := by
  unfold Obligations.LinksFunctionsAndInterrupts
  refine ⟨?_, fun s port hup ha hc => hostLinkDown_idle hup ha hc, ?_, coalUs_sends, vectorUnmask_sends, ?_, ?_⟩
  · intro s port speed width flit cxl hp hoff hrec hrole h1 h6 hw
    exact ⟨_, linkUp_takes s port speed width flit cxl hp hoff hrec hrole h1 h6 hw, State.edge_modEdge _ _ _,
      fun _ hq => State.edge_modEdge_ne _ _ hq, rfl⟩
  · intro s c hv hst _ hx
    exact ⟨_, exec_functionLevelReset hv hst, State.resetCove_idle hx⟩
  · intro s port a b hup hprim r
    obtain ⟨r0, r1, r2, r3, r4, r6⟩ := configurationRequest_effect hup hprim a b
    exact ⟨r0, fun h => ⟨_, r1 h, State.cove_modCove _ _ _, fun _ hd => State.cove_modCove_ne _ _ hd, rfl⟩, r2, r3, r6,
      fun h h' h'' => ⟨_, r4 h h' h'', fun _ => mem_sadd, rfl⟩⟩
  · intro s occ hr fig
    obtain ⟨t, he, gen, entries, pages, rest⟩ := occUpdates_copies s occ hr
    refine ⟨t, he, gen, entries, fun r hr => ⟨?_, pages r hr _ (by decide), pages r hr _ (by decide), pages r hr _ (by decide),
      pages r hr _ (by decide), pages r hr _ (by decide), pages r hr _ (by decide)⟩, rest⟩
    exact (pages r hr R.NOC_LINK_OCC_N (by decide)).trans (congrArg (· % 256) (Nat.div_one _))

end Sys2Proof.Machine
end

section
/-! SUPPORT. WES-320 sums (R45 to R48): a contribution in the units of a window, what its alignment leaves, and the special
value of a floating or pinned sum. -/

namespace Sys2Proof.Machine

/-! ### Alignment to a window (step 1 of R45, R48) -/

/-- The discard is toward −∞, and it is reported exactly when the quotient is not whole. -/
theorem shiftDown_eq_floor (f : Int) (n : Nat) :
    shiftDown f n = (⌊(f : ℚ) / 2 ^ n⌋, decide ((⌊(f : ℚ) / 2 ^ n⌋ : ℚ) ≠ (f : ℚ) / 2 ^ n)) := by
  have floor : ⌊(f : ℚ) / 2 ^ n⌋ = f.fdiv (2 ^ n) := by
    rw [Int.fdiv_eq_ediv_of_nonneg _ (by positivity)]
    simpa using Rat.floor_intCast_div_natCast f (2 ^ n)
  have whole : f.fmod (2 ^ n) = 0 ↔ ((f.fdiv (2 ^ n) : Int) : ℚ) = (f : ℚ) / 2 ^ n := by
    have split : f.fdiv (2 ^ n) * 2 ^ n + f.fmod (2 ^ n) = f := Int.fdiv_mul_add_fmod f (2 ^ n)
    rw [eq_div_iff (by positivity)]
    constructor
    · intro h
      exact_mod_cast (by rwa [h, add_zero] at split : f.fdiv (2 ^ n) * 2 ^ n = f)
    · intro h
      have exact : f.fdiv (2 ^ n) * 2 ^ n = f := by exact_mod_cast h
      omega
  rw [floor, shiftDown]
  simp only [ne_eq, whole]

theorem Wes.units_of_le {b : Wes} {w : Int} (h : b.w ≤ w) : b.units w = (b.f : ℚ) / 2 ^ (w - b.w).toNat := by
  obtain ⟨n, hn⟩ := Int.eq_ofNat_of_zero_le (sub_nonneg.2 h)
  rw [Wes.units, ← neg_sub w b.w, hn, zpow_neg, Int.toNat_natCast, zpow_natCast, div_eq_mul_inv]

theorem Wes.units_of_ge {b : Wes} {w : Int} (h : w ≤ b.w) : b.units w = ((b.f * 2 ^ (b.w - w).toNat : Int) : ℚ) := by
  obtain ⟨n, hn⟩ := Int.eq_ofNat_of_zero_le (sub_nonneg.2 h)
  rw [Wes.units, hn, Int.toNat_natCast, zpow_natCast]
  push_cast
  rfl

/-- A contribution loses bits when it is aligned to a window. -/
def Wes.inexact (b : Wes) (w : Int) : Bool := decide ((⌊b.units w⌋ : ℚ) ≠ b.units w)

theorem Wes.shiftDown_units {b : Wes} {w : Int} (h : b.w ≤ w) :
    shiftDown b.f (w - b.w).toNat = (⌊b.units w⌋, b.inexact w) := by
  rw [shiftDown_eq_floor, Wes.inexact, Wes.units_of_le h]

theorem Wes.align_units (b : Wes) (w : Int) :
    (if 0 ≤ b.w - w then (b.f * 2 ^ (b.w - w).toNat, false) else shiftDown b.f (-(b.w - w)).toNat)
      = (⌊b.units w⌋, b.inexact w) := by
  split
  · next h => rw [Wes.inexact, Wes.units_of_ge (sub_nonneg.1 h), Int.floor_intCast]; simp
  · next h => rw [neg_sub, Wes.shiftDown_units (by omega)]

/-! ### Special values (R47) -/

@[simp] theorem Special.join_finite (a : Special) : a.join .finite = a := by cases a <;> rfl
@[simp] theorem Special.finite_join (a : Special) : Special.finite.join a = a := rfl
@[simp] theorem Special.join_nan (a : Special) : a.join .nan = .nan := by cases a <;> rfl
@[simp] theorem Special.nan_join (a : Special) : Special.nan.join a = .nan := by cases a <;> rfl
@[simp] theorem Special.join_self (a : Special) : a.join a = a := by cases a <;> rfl

theorem Special.join_right_comm (a b c : Special) : (a.join b).join c = (a.join c).join b := by
  cases a <;> cases b <;> cases c <;> rfl

@[simp] theorem Wes.canonNaN_special (n : Bool) : (Wes.canonNaN n).special = .nan := rfl
@[simp] theorem Wes.canonNaN_pinned (n : Bool) : (Wes.canonNaN n).pinned = n := rfl

theorem Wes.addFloat_special (a b : Wes) : (a.addFloat b).special = a.special.join b.special := by
  simp only [Wes.addFloat, Bool.and_eq_true, beq_iff_eq]
  split
  · next h => exact h.symm
  split
  · next h => rw [h.2, Special.join_finite]
  split
  · next h => rw [h.2, Special.finite_join]
  split
  · rfl
  · next h => exact (not_not.1 h).symm

end Sys2Proof.Machine
end

section
/-! PROOF. A pinned sum depends only on the multiset of its contributions (O27): a pinned addition is one record update by
quantities of the contribution alone, after which a NaN is made canonical; the updates commute and their fields add up. -/

namespace Sys2Proof.Machine

/-! ### What a contribution brings to the window `w` (R48) -/

/-- It is finite and is not a plain zero. -/
def Wes.enters (b : Wes) : Bool := b.special == .finite && ((!b.empty && b.f != 0) || b.sticky)

/-- Its aligned value is in the window's range. -/
def Wes.fits (b : Wes) (w : Int) : Bool := decide (|⌊b.units w⌋| < 2 ^ 256)

/-- What it adds to F. -/
def Wes.part (b : Wes) (w : Int) : Int := if b.enters && b.fits w then ⌊b.units w⌋ else 0

/-- It sets STICKY. -/
def Wes.sticks (b : Wes) (w : Int) : Bool := b.sticky || (b.enters && b.inexact w)

/-- It sets OVERFLOW. -/
def Wes.exceeds (b : Wes) (w : Int) : Bool := b.overflow || (b.enters && !b.fits w)

/-- F of a pinned sum is taken modulo 2^288, as a signed number (R48). -/
def wrapF (x : Int) : Int := sext 288 (ofInt 288 x)

/-- A pinned value with a contribution taken in, a NaN not yet made canonical. F stays as it is where nothing is added. -/
def Wes.take (p b : Wes) : Wes :=
  { p with
    f := if b.enters && b.fits p.w then wrapF (p.f + b.part p.w) else p.f
    special := p.special.join b.special
    sticky := p.sticky || b.sticks p.w
    overflow := p.overflow || b.exceeds p.w
    empty := p.empty && !b.enters }

/-- A NaN becomes the canonical one (R26). -/
def Wes.canon (a : Wes) : Wes := if a.special = .nan then Wes.canonNaN a.pinned else a

/-! ### A pinned addition is the update, then the canonical NaN -/

theorem sext_ofInt (w : Nat) (x : Int) : sext w (ofInt w x) = x.bmod (2 ^ w) := by
  have nonneg := Int.emod_nonneg x (b := ((2 ^ w : Nat) : Int)) (by positivity)
  have small := Int.emod_lt_of_pos x (b := ((2 ^ w : Nat) : Int)) (by positivity)
  rw [sext, ofInt, Int.bmod_def, Nat.mod_eq_of_lt (by omega), Int.toNat_of_nonneg nonneg]
  generalize 2 ^ w = m at *
  split <;> split <;> omega

theorem dvd_sext_ofInt_sub (w : Nat) (x : Int) : (2 ^ w : Int) ∣ sext w (ofInt w x) - x := by
  rw [sext_ofInt]
  exact_mod_cast Int.dvd_bmod_sub_self

theorem wrapF_wrapF_add (x y : Int) : wrapF (wrapF x + y) = wrapF (x + y) := by
  simp only [wrapF, sext_ofInt, Int.bmod_add_bmod]

theorem dvd_wrapF_sub (x : Int) : (2 ^ 288 : Int) ∣ wrapF x - x := dvd_sext_ofInt_sub 288 x

theorem Wes.out_of_range_iff (b : Wes) (w : Int) : 2 ^ 256 ≤ ⌊b.units w⌋.natAbs ↔ b.fits w = false := by
  simp only [Wes.fits, decide_eq_false_iff_not, not_lt, Int.abs_eq_natAbs]
  norm_cast

theorem Wes.plain_iff {b : Wes} (fin : b.special = .finite) :
    ((b.empty || decide (b.f = 0)) && !b.sticky) = true ↔ b.enters = false := by
  simp only [Wes.enters, fin]
  cases b.empty <;> cases b.sticky <;> simp

theorem Wes.not_sticky_of_not_enters {b : Wes} (fin : b.special = .finite) (h : b.enters = false) : b.sticky = false := by
  have plain := (Wes.plain_iff fin).2 h
  simp_all

theorem Wes.addPinned_eq (p b : Wes) : p.addPinned b = (p.take b).canon := by
  by_cases nan : p.special.join b.special = .nan
  · simp [Wes.addPinned, Wes.canon, Wes.take, nan]
  have canon : (p.take b).canon = p.take b := if_neg nan
  rw [canon]
  by_cases fin : b.special = .finite
  · rw [fin, Special.join_finite] at nan
    simp only [Wes.addPinned, Wes.align_units, Wes.plain_iff fin, Wes.out_of_range_iff, fin, Special.join_finite,
      nan, not_true, ne_eq, if_false]
    cases ent : b.enters
    · simp [Wes.take, Wes.sticks, Wes.exceeds, fin, ent, Wes.not_sticky_of_not_enters fin ent]
    · cases fit : b.fits p.w <;> simp [Wes.take, Wes.sticks, Wes.exceeds, Wes.part, wrapF, fin, ent, fit, Bool.or_assoc]
  · have ent : b.enters = false := by simp [Wes.enters, fin]
    simp [Wes.addPinned, Wes.take, Wes.sticks, Wes.exceeds, fin, nan, ent]

theorem Wes.addPinned_pinned (p b : Wes) : (p.addPinned b).pinned = p.pinned := by
  rw [Wes.addPinned_eq, Wes.canon]
  split <;> rfl

theorem Wes.addPinned_special (p b : Wes) : (p.addPinned b).special = p.special.join b.special := by
  rw [Wes.addPinned_eq, Wes.canon]
  split
  · next h => exact h.symm
  · rfl

/-! ### The updates commute -/

theorem Wes.take_right_comm (p b c : Wes) : (p.take b).take c = (p.take c).take b := by
  simp only [Wes.take, Wes.mk.injEq, Special.join_right_comm p.special b.special, Bool.or_right_comm, Bool.and_right_comm,
    and_self, and_true]
  by_cases hb : (b.enters && b.fits p.w) = true <;> by_cases hc : (c.enters && c.fits p.w) = true <;>
    simp [hb, hc, wrapF_wrapF_add, add_right_comm]

theorem Wes.canon_take_canon (p b : Wes) : (p.canon.take b).canon = (p.take b).canon := by
  by_cases nan : p.special = .nan
  · simp [Wes.canon, Wes.take, nan]
  · rw [show p.canon = p from if_neg nan]

theorem Wes.addPinned_right_comm (p b c : Wes) : (p.addPinned b).addPinned c = (p.addPinned c).addPinned b := by
  simp only [Wes.addPinned_eq, Wes.canon_take_canon, Wes.take_right_comm p b c]

/-! ### The sum of a list -/

theorem Wes.foldl_addPinned_canon (p : Wes) (l : List Wes) :
    l.foldl Wes.addPinned p.canon = (l.foldl Wes.take p).canon := by
  induction l generalizing p with
  | nil => rfl
  | cons b l ih => rw [List.foldl_cons, List.foldl_cons, Wes.addPinned_eq, Wes.canon_take_canon, ih]

theorem Wes.foldl_addPinned {l : List Wes} (ne : l ≠ []) (p : Wes) :
    l.foldl Wes.addPinned p = (l.foldl Wes.take p).canon := by
  obtain ⟨b, l, rfl⟩ := List.exists_cons_of_ne_nil ne
  rw [List.foldl_cons, List.foldl_cons, Wes.addPinned_eq, Wes.foldl_addPinned_canon]

theorem Wes.foldl_take_pinned (p : Wes) (l : List Wes) : (l.foldl Wes.take p).pinned = p.pinned := by
  induction l generalizing p with
  | nil => rfl
  | cons b l ih => exact ih (p.take b)

theorem Wes.foldl_take_w (p : Wes) (l : List Wes) : (l.foldl Wes.take p).w = p.w := by
  induction l generalizing p with
  | nil => rfl
  | cons b l ih => exact ih (p.take b)

theorem Wes.foldl_take_sticky (p : Wes) (l : List Wes) :
    (l.foldl Wes.take p).sticky = (p.sticky || l.any (fun b => b.sticks p.w)) := by
  induction l generalizing p with
  | nil => simp
  | cons b l ih => rw [List.foldl_cons, ih, List.any_cons, ← Bool.or_assoc]; rfl

theorem Wes.foldl_take_overflow (p : Wes) (l : List Wes) :
    (l.foldl Wes.take p).overflow = (p.overflow || l.any (fun b => b.exceeds p.w)) := by
  induction l generalizing p with
  | nil => simp
  | cons b l ih => rw [List.foldl_cons, ih, List.any_cons, ← Bool.or_assoc]; rfl

theorem Wes.take_f_dvd (p b : Wes) : (2 ^ 288 : Int) ∣ (p.take b).f - (p.f + b.part p.w) := by
  by_cases h : (b.enters && b.fits p.w) = true
  · simp only [Wes.take, if_pos h, dvd_wrapF_sub]
  · simp only [Wes.take, Wes.part, if_neg h, add_zero, sub_self, dvd_zero]

theorem Wes.foldl_take_f_dvd (p : Wes) (l : List Wes) :
    (2 ^ 288 : Int) ∣ (l.foldl Wes.take p).f - (p.f + (l.map (fun b => b.part p.w)).sum) := by
  induction l generalizing p with
  | nil => simp only [List.foldl_nil, List.map_nil, List.sum_nil, add_zero, sub_self, dvd_zero]
  | cons b l ih =>
    have tail : (2 ^ 288 : Int) ∣ (l.foldl Wes.take (p.take b)).f - ((p.take b).f + (l.map (fun c => c.part p.w)).sum) := ih (p.take b)
    have split : ∀ r s : Int, r - (p.f + (b.part p.w + s)) = (r - ((p.take b).f + s)) + ((p.take b).f - (p.f + b.part p.w)) :=
      fun r s => by ring
    rw [List.foldl_cons, List.map_cons, List.sum_cons, split]
    exact dvd_add tail (p.take_f_dvd b)

/-! ### The obligation -/

theorem Wes.foldl_addPinned_of_nan {p : Wes} {l : List Wes} (nan : (l.foldl Wes.addPinned p).special = .nan) (ne : l ≠ []) :
    l.foldl Wes.addPinned p = Wes.canonNaN p.pinned := by
  rw [Wes.foldl_addPinned ne] at nan ⊢
  unfold Wes.canon at nan ⊢
  split at nan
  · next h => rw [if_pos h, Wes.foldl_take_pinned]
  · next h => exact absurd nan h

theorem Wes.foldl_addPinned_of_ne_nan {p : Wes} {l : List Wes} (nn : (l.foldl Wes.addPinned p).special ≠ .nan) :
    l.foldl Wes.addPinned p = l.foldl Wes.take p := by
  cases l with
  | nil => rfl
  | cons b l =>
    rw [Wes.foldl_addPinned (List.cons_ne_nil b l)] at nn ⊢
    unfold Wes.canon at nn ⊢
    split at nn
    · exact absurd rfl nn
    · next h => exact if_neg h

theorem Wes.foldl_addPinned_pinned (p : Wes) (l : List Wes) : (l.foldl Wes.addPinned p).pinned = p.pinned := by
  induction l generalizing p with
  | nil => rfl
  | cons b l ih => rw [List.foldl_cons, ih, Wes.addPinned_pinned]

/-- Settles O27: pinned additions commute because the updates they make canonical do, and the fields of a run of updates are
those of the start with what each contribution brings to its window. -/
theorem pinnedSumsIgnoreOrder : Obligations.PinnedSumsIgnoreOrder := by
  unfold Obligations.PinnedSumsIgnoreOrder
  intro p l r fits enters
  refine ⟨fun l' perm => (perm.foldl_eq' (fun b _ c _ q => q.addPinned_right_comm b c) p).symm, Wes.foldl_addPinned_pinned p l,
    fun nan ne => Wes.foldl_addPinned_of_nan nan ne, fun nn => ?_⟩
  have plain : r = l.foldl Wes.take p := Wes.foldl_addPinned_of_ne_nan nn
  rw [plain]
  exact ⟨p.foldl_take_w l, p.foldl_take_f_dvd l, p.foldl_take_sticky l, p.foldl_take_overflow l⟩

end Sys2Proof.Machine
end

section
/-! PROOF. Special values in sums (O25) and the window of a floating sum (O26). -/

namespace Sys2Proof.Machine

/-! ### Special values (R47) -/

theorem Special.join_opposite : Special.posInf.join .negInf = .nan ∧ Special.negInf.join .posInf = .nan := ⟨rfl, rfl⟩

/-- Settles O25: the special value of either sum is the join of the operands'; products and scales are read off their tables. -/
theorem specialValuesCombine : Obligations.SpecialValuesCombine := by
  unfold Obligations.SpecialValuesCombine
  refine ⟨fun add hadd a b => ?_, fun p q => ⟨rfl, rfl⟩, fun v => if_pos rfl, rfl⟩
  have join : (add a b).special = a.special.join b.special := by
    rcases hadd with rfl | rfl
    · exact a.addFloat_special b
    · exact a.addPinned_special b
  rw [join]
  refine ⟨?_, fun ha hb => ?_, fun ha hb => ?_, fun v _ => ⟨?_, fun ha hb => ?_⟩⟩
  · rintro (h | h) <;> simp [h]
  · rw [ha, hb, Special.join_opposite.1]
  · rw [ha, hb, Special.join_opposite.2]
  · rintro ha (hb | hb) <;> simp [ha, hb]
  · rw [ha, hb, Special.finite_join]

/-! ### The window exponent of a floating sum (R45, R46) -/

theorem Wes.counts_iff (a : Wes) : a.counts = true ↔ a.special = .finite ∧ a.empty = false := by
  simp [Wes.counts]

/-- Step 2 of R45: the sum of the two significands aligned to the greater window. -/
def Wes.alignedSum (a b : Wes) : Int := ⌊a.units (max a.w b.w)⌋ + ⌊b.units (max a.w b.w)⌋

theorem normShift_eq_zero {s : Int} (hi : s < 2 ^ 256) (lo : -(2 ^ 256) ≤ s) : normShift s = 0 := by
  have small : (if 0 ≤ s then s else -s - 1).natAbs < 2 ^ 256 := by split <;> omega
  have log : ∀ n : Nat, n < 2 ^ 256 → n.log2 + 1 - 256 = 0 := fun n hn => by
    by_cases zero : n = 0
    · rw [zero, Nat.log2_zero]
    · exact Nat.sub_eq_zero_of_le ((Nat.log2_lt zero).2 hn)
  exact log _ small

section
variable {a b : Wes}

theorem Wes.addFloat_of_counts (ha : a.counts = true) (hb : b.counts = true) :
    (a.addFloat b).f = (shiftDown (a.alignedSum b) (normShift (a.alignedSum b))).1 ∧
    (a.addFloat b).w = min (max a.w b.w + normShift (a.alignedSum b)) 32767 ∧ (a.addFloat b).counts = true := by
  obtain ⟨sa, ea⟩ := a.counts_iff.1 ha
  obtain ⟨sb, eb⟩ := b.counts_iff.1 hb
  simp only [Wes.addFloat, Wes.counts, sa, sb, ea, eb, Wes.shiftDown_units (le_max_left a.w b.w),
    Wes.shiftDown_units (le_max_right a.w b.w)]
  generalize hs : a.alignedSum b = s
  rw [Wes.alignedSum] at hs
  rw [hs]
  refine ⟨rfl, ?_, rfl⟩
  show (if max a.w b.w + (normShift s : Int) > 32767 then (32767 : Int) else max a.w b.w + normShift s) = _
  rw [min_def]
  split <;> split <;> omega

theorem Wes.addFloat_counts (ha : a.counts = true) (hb : b.counts = true) : (a.addFloat b).counts = true :=
  (Wes.addFloat_of_counts ha hb).2.2

theorem Wes.addFloat_w_le (ha : a.counts = true) (hb : b.counts = true) : (a.addFloat b).w ≤ 32767 := by
  rw [(Wes.addFloat_of_counts ha hb).2.1]
  exact min_le_right _ _

theorem Wes.max_le_addFloat_w (ha : a.counts = true) (hb : b.counts = true) (wa : a.w ≤ 32767) (wb : b.w ≤ 32767) :
    max a.w b.w ≤ (a.addFloat b).w := by
  rw [(Wes.addFloat_of_counts ha hb).2.1]
  exact le_min (le_add_of_nonneg_right (Int.natCast_nonneg _)) (max_le wa wb)

theorem Wes.addFloat_of_fits (ha : a.counts = true) (hb : b.counts = true) (wa : a.w ≤ 32767) (wb : b.w ≤ 32767)
    (hi : a.alignedSum b < 2 ^ 256) (lo : -(2 ^ 256) ≤ a.alignedSum b) :
    (a.addFloat b).w = max a.w b.w ∧ (a.addFloat b).f = a.alignedSum b := by
  obtain ⟨f, w, _⟩ := Wes.addFloat_of_counts ha hb
  rw [normShift_eq_zero hi lo] at f w
  constructor
  · rw [w, Nat.cast_zero, add_zero, min_eq_left (max_le wa wb)]
  · rw [f, shiftDown, pow_zero, Int.fdiv_one]

end

/-! ### The sum of a list -/

/-- The sum stays finite, its W in range, and no less than W of the start and of each contribution. -/
theorem Wes.foldl_addFloat_w (l : List Wes) (a : Wes) (ha : a.counts = true) (wa : a.w ≤ 32767)
    (hl : ∀ b ∈ l, b.counts = true ∧ b.w ≤ 32767) :
    (l.foldl Wes.addFloat a).counts = true ∧ (l.foldl Wes.addFloat a).w ≤ 32767 ∧ a.w ≤ (l.foldl Wes.addFloat a).w ∧
    ∀ b ∈ l, b.w ≤ (l.foldl Wes.addFloat a).w := by
  induction l generalizing a with
  | nil => exact ⟨ha, wa, le_rfl, fun b h => absurd h List.not_mem_nil⟩
  | cons c l ih =>
    obtain ⟨⟨hc, wc⟩, tl⟩ := List.forall_mem_cons.1 hl
    obtain ⟨counts, top, start, each⟩ := ih (a.addFloat c) (Wes.addFloat_counts ha hc) (Wes.addFloat_w_le ha hc) tl
    obtain ⟨ge_a, ge_c⟩ := max_le_iff.1 (Wes.max_le_addFloat_w ha hc wa wc)
    exact ⟨counts, top, ge_a.trans start, List.forall_mem_cons.2 ⟨ge_c.trans start, each⟩⟩

/-- The sum of the first `k` contributions is the start of the sum of the others. -/
theorem Wes.foldl_addFloat_take_w_le (l : List Wes) (a : Wes) (ha : a.counts = true) (wa : a.w ≤ 32767)
    (hl : ∀ b ∈ l, b.counts = true ∧ b.w ≤ 32767) (k : Nat) :
    ((l.take k).foldl Wes.addFloat a).w ≤ (l.foldl Wes.addFloat a).w := by
  obtain ⟨counts, top, _, _⟩ := Wes.foldl_addFloat_w (l.take k) a ha wa (fun b h => hl b (List.mem_of_mem_take h))
  obtain ⟨_, _, start, _⟩ := Wes.foldl_addFloat_w (l.drop k) _ counts top (fun b h => hl b (List.mem_of_mem_drop h))
  rwa [← List.foldl_append, List.take_append_drop] at start

/-- Settles O26: W of a sum is the greater W raised by the normalization and held at 32,767; a sum that fits is not raised. -/
theorem floatingWindowNeverFalls : Obligations.FloatingWindowNeverFalls := by
  unfold Obligations.FloatingWindowNeverFalls
  refine ⟨fun a b ha hb wa wb => ⟨Wes.max_le_addFloat_w ha hb wa wb, Wes.addFloat_w_le ha hb, Wes.addFloat_counts ha hb,
    fun hi lo => Wes.addFloat_of_fits ha hb wa wb hi lo⟩, fun a l ha wa hl => ⟨?_, Wes.foldl_addFloat_take_w_le l a ha wa hl⟩⟩
  obtain ⟨_, _, _, each⟩ := Wes.foldl_addFloat_w l a ha wa hl
  exact each

end Sys2Proof.Machine
end

section
/-! SUPPORT. Integers of a fixed width (R22, R101): the two's-complement reading and its inverse, the values of the integer
types, and the bits of a number that is built from its highest bit down. -/

namespace Sys2Proof.Machine

set_option Elab.async false

/-! ### The two's-complement reading -/

theorem ofInt_eq_toNat (w : Nat) (x : Int) : ofInt w x = (BitVec.ofInt w x).toNat := (BitVec.toNat_ofInt x).symm

/-- Only the residue of an integer counts. -/
theorem ofInt_congr {w : Nat} {x y : Int} (h : x % ((2 ^ w : Nat) : Int) = y % ((2 ^ w : Nat) : Int)) : ofInt w x = ofInt w y := by
  rw [ofInt, ofInt, h]

theorem ofInt_natCast (w n : Nat) : ofInt w (n : Int) = n % 2 ^ w := by
  rw [ofInt, ← Int.natCast_mod, Int.toNat_natCast]

theorem natCast_ofInt (w : Nat) (x : Int) : (ofInt w x : Int) = x % ((2 ^ w : Nat) : Int) :=
  Int.toNat_of_nonneg (Int.emod_nonneg _ (by positivity))

theorem sext_eq_toInt (w v : Nat) : sext w v = (BitVec.ofNat w v).toInt := by
  rw [BitVec.toInt_eq_toNat_cond, BitVec.toNat_ofNat, sext]

theorem sext_emod (w v : Nat) : sext w v % ((2 ^ w : Nat) : Int) = (v : Int) % ((2 ^ w : Nat) : Int) := by
  rw [sext, Int.natCast_mod]
  split
  · rw [Int.emod_emod]
  · rw [Int.sub_emod_right, Int.emod_emod]

/-- An arithmetic shift repeats the highest bit. -/
theorem testBit_ofInt_sext_fdiv {w k : Nat} (a s : Nat) (hk : k < w) :
    (ofInt w ((sext w a).fdiv (2 ^ s))).testBit k = a.testBit (min (k + s) (w - 1)) := by
  have shift : ofInt w ((sext w a).fdiv (2 ^ s)) = ((BitVec.ofNat w a).sshiftRight s).toNat := by
    rw [sext_eq_toInt, Int.fdiv_eq_ediv_of_nonneg _ (by positivity), ofInt_eq_toNat, BitVec.sshiftRight, Int.shiftRight_eq_div_pow]
    norm_cast
  rw [shift, BitVec.testBit_toNat, BitVec.getLsbD_sshiftRight]
  rw [decide_eq_false (by omega : ¬w ≤ k), Bool.not_false, Bool.true_and]
  split
  · next h => rw [BitVec.getLsbD_ofNat, decide_eq_true h, Bool.true_and, show min (k + s) (w - 1) = s + k by omega]
  · next h =>
    rw [BitVec.msb_eq_getLsbD_last, BitVec.getLsbD_ofNat, decide_eq_true (by omega : w - 1 < w), Bool.true_and,
      show min (k + s) (w - 1) = w - 1 by omega]

/-! ### The integer types -/

theorem intTypes_iff {f : Fmt} : intTypes f = true ↔ f = .int32 ∨ f = .u32 ∨ f = .i64 := by
  cases f <;> simp [intTypes]

section
variable {f : Fmt} (hf : intTypes f = true)
include hf

theorem Fmt.isInt_of_intTypes : f.isInt = true := by
  obtain rfl | rfl | rfl := intTypes_iff.1 hf <;> rfl

theorem Fmt.packed_of_intTypes : f.packed = false := by
  obtain rfl | rfl | rfl := intTypes_iff.1 hf <;> rfl

theorem Fmt.decode_of_intTypes (a : Nat) : f.decode a = FVal.mk (f.intVal a) 0 false := by
  obtain rfl | rfl | rfl := intTypes_iff.1 hf <;> rfl

/-- A value that the type holds is read back. -/
theorem Fmt.intVal_ofInt {x : Int} (h : f.range.1 ≤ x ∧ x ≤ f.range.2) : f.intVal (ofInt f.width x) = x := by
  obtain rfl | rfl | rfl := intTypes_iff.1 hf <;>
    simp only [Fmt.range, Fmt.width, Fmt.intVal, sext, ofInt] at * <;> omega

theorem Fmt.intVal_mem_range (a : Nat) : f.range.1 ≤ f.intVal a ∧ f.intVal a ≤ f.range.2 := by
  obtain rfl | rfl | rfl := intTypes_iff.1 hf <;>
    simp only [Fmt.range, Fmt.width, Fmt.intVal, sext] <;> omega

theorem Fmt.intVal_emod (a : Nat) : f.intVal a % ((2 ^ f.width : Nat) : Int) = (a : Int) % ((2 ^ f.width : Nat) : Int) := by
  obtain rfl | rfl | rfl := intTypes_iff.1 hf
  case inr.inl => simp [Fmt.intVal, Fmt.width]
  all_goals exact sext_emod _ _

theorem Fmt.intVal_intOrFree {x : Int} (h : f.range.1 ≤ x ∧ x ≤ f.range.2) (free : Nat) : f.intVal (intOrFree f free x) = x := by
  rw [intOrFree, if_pos h, Fmt.intVal_ofInt hf h]

/-- The low half of a product is that of the numbers as they stand. -/
theorem Fmt.ofInt_mul (a b : Nat) : ofInt f.width (f.intVal a * f.intVal b) = a * b % 2 ^ f.width := by
  rw [← ofInt_natCast, Nat.cast_mul]
  refine ofInt_congr ?_
  rw [Int.mul_emod, Fmt.intVal_emod hf, Fmt.intVal_emod hf, ← Int.mul_emod]

/-- The high half of a product of 32-bit values is a value of the type. -/
theorem Fmt.mul_fdiv_mem_range (hw : f.width = 32) (a b : Nat) :
    f.range.1 ≤ (f.intVal a * f.intVal b).fdiv (2 ^ 32) ∧ (f.intVal a * f.intVal b).fdiv (2 ^ 32) ≤ f.range.2 := by
  have ha := Fmt.intVal_mem_range hf a
  have hb := Fmt.intVal_mem_range hf b
  generalize f.intVal a = x at *
  generalize f.intVal b = y at *
  rw [Int.fdiv_eq_ediv_of_nonneg _ (by positivity)]
  obtain rfl | rfl | rfl := intTypes_iff.1 hf
  · have hp : |x * y| ≤ 2 ^ 31 * 2 ^ 31 := by
      rw [abs_mul]
      exact mul_le_mul (abs_le.2 ⟨ha.1, ha.2.trans (by decide)⟩) (abs_le.2 ⟨hb.1, hb.2.trans (by decide)⟩) (abs_nonneg y) (by norm_num)
    rw [abs_le] at hp
    simp only [Fmt.range, Fmt.width]
    omega
  · have hp : 0 ≤ x * y ∧ x * y ≤ (2 ^ 32 - 1) * (2 ^ 32 - 1) :=
      ⟨mul_nonneg ha.1 hb.1, mul_le_mul ha.2 hb.2 hb.1 (by norm_num)⟩
    simp only [Fmt.range]
    omega
  · cases hw

end

/-! ### Bits -/

/-- Bits set from the highest of `w` places downward: after `n` of them the number is a multiple of the next place, and its
quotient holds them. -/
theorem foldl_bits_down (p : Nat → Bool) {w n : Nat} (hn : n ≤ w) : ∃ q,
    (List.range n).foldl (fun acc k => if p k then acc + 2 ^ (w - 1 - k) else acc) 0 = 2 ^ (w - n) * q ∧
    ∀ j, q.testBit j = (decide (j < n) && p (n - 1 - j)) := by
  induction n with
  | zero => exact ⟨0, by simp, by simp⟩
  | succ n ih =>
    obtain ⟨q, sum, places⟩ := ih (by omega)
    refine ⟨q.bit (p n), ?_, fun j => ?_⟩
    · have place : 2 ^ (w - n) = 2 ^ (w - (n + 1)) * 2 := by rw [← Nat.pow_succ]; congr 1; omega
      rw [List.range_succ, List.foldl_append, sum, place, Nat.bit_val, List.foldl_cons, List.foldl_nil,
        show w - 1 - n = w - (n + 1) by omega]
      cases p n
      · simp only [Bool.false_eq_true, if_false, Bool.toNat_false]
        ring
      · simp only [if_true, Bool.toNat_true]
        ring
    · cases j with
      | zero => simp
      | succ j =>
        rw [Nat.testBit_bit_succ, places]
        simp [show n - 1 - j = n - (j + 1) by omega]

end Sys2Proof.Machine
end

section
/-! SUPPORT. The order of exact values (R96, R596): what a comparison of two decoded operands answers, and that it is the order of
their exact values. -/

namespace Sys2Proof.Machine

set_option Elab.async false

/-! ### Comparisons of dyadic numbers -/

theorem compare_congr {α β : Type} [LinearOrder α] [LinearOrder β] {a b : α} {c d : β} (lt : a < b ↔ c < d) (gt : b < a ↔ d < c) :
    compare a b = compare c d := by
  rcases lt_trichotomy a b with h | h | h
  · rw [compare_lt_iff_lt.2 h, compare_lt_iff_lt.2 (lt.1 h)]
  · have eq : c = d := le_antisymm (not_lt.1 fun k => h.not_gt (gt.2 k)) (not_lt.1 fun k => h.not_lt (lt.2 k))
    rw [compare_eq_iff_eq.2 h, compare_eq_iff_eq.2 eq]
  · rw [compare_gt_iff_gt.2 h, compare_gt_iff_gt.2 (gt.1 h)]

/-- The sum of two dyadic numbers is exact. -/
theorem dyAdd_exact (m e n k : Int) :
    ((dyAdd m e n k).1 : ℚ) * 2 ^ (dyAdd m e n k).2 = (m : ℚ) * 2 ^ e + (n : ℚ) * 2 ^ k := by
  have shift : ∀ a b : Int, a ≤ b → (2 : ℚ) ^ (b - a).toNat * 2 ^ a = 2 ^ b := fun a b h => by
    rw [← zpow_natCast, Int.toNat_of_nonneg (by omega), ← zpow_add₀ two_ne_zero, sub_add_cancel]
  unfold dyAdd
  split
  · next h =>
    push_cast
    rw [add_mul, mul_assoc (n : ℚ), shift e k h]
  · next h =>
    push_cast
    rw [add_mul, mul_assoc (m : ℚ), shift k e (by omega)]

theorem dyCmp_eq_compare (m e n k : Int) : dyCmp m e n k = compare ((m : ℚ) * 2 ^ e) ((n : ℚ) * 2 ^ k) := by
  have exact := dyAdd_exact m e (-n) k
  have pos : (0 : ℚ) < 2 ^ (dyAdd m e (-n) k).2 := by positivity
  rw [dyCmp]
  generalize dyAdd m e (-n) k = s at *
  rw [Int.cast_neg, neg_mul, ← sub_eq_add_neg] at exact
  refine compare_congr ?_ ?_
  · rw [← sub_neg (a := (m : ℚ) * 2 ^ e), ← exact, ← Int.cast_lt_zero (R := ℚ)]
    rw [← mul_lt_mul_iff_left₀ pos, zero_mul]
  · rw [← sub_pos (b := (n : ℚ) * 2 ^ k), ← exact, ← Int.cast_pos (R := ℚ)]
    exact (mul_pos_iff_of_pos_right pos).symm

/-! ### Comparisons of decoded values -/

theorem FVal.cmp_fin_fin (z : Bool) (m e n k : Int) : FVal.cmp z (.fin m e) (.fin n k) = dyCmp m e n k := by
  simp only [FVal.cmp, compare_eq_iff_eq.2]
  cases dyCmp m e n k <;> rfl

theorem FVal.cmp_fin_zero (z b : Bool) (m e : Int) : FVal.cmp z (.fin m e) (.zero b) = dyCmp m e 0 0 := by
  simp only [FVal.cmp, compare_eq_iff_eq.2]
  cases dyCmp m e 0 0 <;> rfl

theorem FVal.cmp_zero_fin (z b : Bool) (n k : Int) : FVal.cmp z (.zero b) (.fin n k) = dyCmp 0 0 n k := by
  simp only [FVal.cmp, compare_eq_iff_eq.2]
  cases dyCmp 0 0 n k <;> rfl

/-- The two zeros differ only where their signs count. -/
theorem FVal.cmp_zero_zero (z a b : Bool) :
    FVal.cmp z (.zero a) (.zero b) = if z && a != b then (if a then .lt else .gt) else .eq := by
  cases z <;> cases a <;> cases b <;> rfl

/-- Where the sign of a zero does not count, values that are not NaNs compare as their exact values do. -/
theorem FVal.cmp_false_eq_compare {x y : FVal} (hx : x ≠ .nan) (hy : y ≠ .nan) : FVal.cmp false x y = compare x.exact y.exact := by
  have coe : ∀ a b : ℚ, compare a b = compare (((a : WithTop ℚ)) : WithBot (WithTop ℚ)) ((b : WithTop ℚ)) := fun a b =>
    compare_congr (by rw [WithBot.coe_lt_coe, WithTop.coe_lt_coe]) (by rw [WithBot.coe_lt_coe, WithTop.coe_lt_coe])
  have bot : ∀ q : ℚ, (⊥ : WithBot (WithTop ℚ)) < ((q : WithTop ℚ) : WithBot (WithTop ℚ)) := fun q => WithBot.bot_lt_coe _
  have top : ∀ q : ℚ, ((q : WithTop ℚ) : WithBot (WithTop ℚ)) < ((⊤ : WithTop ℚ) : WithBot (WithTop ℚ)) := fun q =>
    WithBot.coe_lt_coe.2 (WithTop.coe_lt_top q)
  match x, y with
  | .fin m e, .fin n k => rw [FVal.cmp_fin_fin, dyCmp_eq_compare, coe]; rfl
  | .fin m e, .zero b => rw [FVal.cmp_fin_zero, dyCmp_eq_compare, coe, Int.cast_zero, zero_mul]; rfl
  | .zero a, .fin n k => rw [FVal.cmp_zero_fin, dyCmp_eq_compare, coe, Int.cast_zero, zero_mul]; rfl
  | .zero a, .zero b => rw [FVal.cmp_zero_zero]; exact (compare_eq_iff_eq.2 rfl).symm
  | .inf true, .inf true => exact (compare_eq_iff_eq.2 rfl).symm
  | .inf false, .inf false => exact (compare_eq_iff_eq.2 rfl).symm
  | .inf true, .inf false => exact (compare_lt_iff_lt.2 (WithBot.bot_lt_coe _)).symm
  | .inf false, .inf true => exact (compare_gt_iff_gt.2 (WithBot.bot_lt_coe _)).symm
  | .inf true, .fin n k => exact (compare_lt_iff_lt.2 (bot _)).symm
  | .inf true, .zero b => exact (compare_lt_iff_lt.2 (bot _)).symm
  | .inf false, .fin n k => exact (compare_gt_iff_gt.2 (top _)).symm
  | .inf false, .zero b => exact (compare_gt_iff_gt.2 (top _)).symm
  | .fin m e, .inf true => exact (compare_gt_iff_gt.2 (bot _)).symm
  | .zero a, .inf true => exact (compare_gt_iff_gt.2 (bot _)).symm
  | .fin m e, .inf false => exact (compare_lt_iff_lt.2 (top _)).symm
  | .zero a, .inf false => exact (compare_lt_iff_lt.2 (top _)).symm
  | .nan, _ => exact absurd rfl hx
  | _, .nan => exact absurd rfl hy

/-- Whole numbers compare as such: an integer format has no negative zero. -/
theorem FVal.cmp_mk_mk (z : Bool) (m n : Int) : FVal.cmp z (FVal.mk m 0 false) (FVal.mk n 0 false) = compare m n := by
  have whole : ∀ m n : Int, dyCmp m 0 n 0 = compare m n := fun m n => by
    rw [dyCmp_eq_compare]
    exact compare_congr (by simp) (by simp)
  unfold FVal.mk
  split <;> split
  · next h k => rw [FVal.cmp_zero_zero, h, k]; simp
  · next h k => rw [FVal.cmp_zero_fin, whole, h]
  · next h k => rw [FVal.cmp_fin_zero, whole, k]
  · next h k => rw [FVal.cmp_fin_fin, whole]

end Sys2Proof.Machine
end

section
/-! PROOF. Integer results of the ALU (O9). -/

namespace Sys2Proof.Machine

set_option Elab.async false

section
variable {f : Fmt} (hf : intTypes f = true) (l : Launch) (i : Ins) (free : Nat) {a b : Nat} (c : Nat)
include hf

/-! ### Arithmetic -/

theorem mulRegs_int (a b : Nat) : mulRegs l i f free a b c = a * b % 2 ^ f.width := by
  rw [mulRegs, if_pos (Fmt.isInt_of_intTypes hf), Fmt.ofInt_mul hf]

/-- The two halves of a product of 32-bit values make the product. -/
theorem mulhiRegs_mulRegs (hw : f.width = 32) (a b : Nat) :
    f.intVal a * f.intVal b = f.intVal (mulhiRegs l i f free a b c) * 2 ^ 32 + (mulRegs l i f free a b c : Int) := by
  have high : f.intVal (mulhiRegs l i f free a b c) = (f.intVal a * f.intVal b).fdiv (2 ^ 32) := by
    rw [mulhiRegs, ← Fmt.intVal_ofInt hf (Fmt.mul_fdiv_mem_range hf hw a b), hw]
  have low : (mulRegs l i f free a b c : Int) = (f.intVal a * f.intVal b).fmod (2 ^ 32) := by
    rw [mulRegs, if_pos (Fmt.isInt_of_intTypes hf), natCast_ofInt, hw, Int.fmod_eq_emod_of_nonneg _ (by positivity)]
    norm_cast
  rw [high, low, Int.fdiv_mul_add_fmod]

/-! ### The smaller and the larger operand -/

theorem pick_int (mx : Bool) (a b : Nat) : pick f mx a b = if f.intVal a ≤ f.intVal b then (if mx then b else a) else (if mx then a else b) := by
  have num : ∀ x, isNan (f.decode x) = false := fun x => by
    rw [Fmt.decode_of_intTypes hf, FVal.mk]
    split <;> rfl
  rw [pick, num, num, Fmt.decode_of_intTypes hf, Fmt.decode_of_intTypes hf, FVal.cmp_mk_mk]
  simp only [Bool.or_self, Bool.false_eq_true, if_false]
  rcases lt_trichotomy (f.intVal a) (f.intVal b) with h | h | h
  · rw [compare_lt_iff_lt.2 h, if_pos h.le]
  · rw [compare_eq_iff_eq.2 h, if_pos h.le]
  · rw [compare_gt_iff_gt.2 h, if_neg (not_le.2 h)]

theorem map2_int (g : Nat → Nat → Nat) (ha : a < 2 ^ f.width) (hb : b < 2 ^ f.width) : f.map2 g a b = g a b := by
  rw [Fmt.map2, Fmt.packed_of_intTypes hf, Nat.mod_eq_of_lt ha, Nat.mod_eq_of_lt hb]
  rfl

theorem intVal_minRegs (ha : a < 2 ^ f.width) (hb : b < 2 ^ f.width) :
    f.intVal (minRegs l i f free a b c) = min (f.intVal a) (f.intVal b) := by
  rw [minRegs, map2_int hf _ ha hb, pick_int hf, min_def, apply_ite f.intVal]
  rfl

theorem intVal_maxRegs (ha : a < 2 ^ f.width) (hb : b < 2 ^ f.width) :
    f.intVal (maxRegs l i f free a b c) = max (f.intVal a) (f.intVal b) := by
  rw [maxRegs, map2_int hf _ ha hb, pick_int hf, max_def, apply_ite f.intVal]
  rfl

/-! ### Bits -/

omit hf in
theorem testBit_notRegs {k : Nat} (hk : k < f.width) : (notRegs l i f free a b c).testBit k = !a.testBit k := by
  rw [notRegs, Nat.sub_sub, Nat.add_comm 1, Nat.testBit_two_pow_sub_succ (Nat.mod_lt _ (by positivity)), Nat.testBit_mod_two_pow,
    decide_eq_true hk, Bool.true_and, Bool.true_and]

omit hf in
theorem testBit_brevRegs {k : Nat} (hw : f.width = 32) (hk : k < f.width) : (brevRegs l i f free a b c).testBit k = a.testBit (31 - k) := by
  obtain ⟨q, sum, places⟩ := foldl_bits_down a.testBit (le_refl f.width)
  rw [brevRegs, sum, Nat.sub_self, pow_zero, one_mul, places, decide_eq_true hk, Bool.true_and, hw]

omit hf in
theorem clzRegs_bounds (hw : f.width = 32) (ha : a < 2 ^ f.width) (h0 : a ≠ 0) :
    2 ^ (31 - clzRegs l i f free a b c) ≤ a ∧ a < 2 ^ (32 - clzRegs l i f free a b c) := by
  have top : a.log2 < 32 := (Nat.log2_lt h0).2 (hw ▸ ha)
  rw [clzRegs, Nat.mod_eq_of_lt ha, if_neg h0, hw, show 31 - (32 - 1 - a.log2) = a.log2 by omega,
    show 32 - (32 - 1 - a.log2) = a.log2 + 1 by omega]
  exact ⟨Nat.log2_self_le h0, Nat.lt_log2_self⟩

end

/-- Settles O9: sums and products are read back where the type holds them, the halves of a product are quotient and remainder of
the exact one, and every other result is read bit by bit. -/
theorem aluIntegerResults : Obligations.AluIntegerResults := by
  unfold Obligations.AluIntegerResults
  intro l i f free a b c hf ha hb _ fits
  have int := Fmt.isInt_of_intTypes hf
  refine ⟨fun h => ?_, fun h => ?_, fun h => ?_, mulRegs_int hf l i free c a b, intVal_minRegs hf l i free c ha hb,
    intVal_maxRegs hf l i free c ha hb, fun h => ?_, fun h => ?_, fun k hk => ⟨?_, ?_, ?_, testBit_notRegs l i free c hk, ?_, ?_,
      testBit_ofInt_sext_fdiv a _ hk, fun hw => testBit_brevRegs l i free c hw hk⟩,
    fun hw => ⟨mulhiRegs_mulRegs hf l i free c hw a b, fun h0 => ?_, clzRegs_bounds l i free c hw ha, ?_⟩⟩
  · rw [addRegs, if_pos int, Fmt.intVal_intOrFree hf h]
  · rw [subRegs, if_pos int, Fmt.intVal_intOrFree hf h]
  · rw [fmaRegs, if_pos int, Fmt.intVal_intOrFree hf h]
  · rw [absRegs, if_pos int, Int.natCast_natAbs, Fmt.intVal_intOrFree hf h]
  · rw [negRegs, if_pos int, Fmt.intVal_intOrFree hf h]
  · simp [andRegs, hk]
  · simp [orRegs, hk]
  · simp [xorRegs, hk]
  · simp [shlRegs, hk, Nat.testBit_mul_two_pow]
  · rw [shrRegs, Nat.mod_eq_of_lt ha, Nat.testBit_div_two_pow]
  · rw [clzRegs, h0, hw]; rfl
  · rw [popcRegs, popcount, hw]

end Sys2Proof.Machine
end

section
/-! PROOF. Floating-point results of the ALU (O10): an operation of a register is one of each element, and an element's result
is that of its own operands. -/

namespace Sys2Proof.Machine

set_option Elab.async false

/-- The floating-point types of the ALU. -/
def floatTypes (f : Fmt) : Bool := [Fmt.fp32, .fp64, .fp16, .bf16].contains f

/-- Element `k` of a register of a type. -/
def Fmt.elem (f : Fmt) (k x : Nat) : Nat := x / 2 ^ (f.width * k) % 2 ^ f.width

theorem floatTypes_iff {f : Fmt} : floatTypes f = true ↔ f = .fp32 ∨ f = .fp64 ∨ f = .fp16 ∨ f = .bf16 := by
  cases f <;> simp [floatTypes]

/-! ### Elements of a register (R92) -/

theorem Fmt.elem_lt (f : Fmt) (k x : Nat) : f.elem k x < 2 ^ f.width := Nat.mod_lt _ (by positivity)

section
variable {f : Fmt} (hf : floatTypes f = true) {k : Nat} (hk : k < 32 * f.nregs / f.width)
include hf

theorem Fmt.isInt_of_floatTypes : f.isInt = false := by
  obtain rfl | rfl | rfl | rfl := floatTypes_iff.1 hf <;> rfl

theorem Fmt.nan_mod : f.nan % 2 ^ f.width = f.nan := by
  obtain rfl | rfl | rfl | rfl := floatTypes_iff.1 hf <;> rfl

include hk

/-- A register put together from a result per element gives each of them back. -/
theorem Fmt.elem_ofElems (g : Nat → Nat) :
    f.elem k (if f.packed then g 0 % 2 ^ 16 + 2 ^ 16 * g 1 else g 0) = g k % 2 ^ f.width := by
  obtain rfl | rfl | rfl | rfl := floatTypes_iff.1 hf
  case inl | inr.inl =>
    obtain rfl : k = 0 := by simpa [Fmt.nregs, Fmt.width] using hk
    simp [Fmt.elem, Fmt.packed]
  all_goals
    obtain rfl | rfl : k = 0 ∨ k = 1 := by simp only [Fmt.nregs, Fmt.width] at hk; omega
    · simp [Fmt.elem, Fmt.packed, Fmt.width]
    · simp only [Fmt.elem, Fmt.packed, Fmt.width]
      simp [Nat.add_mul_div_left]

theorem Fmt.elem_map1 (g : Nat → Nat) (a : Nat) : f.elem k (f.map1 g a) = g (f.elem k a) % 2 ^ f.width := by
  rw [← Fmt.elem_ofElems hf hk (fun j => g (f.elem j a))]
  obtain rfl | rfl | rfl | rfl := floatTypes_iff.1 hf <;> simp [Fmt.map1, Fmt.packed, Fmt.elem, Fmt.width]

theorem Fmt.elem_map2 (g : Nat → Nat → Nat) (a b : Nat) : f.elem k (f.map2 g a b) = g (f.elem k a) (f.elem k b) % 2 ^ f.width := by
  rw [← Fmt.elem_ofElems hf hk (fun j => g (f.elem j a) (f.elem j b))]
  obtain rfl | rfl | rfl | rfl := floatTypes_iff.1 hf <;> simp [Fmt.map2, Fmt.packed, Fmt.elem, Fmt.width]

theorem Fmt.elem_map3 (g : Nat → Nat → Nat → Nat) (a b c : Nat) :
    f.elem k (f.map3 g a b c) = g (f.elem k a) (f.elem k b) (f.elem k c) % 2 ^ f.width := by
  rw [← Fmt.elem_ofElems hf hk (fun j => g (f.elem j a) (f.elem j b) (f.elem j c))]
  obtain rfl | rfl | rfl | rfl := floatTypes_iff.1 hf <;> simp [Fmt.map3, Fmt.packed, Fmt.elem, Fmt.width]

end

/-! ### The smaller and the larger operand (R596) -/

theorem pick_nan {f : Fmt} (mx : Bool) {x y : Nat} (h : isNan (f.decode x) = true ∨ isNan (f.decode y) = true) : pick f mx x y = f.nan := by
  rw [pick, if_pos (by simpa using h)]

theorem pick_num {f : Fmt} (mx : Bool) {x y : Nat} (hx : isNan (f.decode x) = false) (hy : isNan (f.decode y) = false) :
    pick f mx x y = if FVal.cmp true (f.decode x) (f.decode y) = .gt then (if mx then x else y) else (if mx then y else x) := by
  rw [pick, hx, hy]
  simp only [Bool.or_self, Bool.false_eq_true, if_false]
  split
  · next h => rw [if_pos h]
  · next h => rw [if_neg h]

/-! ### Sign operations (R596) -/

theorem signOp_nan {f : Fmt} (neg : Bool) {x : Nat} (h : isNan (f.decode x) = true) : signOp f neg x = f.nan := by
  rw [signOp, if_pos h]

/-- Of a value that is not a NaN the sign bit alone can differ: clear, or the other one. -/
theorem testBit_signOp {f : Fmt} (neg : Bool) {x : Nat} (h : isNan (f.decode x) = false) (j : Nat) (hj : j < f.width) :
    (signOp f neg x % 2 ^ f.width).testBit j = if j = f.width - 1 then neg && !x.testBit j else x.testBit j := by
  have low : x % 2 ^ (f.width - 1) < 2 ^ (f.width - 1) := Nat.mod_lt _ (by positivity)
  have places : ∀ q, (2 ^ (f.width - 1) * q + x % 2 ^ (f.width - 1)).testBit j =
      if j = f.width - 1 then q.testBit 0 else x.testBit j := fun q => by
    rw [Nat.testBit_two_pow_mul_add _ low]
    split
    · next hl => rw [Nat.testBit_mod_two_pow, decide_eq_true hl, Bool.true_and, if_neg (by omega)]
    · next hl => rw [if_pos (by omega), show j - (f.width - 1) = 0 by omega]
  have clear := places 0
  have set := places 1
  rw [Nat.mul_zero, Nat.zero_add] at clear
  rw [Nat.mul_one, Nat.add_comm] at set
  rw [Nat.testBit_mod_two_pow, decide_eq_true hj, Bool.true_and, signOp, if_neg (by simp [h])]
  cases neg
  · exact clear
  · cases hb : bit x (f.width - 1)
    · rw [if_pos rfl, if_neg (by simp), set]
      split
      · next e => rw [e, show x.testBit (f.width - 1) = false from hb]; rfl
      · rfl
    · rw [if_pos rfl, if_pos rfl, clear]
      split
      · next e => rw [e, show x.testBit (f.width - 1) = true from hb]; rfl
      · rfl

/-- Settles O10: each operation of a register is an operation of its elements, of which rounding, order and sign are said once. -/
theorem aluFloatResults : Obligations.AluFloatResults := by
  unfold Obligations.AluFloatResults
  intro l i f free a b c h rm fin el k hk x y v u
  have hf := floatTypes_iff.2 h
  have flt : ¬f.isInt = true := by simp [Fmt.isInt_of_floatTypes hf]
  have one := fun g a => Fmt.elem_map1 hf hk g a
  have two := fun g a b => Fmt.elem_map2 hf hk g a b
  have min : el k (minRegs l i f free a b c) = pick f false x y % 2 ^ f.width := two _ a b
  have max : el k (maxRegs l i f free a b c) = pick f true x y % 2 ^ f.width := two _ a b
  have abs : el k (absRegs l i f free a b c) = signOp f false x % 2 ^ f.width := by rw [absRegs, if_neg flt]; exact one _ a
  have neg : el k (negRegs l i f free a b c) = signOp f true x % 2 ^ f.width := by rw [negRegs, if_neg flt]; exact one _ a
  have hx : x % 2 ^ f.width = x := Nat.mod_eq_of_lt (f.elem_lt k a)
  have hy : y % 2 ^ f.width = y := Nat.mod_eq_of_lt (f.elem_lt k b)
  refine ⟨?_, ?_, ?_, ?_, fun hn => ?_, fun hv hu => ?_, fun hn => ?_, fun hv => ?_⟩
  · rw [addRegs, if_neg flt]; exact two _ a b
  · rw [subRegs, if_neg flt]; exact two _ a b
  · rw [mulRegs, if_neg flt]; exact two _ a b
  · rw [fmaRegs, if_neg flt]; exact Fmt.elem_map3 hf hk _ a b c
  · rw [min, max, pick_nan _ hn, pick_nan _ hn, Fmt.nan_mod hf]
    exact ⟨rfl, rfl⟩
  · rw [min, max, pick_num _ hv hu, pick_num _ hv hu]
    constructor <;> split <;> assumption
  · rw [abs, neg, signOp_nan _ hn, signOp_nan _ hn, Fmt.nan_mod hf]
    exact ⟨rfl, rfl⟩
  · have pos : 0 < f.width := by cases f <;> decide
    rw [abs, neg]
    refine ⟨fun j hj => ⟨?_, ?_⟩, ?_, ?_⟩
    · rw [testBit_signOp _ hv _ (by omega), if_neg (by omega)]
    · rw [testBit_signOp _ hv _ (by omega), if_neg (by omega)]
    · rw [testBit_signOp _ hv _ (by omega), if_pos rfl, Bool.false_and]
    · rw [testBit_signOp _ hv _ (by omega), if_pos rfl, Bool.true_and]

end Sys2Proof.Machine
end

section
/-! SUPPORT. What an instruction that issues is known to meet, the issue of one whose word is illegal (R91, R113), and the masks that
are built bit by bit. -/

namespace Sys2Proof.Machine

set_option Elab.async false

/-! ### Masks -/

/-- Bits set from the lowest place upward. -/
theorem foldl_bits_up (p : Nat → Bool) (n : Nat) :
    (List.range n).foldl (fun acc k => if p k then acc + 2 ^ k else acc) 0 < 2 ^ n ∧
    ∀ j, ((List.range n).foldl (fun acc k => if p k then acc + 2 ^ k else acc) 0).testBit j = (decide (j < n) && p j) := by
  induction n with
  | zero => simp
  | succ n ih =>
    obtain ⟨bound, places⟩ := ih
    rw [List.range_succ, List.foldl_append, List.foldl_cons, List.foldl_nil]
    generalize (List.range n).foldl (fun acc k => if p k then acc + 2 ^ k else acc) 0 = m at *
    have sum : (if p n then m + 2 ^ n else m) = 2 ^ n * boolNat (p n) + m := by
      cases p n <;> simp [boolNat, Nat.add_comm]
    rw [sum]
    refine ⟨by rw [Nat.pow_succ]; cases p n <;> simp [boolNat] <;> omega, fun j => ?_⟩
    rw [Nat.testBit_two_pow_mul_add _ bound]
    split
    · next h => rw [places, decide_eq_true h, decide_eq_true (by omega)]
    · next h =>
      by_cases e : j = n
      · subst e; cases hp : p j <;> simp [boolNat]
      · have out : boolNat (p n) < 2 ^ (j - n) := lt_of_le_of_lt (by cases p n <;> simp [boolNat]) (Nat.one_lt_two_pow (by omega))
        rw [Nat.testBit_lt_two_pow out, decide_eq_false (by omega), Bool.false_and]

theorem getLsbD_maskOf (f : Nat → Bool) {t : Nat} (ht : t < 64) : (maskOf f).getLsbD t = f t := by
  rw [maskOf, BitVec.getLsbD_ofNat, (foldl_bits_up f 64).2, decide_eq_true ht, Bool.true_and, Bool.true_and]

theorem getLsbD_mergePred (old act new : W64) {t : Nat} (h : act.getLsbD t = true) : (mergePred old act new).getLsbD t = new.getLsbD t := by
  simp [mergePred, h]

/-! ### What an issue presupposes -/

theorem State.Issues.formOk {s u : State} {w : IWord} {op : Nat × Nat} {f : Form} (h : s.Issues u w op f) : f.ok = true := by
  have clean := h.clean
  simp only [formFaults, List.append_eq_nil_iff, ite_eq_left_iff, List.cons_ne_nil, imp_false, not_not, Bool.and_eq_true] at clean
  obtain ⟨⟨⟨_, ok⟩, _⟩, _⟩ := clean
  exact ok

theorem State.Issues.legal {s u : State} {w : IWord} {op : Nat × Nat} {f : Form} (h : s.Issues u w op f) : f.legal = true := by
  have ok := h.formOk
  rw [Form.ok, Bool.and_eq_true] at ok
  exact ok.1

theorem AluRow.legal_of_form {r : AluRow} {i : Ins} {fd fa : Fmt} {ok : Bool} (h : (r.form i fd fa ok).legal = true) :
    r.legal i = true := ((Bool.and_eq_true _ _).mp h).1

/-- The scalar form has no type of more than two registers (R101). -/
theorem AluRow.nregs_le_two {r : AluRow} {i : Ins} (h : r.legal i = true) (hs : i.scalar = true) : (r.ty i).nregs ≤ 2 := by
  simp only [AluRow.legal, Bool.and_eq_true, hs, Bool.not_true, Bool.false_or] at h
  obtain ⟨⟨⟨⟨⟨⟨_, _, ty⟩, _⟩, _⟩, _⟩, _⟩, _⟩ := h
  revert ty
  cases r.ty i <;> decide

/-- An instruction whose words are fetched is at its issue. -/
theorem State.issue_eq_issueAt {s u : State} {w : IWord} (op : Nat × Nat) (m : Meaning) (may : s.mayIssue w.core w.slot = true)
    (fetch : s.fetched w = some u) : s.issue w op m = u.issueAt w op m := by
  unfold State.fetched at fetch
  unfold State.issue
  rw [if_neg (by simp [may])]
  revert fetch
  extract_lets r s1 cove
  intro fetch
  split at fetch
  · next first =>
    rw [first]
    split at fetch
    · cases fetch
    · next word =>
      simp only [word, if_false]
      split at fetch
      · next short => cases fetch; simp only [short, if_true]
      · next long =>
        simp only [long]
        split at fetch
        · next second =>
          rw [second]
          split at fetch
          · next ext => cases fetch; simp only [ext, ne_eq, not_true, Bool.false_eq_true, if_false]
          · cases fetch
        · cases fetch
  · cases fetch

/-- ILLEGAL is the lowest fault code. -/
theorem lowestFault_illegal (l : List (Nat × Nat)) (h : ∀ p ∈ l, 1 < p.1) : lowestFault ((Flt.illegal, 0) :: l) = some (Flt.illegal, 0) := by
  rw [lowestFault]
  cases e : lowestFault l with
  | none => rfl
  | some q =>
    have mem : ∀ {l : List (Nat × Nat)} {q}, lowestFault l = some q → q ∈ l := by
      intro l
      induction l with
      | nil => intro q k; cases k
      | cons p l ih =>
        intro q k
        rw [lowestFault] at k
        split at k
        · cases k; exact List.mem_cons_self
        · next e =>
          split at k
          · cases k; exact List.mem_cons_of_mem _ (ih e)
          · cases k; exact List.mem_cons_self
    have high := h q (mem e)
    exact if_neg (by simp only [Flt.illegal]; omega)

/-- A word whose encoding is not legal takes the fault ILLEGAL once nothing of the group is outstanding (R91, R113). -/
theorem State.issue_illegal {s u : State} {w : IWord} {op : Nat × Nat} {m : Meaning} (may : s.mayIssue w.core w.slot = true)
    (fetch : s.fetched w = some u) (opcode : (insOf w).cl = op.1 ∧ (insOf w).op = op.2)
    (ready : (s.atIssue w).scoreboard (m.form (s.view w)) = false) (idle : (u.core w.core).busyWith w.slot = false)
    (bad : (m.form (s.view w)).ok = false) : s.issue w op m = u.takeFault w.core w.slot Flt.illegal 0 := by
  have view : (⟨w.core, w.slot, s.atIssue w, u.launchOf w.core w.slot, insOf w, (s.atIssue w).active (insOf w)⟩ : Iss) = s.view w := by
    rw [State.fetched_launch fetch]; rfl
  have faults : ∃ l, formFaults (s.view w) (m.form (s.view w)) op = (Flt.illegal, 0) :: l ∧ ∀ p ∈ l, 1 < p.1 := by
    rw [formFaults, bad, Bool.and_false, if_neg Bool.false_ne_true, List.append_assoc, List.singleton_append]
    refine ⟨_, rfl, fun p hp => ?_⟩
    simp only [List.mem_append, List.mem_ite_nil_left, List.mem_singleton] at hp
    obtain ⟨_, rfl⟩ | ⟨_, hp⟩ := hp
    · decide
    · simp only [List.mem_ite_nil_right, List.mem_singleton] at hp
      obtain ⟨_, rfl⟩ | ⟨_, rfl⟩ := hp <;> decide
  obtain ⟨l, basic, high⟩ := faults
  rw [State.issue_eq_issueAt op m may fetch, State.issueAt, State.fetched_group fetch]
  simp only [view]
  rw [if_neg (by omega), if_neg (by rw [ready]; exact Bool.false_ne_true)]
  simp only [basic, List.any_cons, show decide (Flt.illegal ≤ 2) = true from rfl, Bool.true_or, if_true, lowestFault_illegal l high, idle,
    Bool.false_eq_true, if_false]
  rfl

end Sys2Proof.Machine
end

section
/-! PROOF. Comparisons (O24). -/

namespace Sys2Proof.Machine

set_option Elab.async false

theorem isNan_eq_true {v : FVal} : isNan v = true ↔ v = .nan := by simp [isNan]

/-- A condition code over the order of two decoded values is the condition it names over their exact values (R96). -/
theorem ccHolds_iff_condition {cc : Nat} (h : cc < 8) (x y : FVal) :
    ccHolds cc (isNan x || isNan y) (FVal.cmp false x y) = true ↔ condition cc x y := by
  by_cases num : x ≠ .nan ∧ y ≠ .nan
  · obtain ⟨hx, hy⟩ := num
    have nan : (isNan x || isNan y) = false := by simp [isNan, hx, hy]
    have lt : x.exact < y.exact ↔ compare x.exact y.exact = .lt := compare_lt_iff_lt.symm
    have gt : y.exact < x.exact ↔ compare x.exact y.exact = .gt := compare_gt_iff_gt.symm
    have le : x.exact ≤ y.exact ↔ compare x.exact y.exact ≠ .gt := by rw [ne_eq, ← gt, not_lt]
    have ge : y.exact ≤ x.exact ↔ compare x.exact y.exact ≠ .lt := by rw [ne_eq, ← lt, not_lt]
    have eq : x.exact = y.exact ↔ compare x.exact y.exact = .eq := compare_eq_iff_eq.symm
    rw [nan, FVal.cmp_false_eq_compare hx hy]
    generalize compare x.exact y.exact = o at *
    interval_cases cc <;> simp [ccHolds, condition, hx, hy, lt, gt, le, ge, eq]
  · have nan : (isNan x || isNan y) = true := by
      rw [Bool.or_eq_true, isNan_eq_true, isNan_eq_true]
      tauto
    rw [nan]
    interval_cases cc <;> simp only [ccHolds, condition] <;> simp [num]

/-- The row of `cmp` in Table 4-5. -/
def cmpRow : AluRow := { row2 0x030 arithTypes with lay := .cmp, d := .p }

/-- What a `cmp` finds for a thread; the scalar form asks of the lowest acting one. -/
def Iss.cmpAt (z : Iss) (th : Nat) : Bool :=
  let f := cmpRow.ty z.i
  compareRegs f z.i.cc (z.opA f th) (z.opB f th)

/-- The bits that a `cmp` puts in the place of the acting threads'. -/
def Iss.cmpBits (z : Iss) : W64 := if z.i.scalar then (if z.cmpAt z.first then z.act else 0) else maskOf z.cmpAt

theorem Iss.getLsbD_cmpBits (z : Iss) {th : Nat} (ht : th < 64) (act : z.act.getLsbD th = true) :
    z.cmpBits.getLsbD th = z.cmpAt (if z.i.scalar then z.first else th) := by
  unfold Iss.cmpBits
  cases z.i.scalar
  · exact getLsbD_maskOf _ ht
  · simp only [if_true]
    cases z.cmpAt z.first
    · exact BitVec.getLsbD_zero
    · exact act

section
variable {w : IWord} {s u : State}

/-- R96: six codes compare values of every type, two more those of a floating-point type. -/
theorem cmpRow_code_of_legal {i : Ins} (h : cmpRow.legal i = true) : i.cc < 8 ∧ (i.cc < 6 ∨ (cmpRow.ty i).isFloat = true) := by
  simp only [AluRow.legal, Bool.and_eq_true] at h
  obtain ⟨⟨⟨⟨⟨_, qual⟩, _⟩, _⟩, _⟩, _⟩ := h
  simp only [AluRow.qualOk, cmpRow, Bool.and_eq_true, decide_eq_true_eq, Bool.or_eq_true] at qual
  exact ⟨qual.1.1, qual.2⟩

/-- `cmp` replaces the acting threads' bits of its predicate (R60). -/
theorem execCmp_next (h : s.Issues u w (cmpRow.code w)
      (cmpRow.form (s.view w).i (cmpRow.ty (s.view w).i) (cmpRow.ty (s.view w).i) true)) :
    exec (.cmp w) s = .next ((u.advanced w (s.view w)
      (cmpRow.form (s.view w).i (cmpRow.ty (s.view w).i) (cmpRow.ty (s.view w).i) true)).modGroup w.core w.slot
        (fun g => g.wp (s.view w).i.d (mergePred (g.rp (s.view w).i.d) (s.view w).act (s.view w).cmpBits))) :=
  congrArg Host.Outcome.next (State.issue_next h rfl rfl rfl rfl (State.fetched_group h.fetch))

end

theorem Group.rp_wp (g : Group) (r : Nat) (v : W64) : (g.wp r v).rp r = v := mget_mset_self _ _ _

/-- Settles O24: the bit that `cmp` writes is its condition over exact values, and a code that R96 reserves makes the word illegal. -/
theorem cmpConditionCodes : Obligations.CmpConditionCodes := by
  unfold Obligations.CmpConditionCodes
  intro w s u r z f form x y
  refine ⟨fun h => ⟨_, execCmp_next h, fun th ht act => ?_⟩, fun reserved may fetch cl op ready idle => ?_⟩
  · obtain ⟨code, _⟩ := cmpRow_code_of_legal (AluRow.legal_of_form h.legal)
    rw [State.group_modGroup, Group.rp_wp, getLsbD_mergePred _ _ _ act, Iss.getLsbD_cmpBits _ ht act]
    exact ccHolds_iff_condition code _ _
  · refine congrArg Host.Outcome.next (State.issue_illegal may fetch ⟨cl, op⟩ ready idle ?_)
    by_contra ok
    rw [Bool.not_eq_false, Form.ok, Bool.and_eq_true] at ok
    obtain ⟨code, type⟩ := cmpRow_code_of_legal (AluRow.legal_of_form ok.1)
    obtain high | ⟨high, int⟩ := reserved
    · exact absurd code (not_lt.2 high)
    · obtain low | float := type
      · exact absurd low (not_lt.2 high)
      · exact absurd (int.symm.trans float) Bool.false_ne_true

end Sys2Proof.Machine
end

section
/-! SUPPORT. The state at which an instruction's effect starts: its group has moved on, its block and launch are as before. -/

namespace Sys2Proof.Machine

set_option Elab.async false

theorem Group.clearMarks_rest (g : Group) (rs : List Nat) :
    g.clearMarks rs = { g with poison := (g.clearMarks rs).poison, ghost := (g.clearMarks rs).ghost } := by
  unfold Group.clearMarks
  split <;> rfl

/-- Moving on changes the marks, the program counter and what the group waits on. -/
theorem Iss.moved_rest (z : Iss) (f : Form) : z.moved f = { z.g with
    poison := (z.moved f).poison, ghost := (z.moved f).ghost, pc := nextPc z.g.pc z.i.size, hold := .none, since := none
    memSeq := z.g.memSeq + boolNat (z.i.cl == 1), hinted := if z.g.hinted = 2 then 0 else z.g.hinted } := by
  unfold Iss.moved
  split
  · rfl
  · rw [Group.clearMarks_rest]

@[simp] theorem Iss.moved_blk (z : Iss) (f : Form) : (z.moved f).blk = z.g.blk := by rw [Iss.moved_rest]
@[simp] theorem Iss.moved_v (z : Iss) (f : Form) : (z.moved f).v = z.g.v := by rw [Iss.moved_rest]
@[simp] theorem Iss.moved_s (z : Iss) (f : Form) : (z.moved f).s = z.g.s := by rw [Iss.moved_rest]
@[simp] theorem Iss.moved_m (z : Iss) (f : Form) : (z.moved f).m = z.g.m := by rw [Iss.moved_rest]
@[simp] theorem Iss.moved_busyV (z : Iss) (f : Form) : (z.moved f).busyV = z.g.busyV := by rw [Iss.moved_rest]

@[simp] theorem Iss.moved_rv (z : Iss) (f : Form) (r t : Nat) : (z.moved f).rv r t = z.g.rv r t := by
  simp only [Group.rv, Iss.moved_v]

theorem State.advanced_core (u : State) (w : IWord) (z : Iss) (f : Form) :
    (u.advanced w z f).core w.core = (u.core w.core).setGroup w.slot (z.moved f) := State.core_modCore _ _ _

@[simp] theorem State.advanced_group (u : State) (w : IWord) (z : Iss) (f : Form) :
    (u.advanced w z f).group w.core w.slot = z.moved f := State.group_modGroup _ _ _ _

section
variable {s u : State} {w : IWord} {op : Nat × Nat} {f : Form}

theorem State.Issues.group (h : s.Issues u w op f) : u.group w.core w.slot = (s.view w).g := State.fetched_group h.fetch

theorem State.Issues.blockOf (h : s.Issues u w op f) : (u.advanced w (s.view w) f).blockOf w.core w.slot = u.blockOf w.core w.slot := by
  rw [State.blockOf, State.advanced_group, State.advanced_core, Iss.moved_blk, State.blockOf, h.group]
  rfl

theorem Issued.draws {t : State} (h : Issued s t w) (n : Nat) : Issued s { t with free := n } w :=
  ⟨by rw [h.rest], h.regs, h.others, h.core, h.groups⟩

/-- A result written where the effect starts. -/
theorem State.advanced_writeD (s u : State) (w : IWord) (f : Form) (ty : Fmt) (val : Nat → Nat)
    (fits : (s.view w).i.scalar = true → ty.nregs ≤ 2) :
    Issued u ((u.advanced w (s.view w) f).writeD (s.view w) ty val) w ∧
    Wrote ((s.view w).moved f) (((u.advanced w (s.view w) f).writeD (s.view w) ty val).group w.core w.slot) (s.view w) ty.nregs val := by
  obtain ⟨g, written, wrote⟩ := State.writeD_wrote (u.advanced w (s.view w) f) (s.view w) ty val fits
  rw [written]
  refine ⟨(Issued.advanced (Issued.refl u w) _ _).trans (State.modGroup_issued _ w _), ?_⟩
  rw [show (u.advanced w (s.view w) f).group (s.view w).core (s.view w).slot = _ from State.advanced_group u w _ f] at wrote
  rw [show (State.modGroup _ (s.view w).core (s.view w).slot _).group w.core w.slot = g from State.group_modGroup _ _ _ _]
  exact wrote

end

/-! ### Event counts -/

section
variable (s : State) (c code n d : Nat)

@[simp] theorem State.core_kcount : (s.kcount c code n).core d = s.core d := (s.count_counted _ _ _ _).core d
@[simp] theorem State.group_kcount (g : Nat) : (s.kcount c code n).group d g = s.group d g := by rw [State.group, State.core_kcount]; rfl
@[simp] theorem State.kcount_zero : s.kcount c code 0 = s := by rw [State.kcount, State.count, if_pos (Or.inl rfl)]
@[simp] theorem State.mem_kcount : (s.kcount c code n).mem = s.mem := by rw [State.kcount, (s.count_counted _ _ _ _).rest]
@[simp] theorem State.net_kcount : (s.kcount c code n).net = s.net := by rw [State.kcount, (s.count_counted _ _ _ _).rest]

/-- Without an inexact sum only NaN drops are counted. -/
theorem State.noteWide_zero (l : Launch) : s.noteWide c l n 0 = s.kcount c Ev.CORE_NAN_DROP n :=
  State.kcount_zero (s.kcount c Ev.CORE_NAN_DROP n) c Ev.CORE_INEXACT_WIDE

end

end Sys2Proof.Machine
end

section
/-! PROOF. sel, shfl, cvt and mov.sv (O11). -/

namespace Sys2Proof.Machine

set_option Elab.async false

section
variable {s u : State} {w : IWord}

/-- A system value does not depend on where its group stands. -/
theorem State.Issues.sysValue {op : Nat × Nat} {f : Form} (h : s.Issues u w op f) (code t : Nat) :
    sysValue (u.advanced w (s.view w) f) (s.view w) code t = sysValue u (s.view w) code t := by
  have block : (u.advanced w (s.view w) f).blockOf (s.view w).core (s.view w).slot = u.blockOf (s.view w).core (s.view w).slot := h.blockOf
  unfold Machine.sysValue
  rw [block]
  rfl

end

/-- The thread that a `shfl` names, as a number that may lie outside the group (R103). -/
def Iss.shflLane (z : Iss) (th : Nat) : Int :=
  let b := if z.i.bi then (if z.i.lg then low32 z.i.x else z.i.b) else z.readV .int32 z.i.bs z.i.b th
  match bits z.i.q 1 0 with
  | 0 => (b % 64 : Nat)
  | 1 => (th : Int) - b
  | 2 => (th : Int) + b
  | _ => (th ^^^ (b % 64) : Nat)

/-- The value of A that a `shfl` gives a thread. -/
def Iss.shflValue (z : Iss) (f : Fmt) (th : Nat) : Nat :=
  let src := z.shflLane th
  let ok := decide (0 ≤ src) && decide (src < 64) && z.g.live.getLsbD src.toNat
  z.g.rv z.i.a (if ok then src.toNat else th) % 2 ^ f.regBits

theorem Iss.shflLane_eq (z : Iss) (th : Nat) : z.shflLane th =
    (let b := if z.i.bi then (if z.i.lg then low32 z.i.x else z.i.b) else z.readV .int32 z.i.bs z.i.b th
     if bits z.i.q 1 0 = 0 then ((b % 64 : Nat) : Int) else if bits z.i.q 1 0 = 1 then (th : Int) - b
       else if bits z.i.q 1 0 = 2 then (th : Int) + b else ((th ^^^ (b % 64) : Nat) : Int)) := by
  unfold Iss.shflLane
  generalize bits z.i.q 1 0 = mode
  match mode with
  | 0 | 1 | 2 | _ + 3 => simp

/-- Settles O11: each writes one value per acting thread where its effect starts; the counts of `cvt` are the core's event
counts, and the TIMER value that `mov.sv` takes is drawn. -/
theorem selShflCvtMovSvWriteTheirResult : Obligations.SelShflCvtMovSvWriteTheirResult := by
  unfold Obligations.SelShflCvtMovSvWriteTheirResult
  intro w s u z T
  refine ⟨?_, ?_, ?_, ?_⟩
  · intro r form h
    have fits : z.i.scalar = true → T.nregs ≤ 2 := AluRow.nregs_le_two (AluRow.legal_of_form h.legal)
    exact ⟨_, congrArg Host.Outcome.next (State.issue_next h rfl rfl rfl rfl h.group), State.advanced_writeD s u w form T _ fits⟩
  · intro r form h
    have fits : z.i.scalar = true → T.nregs ≤ 2 := AluRow.nregs_le_two (AluRow.legal_of_form h.legal)
    have source : ∀ th, z.shflValue T th = z.g.rv z.i.a (if 0 ≤ z.shflLane th ∧ z.shflLane th < 64 ∧
        z.g.live.getLsbD (z.shflLane th).toNat = true then (z.shflLane th).toNat else th) % 2 ^ T.regBits := fun th => by
      simp only [Iss.shflValue, Bool.and_eq_true, decide_eq_true_eq, and_assoc]
    simp only [Iss.shflLane_eq] at source
    rw [← funext source]
    exact ⟨_, congrArg Host.Outcome.next (State.issue_next h rfl rfl rfl rfl h.group), State.advanced_writeD s u w form T (z.shflValue T) fits⟩
  · intro r src form h
    have fits : z.i.scalar = true → T.nregs ≤ 2 := AluRow.nregs_le_two (AluRow.legal_of_form h.legal)
    obtain ⟨issued, wrote⟩ := State.advanced_writeD s u w form T (fun th => (convert src T (rmodeOf z.l z.i.q) (satmFor z.l z.i.q T) (z.opA src th)).bits) fits
    exact ⟨_, congrArg Host.Outcome.next ((State.issue_next h rfl rfl rfl rfl h.group).trans (State.noteWide_zero _ w.core _ z.l)),
      issued.trans (State.kcount_issued _ w _ _), by rwa [State.group_kcount]⟩
  · intro r f form h
    have fits : z.i.scalar = true → f.nregs ≤ 2 := fun _ => by simp only [f]; split <;> decide
    have value : ∀ th, sysValue (u.advanced w z form) z z.i.a th =
        if z.i.a = 0x10 then Config.freeNat u.free % 2 ^ 64 else sysValue u z z.i.a th := fun th => by
      rw [h.sysValue]
      split
      · next timer => rw [timer]; rfl
      · rfl
    obtain ⟨issued, wrote⟩ := State.advanced_writeD s u w form f
      (fun th => if z.i.a = 0x10 then Config.freeNat u.free % 2 ^ 64 else sysValue u z z.i.a th) fits
    let v := (u.advanced w z form).writeD z f (fun th => if z.i.a = 0x10 then Config.freeNat u.free % 2 ^ 64 else sysValue u z z.i.a th)
    have next : exec (.movSv w) s = .next (if z.i.a = 0x10 then { v with free := u.free + 1 } else v) := by
      simp only [v]
      rw [← funext value]
      exact congrArg Host.Outcome.next (State.issue_next h rfl rfl rfl rfl h.group)
    refine ⟨_, Config.freeNat u.free, next, ?_⟩
    have issued' : Issued u (if z.i.a = 0x10 then { v with free := u.free + 1 } else v) w := by
      split
      · exact issued.draws _
      · exact issued
    refine ⟨issued', ?_⟩
    rw [show (if z.i.a = 0x10 then { v with free := u.free + 1 } else v).group w.core w.slot = v.group w.core w.slot by split <;> rfl]
    exact wrote

end Sys2Proof.Machine
end

section
/-! SUPPORT. A step of one core: the core it leaves, the messages it sends, and the event counts of its page. -/

namespace Sys2Proof.Machine

set_option Elab.async false

/-- From `s` to `t` core `c` becomes `k` and sends the messages `ms`; besides, only event counts of its page differ. -/
structure CoreStep (s t : State) (c : Nat) (k : Core) (ms : List Msg) : Prop where
  rest : t = { s with cores := t.cores, regs := t.regs, net := s.net ++ ms }
  regs : SameFields s t (countKeys clsCore (s.corePage c))
  others : ∀ d, d ≠ c → t.core d = s.core d
  core : t.core c = k

theorem CoreStep.refl (s : State) (c : Nat) : CoreStep s s c (s.core c) [] :=
  ⟨by rw [List.append_nil], fun _ _ _ => rfl, fun _ _ => rfl, rfl⟩

section
variable {s t : State} {c : Nat} {k : Core} {ms : List Msg}

theorem CoreStep.setCore (h : CoreStep s t c k ms) (l : Core) : CoreStep s (t.setCore c l) c l ms := by
  refine ⟨?_, h.regs, fun d hd => (mget_mset_ne _ _ hd).trans (h.others d hd), mget_mset_self _ _ _⟩
  conv_lhs => rw [h.rest]
  rfl

theorem CoreStep.modCore (h : CoreStep s t c k ms) (f : Core → Core) : CoreStep s (t.modCore c f) c (f k) ms := by
  rw [State.modCore, h.core]
  exact h.setCore _

theorem CoreStep.send (h : CoreStep s t c k ms) (m : Msg) : CoreStep s (t.send m) c k (ms ++ [m]) := by
  refine ⟨?_, h.regs, h.others, h.core⟩
  rw [State.send, h.rest, List.append_assoc]

theorem CoreStep.page (h : CoreStep s t c k ms) (d : Nat) : t.corePage d = s.corePage d := by
  rw [h.rest]
  rfl

theorem CoreStep.kcount (h : CoreStep s t c k ms) (code n : Nat) : CoreStep s (t.kcount c code n) c k ms := by
  have counted := t.count_counted clsCore (t.corePage c) code n
  refine ⟨?_, fun d j hj => ?_, fun d hd => (State.core_kcount _ _ _ _ _).trans (h.others d hd), (State.core_kcount _ _ _ _ _).trans h.core⟩
  · rw [State.kcount]
    generalize t.count clsCore (t.corePage c) code n = t' at counted
    rw [counted.rest]
    conv_lhs => rw [h.rest]
  · rw [← h.regs d j hj]
    exact counted.sameFields d j (by rwa [h.page])

theorem CoreStep.onlyCore (h : CoreStep s t c k ms) : OnlyCore s t c := by
  refine ⟨?_, h.others⟩
  rw [h.rest]

theorem CoreStep.net (h : CoreStep s t c k ms) : t.net = s.net ++ ms := by rw [h.rest]

theorem CoreStep.group (h : CoreStep s t c k ms) (g : Nat) : t.group c g = k.group g := by rw [State.group, h.core]

/-- No error is injected after the step that was not before it. -/
theorem CoreStep.unarmed (h : CoreStep s t c k ms) (sound : s.fld clsCore (s.corePage c) R.ERR_INJECT_ARM = 0) (kind : Nat) :
    t.armed clsCore (t.corePage c) kind = false := by
  have key : fkey clsCore (s.corePage c) R.ERR_INJECT_ARM 0 ∉ countKeys clsCore (s.corePage c) := fun hm => by
    obtain ⟨n, hn, e⟩ := mem_countKeys.1 hm
    have := fkey_page_eq_iff.1 e
    simp only [R.ERR_INJECT_ARM, R.EVT_COUNT_n_COUNT] at this
    omega
  have field : t.fld clsCore (s.corePage c) R.ERR_INJECT_ARM = 0 := (h.regs _ _ key).trans sound
  rw [State.armed, h.page, field]
  rfl

end

/-- What follows an instruction that has moved on and sends nothing. -/
theorem State.advanced_step (u : State) (w : IWord) (z : Iss) (f : Form) :
    CoreStep u (u.advanced w z f) w.core ((u.core w.core).setGroup w.slot (z.moved f)) [] :=
  (CoreStep.refl u w.core).modCore (fun k => k.modGroup w.slot (fun _ => z.moved f))

/-! ### Byte memories -/

/-- A byte that a little-endian number was written over. -/
theorem Mem.read_writeLE (m : Mem) (a n v i : Nat) (h : i < n) : (m.writeLE a n v).read (a + i) = BitVec.ofNat 8 (v / 256 ^ i) := by
  induction n generalizing m a v i with
  | zero => omega
  | succ n ih =>
    match i with
    | 0 => rw [Mem.writeLE, Mem.read_writeLE_ne _ _ _ _ _ (by omega), Nat.add_zero, Mem.read_write_self, Nat.pow_zero, Nat.div_one]
    | i + 1 => rw [Mem.writeLE, show a + (i + 1) = a + 1 + i by omega, ih _ _ _ _ (by omega), Nat.pow_succ', Nat.div_div_eq_div_mul]

theorem Mem.read_foldl_writeLE_ne (l : List (Nat × Nat)) (n : Nat) (m : Mem) (y : Nat) (h : ∀ p ∈ l, y < p.1 ∨ p.1 + n ≤ y) :
    (l.foldl (fun m p => m.writeLE p.1 n p.2) m).read y = m.read y := by
  induction l generalizing m with
  | nil => rfl
  | cons p l ih =>
    rw [List.foldl_cons, ih _ (fun q hq => h q (List.mem_cons_of_mem _ hq)), Mem.read_writeLE_ne _ _ _ _ _ (h p List.mem_cons_self)]

/-- Of several numbers written in turn the last one over a byte is read back. -/
theorem Mem.read_foldl_writeLE (before after : List (Nat × Nat)) (p : Nat × Nat) (n : Nat) (m : Mem) (i : Nat) (hi : i < n)
    (h : ∀ q ∈ after, p.1 + i < q.1 ∨ q.1 + n ≤ p.1 + i) :
    ((before ++ p :: after).foldl (fun m p => m.writeLE p.1 n p.2) m).read (p.1 + i) = BitVec.ofNat 8 (p.2 / 256 ^ i) := by
  rw [List.foldl_append, List.foldl_cons, Mem.read_foldl_writeLE_ne _ _ _ _ h, Mem.read_writeLE _ _ _ _ _ hi]

/-! ### The acting threads -/

theorem maskBits_pairwise (m : W64) : (maskBits m).Pairwise (· < ·) := List.Pairwise.filter _ List.pairwise_lt_range

theorem Iss.mem_threads {z : Iss} {t : Nat} : t ∈ z.threads ↔ t < 64 ∧ z.act.getLsbD t = true := mem_maskBits

theorem Iss.lt_of_act {z : Iss} {t : Nat} (h : z.act.getLsbD t = true) : t < 64 := by
  by_contra far
  rw [BitVec.getLsbD_of_ge _ _ (by omega)] at h
  cases h

theorem Iss.mem_threads_of_act {z : Iss} {t : Nat} (h : z.act.getLsbD t = true) : t ∈ z.threads := Iss.mem_threads.2 ⟨Iss.lt_of_act h, h⟩

/-- The acting threads around one of them: those before it are lower, those after it higher. -/
theorem Iss.threads_split {z : Iss} {t : Nat} (h : z.act.getLsbD t = true) :
    ∃ before after, z.threads = before ++ t :: after ∧ ∀ t' ∈ after, t < t' ∧ z.act.getLsbD t' = true := by
  obtain ⟨before, after, e⟩ := List.append_of_mem (Iss.mem_threads_of_act h)
  have order : (before ++ t :: after).Pairwise (· < ·) := e ▸ maskBits_pairwise z.act
  refine ⟨before, after, e, fun t' ht' => ⟨(List.pairwise_cons.1 (List.pairwise_append.1 order).2.1).1 t' ht', ?_⟩⟩
  exact (Iss.mem_threads.1 (e ▸ List.mem_append_right _ (List.mem_cons_of_mem _ ht'))).2

/-- A register value per acting thread, written in the vector form. -/
theorem Iss.foldl_wvk_wrote (z : Iss) (g : Group) (k : Nat) (val : Nat → Nat) (vector : z.i.scalar = false) :
    Wrote g (z.threads.foldl (fun g t => g.wvk z.i.d t (val t) k) g) z k val := by
  obtain ⟨rest, vec⟩ := Group.foldl_wvk z.threads (maskBits_nodup z.act) (fun t h => (Iss.mem_threads.1 h).1) g z.i.d k val
  refine ⟨?_, fun r t ht => ?_, fun r => ?_⟩
  · rw [rest]
  · rw [vec r t ht]
    simp only [vector, Iss.mem_threads, ht, true_and, Bool.not_false, Bool.and_eq_true, decide_eq_true_eq, bne_iff_ne, and_assoc]
  · rw [vector, rest]
    rfl

end Sys2Proof.Machine
end

section
/-! PROOF. The scratchpad loads and stores (O21). -/

namespace Sys2Proof.Machine

set_option Elab.async false

theorem faultAt_filter_nil (code : Nat) (l : List Nat) (p : Nat → Bool) (h : ∀ a ∈ l, p a = false) : faultAt code (l.filter p) = [] := by
  rw [List.filter_eq_nil_iff.2 (fun a ha => by simp [h a ha])]
  rfl

section
variable {k : Core} {g : Nat}

/-- A group none of whose memory instructions is outstanding is not held by one. -/
theorem Core.not_acquiring (h : ∀ o ∈ k.ops, o.slot ≠ g) : k.acquiring g = false := by
  simpa only [Core.acquiring, List.any_eq_false, Bool.and_eq_true, beq_iff_eq] using fun o ho both => h o ho both.1

theorem Core.not_windowFull (h : ∀ o ∈ k.ops, o.slot ≠ g) : k.windowFull g = false := by
  simpa only [Core.windowFull, List.any_eq_false, Bool.and_eq_true, beq_iff_eq] using fun o ho both => h o ho both.1

theorem near128_nil (l : List (Nat × Nat)) : near128 l [] = false := by simp [near128]

/-- Nothing of a group that has nothing outstanding or queued clashes with its scratchpad accesses. -/
theorem Core.idle (h : k.busyWith g = false) :
    (∀ o ∈ k.ops, o.slot ≠ g) ∧ k.mxWr g = [] ∧ k.mxRd g = [] ∧ k.elWr g = [] ∧ k.elRd g = [] := by
  simp only [Core.busyWith, Bool.or_eq_false_iff, List.any_eq_false, beq_iff_eq] at h
  obtain ⟨⟨ops, mxq⟩, elq⟩ := h
  have matrix : k.mxq.filter (fun e => e.slot == g) = [] := List.filter_eq_nil_iff.2 (fun e he => by simpa using mxq e he)
  have engine : k.elq.filter (fun e => e.slot == g) = [] := List.filter_eq_nil_iff.2 (fun e he => by simpa using elq e he)
  simp only [Core.mxWr, Core.mxRd, Core.elWr, Core.elRd, matrix, engine, List.flatMap_nil, and_true]
  exact ops

end

theorem spHold_none {u : State} {z : Iss} (h : (u.core z.core).busyWith z.slot = false) (rd wr : List (Nat × Nat)) :
    spHold u z rd wr = .none := by
  obtain ⟨ops, mxWr, mxRd, elWr, elRd⟩ := Core.idle h
  have returns : (u.core z.core).ops.any (fun o => o.slot == z.slot && o.returns) = false := by
    simpa only [List.any_eq_false, Bool.and_eq_true, beq_iff_eq] using fun o ho both => ops o ho both.1
  simp [spHold, Core.not_acquiring ops, Core.not_windowFull ops, returns, Core.spClash, Core.elClash, mxWr, mxRd, elWr, elRd, near128_nil]

theorem spFaults_nil {u : State} {z : Iss}
    (h : ∀ th, z.act.getLsbD th = true → z.spOff th % z.i.width = 0 ∧ z.spOff th + z.i.width ≤ (u.blockOf z.core z.slot).spLen) :
    spFaults u z (z.threads.map (fun t => z.spOff t)) = [] := by
  have each : ∀ a ∈ z.threads.map (fun t => z.spOff t), a % z.i.width = 0 ∧ a + z.i.width ≤ (u.blockOf z.core z.slot).spLen := fun a ha => by
    obtain ⟨t, ht, rfl⟩ := List.mem_map.1 ha
    exact h t (Iss.mem_threads.1 ht).2
  rw [spFaults, faultAt_filter_nil _ _ _ (fun a ha => by simp [(each a ha).1]),
    faultAt_filter_nil _ _ _ (fun a ha => by simpa using (each a ha).2)]
  rfl

theorem State.spCheck_sound {u : State} {z : Iss} (h : u.fld clsCore (u.corePage z.core) R.ERR_INJECT_ARM = 0) : u.spCheck z = ([], u) := by
  have unarmed : ∀ kind, u.armed clsCore (u.corePage z.core) kind = false := fun kind => by rw [State.armed, h]; rfl
  unfold State.spCheck
  simp only [unarmed, Bool.false_eq_true, if_false]
  split <;> rfl

/-- An opcode below 0x400 names the vector form. -/
theorem Ins.vector_of_op {i : Ins} {n : Nat} (h : i.op = n) (hn : n < 1024) : i.scalar = false := by
  rw [Ins.scalar, bit, h, Nat.testBit_lt_two_pow hn]

/-- The stored bytes of the acting threads: the highest thread over a byte, and no other byte. -/
theorem Core.spStores_read (k : Core) (z : Iss) (at_ val : Nat → Nat) (n : Nat) :
    (∀ th a, z.act.getLsbD th = true → a < n → (∀ th', z.act.getLsbD th' = true → th < th' → ¬(at_ th' ≤ at_ th + a ∧ at_ th + a < at_ th' + n)) →
      (k.spStores (z.threads.map (fun t => (at_ t, val t))) n).sp.read (at_ th + a) = BitVec.ofNat 8 (val th / 256 ^ a)) ∧
    ∀ a, (∀ th, z.act.getLsbD th = true → ¬(at_ th ≤ a ∧ a < at_ th + n)) →
      (k.spStores (z.threads.map (fun t => (at_ t, val t))) n).sp.read a = k.sp.read a := by
  refine ⟨fun th a act lt last => ?_, fun a none => ?_⟩
  · obtain ⟨before, after, split, higher⟩ := Iss.threads_split act
    show (List.foldl _ _ _ : Mem).read _ = _
    rw [split, List.map_append, List.map_cons]
    refine Mem.read_foldl_writeLE _ _ (at_ th, val th) n _ a lt fun q hq => ?_
    obtain ⟨t', ht', rfl⟩ := List.mem_map.1 hq
    have := last t' (higher t' ht').2 (higher t' ht').1
    simp only
    omega
  · refine Mem.read_foldl_writeLE_ne _ n _ a fun q hq => ?_
    obtain ⟨t', ht', rfl⟩ := List.mem_map.1 hq
    have := none t' (Iss.mem_threads.1 ht').2
    simp only
    omega

/-- Settles O21: neither faults nor waits, and the effect is a fold over the acting threads in rising order. -/
theorem scratchpadLoadsAndStores : Obligations.ScratchpadLoadsAndStores := by
  unfold Obligations.ScratchpadLoadsAndStores
  intro w s u z n k b inside idle
  have faultless : spFaults u (s.view w) ((s.view w).threads.map (fun t => (s.view w).spOff t)) = [] := spFaults_nil inside
  refine ⟨?_, ?_⟩
  · intro form h marks
    let v := (u.advanced w z form).countSp z
    let each := fun th => (v.core w.core).sp.readLE (((u.advanced w z form).blockOf w.core w.slot).spOff + z.spOff th) n
    have run : exec (.ldSp w) s = .next (v.modGroup w.core w.slot
        (fun g => z.threads.foldl (fun g t => g.wvk z.i.d t (each t) (widthRegs z.i)) g)) := by
      refine congrArg Host.Outcome.next (State.issue_next h rfl (State.spCheck_sound h.sound) ?_ (spHold_none idle _ _) h.group)
      refine (if_pos (by rw [faultless]; rfl)).trans ((congrArg (u.spMarkFaults w.core) List.map_map).trans marks)
    have issued : Issued u v w := ((Issued.refl u w).advanced z form).trans (State.kcount_issued _ w _ _)
    have bytes : each = fun th => k.sp.readLE (b.spOff + z.spOff th) n := by
      simp only [each, v, State.countSp]
      rw [show (u.advanced w z form).blockOf w.core w.slot = b from h.blockOf, show State.core (State.kcount _ z.core _ _) w.core = (u.advanced w z form).core w.core from State.core_kcount _ _ _ _ _, State.advanced_core]
      rfl
    refine ⟨_, run, issued.trans (State.modGroup_issued _ w _), ?_⟩
    rw [State.group_modGroup, bytes, show v.group w.core w.slot = z.moved form from (State.group_kcount _ _ _ _ _ _).trans (State.advanced_group _ _ _ _)]
    exact Iss.foldl_wvk_wrote z (z.moved form) (widthRegs z.i) _ (Ins.vector_of_op h.opcode.2 (by decide))
  · intro form h
    have run : exec (.stSp w) s = .next (((u.advanced w z form).countSp z).modCore w.core (fun k =>
        k.spStores (z.threads.map (fun t => (((u.advanced w z form).blockOf w.core w.slot).spOff + z.spOff t, z.g.rvk z.i.d t (widthRegs z.i)))) n)) :=
      congrArg Host.Outcome.next (State.issue_next h rfl rfl faultless (spHold_none idle _ _) h.group)
    rw [h.blockOf] at run
    have step := ((State.advanced_step u w z form).kcount Ev.CORE_SP_BANK_CONFLICT
      (spConflicts ((u.advanced w z form).blockOf w.core w.slot).spOff n (z.threads.map (fun t => (t, z.spOff t))))).modCore
        (fun k => k.spStores (z.threads.map (fun t => (b.spOff + z.spOff t, z.g.rvk z.i.d t (widthRegs z.i)))) n)
    obtain ⟨stored, kept⟩ := Core.spStores_read ((u.core w.core).setGroup w.slot (z.moved form)) z (fun th => b.spOff + z.spOff th)
      (fun th => z.g.rvk z.i.d th (widthRegs z.i)) n
    refine ⟨_, run, step.onlyCore, step.net.trans (List.append_nil _), (step.group w.slot).trans (Core.group_setGroup _ _ _),
      fun g hg => (step.group g).trans (Core.group_setGroup_ne _ _ hg), fun th a act lt last => ?_, fun a none => ?_⟩
    · refine (congrArg (fun k : Core => k.sp.read (b.spOff + z.spOff th + a)) step.core).trans (stored th a act lt fun th' act' higher both => ?_)
      exact last th' act' higher (by omega)
    · exact (congrArg (fun k : Core => k.sp.read a) step.core).trans (kept a none)

end Sys2Proof.Machine
end

section
/-! SUPPORT. Lists of numbers without repetition, sector masks, and the last memory instruction of a core. -/

namespace Sys2Proof.Machine

set_option Elab.async false

/-! ### Lists of numbers -/

/-- One step of `dedup`. -/
def dedupStep (r : List Nat) (k : Nat) : List Nat := if r.contains k then r else r ++ [k]

theorem foldl_dedupStep (l r : List Nat) (h : r.Nodup) :
    (l.foldl dedupStep r).Nodup ∧ ∀ x, x ∈ l.foldl dedupStep r ↔ x ∈ r ∨ x ∈ l := by
  induction l generalizing r with
  | nil => simpa using h
  | cons k l ih =>
    have step : (dedupStep r k).Nodup ∧ ∀ x, x ∈ dedupStep r k ↔ x ∈ r ∨ x = k := by
      unfold dedupStep
      split
      · next old =>
        have old : k ∈ r := by simpa using old
        exact ⟨h, fun x => ⟨Or.inl, by rintro (hx | rfl) <;> assumption⟩⟩
      · next new =>
        have new : k ∉ r := by simpa using new
        exact ⟨List.nodup_append.2 ⟨h, List.nodup_singleton k, by rintro a ha b hb rfl; exact new (List.mem_singleton.1 hb ▸ ha)⟩, by simp⟩
    obtain ⟨nodup, mem⟩ := ih _ step.1
    exact ⟨nodup, fun x => by rw [List.foldl_cons, mem, step.2, List.mem_cons, or_assoc]⟩

theorem dedup_nodup (l : List Nat) : (dedup l).Nodup := (foldl_dedupStep l [] List.nodup_nil).1

@[simp] theorem mem_dedup {l : List Nat} {x : Nat} : x ∈ dedup l ↔ x ∈ l := by
  rw [show dedup l = l.foldl dedupStep [] from rfl, (foldl_dedupStep l [] List.nodup_nil).2]
  simp

/-- A list of one number only. -/
theorem dedup_eq_singleton {l : List Nat} {a : Nat} (some : l ≠ []) (all : ∀ x ∈ l, x = a) : dedup l = [a] := by
  have mem : ∀ x, x ∈ dedup l ↔ x ∈ [a] := fun x => by
    rw [mem_dedup, List.mem_singleton]
    obtain ⟨b, hb⟩ := List.exists_mem_of_ne_nil l some
    exact ⟨all x, fun h => h ▸ all b hb ▸ hb⟩
  exact List.perm_singleton.1 ((List.perm_ext_iff_of_nodup (dedup_nodup l) (List.nodup_singleton a)).2 mem)

theorem testBit_foldl_two_pow (l : List Nat) (m i : Nat) : (l.foldl (fun m j => m ||| 2 ^ j) m).testBit i = (m.testBit i || l.contains i) := by
  induction l generalizing m with
  | nil => simp
  | cons j l ih =>
    rw [List.foldl_cons, ih, Nat.testBit_or, Nat.testBit_two_pow, List.contains_cons, Bool.or_assoc]
    congr 2
    rw [Bool.eq_iff_iff, decide_eq_true_iff, beq_iff_eq, eq_comm]

theorem bit_maskOfSecs (l : List Nat) (i : Nat) : bit (maskOfSecs l) i = l.contains i := by
  rw [bit, maskOfSecs, testBit_foldl_two_pow, Nat.zero_testBit, Bool.false_or]

/-! ### The last instruction -/

/-- `o` is the memory instruction added last: those before it have entered the L1, and are of other groups. -/
structure Core.Latest (k : Core) (old : List MemOp) (o : MemOp) : Prop where
  ops : k.ops = old ++ [o]
  entered : ∀ p ∈ old, p.started = true ∧ p.todo = []
  others : ∀ p ∈ old, p.slot ≠ o.slot ∧ p.id ≠ o.id

/-- The group with the registers of a destination awaited. -/
def Group.awaiting (g : Group) (dst : List Nat) : Group := { g with busyV := g.busyV ++ dst.filter (fun r => r != 255) }

/-- The core with an instruction added: it has the next number, and its destination is awaited. -/
def Core.adding (k : Core) (o : MemOp) (dst : List Nat) : Core :=
  { k with nextOp := k.nextOp + 1, ops := k.ops ++ [{ o with id := k.nextOp }] }.modGroup o.slot (fun g => g.awaiting dst)

theorem State.addOp_eq (s : State) (c : Nat) (o : MemOp) (dst : List Nat) :
    s.addOp c o dst = (s.modCore c (fun k => k.adding o dst)).serve c := rfl

theorem Core.adding_latest {k : Core} {o : MemOp} (clear : k.clearFor o.slot) (dst : List Nat) :
    (k.adding o dst).Latest k.ops { o with id := k.nextOp } := by
  obtain ⟨ops, -, -, -⟩ := clear
  refine ⟨rfl, fun p hp => ⟨(ops p hp).1, (ops p hp).2.1⟩, fun p hp => ⟨(ops p hp).2.2.1, ?_⟩⟩
  exact Nat.ne_of_lt (ops p hp).2.2.2

section
variable {k : Core} {old : List MemOp} {o : MemOp}

theorem Core.Latest.opOf (h : k.Latest old o) : k.opOf o.id = some o := by
  rw [Core.opOf, h.ops, List.find?_append, List.find?_eq_none.2 (fun p hp => by simpa using (h.others p hp).2)]
  simp

theorem Core.Latest.setOp (h : k.Latest old o) {o' : MemOp} (id : o'.id = o.id) : k.setOp o' = { k with ops := old ++ [o'] } := by
  have same : old.map (fun j => if j.id == o'.id then o' else j) = old :=
    (List.map_congr_left fun p hp => if_neg (by simpa [id] using (h.others p hp).2)).trans (List.map_id' old)
  rw [Core.setOp, h.ops, List.map_append, same]
  simp [id]

/-- The core after a change to the instruction. -/
theorem Core.Latest.update (h : k.Latest old o) {o' : MemOp} (id : o'.id = o.id) (slot : o'.slot = o.slot) {l : Core} (ops : l.ops = old ++ [o']) :
    l.Latest old o' :=
  ⟨ops, h.entered, fun p hp => by rw [id, slot]; exact h.others p hp⟩

theorem Core.Latest.keep (h : k.Latest old o) {l : Core} (ops : l.ops = k.ops) : l.Latest old o := ⟨ops.trans h.ops, h.entered, h.others⟩

theorem Core.Latest.dropOp (h : k.Latest old o) : k.dropOp o.id = { k with ops := old } := by
  rw [Core.dropOp, h.ops, List.filter_append, List.filter_eq_self.2 (fun p hp => by simpa using (h.others p hp).2)]
  simp

/-- No instruction of the group comes before it. -/
theorem Core.Latest.earlier (h : k.Latest old o) : k.ops.filter (fun p => p.slot == o.slot && decide (p.id < o.id)) = [] := by
  rw [List.filter_eq_nil_iff, h.ops]
  intro p hp
  rcases List.mem_append.1 hp with hp | hp
  · simp [(h.others p hp).1]
  · simp [List.mem_singleton.1 hp]

theorem Core.Latest.canStart (h : k.Latest old o) (free : o.isRead = true ∨ k.gathering o = false) : k.canStart o = true := by
  rw [Core.canStart, h.earlier]
  simpa using free

theorem Core.Latest.queued (h : k.Latest old o) : k.queued o = [] := by
  have none : k.ops.filter (fun p => p.slot == o.slot && decide (p.id < o.id) && p.kind == .store && !p.started) = [] := by
    rw [List.filter_eq_nil_iff]
    intro p hp
    have := List.filter_eq_nil_iff.1 h.earlier p hp
    simp_all
  rw [Core.queued, none]
  rfl

theorem Core.Latest.blockedBy (h : k.Latest old o) (replay : k.replay = []) (line : Nat) : k.blockedBy o line = false := by
  rw [Core.blockedBy, replay, List.any_nil, Bool.false_or, List.any_eq_false]
  intro p hp
  have := List.filter_eq_nil_iff.1 h.earlier p hp
  simp_all

/-- A core that holds nothing back for the group's element gathers starts its writes. -/
theorem Core.writesFree_gathering (h : k.writesFree o.slot) : k.gathering o = false := by
  rw [Core.gathering, List.any_eq_false]
  intro e he
  by_cases slot : e.slot = o.slot
  · simp [h e he slot]
  · simp [slot]

end

/-- How an instruction of a kind starts. -/
def State.start (s : State) (c : Nat) (o : MemOp) (kind : OpKind) : State :=
  match kind with
  | .load | .store | .near => s.startL1 c o
  | .bypLoad => s.startSnoop c o
  | .bypStore => s.startWrite c o
  | .far => s.startFar c o
  | .hostLd | .hostSt | .hostAt => s.startHost c o

/-- The last instruction starts, and nothing else is there to go on with. -/
theorem State.serve_latest {s : State} {c : Nat} {old : List MemOp} {o : MemOp} (h : (s.core c).Latest old o) (new : o.started = false)
    (free : o.isRead = true ∨ (s.core c).gathering o = false) :
    s.serve c = s.start c o o.kind := by
  have only : ((s.core c).ops.filter (fun o => !o.started || !o.todo.isEmpty)).map MemOp.id = [o.id] := by
    rw [h.ops, List.filter_append, List.filter_eq_nil_iff.2 (fun p hp => by simp [h.entered p hp])]
    simp [new]
  rw [State.serve, only, List.foldl_cons, List.foldl_nil, h.opOf]
  simp only [new, h.canStart free, Bool.not_true, Bool.false_eq_true, if_false]
  unfold State.start
  cases o.kind <;> rfl

end Sys2Proof.Machine
end

section
/-! SUPPORT. A memory instruction whose accesses lie in one line of device memory. -/

namespace Sys2Proof.Machine

set_option Elab.async false

/-- The access has bytes, all of them in the line. -/
def Access.inside (a : Access) (line : Nat) : Prop := a.pa / 128 = line ∧ a.pa % 128 + a.bytes ≤ 128 ∧ 0 < a.bytes

/-- Whether the access touches a sector of its line. -/
def Access.touches (a : Access) (i : Nat) : Prop := 32 * i < a.pa % 128 + a.bytes ∧ a.pa % 128 < 32 * i + 32

theorem Access.mem_sectors {a : Access} {line : Nat} (h : a.inside line) {x : Nat} :
    x ∈ a.sectors ↔ x / 4 = line ∧ a.touches (x % 4) := by
  obtain ⟨rfl, fit, -⟩ := h
  simp only [Access.sectors, List.mem_map, List.mem_range, Access.touches]
  constructor
  · rintro ⟨i, hi, rfl⟩
    omega
  · intro ⟨hx, ht⟩
    exact ⟨x - a.pa / 32, by omega, by omega⟩

/-- The instruction accesses one line. -/
structure MemOp.OnLine (o : MemOp) (line : Nat) : Prop where
  some : o.acc ≠ []
  inside : ∀ a ∈ o.acc, a.inside line

section
variable {o : MemOp} {line : Nat}

theorem MemOp.OnLine.mem_sectors (h : o.OnLine line) {x : Nat} :
    x ∈ o.sectors ↔ x / 4 = line ∧ ∃ a ∈ o.acc, a.touches (x % 4) := by
  simp only [MemOp.sectors, mem_dedup, List.mem_flatMap]
  constructor
  · rintro ⟨a, ha, hx⟩
    obtain ⟨hl, ht⟩ := (Access.mem_sectors (h.inside a ha)).1 hx
    exact ⟨hl, a, ha, ht⟩
  · rintro ⟨hl, a, ha, ht⟩
    exact ⟨a, ha, (Access.mem_sectors (h.inside a ha)).2 ⟨hl, ht⟩⟩

/-- The sector in which an access starts. -/
theorem MemOp.OnLine.start_mem (h : o.OnLine line) {a : Access} (ha : a ∈ o.acc) : a.pa / 32 ∈ o.sectors := by
  obtain ⟨rfl, fit, pos⟩ := h.inside a ha
  exact h.mem_sectors.2 ⟨by omega, a, ha, by unfold Access.touches; omega⟩

theorem MemOp.OnLine.sectors_ne_nil (h : o.OnLine line) : o.sectors ≠ [] := by
  obtain ⟨a, ha⟩ := List.exists_mem_of_ne_nil _ h.some
  exact List.ne_nil_of_mem (h.start_mem ha)

/-- The sectors of the line that the instruction touches. -/
def MemOp.touched (o : MemOp) : List Nat := o.sectors.map (fun x => x % 4)

theorem MemOp.OnLine.sectors_eq (h : o.OnLine line) : o.sectors = o.touched.map (fun i => 4 * line + i) := by
  rw [MemOp.touched, List.map_map]
  refine (List.map_id' _).symm.trans (List.map_congr_left fun x hx => ?_)
  have := (h.mem_sectors.1 hx).1
  simp only [Function.comp_apply]
  omega

theorem MemOp.OnLine.mem_touched (h : o.OnLine line) {i : Nat} : i ∈ o.touched ↔ i < 4 ∧ ∃ a ∈ o.acc, a.touches i := by
  simp only [MemOp.touched, List.mem_map, h.mem_sectors]
  constructor
  · rintro ⟨x, ⟨-, a, ha, ht⟩, rfl⟩
    exact ⟨Nat.mod_lt _ (by decide), a, ha, ht⟩
  · rintro ⟨hi, a, ha, ht⟩
    exact ⟨4 * line + i, ⟨by omega, a, ha, by rwa [show (4 * line + i) % 4 = i by omega]⟩, by omega⟩

theorem MemOp.OnLine.touched_nodup (h : o.OnLine line) : o.touched.Nodup := by
  have nodup : o.sectors.Nodup := dedup_nodup _
  rw [h.sectors_eq] at nodup
  exact List.Nodup.of_map _ nodup

theorem MemOp.OnLine.touched_ne_nil (h : o.OnLine line) : o.touched ≠ [] := fun none => h.sectors_ne_nil (List.map_eq_nil_iff.1 none)

theorem MemOp.OnLine.dedup_lines (h : o.OnLine line) : dedup (o.sectors.map (fun x => x / 4)) = [line] := by
  refine dedup_eq_singleton (fun none => h.sectors_ne_nil (List.map_eq_nil_iff.1 none)) fun x hx => ?_
  obtain ⟨y, hy, rfl⟩ := List.mem_map.1 hx
  exact (h.mem_sectors.1 hy).1

theorem MemOp.OnLine.lines_eq (h : o.OnLine line) : o.lines = [line] := h.dedup_lines

theorem MemOp.OnLine.secsOf_eq (h : o.OnLine line) : o.secsOf line = o.touched := by
  rw [MemOp.secsOf, List.filter_eq_self.2 fun x hx => beq_iff_eq.2 (h.mem_sectors.1 hx).1]
  rfl

/-- The instruction once it has started in the L1, the lines `todo` still to be looked up. -/
def MemOp.entering (o : MemOp) (todo : List Nat) : MemOp := { o with started := true, fwd := [], left := o.sectors, todo := todo }

/-- A started instruction waits on every sector it touches, and none of them has a miss register for it. -/
theorem Core.toEnter_entering {k : Core} (h : o.OnLine line) (waiters : ∀ m ∈ k.miss, o.id ∉ m.waiters) :
    k.toEnter (o.entering []) line = o.touched := by
  have here : o.sectors.filter (fun x => x / 4 == line) = o.sectors := List.filter_eq_self.2 fun x hx => beq_iff_eq.2 (h.mem_sectors.1 hx).1
  rw [Core.toEnter]
  simp only [MemOp.entering, here]
  rw [List.filter_eq_self.2, MemOp.touched]
  intro x _
  split
  · next m found => simpa using waiters m (List.mem_of_find?_eq_some found)
  · rfl

end

/-! ### The start of an instruction in the L1 -/

section
variable {base s : State} {c line : Nat} {k : Core} {ms : List Msg} {old : List MemOp} {o : MemOp}

/-- The state at which the one line of an instruction is looked up. -/
def State.entered (s : State) (c line : Nat) (o : MemOp) : State :=
  (s.modCore c (fun k => k.setOp (o.entering [line]))).modCore c (fun k => k.setOp (o.entering []))

theorem State.entered_step (step : CoreStep base s c k ms) (h : k.Latest old o) (line : Nat) :
    CoreStep base (s.entered c line o) c { k with ops := old ++ [o.entering []] } ms := by
  have first : k.setOp (o.entering [line]) = { k with ops := old ++ [o.entering [line]] } := h.setOp rfl
  have latest : Core.Latest { k with ops := old ++ [o.entering [line]] } old (o.entering [line]) :=
    h.update (o' := o.entering [line]) rfl rfl rfl
  have both := (step.modCore (fun k => k.setOp (o.entering [line]))).modCore (fun k => k.setOp (o.entering []))
  rw [first, latest.setOp (o' := o.entering []) rfl] at both
  exact both

/-- The start of an instruction of one line: the lookup of the line, its counts, and the end if nothing is waited for. -/
theorem State.startL1_line (step : CoreStep base s c k ms) (h : k.Latest old o) (replay : k.replay = []) (on : o.OnLine line) {r : State}
    (look : (s.entered c line o).enterLine c o.id line = (r, .done)) :
    ∃ hit miss, s.startL1 c o = (r.countLook c hit miss .done).checkOp c o.id := by
  obtain rfl := step.core
  have fwd : (if o.kind = OpKind.load then (s.core c).queued o else []) = [] := by rw [h.queued, ite_self]
  let s1 := s.modCore c (fun k => k.setOp (o.entering [line]))
  have start : s.startL1 c o = (s1.lookups c o.id [line]).checkOp c o.id := by
    rw [State.startL1]
    simp only [fwd, MemOp.needs, List.isEmpty_nil, if_true]
    rw [show MemOp.sectors { o with started := true, fwd := [] } = o.sectors from rfl, on.dedup_lines]
    rfl
  have core : s1.core c = { s.core c with ops := old ++ [o.entering [line]] } := by
    rw [State.core_modCore, h.setOp (o' := o.entering [line]) rfl]
  have latest : (s1.core c).Latest old (o.entering [line]) := by
    rw [core]
    exact h.update (o' := o.entering [line]) rfl rfl rfl
  have core' : (s.entered c line o).core c = { s.core c with ops := old ++ [o.entering []] } := (State.entered_step step h line).core
  have unblocked : ((s.entered c line o).core c).blockedBy (o.entering [line]) line = false := by
    have latest : Core.Latest { s.core c with ops := old ++ [o.entering []] } old (o.entering []) := h.update (o' := o.entering []) rfl rfl rfl
    rw [core']
    exact latest.blockedBy replay line
  let secs := (s1.core c).toEnter (o.entering [line]) line
  let hit := (secs.filter (fun i => bit ((s1.core c).line line).valid i)).length
  refine ⟨hit, secs.length - hit, start.trans (congrArg (fun v => State.checkOp v c o.id) ?_)⟩
  rw [State.lookups, List.foldl_cons, List.foldl_nil, show (s1.core c).opOf o.id = some (o.entering [line]) from latest.opOf]
  have room : (!(o.entering [line]).todo.contains line || decide (32 ≤ (s1.core c).replay.length)) = false := by
    rw [core]
    simp [MemOp.entering, replay]
  have rest : { o.entering [line] with todo := sdel line (o.entering [line]).todo } = o.entering [] := by
    simp [MemOp.entering, sdel]
  simp only [room, rest, Bool.false_eq_true, if_false]
  rw [show s1.modCore c (fun k => k.setOp (o.entering [])) = s.entered c line o from rfl, unblocked]
  simp only [Bool.false_eq_true, if_false, look, if_true]
  rfl

end

end Sys2Proof.Machine
end

section
/-! SUPPORT. The lookup of a line that the L1 holds, and the end of an instruction that writes registers. -/

namespace Sys2Proof.Machine

set_option Elab.async false

section
variable {base s : State} {c line : Nat} {k : Core} {ms : List Msg} {old : List MemOp} {o : MemOp}

/-- Where no error is injected, or to a store, the lookup of a line is the load's or the store's. -/
theorem State.enterLine_eq {id : Nat} (h : (s.core c).opOf id = some o)
    (sound : (∀ kind, s.armed clsCore (s.corePage c) kind = false) ∨ o.kind = .store) (some : (s.core c).toEnter o line ≠ []) :
    s.enterLine c id line = if o.kind = .load then s.l1Load c o line else s.l1Store c o line := by
  have some : ((s.core c).toEnter o line).isEmpty = false := by simpa using some
  unfold State.enterLine
  rcases sound with sound | sound <;> simp [h, sound, some]

/-- A load whose line is held in a stable state, with every sector valid. -/
theorem State.l1Load_hit (held : stable ((s.core c).line line).st = true)
    (valid : ∀ i ∈ (s.core c).toEnter o line, bit ((s.core c).line line).valid i = true) :
    s.l1Load c o line = (s.hitSecs c o line ((s.core c).toEnter o line), .done) := by
  have hit : ((s.core c).toEnter o line).filter (fun i => bit ((s.core c).line line).valid i) = (s.core c).toEnter o line :=
    List.filter_eq_self.2 valid
  have miss : ((s.core c).toEnter o line).filter (fun i => !bit ((s.core c).line line).valid i) = [] :=
    List.filter_eq_nil_iff.2 fun i hi => by simp [valid i hi]
  unfold State.l1Load
  simp only [hit, miss, List.filter_nil, List.take_nil, List.isEmpty_nil, if_true, List.length_nil, State.joinEach, State.joinLook]
  split <;> simp_all [stable]

/-- The instruction with the sectors it waited for received. -/
def MemOp.received (o : MemOp) (line : Nat) (data : Nat → List Byte) (hit : List Nat) : MemOp :=
  { o with got := o.got ++ hit.map (fun i => (4 * line + i, data i)), left := [] }

theorem State.foldl_deliver_step (data : Nat → List Byte) (poison : Nat → Bool) (hit : List Nat) (step : CoreStep base s c k ms)
    (h : k.Latest old o) (nodup : hit.Nodup) (left : o.left = hit.map (fun i => 4 * line + i)) (clean : ∀ i ∈ hit, poison i = false) :
    CoreStep base (hit.foldl (fun s i => s.modCore c (fun k => match k.opOf o.id with
      | some o => k.setOp (o.deliver (4 * line + i) (data i) (poison i) false)
      | none => k)) s) c { k with ops := old ++ [o.received line data hit] } ms := by
  induction hit generalizing s k o with
  | nil =>
    have same : o.received line data [] = o := by rw [MemOp.received, List.map_nil, List.append_nil, ← left.trans List.map_nil]
    rw [same, ← h.ops]
    exact step
  | cons i is ih =>
    obtain ⟨fresh, nodup⟩ := List.nodup_cons.1 nodup
    let o' := { o with got := o.got ++ [(4 * line + i, data i)], left := is.map (fun i => 4 * line + i) }
    have rest : sdel (4 * line + i) ((i :: is).map (fun i => 4 * line + i)) = is.map (fun i => 4 * line + i) := by
      rw [sdel, List.map_cons, List.filter_cons_of_neg (by simp), List.filter_eq_self]
      intro x hx
      obtain ⟨j, hj, rfl⟩ := List.mem_map.1 hx
      have : j ≠ i := fun e => fresh (e ▸ hj)
      simpa using this
    have one : o.deliver (4 * line + i) (data i) (poison i) false = o' := by
      rw [MemOp.deliver, left, rest, clean i List.mem_cons_self]
      simp [o']
    have next := step.modCore (fun k => match k.opOf o.id with
      | some o => k.setOp (o.deliver (4 * line + i) (data i) (poison i) false)
      | none => k)
    simp only [h.opOf] at next
    rw [one, h.setOp (o' := o') rfl] at next
    have := ih (o := o') next (h.update (o' := o') rfl rfl rfl) nodup rfl (fun j hj => clean j (List.mem_cons_of_mem _ hj))
    simpa [MemOp.received, o'] using this

/-- The sectors of a held line, delivered to a load. -/
theorem State.hitSecs_step (step : CoreStep base s c k ms) (h : k.Latest old o) {hit : List Nat} (nodup : hit.Nodup)
    (left : o.left = hit.map (fun i => 4 * line + i)) (clean : ∀ i ∈ hit, bit (k.line line).poison i = false) :
    CoreStep base (s.hitSecs c o line hit) c { k.setLine line { k.line line with ref := true } with
      ops := old ++ [o.received line (fun i => (k.line line).data.readBytes (32 * i) 32) hit] } ms := by
  obtain rfl := step.core
  exact State.foldl_deliver_step _ _ hit (step.modCore _) (h.keep rfl) nodup left clean

/-! ### The end of an instruction -/

theorem State.checkOp_end (h : (s.core c).opOf o.id = some o) (left : o.left = []) (started : o.started = true) :
    s.checkOp c o.id = s.endOp c o := by
  rw [State.checkOp, h]
  simp [left, started]

/-- A group with the results of an instruction in its registers, which are free again. -/
def Group.received (g : Group) (o : MemOp) (vals : List (Nat × Nat)) : Group :=
  { vals.foldl (fun g p => g.wvk o.dst p.1 p.2 (regsOf o.bytes)) g with
    busyV := g.busyV.filter (fun r => !(destRegs o.dst (regsOf o.bytes)).contains r) }

theorem Group.foldl_wvk_rest {α : Type} (l : List α) (th val : α → Nat) (g : Group) (r k : Nat) :
    l.foldl (fun g p => g.wvk r (th p) (val p) k) g = { g with v := (l.foldl (fun g p => g.wvk r (th p) (val p) k) g).v } := by
  induction l generalizing g with
  | nil => rfl
  | cons p l ih => rw [List.foldl_cons, ih, Group.wvk_rest]

/-- The last instruction of a core ends with its results, none of them poisoned. -/
theorem Core.Latest.finish (h : k.Latest old o) (slot : o.slot < 32) (poison : o.poison = false) (ghost : o.ghost = false)
    (vals : List (Nat × Nat)) : k.finish o vals = { k.setGroup o.slot ((k.group o.slot).received o vals) with ops := old } := by
  have last : k.ops.any (fun p => p.id != o.id && p.slot == o.slot && p.returns && p.dst == o.dst) = false := by
    rw [List.any_eq_false, h.ops]
    intro p hp
    rcases List.mem_append.1 hp with hp | hp
    · simp [(h.others p hp).1]
    · simp [List.mem_singleton.1 hp]
  have back : k.writeBack o vals (regsOf o.bytes) = k.setGroup o.slot ((k.group o.slot).received o vals) := by
    rw [Core.writeBack, last, Core.modGroup]
    simp only [Group.mark, poison, ghost, Group.received, destRegs, Bool.false_eq_true, if_false, Bool.not_false, if_true]
    rw [Group.foldl_wvk_rest]
  rw [Core.finish, if_neg (by simp [MemOp.orphaned, slot]), back]
  exact (h.keep (l := k.setGroup o.slot ((k.group o.slot).received o vals)) rfl).dropOp

/-- Results of distinct threads, written to registers: those named, and no other. -/
theorem Group.foldl_wvk_pairs (vals : List (Nat × Nat)) (nodup : (vals.map Prod.fst).Nodup) (lt : ∀ p ∈ vals, p.1 < 64) (g : Group)
    (r k : Nat) :
    (∀ th v, (th, v) ∈ vals → ∀ j < k, r + j ≠ 255 →
      (vals.foldl (fun g p => g.wvk r p.1 p.2 k) g).rv (r + j) th = v / 2 ^ (32 * j) % 2 ^ 32) ∧
    ∀ q th, th < 64 → (q < r ∨ r + k ≤ q ∨ th ∉ vals.map Prod.fst) → (vals.foldl (fun g p => g.wvk r p.1 p.2 k) g).rv q th = g.rv q th := by
  induction vals generalizing g with
  | nil => exact ⟨fun th v h => absurd h List.not_mem_nil, fun q th _ _ => rfl⟩
  | cons p vals ih =>
    obtain ⟨fresh, nodup⟩ := List.nodup_cons.1 nodup
    obtain ⟨named, others⟩ := ih nodup (fun q hq => lt q (List.mem_cons_of_mem _ hq)) (g.wvk r p.1 p.2 k)
    have hp := lt p List.mem_cons_self
    refine ⟨fun th v h j hj hr => ?_, fun q th hth h => ?_⟩
    · rcases List.mem_cons.1 h with rfl | h
      · rw [List.foldl_cons, others _ _ hp (Or.inr (Or.inr fresh)), Group.rv_wvk _ _ _ _ hp hp, if_pos ⟨rfl, by omega, by omega, hr⟩,
          Nat.add_sub_cancel_left]
      · exact named th v h j hj hr
    · rw [List.map_cons, List.mem_cons, not_or] at h
      rw [List.foldl_cons, others q th hth (by tauto), Group.rv_wvk _ _ _ _ hp hth, if_neg (by omega)]

end

end Sys2Proof.Machine
end

section
/-! SUPPORT. The translated accesses of an instruction's threads; a load that its line answers at once. -/

namespace Sys2Proof.Machine

set_option Elab.async false

/-! ### Translations -/

theorem State.coreAddrs_quiet (core q cove : Nat) (wr d : Bool) (l : List (Nat × Nat)) (s : State) :
    Quiet s (s.coreAddrs core q cove wr l d).2 := by
  induction l generalizing s with
  | nil => exact Quiet.refl s
  | cons p l ih =>
    unfold State.coreAddrs
    exact (State.coreAddr_quiet (Quiet.refl s)).trans (ih _)

theorem State.coreAddrs_threads (core q cove : Nat) (wr d : Bool) (l : List (Nat × Nat)) (s : State) :
    (s.coreAddrs core q cove wr l d).1.map Prod.fst = l.map Prod.fst := by
  induction l generalizing s with
  | nil => rfl
  | cons p l ih =>
    unfold State.coreAddrs
    rw [List.map_cons, List.map_cons, ih]

theorem mem_accesses {r : List (Nat × Nat × XAcc)} {n : Nat} {a : Access} :
    a ∈ accesses r n ↔ ∃ th va pa e, (th, va, .ok pa e) ∈ r ∧ a = { thread := th, pa := pa, bytes := n, wt := e.wt } := by
  simp only [accesses, List.mem_filterMap]
  constructor
  · rintro ⟨⟨th, va, acc⟩, hp, ha⟩
    match acc with
    | .ok pa e => exact ⟨th, va, pa, e, hp, (Option.some.inj ha).symm⟩
    | .fault code => cases ha
  · rintro ⟨th, va, pa, e, hp, rfl⟩
    exact ⟨_, hp, rfl⟩

/-- Where every thread's address translates, there is one access per thread, in their order. -/
theorem accesses_threads {r : List (Nat × Nat × XAcc)} (n : Nat) (ok : ∀ p ∈ r, ∃ pa e, p.2.2 = .ok pa e) :
    (accesses r n).map Access.thread = r.map Prod.fst := by
  induction r with
  | nil => rfl
  | cons p r ih =>
    obtain ⟨pa, e, hp⟩ := ok p List.mem_cons_self
    have rest := ih fun q hq => ok q (List.mem_cons_of_mem _ hq)
    simp only [accesses] at rest ⊢
    simp only [List.filterMap_cons, hp, List.map_cons, rest]

theorem bytes_of_mem_accesses {r : List (Nat × Nat × XAcc)} {n : Nat} {a : Access} (h : a ∈ accesses r n) : a.bytes = n := by
  obtain ⟨th, va, pa, e, -, rfl⟩ := mem_accesses.1 h
  rfl

/-- A group none of whose memory instructions is outstanding issues the next one, if none waits for replay. -/
theorem memHold_none {u : State} {z : Iss} (ops : ∀ o ∈ (u.core z.core).ops, o.slot ≠ z.slot) (replay : (u.core z.core).replay = []) :
    memHold u z = .none := by
  simp [memHold, Core.not_acquiring ops, Core.not_windowFull ops, replay]

section
variable {s u x : State} {w : IWord} {op : Nat × Nat} {f : Form}

/-- What is outstanding where the effect starts was so at issue. -/
theorem State.memHold_of_clear (quiet : Quiet (u.advanced w (s.view w) f) x)
    (clear : (x.core w.core).clearFor w.slot) : memHold u (s.view w) = .none := by
  have ops : (x.core w.core).ops = (u.core w.core).ops := by rw [quiet.cores, State.advanced_core]; rfl
  have replay : (x.core w.core).replay = (u.core w.core).replay := by rw [quiet.cores, State.advanced_core]; rfl
  obtain ⟨others, -, waits, -⟩ := clear
  exact memHold_none (fun o ho => (others o (ops ▸ ho)).2.2.1) (replay.symm.trans waits)

theorem State.advanced_quiet_group (quiet : Quiet (u.advanced w (s.view w) f) x) : x.group w.core w.slot = (s.view w).moved f :=
  (quiet.group _ _).trans (State.advanced_group _ _ _ _)

/-- None of the registers that an instruction writes is awaited when it issues. -/
theorem State.Issues.dest_ready (h : s.Issues u w op f) {d n r : Nat} (named : ⟨.v n, d, true⟩ ∈ f.ops) (hr : r ∈ destRegs d n) :
    r ∉ (s.view w).g.busyV := by
  have ready := h.ready
  simp only [Group.scoreboard, List.any_eq_false, Bool.or_eq_true, not_or] at ready
  have ready := (ready _ named).1
  simp only [Bool.not_eq_true, List.any_eq_false, List.contains_iff_mem] at ready
  exact ready r hr

end

/-! ### The bytes of a held line -/

theorem leNat_map_read (m : Mem) (a n : Nat) : leNat ((List.range n).map (fun i => m.read (a + i))) = m.readLE a n := by
  induction n generalizing a with
  | zero => rfl
  | succ n ih =>
    rw [List.range_succ_eq_map, List.map_cons, List.map_map, leNat, Mem.readLE, ← ih]
    simp only [Function.comp_def, Nat.add_zero, Nat.succ_eq_add_one, Nat.add_assoc, Nat.add_comm 1]

theorem find?_sector {hit : List Nat} {line i : Nat} (data : Nat → List Byte) (h : i ∈ hit) :
    (hit.map (fun i => (4 * line + i, data i))).find? (fun p => p.1 == 4 * line + i) = some (4 * line + i, data i) := by
  induction hit with
  | nil => cases h
  | cons j hit ih =>
    rw [List.map_cons, List.find?_cons]
    by_cases e : j = i
    · simp [e]
    · rw [ih ((List.mem_cons.1 h).resolve_left (Ne.symm e)), show (4 * line + j == 4 * line + i) = false by simpa using e]

/-- A load's value from the sectors of its line. -/
theorem MemOp.loaded_of_line {o : MemOp} {a : Access} {line : Nat} (m : Mem) {hit : List Nat} (fwd : o.fwd = [])
    (got : o.got = hit.map (fun i => (4 * line + i, m.readBytes (32 * i) 32))) (inside : a.inside line)
    (all : ∀ i < 4, a.touches i → i ∈ hit) : o.loaded a = m.readLE (a.pa % 128) a.bytes := by
  obtain ⟨rfl, fit, -⟩ := inside
  rw [MemOp.loaded, ← leNat_map_read, fwd, got]
  congr 1
  refine List.map_congr_left fun i hi => ?_
  have hi := List.mem_range.1 hi
  have sec : (a.pa + i) / 32 = 4 * (a.pa / 128) + (a.pa % 128 + i) / 32 := by omega
  have mem : (a.pa % 128 + i) / 32 ∈ hit := all _ (by omega) (by unfold Access.touches; omega)
  simp only [List.find?_nil, sec, find?_sector _ mem]
  rw [Mem.readBytes, List.getD_eq_getElem _ _ (by simp; omega), List.getElem_map, List.getElem_range]
  congr 1
  omega

/-! ### A load that its line answers -/

section
variable {base s : State} {c line : Nat} {k : Core} {ms : List Msg} {old : List MemOp} {o : MemOp}

/-- An added instruction that may start does so at once. -/
theorem State.addOp_start (step : CoreStep base s c k ms) (clear : k.clearFor o.slot) (dst : List Nat) (new : o.started = false)
    (free : o.isRead = true ∨ k.writesFree o.slot) :
    let v := s.modCore c (fun k => k.adding o dst)
    let o' := { o with id := k.nextOp }
    CoreStep base v c (k.adding o dst) ms ∧ (k.adding o dst).Latest k.ops o' ∧ s.addOp c o dst = v.start c o' o.kind := by
  intro v o'
  have added : CoreStep base v c (k.adding o dst) ms := step.modCore (fun k => k.adding o dst)
  have latest : (k.adding o dst).Latest k.ops o' := Core.adding_latest clear dst
  refine ⟨added, latest, ?_⟩
  rw [State.addOp_eq]
  refine State.serve_latest (o := o') (old := k.ops) (by rw [added.core]; exact latest) new (free.imp id fun free => ?_)
  rw [added.core]
  exact Core.writesFree_gathering (o := o') (k := k.adding o dst) free

theorem State.endOp_load (load : o.kind = .load) (acquire : o.acquire = false) (ebb : o.ebb = false) :
    s.endOp c o = s.modCore c (fun k => k.finish o (o.acc.map (fun a => (a.thread, o.loaded a)))) := by
  unfold State.endOp
  simp [load, acquire, ebb]

theorem CoreStep.countLook (step : CoreStep base s c k ms) (hit miss : Nat) : CoreStep base (s.countLook c hit miss .done) c k ms :=
  (step.kcount _ _).kcount _ _

theorem CoreStep.countAcc (step : CoreStep base s c k ms) (l1 past : List Access) : CoreStep base (s.countAcc c l1 past) c k ms :=
  (step.kcount _ _).kcount _ _

/-- The core once a load of a held line has ended. -/
def Core.loadDone (k : Core) (old : List MemOp) (o : MemOp) (line : Nat) : Core :=
  { k.setGroup o.slot ((k.group o.slot).received o (o.acc.map (fun a => (a.thread, (k.line line).data.readLE (a.pa % 128) a.bytes)))) with
    l1 := (k.setLine line { k.line line with ref := true }).l1, ops := old }

theorem State.startL1_load (step : CoreStep base s c k ms) (h : k.Latest old o) (replay : k.replay = [])
    (waiters : ∀ m ∈ k.miss, o.id ∉ m.waiters) (on : o.OnLine line) (load : o.kind = .load) (slot : o.slot < 32)
    (new : o.got = [] ∧ o.poison = false ∧ o.ghost = false) (plain : o.acquire = false ∧ o.ebb = false)
    (sound : base.fld clsCore (base.corePage c) R.ERR_INJECT_ARM = 0) (held : stable (k.line line).st = true)
    (sectors : ∀ i ∈ o.touched, bit (k.line line).valid i = true ∧ bit (k.line line).poison i = false) :
    CoreStep base (s.startL1 c o) c (k.loadDone old o line) ms := by
  obtain ⟨got, poison, ghost⟩ := new
  obtain ⟨acquire, ebb⟩ := plain
  have entered := State.entered_step step h line
  set k1 : Core := { k with ops := old ++ [o.entering []] }
  have latest1 : k1.Latest old (o.entering []) := h.update (o' := o.entering []) rfl rfl rfl
  have toEnter : k1.toEnter (o.entering []) line = o.touched := Core.toEnter_entering on waiters
  have hit : (s.entered c line o).enterLine c o.id line = ((s.entered c line o).hitSecs c (o.entering []) line o.touched, .done) := by
    have load' : (o.entering []).kind = .load := load
    rw [State.enterLine_eq (o := o.entering []) (by rw [entered.core]; exact latest1.opOf) (Or.inl (entered.unarmed sound))
      (by rw [entered.core, toEnter]; exact on.touched_ne_nil), if_pos load', State.l1Load_hit, entered.core, toEnter]
    · rw [entered.core]; exact held
    · rw [entered.core, toEnter]; exact fun i hi => (sectors i hi).1
  obtain ⟨hits, misses, start⟩ := State.startL1_line step h replay on hit
  have taken := State.hitSecs_step (hit := o.touched) entered latest1 on.touched_nodup on.sectors_eq (fun i hi => (sectors i hi).2)
  have counted := taken.countLook hits misses
  set o2 := (o.entering []).received line (fun i => (k1.line line).data.readBytes (32 * i) 32) o.touched with ho2
  set k2 : Core := { k1.setLine line { k1.line line with ref := true } with ops := old ++ [o2] } with hk2
  have latest2 : k2.Latest old o2 := latest1.update (o' := o2) rfl rfl rfl
  have loaded : o.acc.map (fun a => (a.thread, o2.loaded a)) = o.acc.map (fun a => (a.thread, (k.line line).data.readLE (a.pa % 128) a.bytes)) := by
    refine List.map_congr_left fun a ha => ?_
    rw [MemOp.loaded_of_line (line := line) (hit := o.touched) (k.line line).data rfl ?_ (on.inside a ha)
      (fun i hi ht => on.mem_touched.2 ⟨hi, a, ha, ht⟩)]
    show o.got ++ _ = _
    rw [got]
    rfl
  have ended := counted.modCore (fun k => k.finish o2 (o2.acc.map (fun a => (a.thread, o2.loaded a))))
  rw [latest2.finish slot poison ghost] at ended
  rw [start, show o.id = o2.id from rfl, State.checkOp_end (o := o2) (by rw [counted.core]; exact latest2.opOf) rfl rfl,
    State.endOp_load (o := o2) load acquire ebb, Core.loadDone, ← loaded]
  exact ended

/-- A load of a held line, from its issue to its end. -/
theorem State.addOp_load (step : CoreStep base s c k ms) (clear : k.clearFor o.slot) (on : o.OnLine line) (dst : List Nat)
    (load : o.kind = .load) (new : o.started = false) (empty : o.got = [] ∧ o.poison = false ∧ o.ghost = false)
    (plain : o.acquire = false ∧ o.ebb = false) (sound : base.fld clsCore (base.corePage c) R.ERR_INJECT_ARM = 0)
    (held : stable (k.line line).st = true)
    (sectors : ∀ i ∈ o.touched, bit (k.line line).valid i = true ∧ bit (k.line line).poison i = false) :
    CoreStep base (s.addOp c o dst) c ((k.adding o dst).loadDone k.ops { o with id := k.nextOp } line) ms := by
  obtain ⟨added, latest, start⟩ := State.addOp_start step clear dst new (Or.inl (by rw [MemOp.isRead, load]))
  obtain ⟨-, waiters, replay, slot⟩ := clear
  rw [start.trans (congrArg _ load)]
  exact State.startL1_load added latest replay waiters ⟨on.some, on.inside⟩ load slot empty plain sound held sectors

theorem Core.adding_group (k : Core) (o : MemOp) (dst : List Nat) : (k.adding o dst).group o.slot = (k.group o.slot).awaiting dst := Core.group_setGroup _ _ _

theorem Core.adding_group_ne (k : Core) (o : MemOp) (dst : List Nat) {g : Nat} (h : g ≠ o.slot) : (k.adding o dst).group g = k.group g :=
  Core.group_setGroup_ne _ _ h

/-- Registers that were free are so again once the results are in them. -/
theorem Group.received_awaiting {g : Group} {dst : List Nat} (hdst : dst = destRegs o.dst (regsOf o.bytes)) (free : ∀ r ∈ dst, r ∉ g.busyV)
    (vals : List (Nat × Nat)) : (g.awaiting dst).received o vals = { g with v := ((g.awaiting dst).received o vals).v } := by
  have busy : (g.busyV ++ dst.filter (fun r => r != 255)).filter (fun r => !dst.contains r) = g.busyV := by
    rw [List.filter_append, List.filter_eq_self.2, List.filter_eq_nil_iff.2, List.append_nil]
    · intro r hr
      simpa using (List.mem_filter.1 hr).1
    · intro r hr
      simpa using fun named => free r named hr
  conv_lhs => rw [Group.received, Group.foldl_wvk_rest, ← hdst, Group.awaiting]
  simp only [busy]
  rfl

/-- What the registers hold once the results are in them. -/
theorem Group.received_rv {g : Group} (vals : List (Nat × Nat)) (nodup : (vals.map Prod.fst).Nodup) (lt : ∀ p ∈ vals, p.1 < 64) :
    (∀ th v, (th, v) ∈ vals → ∀ j < regsOf o.bytes, o.dst + j ≠ 255 → (g.received o vals).rv (o.dst + j) th = v / 2 ^ (32 * j) % 2 ^ 32) ∧
    ∀ q th, th < 64 → (q < o.dst ∨ o.dst + regsOf o.bytes ≤ q ∨ th ∉ vals.map Prod.fst) → (g.received o vals).rv q th = g.rv q th :=
  Group.foldl_wvk_pairs vals nodup lt g o.dst (regsOf o.bytes)

end

end Sys2Proof.Machine
end

section
/-! PROOF. A load whose line the L1 holds (O18). -/

namespace Sys2Proof.Machine

set_option Elab.async false

theorem Ins.width_pos (i : Ins) : 0 < i.width := Nat.two_pow_pos _

section
variable {r : List (Nat × Nat × XAcc)} {line n : Nat} {a : Access}

theorem inLine.ok (h : inLine r line n) : ∀ p ∈ r, ∃ pa e, p.2.2 = .ok pa e := fun p hp => by
  obtain ⟨pa, e, hpa, -⟩ := h p hp
  exact ⟨pa, e, hpa⟩

theorem inLine.access (h : inLine r line n) (pos : 0 < n) (ha : a ∈ accesses r n) : a.inside line ∧ inHost a.pa = false := by
  obtain ⟨th, va, pa, e, hp, rfl⟩ := mem_accesses.1 ha
  obtain ⟨pa', e', same, here, fit, dev⟩ := h _ hp
  obtain ⟨rfl, rfl⟩ := XAcc.ok.inj same
  exact ⟨⟨here, fit, pos⟩, dev⟩

/-- The accesses of acting threads that lie in one line are accesses to that line. -/
theorem inLine.onLine (h : inLine r line n) (pos : 0 < n) (some : r ≠ []) {o : MemOp} (acc : o.acc = accesses r n) : o.OnLine line := by
  refine ⟨fun none => some ?_, fun a ha => (h.access pos (acc ▸ ha)).1⟩
  have := accesses_threads n h.ok
  rw [← acc, none] at this
  exact List.map_eq_nil_iff.1 this.symm

theorem L1Line.holds.touched {l : L1Line} (holds : l.holds r n) {o : MemOp} (on : o.OnLine line) (acc : o.acc = accesses r n) {i : Nat}
    (hi : i ∈ o.touched) : bit l.valid i = true ∧ bit l.poison i = false := by
  obtain ⟨lt, a, ha, before, after⟩ := on.mem_touched.1 hi
  obtain ⟨th, va, pa, e, hp, rfl⟩ := mem_accesses.1 (acc ▸ ha)
  exact holds _ hp pa e rfl i lt before after

end

theorem Iss.threads_ne_nil {z : Iss} (h : z.act ≠ 0) : z.threads ≠ [] := fun none => h (by
  refine BitVec.eq_of_getLsbD_eq fun i hi => ?_
  refine (Bool.eq_false_iff.2 ?_).trans BitVec.getLsbD_zero.symm
  exact fun act => List.ne_nil_of_mem (Iss.mem_threads_of_act act) none)

section
variable {s u x : State} {w : IWord} {f : Form} {r : List (Nat × Nat × XAcc)} {cove : Nat} {q : Nat} {wr : Bool} {at_ : Nat → Nat}

theorem State.coreAddrs_act {c : Nat} {z : Iss} {v : State} (trans : v.coreAddrs c q cove wr (z.threads.map (fun t => (t, at_ t))) = (r, x)) :
    r.map Prod.fst = z.threads := by
  have := State.coreAddrs_threads c q cove wr true (z.threads.map (fun t => (t, at_ t))) v
  rw [trans, List.map_map] at this
  exact this.trans (List.map_id' _)

end

theorem State.addParts_one (s : State) (c : Nat) (o : MemOp) (dst : List Nat) (k : OpKind) (seg : Nat) (acc : List Access) :
    s.addParts c o dst [(k, seg, acc)] = s.addOp c { o with kind := k, seg := seg, acc := acc } dst := by
  rw [State.addParts]

/-- Settles O18: the load is added, starts, takes the sectors of its line and ends. -/
theorem loadHitsTheL1 : Obligations.LoadHitsTheL1 := by
  unfold Obligations.LoadHitsTheL1
  intro w s u x r line z n form k h act order loc faults trans here clear sound held holds
  have quiet : Quiet (u.advanced w z form) x := by
    have := State.coreAddrs_quiet w.core z.g.quarter z.l.cove false true (z.addrs n) (u.advanced w z form)
    rwa [trans] at this
  have threads : r.map Prod.fst = z.threads := State.coreAddrs_act trans
  have some : r ≠ [] := fun none => Iss.threads_ne_nil act (threads ▸ none ▸ rfl)
  have group : x.group w.core w.slot = z.moved form := State.advanced_quiet_group quiet
  have dev : ∀ a ∈ accesses r n, inHost a.pa = false := fun a ha => (here.access z.i.width_pos ha).2
  have noAcq : z.i.acq = false := by rw [Ins.acq, order]; rfl
  let o : MemOp := { z.memOp with dst := z.i.d, bytes := n, outer := true, kind := .load, acc := accesses r n }
  let dst := destRegs z.i.d (widthRegs z.i)
  have on : o.OnLine line := here.onLine z.i.width_pos some rfl
  have host : (accesses r n).filter (fun a => inHost a.pa) = [] := List.filter_eq_nil_iff.2 fun a ha => by simp [dev a ha]
  have outer : (accesses r n).filter (fun a => !inHost a.pa && a.wt && z.i.acq && z.i.sc == 3) = [] := by simp [noAcq]
  have l1 : (accesses r n).filter (fun a => !inHost a.pa && !(a.wt && z.i.acq && z.i.sc == 3)) = accesses r n :=
    List.filter_eq_self.2 fun a ha => by simp [dev a ha, noAcq]
  have run : exec (.ld w) s = .next (((x.kcount w.core Ev.CORE_EBB_REFUSED 0).countAcc w.core (accesses r n) []).addOp w.core o dst) := by
    refine (congrArg Host.Outcome.next (State.issue_next h rfl rfl faults (State.memHold_of_clear quiet clear) h.group)).trans
      (congrArg Host.Outcome.next ?_)
    rw [show s.view w = z from rfl]
    simp only [show (u.advanced w z form).coreAddrs z.core z.g.quarter z.l.cove false (z.addrs z.i.width) = (r, x) from trans,
      show accesses r z.i.width = accesses r n from rfl, host, outer, l1]
    rw [show (z.i.loc == 1) = false by rw [loc]; rfl, List.filter_cons_of_pos (by simpa using on.some),
      show List.filter _ [(OpKind.bypLoad, 0, ([] : List Access)), (.hostLd, 0, [])] = [] from rfl, State.addParts_one,
      Bool.false_and, Bool.false_and, show boolNat false = 0 from rfl, List.append_nil]
    rfl
  have step := ((CoreStep.refl x w.core).kcount Ev.CORE_EBB_REFUSED 0).countAcc (accesses r n) []
  have done := State.addOp_load (o := o) step clear on dst rfl rfl ⟨rfl, rfl, rfl⟩ ⟨noAcq, rfl⟩ sound held (fun i hi => holds.touched on rfl hi)
  set k' := (k.adding o dst).loadDone k.ops { o with id := k.nextOp } line
  let vals := (accesses r n).map (fun a => (a.thread, (k.line line).data.readLE (a.pa % 128) a.bytes))
  have moved : k.group w.slot = z.moved form := group
  have mine : k'.group w.slot = ((z.moved form).awaiting dst).received o vals := by
    rw [← moved]
    exact (Core.group_setGroup _ _ _).trans (congrArg (Group.received · _ _) (Core.adding_group k o dst))
  have free : ∀ q ∈ dst, q ∉ (z.moved form).busyV := fun q hq => by
    rw [Iss.moved_busyV]
    exact h.dest_ready List.mem_cons_self hq
  have keys : vals.map Prod.fst = z.threads := by
    rw [List.map_map]
    exact (accesses_threads n here.ok).trans threads
  obtain ⟨named, others⟩ := Group.received_rv (o := o) (g := (z.moved form).awaiting dst) vals (keys ▸ maskBits_nodup z.act)
    (fun p hp => (Iss.mem_threads.1 (keys ▸ List.mem_map_of_mem hp)).1)
  have rest := Group.received_awaiting (o := o) (dst := dst) rfl free vals
  rw [← mine, ← done.group] at named others rest
  refine ⟨_, run, done.onlyCore, done.net.trans (List.append_nil _), fun th va pa e hp j hj hr => ?_, fun q th hth hq => ?_, rest,
    fun g hg => ?_, (congrArg Core.ops done.core : _ = k'.ops)⟩
  · exact named th _ (List.mem_map.2 ⟨_, mem_accesses.2 ⟨th, va, pa, e, hp, rfl⟩, rfl⟩) j hj hr
  · refine (others q th hth (hq.imp_right (Or.imp_right fun idle => ?_))).trans (Iss.moved_rv z form q th)
    rw [keys, Iss.mem_threads, idle]
    simp
  · rw [done.group]
    exact (Core.group_setGroup_ne _ _ hg).trans (Core.adding_group_ne k o dst hg)

end Sys2Proof.Machine
end

section
/-! SUPPORT. Bytes written over one another, and a store to a line that the L1 holds in E or M. -/

namespace Sys2Proof.Machine

set_option Elab.async false

/-! ### Maps listed by key -/

theorem mget_of_mem {α : Type} {d : α} {m : List (Nat × α)} (nodup : (m.map Prod.fst).Nodup) {j : Nat} {v : α} (h : (j, v) ∈ m) : mget d m j = v := by
  induction m with
  | nil => cases h
  | cons p m ih =>
    obtain ⟨fresh, nodup⟩ := List.nodup_cons.1 nodup
    rw [mget]
    rcases List.mem_cons.1 h with rfl | h
    · exact if_pos rfl
    · rw [if_neg (fun e : p.1 = j => fresh (e ▸ List.mem_map_of_mem h)), ih nodup h]

theorem mget_map_mem {α : Type} {d : α} {l : List Nat} (g : Nat → α) {j : Nat} (h : j ∈ l) : mget d (l.map (fun j => (j, g j))) j = g j := by
  induction l with
  | nil => cases h
  | cons i l ih =>
    rw [List.map_cons, mget]
    split
    · next e => rw [e]
    · next e => exact ih ((List.mem_cons.1 h).resolve_left (Ne.symm e))

theorem mget_of_notMem {α : Type} {d : α} {m : List (Nat × α)} {j : Nat} (h : j ∉ m.map Prod.fst) : mget d m j = d := by
  induction m with
  | nil => rfl
  | cons p m ih =>
    rw [List.map_cons, List.mem_cons, not_or] at h
    rw [mget, if_neg (Ne.symm h.1), ih h.2]

theorem nodup_of_mwf {α : Type} [DecidableEq α] {d : α} {m : List (Nat × α)} (h : mwf d m = true) : (m.map Prod.fst).Nodup := by
  simp only [mwf, Bool.and_eq_true, decide_eq_true_eq] at h
  exact (List.pairwise_map.2 h.1).imp Nat.ne_of_lt

/-! ### The bytes of a store -/

/-- Listed bytes written to a memory. -/
theorem Mem.read_puts (l : List (Nat × Option Byte)) (nodup : (l.map Prod.fst).Nodup) (m : Mem) (b : Nat) :
    (m.puts (l.filterMap (fun p => p.2.map (fun v => (p.1, v))))).read b = (mget none l b).getD (m.read b) := by
  induction l generalizing m with
  | nil => rfl
  | cons p l ih =>
    obtain ⟨j, v⟩ := p
    obtain ⟨fresh, rest⟩ := List.nodup_cons.1 nodup
    have ih := ih rest
    simp only [List.filterMap_cons]
    rw [mget]
    match v with
    | none =>
      refine (ih m).trans ?_
      split
      · next e => rw [mget_of_notMem (e ▸ fresh)]
      · rfl
    | some v =>
      refine (ih _).trans ?_
      split
      · next e => rw [mget_of_notMem (e ▸ fresh), ← e]; exact Mem.read_write_self _ _ _
      · next e => rw [Mem.read_write_ne _ _ (Ne.symm e)]

/-- The bytes of one access, entered over those listed. -/
def MemOp.enterAccess (o : MemOp) (line : Nat) (l : List (Nat × Option Byte)) (a : Access) (n : Nat) : List (Nat × Option Byte) :=
  (List.range n).foldl (fun l i => if (a.pa + i) / 128 = line then
    mset (none : Option Byte) l ((a.pa + i) % 128) (some (BitVec.ofNat 8 (valOf o.vals a.thread / 256 ^ i))) else l) l

theorem MemOp.storeBytes_eq (o : MemOp) (line : Nat) : o.storeBytes line =
    (o.acc.foldl (fun l a => o.enterAccess line l a a.bytes) []).filterMap (fun p => p.2.map (fun v => (p.1, v))) := rfl

/-- Whether a byte of its line lies in an access. -/
def Access.covers (a : Access) (b : Nat) : Prop := a.pa % 128 ≤ b ∧ b < a.pa % 128 + a.bytes

section
variable (o : MemOp) {line : Nat} {a : Access}

theorem MemOp.enterAccess_mwf (l : List (Nat × Option Byte)) (n : Nat) (h : mwf none l = true) : mwf none (o.enterAccess line l a n) = true := by
  refine List.foldlRecOn (motive := fun l => mwf none l = true) _ _ h fun l hl i _ => ?_
  split
  · exact mwf_mset _ _ hl
  · exact hl

theorem MemOp.mget_enterAccess (l : List (Nat × Option Byte)) (here : a.pa / 128 = line) (n : Nat) (fit : a.pa % 128 + n ≤ 128) (b : Nat) :
    mget none (o.enterAccess line l a n) b =
      if a.pa % 128 ≤ b ∧ b < a.pa % 128 + n then some (BitVec.ofNat 8 (valOf o.vals a.thread / 256 ^ (b - a.pa % 128))) else mget none l b := by
  induction n with
  | zero => rw [if_neg (by omega)]; rfl
  | succ n ih =>
    have next : o.enterAccess line l a (n + 1) = mset none (o.enterAccess line l a n) (a.pa % 128 + n)
        (some (BitVec.ofNat 8 (valOf o.vals a.thread / 256 ^ n))) := by
      rw [MemOp.enterAccess, List.range_succ, List.foldl_append, List.foldl_cons, List.foldl_nil, if_pos (by omega),
        show (a.pa + n) % 128 = a.pa % 128 + n by omega]
      rfl
    rw [next]
    by_cases e : b = a.pa % 128 + n
    · rw [e, mget_mset_self, if_pos (by omega), Nat.add_sub_cancel_left]
    · rw [mget_mset_ne _ _ e, ih (by omega)]
      exact if_congr (by omega) rfl rfl

theorem MemOp.mget_enterAccesses_none (acc : List Access) (inside : ∀ a ∈ acc, a.inside line) (l : List (Nat × Option Byte)) (b : Nat)
    (none : ∀ a ∈ acc, ¬a.covers b) : mget .none (acc.foldl (fun l a => o.enterAccess line l a a.bytes) l) b = mget .none l b := by
  induction acc generalizing l with
  | nil => rfl
  | cons a acc ih =>
    obtain ⟨here, fit, -⟩ := inside a List.mem_cons_self
    rw [List.foldl_cons, ih (fun a ha => inside a (List.mem_cons_of_mem _ ha)) _ (fun a ha => none a (List.mem_cons_of_mem _ ha)),
      o.mget_enterAccess l here _ fit]
    exact if_neg (none a List.mem_cons_self)

/-- The last access over a byte gives it. -/
theorem MemOp.mget_enterAccesses (before after : List Access) (inside : ∀ a' ∈ before ++ a :: after, a'.inside line) (l : List (Nat × Option Byte))
    (b : Nat) (covers : a.covers b) (last : ∀ a' ∈ after, ¬a'.covers b) :
    mget none ((before ++ a :: after).foldl (fun l a => o.enterAccess line l a a.bytes) l) b =
      some (BitVec.ofNat 8 (valOf o.vals a.thread / 256 ^ (b - a.pa % 128))) := by
  obtain ⟨here, fit, -⟩ := inside a (List.mem_append_right _ List.mem_cons_self)
  rw [List.foldl_append, List.foldl_cons,
    o.mget_enterAccesses_none after (fun a' ha => inside a' (List.mem_append_right _ (List.mem_cons_of_mem _ ha))) _ b last,
    o.mget_enterAccess _ here _ fit]
  exact if_pos covers

theorem MemOp.enterAccesses_mwf (acc : List Access) : mwf none (acc.foldl (fun l a => o.enterAccess line l a a.bytes) []) = true :=
  List.foldlRecOn (motive := fun l => mwf none l = true) _ _ rfl fun l hl _ _ => o.enterAccess_mwf l _ hl

variable {o}

/-- Every stored byte lies in a sector that the instruction touches. -/
theorem MemOp.OnLine.storeBytes_touched (on : o.OnLine line) : (o.storeBytes line).filter (fun p => o.touched.contains (p.1 / 32)) = o.storeBytes line := by
  rw [List.filter_eq_self, o.storeBytes_eq]
  intro p hp
  obtain ⟨⟨b, v⟩, hb, hv⟩ := List.mem_filterMap.1 hp
  obtain ⟨v, rfl, rfl⟩ := Option.map_eq_some_iff.1 hv
  have listed := mget_of_mem (d := none) (nodup_of_mwf (o.enterAccesses_mwf o.acc)) hb
  by_contra outside
  rw [o.mget_enterAccesses_none o.acc on.inside [] b] at listed
  · cases listed
  · intro a ha covers
    obtain ⟨here, fit, -⟩ := on.inside a ha
    unfold Access.covers at covers
    refine outside (List.contains_iff_mem.2 (on.mem_touched.2 ⟨by simp only; omega, a, ha, ?_⟩))
    unfold Access.touches
    simp only
    omega

theorem MemOp.OnLine.read_puts_none (on : o.OnLine line) (m : Mem) (b : Nat) (none : ∀ a ∈ o.acc, ¬a.covers b) :
    (m.puts (o.storeBytes line)).read b = m.read b := by
  rw [o.storeBytes_eq, Mem.read_puts _ (nodup_of_mwf (o.enterAccesses_mwf o.acc)), o.mget_enterAccesses_none _ on.inside _ _ none]
  rfl

theorem MemOp.OnLine.read_puts (on : o.OnLine line) (m : Mem) (b : Nat) {before after : List Access} (acc : o.acc = before ++ a :: after)
    (covers : a.covers b) (last : ∀ a' ∈ after, ¬a'.covers b) :
    (m.puts (o.storeBytes line)).read b = BitVec.ofNat 8 (valOf o.vals a.thread / 256 ^ (b - a.pa % 128)) := by
  rw [o.storeBytes_eq, Mem.read_puts _ (nodup_of_mwf (o.enterAccesses_mwf o.acc)), acc,
    o.mget_enterAccesses before after (acc ▸ on.inside) _ b covers last]
  rfl

end

end Sys2Proof.Machine
end

section
/-! SUPPORT. A store or a near atomic at a line that the L1 holds in E or M with no fill outstanding. -/

namespace Sys2Proof.Machine

set_option Elab.async false

section
variable {base s : State} {c line : Nat} {k : Core} {ms : List Msg} {old : List MemOp} {o : MemOp}

theorem Core.line_setLine (k : Core) (line : Nat) (l : L1Line) : (k.setLine line l).line line = l := mget_mset_self _ _ _

/-- No miss register of a line without misses is found. -/
theorem Core.missOf_none (h : k.lineMisses line = []) {i : Nat} (hi : i < 4) : k.missOf (4 * line + i) = none := by
  rw [Core.missOf, List.find?_eq_none]
  intro m hm same
  have := List.filter_eq_nil_iff.1 h m hm
  simp only [beq_iff_eq] at same this
  omega

theorem CoreStep.allocMiss_nil (step : CoreStep base s c k ms) (ids : List Nat) (fetch : Nat → Bool) :
    CoreStep base (s.allocMiss c line [] ids fetch) c k ms := by
  have := step.modCore (fun k => { k with miss := k.miss ++ [].map (fun i => { sector := 4 * line + i, waiters := ids, fetch := fetch i }) })
  rw [List.map_nil, List.append_nil] at this
  exact this

/-- A line that the L1 holds, whose touched sectors are valid and of which no miss is outstanding. -/
structure Core.Owns (k : Core) (line : Nat) (secs : List Nat) : Prop where
  st : (k.line line).st = .e ∨ (k.line line).st = .m
  misses : k.lineMisses line = []
  valid : ∀ i ∈ secs, i < 4 ∧ bit (k.line line).valid i = true

section
variable {secs : List Nat}

theorem Core.Owns.busy (owns : k.Owns line secs) : secs.filter (fun i => (k.missOf (4 * line + i)).isSome) = [] :=
  List.filter_eq_nil_iff.2 fun i hi => by simp [Core.missOf_none owns.misses (owns.valid i hi).1]

theorem Core.Owns.new (owns : k.Owns line secs) (part : Nat → Bool) :
    secs.filter (fun i => !bit (k.line line).valid i && part i && (k.missOf (4 * line + i)).isNone) = [] :=
  List.filter_eq_nil_iff.2 fun i hi => by simp [(owns.valid i hi).2]

theorem Core.Owns.invalid (owns : k.Owns line secs) : secs.filter (fun i => !bit (k.line line).valid i) = [] :=
  List.filter_eq_nil_iff.2 fun i hi => by simp [(owns.valid i hi).2]

theorem Core.Owns.hit (owns : k.Owns line secs) : secs.filter (fun i => bit (k.line line).valid i) = secs :=
  List.filter_eq_self.2 fun i hi => (owns.valid i hi).2

end

/-- A store to such a line writes it. -/
theorem State.l1Store_owned (owns : (s.core c).Owns line ((s.core c).toEnter o line)) (some : (s.core c).toEnter o line ≠ [])
    (store : o.kind = .store) : ∃ part, s.l1Store c o line =
      (((s.allocMiss c line [] [] (fun _ => true)).countStore c false part []).storeHit c o line ((s.core c).toEnter o line)
        ((o.storeBytes line).filter (fun p => ((s.core c).toEnter o line).contains (p.1 / 32))), .done) := by
  have near : decide (o.kind = .near) = false := by rw [store]; rfl
  have filled : ((s.core c).toEnter o line).isEmpty = false := by simpa using some
  refine ⟨fun i => s.kfld c R.L1_CTL_NO_FULL_SECTOR_WRITE = 1 || !fullSec (o.storeBytes line) i, ?_⟩
  unfold State.l1Store
  rcases owns.st with st | st
  all_goals
    simp only [st, near, owns.new, Bool.false_eq_true, if_false, List.take_nil, List.contains_nil, Bool.not_false, Bool.true_or, List.filter_true, filled,
      owns.invalid, List.isEmpty_nil, List.length_nil, if_true, Bool.false_or]

/-- The line as a near atomic takes it. -/
def L1Line.taken (l : L1Line) : L1Line := { l with st := .m, ref := true }

/-- A near atomic on such a line is performed in each of its sectors. -/
theorem State.l1Store_near (owns : (s.core c).Owns line ((s.core c).toEnter o line)) (some : (s.core c).toEnter o line ≠ [])
    (near : o.kind = .near) : s.l1Store c o line =
      ((((s.core c).toEnter o line).foldl (fun s i => s.nearExec c o line i)
        (s.modCore c (fun k => k.setLine line (k.line line).taken))).allocMiss c line [] [o.id] (fun _ => true), .done) := by
  have near : decide (o.kind = .near) = true := by rw [near]; rfl
  have filled : ((s.core c).toEnter o line).isEmpty = false := by simpa using some
  unfold State.l1Store
  rcases owns.st with st | st
  all_goals
    simp only [st, near, owns.new, owns.busy, List.take_nil, List.contains_nil, Bool.not_false, Bool.and_true, owns.hit, filled,
      List.isEmpty_nil, List.length_nil, if_true, State.joinEach, State.joinLook, Bool.false_and, Bool.false_eq_true, if_false, L1Line.taken]

/-- The core with bytes stored in sectors of a line. -/
def Core.stored (k : Core) (c : Nat) (o : MemOp) (line : Nat) (secs : List Nat) (bs : List (Nat × Byte)) : Core :=
  let k := k.enterBytes line bs
  let l := k.line line
  let full := secs.filter (fun i => fullSec bs i)
  k.setLine line { l with
    st := .m, valid := l.valid ||| maskOfSecs full, dirty := l.dirty ||| maskOfSecs secs
    poison := l.poison &&& (15 - maskOfSecs full), tag := o.relTag c, ref := true }

theorem Core.stored_line (k : Core) (c : Nat) (o : MemOp) (line : Nat) (secs : List Nat) (bs : List (Nat × Byte)) :
    ((k.stored c o line secs bs).line line).st = .m ∧ ((k.stored c o line secs bs).line line).data = (k.line line).data.puts bs ∧
      ((k.stored c o line secs bs).line line).dirty = (k.line line).dirty ||| maskOfSecs secs := by
  have entered : (k.enterBytes line bs).line line = { k.line line with data := (k.line line).data.puts bs } := Core.line_setLine _ _ _
  rw [Core.stored, Core.line_setLine, entered]
  exact ⟨rfl, rfl, rfl⟩

/-- An instruction with sectors of a line no longer waited for. -/
def MemOp.without (o : MemOp) (line : Nat) (secs : List Nat) : MemOp :=
  { o with left := o.left.filter (fun x => !(x / 4 == line && secs.contains (x % 4))) }

theorem State.storeHit_step (step : CoreStep base s c k ms) (h : k.Latest old o) (secs : List Nat) (bs : List (Nat × Byte)) :
    CoreStep base (s.storeHit c o line secs bs) c { k.stored c o line secs bs with ops := old ++ [o.without line secs] } ms := by
  have hit : CoreStep base (s.storeHit c o line secs bs) c (match (k.stored c o line secs bs).opOf o.id with
      | some o' => (k.stored c o line secs bs).setOp (o'.without line secs)
      | none => k.stored c o line secs bs) ms := step.modCore _
  have latest : (k.stored c o line secs bs).Latest old o := h.keep rfl
  rw [latest.opOf] at hit
  simp only [latest.setOp (o' := o.without line secs) rfl] at hit
  exact hit

theorem State.endOp_store (store : o.kind = .store) (acquire : o.acquire = false) : s.endOp c o = s.modCore c (fun k => k.dropOp o.id) := by
  unfold State.endOp
  simp [store, acquire]

theorem CoreStep.countStore (step : CoreStep base s c k ms) (near : Bool) (part : Nat → Bool) (l : List Nat) :
    CoreStep base (s.countStore c near part l) c k ms := by
  unfold State.countStore
  split
  · exact step
  · exact (step.kcount _ _).kcount _ _

theorem State.startL1_store (step : CoreStep base s c k ms) (h : k.Latest old o) (replay : k.replay = [])
    (waiters : ∀ m ∈ k.miss, o.id ∉ m.waiters) (on : o.OnLine line) (store : o.kind = .store) (acquire : o.acquire = false)
    (owns : k.Owns line o.touched) :
    CoreStep base (s.startL1 c o) c { k.stored c (o.entering []) line o.touched (o.storeBytes line) with ops := old } ms := by
  have entered := State.entered_step step h line
  set k1 : Core := { k with ops := old ++ [o.entering []] }
  have latest1 : k1.Latest old (o.entering []) := h.update (o' := o.entering []) rfl rfl rfl
  have toEnter : ((s.entered c line o).core c).toEnter (o.entering []) line = o.touched := by
    rw [entered.core]
    exact Core.toEnter_entering on waiters
  have owns1 : ((s.entered c line o).core c).Owns line (((s.entered c line o).core c).toEnter (o.entering []) line) := by
    rw [toEnter, entered.core]
    exact ⟨owns.st, owns.misses, owns.valid⟩
  have waits : ((s.entered c line o).core c).toEnter (o.entering []) line ≠ [] := by rw [toEnter]; exact on.touched_ne_nil
  have notLoad : ¬(o.entering []).kind = .load := by rw [show (o.entering []).kind = .store from store]; decide
  obtain ⟨part, performed⟩ := State.l1Store_owned owns1 waits store
  rw [toEnter, show (o.entering []).storeBytes line = o.storeBytes line from rfl, on.storeBytes_touched] at performed
  have look := State.enterLine_eq (o := o.entering []) (by rw [entered.core]; exact latest1.opOf) (Or.inr store) waits
  rw [if_neg notLoad, performed] at look
  obtain ⟨hits, misses, start⟩ := State.startL1_line step h replay on look
  have hit := State.storeHit_step (line := line) ((entered.allocMiss_nil (line := line) [] (fun _ => true)).countStore false part []) latest1
    o.touched (o.storeBytes line)
  set o2 := (o.entering []).without line o.touched with ho2
  have left : o2.left = [] := by
    refine List.filter_eq_nil_iff.2 fun x hx => ?_
    have here := on.mem_sectors.1 hx
    simp [here.1, on.mem_touched.2 ⟨Nat.mod_lt x (by decide), here.2⟩]
  have latest2 : Core.Latest { k1.stored c (o.entering []) line o.touched (o.storeBytes line) with ops := old ++ [o2] } old o2 :=
    latest1.update (o' := o2) rfl rfl rfl
  have counted := hit.countLook hits misses
  have ended := counted.modCore (fun k => k.dropOp o2.id)
  rw [latest2.dropOp] at ended
  rw [start, show o.id = o2.id from rfl, State.checkOp_end (o := o2) (by rw [counted.core]; exact latest2.opOf) left rfl,
    State.endOp_store (o := o2) store acquire]
  exact ended

/-- A store to a line held in E or M, from its issue to its end. -/
theorem State.addOp_store (step : CoreStep base s c k ms) (clear : k.clearFor o.slot) (free : k.writesFree o.slot) (on : o.OnLine line)
    (store : o.kind = .store) (new : o.started = false) (acquire : o.acquire = false) (owns : k.Owns line o.touched) :
    let o' := { o with id := k.nextOp }
    CoreStep base (s.addOp c o []) c
      { (k.adding o []).stored c (o'.entering []) line o.touched (o.storeBytes line) with ops := k.ops } ms := by
  obtain ⟨added, latest, start⟩ := State.addOp_start step clear [] new (Or.inr free)
  obtain ⟨-, waiters, replay, slot⟩ := clear
  rw [start.trans (congrArg _ store)]
  exact State.startL1_store added latest replay waiters ⟨on.some, on.inside⟩ store acquire ⟨owns.st, owns.misses, owns.valid⟩

end

end Sys2Proof.Machine
end

section
/-! PROOF. A store whose line the L1 holds in E or M (O19). -/

namespace Sys2Proof.Machine

set_option Elab.async false

theorem Group.awaiting_nil (g : Group) : g.awaiting [] = g := by
  rw [Group.awaiting, List.filter_nil, List.append_nil]

/-- Settles O19: the store is added, writes its bytes into its line and ends. -/
theorem storeHitsTheL1 : Obligations.StoreHitsTheL1 := by
  unfold Obligations.StoreHitsTheL1
  intro w s u x r line z n form k l h act order faults trans here back clear free st holds misses
  have quiet : Quiet (u.advanced w z form) x := by
    have := State.coreAddrs_quiet w.core z.g.quarter z.l.cove true true (z.addrs n) (u.advanced w z form)
    rwa [trans] at this
  have threads : r.map Prod.fst = z.threads := State.coreAddrs_act trans
  have some : r ≠ [] := fun none => Iss.threads_ne_nil act (threads ▸ none ▸ rfl)
  have group : x.group w.core w.slot = z.moved form := State.advanced_quiet_group quiet
  have dev : ∀ a ∈ accesses r n, inHost a.pa = false ∧ a.wt = false := fun a ha => by
    refine ⟨(here.access z.i.width_pos ha).2, ?_⟩
    obtain ⟨th, va, pa, e, hp, rfl⟩ := mem_accesses.1 ha
    exact back _ hp pa e rfl
  have noAcq : z.i.acq = false := by rw [Ins.acq, order]; rfl
  let o : MemOp := { z.memOp with kind := .store, bytes := n, acc := accesses r n, vals := z.threads.map (fun t => (t, z.g.rvk z.i.d t (widthRegs z.i))) }
  have on : o.OnLine line := here.onLine z.i.width_pos some rfl
  have host : (accesses r n).filter (fun a => inHost a.pa) = [] := List.filter_eq_nil_iff.2 fun a ha => by simp [dev a ha]
  have wt : (accesses r n).filter (fun a => !inHost a.pa && a.wt) = [] := List.filter_eq_nil_iff.2 fun a ha => by simp [dev a ha]
  have l1 : (accesses r n).filter (fun a => !inHost a.pa && !a.wt) = accesses r n := List.filter_eq_self.2 fun a ha => by simp [dev a ha]
  have run : exec (.st w) s = .next ((x.countAcc w.core (accesses r n) []).addOp w.core o []) := by
    refine (congrArg Host.Outcome.next (State.issue_next h rfl rfl faults (State.memHold_of_clear quiet clear) h.group)).trans
      (congrArg Host.Outcome.next ?_)
    rw [show s.view w = z from rfl]
    simp only [show (u.advanced w z form).coreAddrs z.core z.g.quarter z.l.cove true (z.addrs z.i.width) = (r, x) from trans,
      show accesses r z.i.width = accesses r n from rfl, host, wt, l1]
    rw [List.filter_cons_of_pos (by simpa using on.some),
      show List.filter _ [(OpKind.bypStore, 0, ([] : List Access)), (.hostSt, 0, [])] = [] from rfl, State.addParts_one]
    rfl
  have done := State.addOp_store (o := o) ((CoreStep.refl x w.core).countAcc (accesses r n) []) clear free on rfl rfl noAcq
    ⟨st, misses, fun i hi => ⟨(on.mem_touched.1 hi).1, (holds.touched on rfl hi).1⟩⟩
  obtain ⟨state, data, dirty⟩ := Core.stored_line (k.adding o []) w.core (MemOp.entering { o with id := k.nextOp } []) line o.touched (o.storeBytes line)
  set k' : Core := { (k.adding o []).stored w.core (MemOp.entering { o with id := k.nextOp } []) line o.touched (o.storeBytes line) with ops := k.ops }
  have stored : ∀ b, ((((x.countAcc w.core (accesses r n) []).addOp w.core o []).core w.core).line line).data.read b =
      (l.data.puts (o.storeBytes line)).read b := fun b => by
    rw [done.core]
    exact congrArg (fun m : Mem => m.read b) data
  have order : (accesses r n).Pairwise (fun a a' => a.thread < a'.thread) := by
    rw [← List.pairwise_map, accesses_threads n here.ok, threads]
    exact maskBits_pairwise z.act
  refine ⟨_, run, done.onlyCore, done.net.trans (List.append_nil _), fun th va pa e b hp low high last => ?_, fun b none => ?_,
    (congrArg (fun k : Core => (k.line line).st) done.core).trans state, fun i hi => ?_, ?_, fun g hg => ?_,
    (congrArg Core.ops done.core : _ = k'.ops)⟩
  · obtain ⟨before, after, split⟩ := List.append_of_mem (mem_accesses.2 ⟨th, va, pa, e, hp, rfl⟩ : _ ∈ accesses r n)
    have act : th ∈ z.threads := threads ▸ List.mem_map_of_mem (f := Prod.fst) hp
    rw [stored, on.read_puts l.data b split ⟨low, high⟩ fun a' ha' covers => ?_, valOf, mget_map_mem _ act]
    have ha : a' ∈ accesses r n := split ▸ List.mem_append_right _ (List.mem_cons_of_mem _ ha')
    have later := (List.pairwise_cons.1 (List.pairwise_append.1 (split ▸ order)).2.1).1 a' ha'
    obtain ⟨th', va', pa', e', hp', rfl⟩ := mem_accesses.1 ha
    exact last th' va' pa' e' hp' later covers
  · rw [stored, on.read_puts_none l.data b fun a ha covers => ?_]
    obtain ⟨th, va, pa, e, hp, rfl⟩ := mem_accesses.1 ha
    exact none th va pa e hp covers
  · rw [done.core, show (k'.line line).dirty = _ from dirty, bit, Nat.testBit_or, ← bit, ← bit, bit_maskOfSecs]
    congr 1
    rw [Bool.eq_iff_iff, List.contains_iff_mem, on.mem_touched, List.any_eq_true]
    constructor
    · rintro ⟨-, a, ha, before, after⟩
      obtain ⟨th, va, pa, e, hp, rfl⟩ := mem_accesses.1 ha
      exact ⟨_, hp, by simpa using ⟨before, after⟩⟩
    · rintro ⟨⟨th, va, acc⟩, hp, touches⟩
      obtain ⟨pa, e, rfl⟩ := here.ok _ hp
      exact ⟨hi, _, mem_accesses.2 ⟨th, va, pa, e, hp, rfl⟩, (by simpa using touches : _ ∧ _)⟩
  · rw [done.group]
    exact (Core.adding_group k o []).trans ((Group.awaiting_nil _).trans group)
  · rw [done.group]
    exact Core.adding_group_ne k o [] hg

end Sys2Proof.Machine
end

section
/-! SUPPORT. A request that a core sends to the home of a line. -/

namespace Sys2Proof.Machine

set_option Elab.async false

section
variable {base s : State} {c : Nat} {k : Core} {ms : List Msg} {old : List MemOp} {o : MemOp}

/-- The message of a request, before the request's kind adds to it. -/
def State.requestMsg (s : State) (c cove line : Nat) (ty : MTy) (mask aux flags : Nat) : Msg :=
  { ty := ty, dst := homeNode (s.home cove line), src := c, req := c, txn := (s.core c).nextTxn, mask := mask, aux := aux,
    flags := flags, commons := s.isCommons (line * 128) || s.isMgmt (line * 128), cove := cove, line := line }

theorem CoreStep.request (step : CoreStep base s c k ms) (cove line : Nat) (ty : MTy) (mask aux flags : Nat) (f : Msg → Msg) (op : Nat)
    (threads : List Nat) : ∃ next reqs, CoreStep base (s.request c cove line ty mask aux flags f op threads) c
      { k with nextTxn := next, reqs := reqs } (ms ++ [f (s.requestMsg c cove line ty mask aux flags)]) := by
  obtain rfl := step.core
  exact ⟨_, _, (step.setCore _).send _⟩

/-- A request changes neither what homes are nor the core's cove. -/
theorem State.request_home (s : State) (c line : Nat) (ty : MTy) (mask aux flags : Nat) (f : Msg → Msg) (op : Nat) (threads : List Nat) :
    let t := s.request c (s.coreCove c) line ty mask aux flags f op threads
    s.home (s.coreCove c) line = t.home (t.coreCove c) line := rfl

/-- A bypassing load of one line: one SnoopRd leaves. -/
theorem State.startSnoop_line {line : Nat} (step : CoreStep base s c k ms) (h : k.Latest old o) (on : o.OnLine line) :
    ∃ m next reqs, CoreStep base (s.startSnoop c o) c
      { k with ops := old ++ [{ o with started := true, left := o.sectors }], nextTxn := next, reqs := reqs } (ms ++ [m]) ∧
      m.ty = .snoopRd ∧ m.dst = homeNode ((s.startSnoop c o).home ((s.startSnoop c o).coreCove c) line) ∧ m.src = c ∧ m.line = line ∧
      m.mask = maskOfSecs o.touched := by
  let o' : MemOp := { o with started := true, left := o.sectors }
  have started := step.modCore (fun k => k.setOp o')
  rw [h.setOp (o' := o') rfl] at started
  set v := s.modCore c (fun k => k.setOp o')
  have run : s.startSnoop c o = v.request c (v.coreCove c) line .snoopRd (maskOfSecs o.touched) 0 (if o.outer then 2 ^ Msg.fOUTER else 0) id o.id [] := by
    rw [State.startSnoop, on.lines_eq, List.foldl_cons, List.foldl_nil, on.secsOf_eq]
  rw [run]
  obtain ⟨next, reqs, sent⟩ := started.request (v.coreCove c) line .snoopRd (maskOfSecs o.touched) 0 (if o.outer then 2 ^ Msg.fOUTER else 0) id o.id []
  exact ⟨_, next, reqs, sent, rfl, congrArg homeNode (v.request_home c line _ _ _ _ _ _ _), rfl, rfl, rfl⟩

/-- A bypassing store of one line: one AtomFar WRITE leaves. -/
theorem State.startWrite_line {line : Nat} (step : CoreStep base s c k ms) (h : k.Latest old o) (on : o.OnLine line) :
    ∃ m next reqs, CoreStep base (s.startWrite c o) c
      { k with ops := old ++ [{ o with started := true, left := [line] }], nextTxn := next, reqs := reqs } (ms ++ [m]) ∧
      m.ty = .atomFar ∧ m.op = .write ∧ m.dst = homeNode ((s.startWrite c o).home ((s.startWrite c o).coreCove c) line) ∧ m.src = c ∧
      m.line = line ∧ m.mask = maskOfSecs o.touched := by
  let o' : MemOp := { o with started := true, left := [line] }
  have started := step.modCore (fun k => k.setOp o')
  rw [h.setOp (o' := o') rfl] at started
  set v := s.modCore c (fun k => k.setOp o')
  obtain ⟨data, run⟩ : ∃ data, s.startWrite c o =
      v.request c (v.coreCove c) line .atomFar (maskOfSecs o.touched) 0 0 (fun m => { m with op := .write, data := data }) o.id [] := by
    rw [State.startWrite, on.lines_eq, List.foldl_cons, List.foldl_nil, on.secsOf_eq]
    exact ⟨_, rfl⟩
  rw [run]
  obtain ⟨next, reqs, sent⟩ := started.request (v.coreCove c) line .atomFar (maskOfSecs o.touched) 0 0
    (fun m => { m with op := .write, data := data }) o.id []
  exact ⟨_, next, reqs, sent, rfl, rfl, congrArg homeNode (v.request_home c line _ _ _ _ _ _ _), rfl, rfl, rfl⟩

end

end Sys2Proof.Machine
end

section
/-! PROOF. The shelf loads and stores (O22). -/

namespace Sys2Proof.Machine

set_option Elab.async false

section
variable {u : State} {z : Iss}

/-- Every acting thread's offset is aligned and inside the cove's window. -/
def Iss.inWindow (z : Iss) (u : State) : Prop :=
  ∀ th, z.act.getLsbD th = true → z.ea z.i.width th % z.i.width = 0 ∧ z.ea z.i.width th + z.i.width ≤ u.windowBytes z.l.cove

theorem shelfFaults_nil (h : z.inWindow u) : shelfFaults u z = [] := by
  have each : ∀ a ∈ (z.addrs z.i.width).map Prod.snd, a % z.i.width = 0 ∧ a + z.i.width ≤ u.windowBytes z.l.cove := fun a ha => by
    simp only [Iss.addrs, List.map_map, List.mem_map] at ha
    obtain ⟨t, ht, rfl⟩ := ha
    exact h t (Iss.mem_threads.1 ht).2
  rw [shelfFaults, faultAt_filter_nil _ _ _ (fun a ha => by simp [(each a ha).1]),
    faultAt_filter_nil _ _ _ (fun a ha => by simpa using (each a ha).2)]
  rfl

theorem mem_shelfAcc {a : Access} : a ∈ shelfAcc z ↔
    ∃ th, z.act.getLsbD th = true ∧ a = { thread := th, pa := shelfBase z.l.cove + z.ea z.i.width th, bytes := z.i.width } := by
  simp only [shelfAcc, Iss.addrs, List.map_map, List.mem_map, Iss.mem_threads]
  constructor
  · rintro ⟨th, ⟨-, act⟩, rfl⟩
    exact ⟨th, act, rfl⟩
  · rintro ⟨th, act, rfl⟩
    exact ⟨th, ⟨Iss.lt_of_act act, act⟩, rfl⟩

end

/-- Settles O22: without faults or waits the instruction is added, starts, and its one request leaves. -/
theorem shelfScratchGoesPastTheL1 : Obligations.ShelfScratchGoesPastTheL1 := by
  unfold Obligations.ShelfScratchGoesPastTheL1
  intro w s u line z n k at_ ldForm stForm touched clear free place
  have inside : z.inWindow u := fun th act => ⟨(place th act).1, (place th act).2.1⟩
  have faultless : shelfFaults u (s.view w) = [] := shelfFaults_nil inside
  have hold : memHold u (s.view w) = .none := memHold_none (fun o ho => (clear.1 o ho).2.2.1) clear.2.2.1
  have onLine : z.act ≠ 0 → ∀ o : MemOp, o.acc = shelfAcc z → o.OnLine line := fun act o acc => by
    refine ⟨fun none => Iss.threads_ne_nil act ?_, fun a ha => ?_⟩
    · rw [acc] at none
      exact List.map_eq_nil_iff.1 (List.map_eq_nil_iff.1 none)
    · obtain ⟨th, act, rfl⟩ := mem_shelfAcc.1 (acc ▸ ha)
      exact ⟨(place th act).2.2.1, (place th act).2.2.2, z.i.width_pos⟩
  have mask : z.act ≠ 0 → ∀ o : MemOp, o.acc = shelfAcc z → ∀ i < 4, bit (maskOfSecs o.touched) i = touched i := fun act o acc i hi => by
    rw [bit_maskOfSecs, Bool.eq_iff_iff, List.contains_iff_mem, (onLine act o acc).mem_touched, List.any_eq_true, acc]
    constructor
    · rintro ⟨-, a, ha, touches⟩
      obtain ⟨th, act, rfl⟩ := mem_shelfAcc.1 ha
      refine ⟨th, Iss.mem_threads_of_act act, ?_⟩
      rw [Bool.and_eq_true, decide_eq_true_eq, decide_eq_true_eq]
      exact touches
    · rintro ⟨th, act, touches⟩
      exact ⟨hi, _, mem_shelfAcc.2 ⟨th, (Iss.mem_threads.1 act).2, rfl⟩, (by simpa using touches : _ ∧ _)⟩
  refine ⟨fun act order h => ?_, fun act order h => ?_, fun act h => ?_, fun act h => ?_⟩
  · let o : MemOp := { z.memOp with kind := .bypLoad, dst := z.i.d, bytes := z.i.width, acc := shelfAcc z }
    let dst := destRegs z.i.d (widthRegs z.i)
    have run : exec (.ldShelf w) s = .next ((u.advanced w z ldForm).addOp w.core o dst) :=
      (congrArg Host.Outcome.next (State.issue_next h rfl rfl faultless hold h.group)).trans (congrArg Host.Outcome.next (if_neg act))
    obtain ⟨added, latest, start⟩ := State.addOp_start (o := o) (State.advanced_step u w z ldForm) clear dst rfl (Or.inl rfl)
    obtain ⟨m, next, reqs, sent, ty, home, src, hline, hmask⟩ := State.startSnoop_line added latest (onLine act _ rfl)
    have run := run.trans (congrArg Host.Outcome.next start)
    refine ⟨_, m, _, run, sent.onlyCore, sent.net, ty, home, src, hline, fun i hi => ?_, congrArg Core.ops sent.core, rfl, rfl, rfl, ?_⟩
    · rw [hmask]
      exact mask act { o with id := k.nextOp } rfl i hi
    · refine (sent.group w.slot).trans ((Core.adding_group _ o dst).trans ?_)
      refine (congrArg (Group.awaiting · dst) (Core.group_setGroup (u.core w.core) w.slot (z.moved ldForm))).trans ?_
      rw [Group.awaiting, Iss.moved_busyV]
      rfl
  · let o : MemOp := { z.memOp with
      kind := .bypStore, bytes := z.i.width, acc := shelfAcc z, vals := z.threads.map (fun t => (t, z.g.rvk z.i.d t (widthRegs z.i))) }
    have run : exec (.stShelf w) s = .next ((u.advanced w z stForm).addOp w.core o []) :=
      (congrArg Host.Outcome.next (State.issue_next h rfl rfl faultless hold h.group)).trans (congrArg Host.Outcome.next (if_neg act))
    obtain ⟨added, latest, start⟩ := State.addOp_start (o := o) (State.advanced_step u w z stForm) clear [] rfl (Or.inr free)
    obtain ⟨m, next, reqs, sent, ty, op, home, src, hline, hmask⟩ := State.startWrite_line added latest (onLine act _ rfl)
    have run := run.trans (congrArg Host.Outcome.next start)
    refine ⟨_, m, _, run, sent.onlyCore, sent.net, ty, op, home, src, hline, fun i hi => ?_, congrArg Core.ops sent.core, rfl, rfl, ?_⟩
    · rw [hmask]
      exact mask act { o with id := k.nextOp } rfl i hi
    · refine (sent.group w.slot).trans ((Core.adding_group _ o []).trans ?_)
      exact (Group.awaiting_nil _).trans (Core.group_setGroup (u.core w.core) w.slot (z.moved stForm))
  · exact (congrArg Host.Outcome.next (State.issue_next h rfl rfl faultless hold h.group)).trans (congrArg Host.Outcome.next (if_pos act))
  · exact (congrArg Host.Outcome.next (State.issue_next h rfl rfl faultless hold h.group)).trans (congrArg Host.Outcome.next (if_pos act))

end Sys2Proof.Machine
end

section
/-! SUPPORT. An atomic on one target: its members in turn, near on a line held in E or M, or far as one request. -/

namespace Sys2Proof.Machine

set_option Elab.async false

/-! ### Values in turn -/

/-- A number written and read back. -/
theorem Mem.readLE_writeLE (m : Mem) (a n v : Nat) : (m.writeLE a n v).readLE a n = v % 256 ^ n := by
  induction n generalizing m a v with
  | zero => rw [pow_zero, Nat.mod_one]; rfl
  | succ n ih =>
    have first : (m.writeLE a (n + 1) v).read a = BitVec.ofNat 8 v := by
      simpa using Mem.read_writeLE m a (n + 1) v 0 (by omega)
    rw [Mem.readLE, first, Mem.writeLE, ih, BitVec.toNat_ofNat, pow_succ' 256 n, Nat.mod_mul]

/-- Members in turn: the value after all of them, and with each member the value it found. -/
theorem atomSeq_eq (op : AOp) (f : Fmt) (old : Nat) (members : List (Nat × Nat × Nat)) :
    (atomSeq op f old members).1 = members.foldl (fun v m => atomApply op f v m.2.1 m.2.2) old ∧
    (atomSeq op f old members).2.map Prod.fst = members.map Prod.fst ∧
    ∀ before m after, members = before ++ m :: after →
      (m.1, before.foldl (fun v m => atomApply op f v m.2.1 m.2.2) old) ∈ (atomSeq op f old members).2 := by
  have general : ∀ l v found, l.foldl (fun r m => (atomApply op f r.1 m.2.1 m.2.2, r.2 ++ [(m.1, r.1)])) (v, found) =
      ((l.foldl (fun v m => atomApply op f v m.2.1 m.2.2) v), found ++ (atomSeq op f v l).2) := by
    intro l
    induction l with
    | nil => intro v found; simp [atomSeq]
    | cons m l ih =>
      intro v found
      have found' : (atomSeq op f v (m :: l)).2 = [(m.1, v)] ++ (atomSeq op f (atomApply op f v m.2.1 m.2.2) l).2 := by
        rw [atomSeq, List.foldl_cons, ih]
        rfl
      rw [found', List.foldl_cons, List.foldl_cons, ih, List.append_assoc]
  have cons : ∀ v m l, (atomSeq op f v (m :: l)).2 = (m.1, v) :: (atomSeq op f (atomApply op f v m.2.1 m.2.2) l).2 := fun v m l => by
    rw [atomSeq, List.foldl_cons, general]
    rfl
  refine ⟨by rw [atomSeq, general], ?_, ?_⟩
  · induction members generalizing old with
    | nil => rfl
    | cons m l ih => rw [cons, List.map_cons, ih, List.map_cons]
  · intro before m after split
    subst split
    induction before generalizing old with
    | nil => rw [List.nil_append, cons]; exact List.mem_cons_self
    | cons m' before ih => rw [List.cons_append, cons]; exact List.mem_cons_of_mem _ (ih _)

theorem minsert_append {α : Type} {m : List (Nat × α)} {j : Nat} {v : α} (h : ∀ p ∈ m, p.1 < j) : minsert j v (merase m j) = m ++ [(j, v)] := by
  have keep : merase m j = m := List.filter_eq_self.2 fun p hp => by have := h p hp; simp; omega
  rw [keep]
  induction m with
  | nil => rfl
  | cons p m ih =>
    have := h p List.mem_cons_self
    rw [minsert, if_neg (by omega), ih (fun q hq => h q (List.mem_cons_of_mem _ hq)) (List.filter_eq_self.2 fun q hq => by
      have := h q (List.mem_cons_of_mem _ hq); simp; omega), List.cons_append]

/-- Keys that rise are entered as they are listed. -/
theorem foldl_minsert_sorted {α : Type} (l m : List (Nat × α)) (h : (m ++ l).Pairwise (fun p q => p.1 < q.1)) :
    l.foldl (fun m q => minsert q.1 q.2 (merase m q.1)) m = m ++ l := by
  induction l generalizing m with
  | nil => rw [List.foldl_nil, List.append_nil]
  | cons q l ih =>
    have before : ∀ p ∈ m, p.1 < q.1 := fun p hp => (List.pairwise_append.1 h).2.2 p hp q List.mem_cons_self
    rw [List.foldl_cons, minsert_append before, ih _ (by rwa [List.append_assoc]), List.append_assoc]
    rfl

/-! ### One target -/

theorem targets_one {acc : List Access} {pa : Nat} (some : acc ≠ []) (all : ∀ a ∈ acc, a.pa = pa) : targets acc = [(pa, acc.map Access.thread)] := by
  have general : ∀ (l : List Access) ts, (∀ a ∈ l, a.pa = pa) → l.foldl (fun l a =>
      if l.any (fun p => p.1 == a.pa) then l.map (fun p => if p.1 == a.pa then (p.1, p.2 ++ [a.thread]) else p)
      else l ++ [(a.pa, [a.thread])]) [(pa, ts)] = [(pa, ts ++ l.map Access.thread)] := by
    intro l
    induction l with
    | nil => intro ts _; rw [List.foldl_nil, List.map_nil, List.append_nil]
    | cons a l ih =>
      intro ts all
      rw [List.foldl_cons, if_pos (by simp [all a List.mem_cons_self])]
      simp only [List.map_cons, List.map_nil, all a List.mem_cons_self, beq_self_eq_true, if_true]
      rw [ih _ fun a ha => all a (List.mem_cons_of_mem _ ha), List.append_assoc]
      rfl
  match acc, some with
  | a :: l, _ =>
    rw [targets, List.foldl_cons, List.any_nil, if_neg (by decide), List.nil_append, all a List.mem_cons_self,
      general l _ fun a ha => all a (List.mem_cons_of_mem _ ha)]
    rfl

section
variable {base s : State} {c line pa : Nat} {k : Core} {ms : List Msg} {old : List MemOp} {o o' : MemOp}

/-- The instruction with a sector of a line no longer waited for. -/
def MemOp.leaving (o : MemOp) (line sec : Nat) : MemOp := { o with left := sdel (4 * line + sec) o.left }

theorem CoreStep.leave (step : CoreStep base s c k ms) (h : k.Latest old o') (id : o'.id = o.id) (sec : Nat) :
    CoreStep base (s.modCore c (fun k => match k.opOf o.id with
      | some o => k.setOp (o.leaving line sec)
      | none => k)) c { k with ops := old ++ [o'.leaving line sec] } ms := by
  have next := step.modCore (fun k => match k.opOf o.id with
    | some o => k.setOp (o.leaving line sec)
    | none => k)
  rw [← id, h.opOf] at next
  simp only [h.setOp (o' := o'.leaving line sec) rfl] at next
  rwa [id] at next

/-- A sector in which no target starts. -/
theorem State.nearExec_skip (step : CoreStep base s c k ms) (h : k.Latest old o') (id : o'.id = o.id) (sec : Nat)
    (none : ∀ a ∈ o.acc, a.pa / 32 ≠ 4 * line + sec) :
    CoreStep base (s.nearExec c o line sec) c { k with ops := old ++ [o'.leaving line sec] } ms := by
  have empty : o.acc.filter (fun a => a.pa / 32 == 4 * line + sec) = [] := List.filter_eq_nil_iff.2 fun a ha => by simpa using none a ha
  rw [State.nearExec, empty]
  exact step.leave h id sec

/-- The members of an atomic on one target, with their operands. -/
def MemOp.members (o : MemOp) : List (Nat × Nat × Nat) := (o.acc.map Access.thread).map (fun t => (t, valOf o.vals t, valOf o.vals2 t))

/-- The line with an atomic performed on its target. -/
def L1Line.performed (l : L1Line) (c : Nat) (o : MemOp) (pa sec : Nat) : L1Line :=
  let n := atomBytes o.aop o.fmt
  { l with
    data := l.data.writeLE (pa % 128) n (atomSeq o.aop o.fmt (l.data.readLE (pa % 128) n) o.members).1
    dirty := l.dirty ||| 2 ^ sec, tag := o.relTag c, ref := true }

/-- The instruction with the values that its members found. -/
def MemOp.found (o : MemOp) (l : List (Nat × Nat)) : MemOp := { o with olds := l.foldl (fun m q => minsert q.1 q.2 (merase m q.1)) o.olds }

/-- The sector in which the one target starts. -/
theorem State.nearExec_target (step : CoreStep base s c k ms) (h : k.Latest old o') (id : o'.id = o.id) (sec : Nat) (ne : o.acc ≠ [])
    (all : ∀ a ∈ o.acc, a.pa = pa) (here : pa / 32 = 4 * line + sec) :
    CoreStep base (s.nearExec c o line sec) c { k.setLine line ((k.line line).performed c o pa sec) with
      ops := old ++ [(o'.found (atomSeq o.aop o.fmt ((k.line line).data.readLE (pa % 128) (atomBytes o.aop o.fmt)) o.members).2).leaving line sec] } ms := by
  have every : o.acc.filter (fun a => a.pa / 32 == 4 * line + sec) = o.acc := List.filter_eq_self.2 fun a ha => by simp [all a ha, here]
  obtain ⟨found, hfound⟩ : ∃ l, l = (atomSeq o.aop o.fmt ((k.line line).data.readLE (pa % 128) (atomBytes o.aop o.fmt)) o.members).2 := ⟨_, rfl⟩
  rw [← hfound]
  have performed : CoreStep base (s.modCore c (fun k =>
      let k' := k.setLine line ((k.line line).performed c o pa sec)
      match k'.opOf o.id with
      | some o' => k'.setOp (o'.found (atomSeq o.aop o.fmt ((k.line line).data.readLE (pa % 128) (atomBytes o.aop o.fmt)) o.members).2)
      | none => k')) c { k.setLine line ((k.line line).performed c o pa sec) with ops := old ++ [o'.found found] } ms := by
    have next := step.modCore (fun k =>
      let k' := k.setLine line ((k.line line).performed c o pa sec)
      match k'.opOf o.id with
      | some o' => k'.setOp (o'.found (atomSeq o.aop o.fmt ((k.line line).data.readLE (pa % 128) (atomBytes o.aop o.fmt)) o.members).2)
      | none => k')
    have latest : (k.setLine line ((k.line line).performed c o pa sec)).Latest old o' := h.keep rfl
    have op : (k.setLine line ((k.line line).performed c o pa sec)).opOf o.id = .some o' := id ▸ latest.opOf
    simp only [op] at next
    rw [← hfound, latest.setOp (o' := o'.found found) rfl] at next
    exact next
  have latest : Core.Latest { k.setLine line ((k.line line).performed c o pa sec) with ops := old ++ [o'.found found] } old (o'.found found) :=
    h.update (o' := o'.found found) rfl rfl rfl
  rw [State.nearExec, every, targets_one ne all]
  exact performed.leave (line := line) latest id sec

/-- The instruction with several sectors of a line no longer waited for. -/
def MemOp.leavingAll (o : MemOp) (line : Nat) (l : List Nat) : MemOp := { o with left := l.foldl (fun left i => sdel (4 * line + i) left) o.left }

theorem State.foldl_nearExec_skip (l : List Nat) (step : CoreStep base s c k ms) (h : k.Latest old o') (id : o'.id = o.id)
    (none : ∀ i ∈ l, ∀ a ∈ o.acc, a.pa / 32 ≠ 4 * line + i) :
    CoreStep base (l.foldl (fun s i => s.nearExec c o line i) s) c { k with ops := old ++ [o'.leavingAll line l] } ms := by
  induction l generalizing s k o' with
  | nil =>
    rw [show o'.leavingAll line [] = o' from rfl, ← h.ops]
    exact step
  | cons i l ih =>
    have one := State.nearExec_skip step h id i (none i List.mem_cons_self)
    exact ih one (h.update (o' := o'.leaving line i) rfl rfl rfl) id fun j hj => none j (List.mem_cons_of_mem _ hj)

theorem mem_foldl_sdel (line : Nat) (l left : List Nat) (x : Nat) :
    x ∈ l.foldl (fun left i => sdel (4 * line + i) left) left ↔ x ∈ left ∧ ∀ i ∈ l, x ≠ 4 * line + i := by
  induction l generalizing left with
  | nil => simp
  | cons i l ih =>
    rw [List.foldl_cons, ih, mem_sdel, List.forall_mem_cons]
    tauto

/-- The instruction once every member has been performed. -/
def MemOp.nearDone (o : MemOp) (line : Nat) (found : List (Nat × Nat)) : MemOp := ((o.entering []).leavingAll line o.touched).found found

theorem MemOp.OnLine.nearDone_left (on : o.OnLine line) (found : List (Nat × Nat)) : (o.nearDone line found).left = [] := by
  refine List.eq_nil_iff_forall_not_mem.2 fun x hx => ?_
  obtain ⟨waits, gone⟩ := (mem_foldl_sdel line o.touched o.sectors x).1 hx
  rw [on.sectors_eq, List.mem_map] at waits
  obtain ⟨i, hi, rfl⟩ := waits
  exact gone i hi rfl

/-- Every sector of a near atomic on one target. -/
theorem State.foldl_nearExec (step : CoreStep base s c k ms) (h : k.Latest old (o.entering [])) (on : o.OnLine line)
    (all : ∀ a ∈ o.acc, a.pa = pa) :
    CoreStep base (o.touched.foldl (fun s i => s.nearExec c (o.entering []) line i) s) c
      { k.setLine line ((k.line line).performed c o pa (pa / 32 % 4)) with
        ops := old ++ [o.nearDone line (atomSeq o.aop o.fmt ((k.line line).data.readLE (pa % 128) (atomBytes o.aop o.fmt)) o.members).2] } ms := by
  obtain ⟨a, ha⟩ := List.exists_mem_of_ne_nil _ on.some
  have start := all a ha ▸ on.start_mem ha
  have line_of : pa / 32 / 4 = line := (on.mem_sectors.1 start).1
  have here : pa / 32 = 4 * line + pa / 32 % 4 := by omega
  have mem : pa / 32 % 4 ∈ o.touched := List.mem_map_of_mem (f := fun x => x % 4) start
  obtain ⟨before, after, split⟩ := List.append_of_mem mem
  have nodup := on.touched_nodup
  rw [split] at nodup
  obtain ⟨-, nodup', apart⟩ := List.nodup_append.1 nodup
  have others : ∀ i, i ≠ pa / 32 % 4 → ∀ a ∈ (o.entering []).acc, a.pa / 32 ≠ 4 * line + i := fun i hi a ha => by
    rw [all a ha]
    omega
  have first := State.foldl_nearExec_skip before step h rfl fun i hi => others i (apart i hi _ List.mem_cons_self)
  have latest : Core.Latest { k with ops := old ++ [(o.entering []).leavingAll line before] } old ((o.entering []).leavingAll line before) :=
    h.update (o' := (o.entering []).leavingAll line before) rfl rfl rfl
  have target := State.nearExec_target (o := o.entering []) first latest rfl _ on.some all here
  let found := (atomSeq o.aop o.fmt ((k.line line).data.readLE (pa % 128) (atomBytes o.aop o.fmt)) o.members).2
  let mid := (((o.entering []).leavingAll line before).found found).leaving line (pa / 32 % 4)
  have rest := State.foldl_nearExec_skip after target (h.update (o' := mid) rfl rfl rfl) rfl
    fun i hi => others i fun e => (List.nodup_cons.1 nodup').1 (e ▸ hi)
  have done : mid.leavingAll line after = o.nearDone line found := by
    have left : o.touched.foldl (fun left i => sdel (4 * line + i) left) o.sectors =
        after.foldl (fun left i => sdel (4 * line + i) left)
          (sdel (4 * line + pa / 32 % 4) (before.foldl (fun left i => sdel (4 * line + i) left) o.sectors)) := by
      rw [split, List.foldl_append, List.foldl_cons]
    simp only [MemOp.nearDone, MemOp.found, MemOp.leavingAll, MemOp.entering, mid, MemOp.leaving, left]
  rw [show MemOp.leavingAll _ line after = o.nearDone line found from done] at rest
  rw [split, List.foldl_append, List.foldl_cons]
  exact rest

end

end Sys2Proof.Machine
end

section
/-! SUPPORT. The end of a near atomic, and the one request of a far one. -/

namespace Sys2Proof.Machine

set_option Elab.async false

section
variable {base s : State} {c line pa : Nat} {k : Core} {ms : List Msg} {old : List MemOp} {o o' : MemOp}

/-- The predictor moves once for each target. -/
theorem State.foldl_movePred_step (l : List (Nat × List Nat)) (cont : List Nat) (step : CoreStep base s c k ms) :
    ∃ pred, CoreStep base (l.foldl (fun s p =>
      let up := cont.contains (p.1 / 128)
      (s.modCore c (fun k => k.movePred p.1 up)).kcount c Ev.CORE_PRED_WRONG (boolNat up)) s) c { k with pred := pred } ms := by
  induction l generalizing s k with
  | nil => exact ⟨k.pred, step⟩
  | cons p l ih =>
    have moved := (step.modCore (fun k => k.movePred p.1 (cont.contains (p.1 / 128)))).kcount Ev.CORE_PRED_WRONG
      (boolNat (cont.contains (p.1 / 128)))
    obtain ⟨pred, rest⟩ := ih moved
    exact ⟨pred, rest⟩

theorem State.endOp_near (step : CoreStep base s c k ms) (near : o.kind = .near) (acquire : o.acquire = false) :
    ∃ pred, CoreStep base (s.endOp c o) c
      (if o.dst = 255 then { k with pred := pred }.dropOp o.id else { k with pred := pred }.finish o o.olds) ms := by
  have run : s.endOp c o = (if o.predicted then (targets o.acc).foldl (fun s p =>
      let up := o.cont.contains (p.1 / 128)
      (s.modCore c (fun k => k.movePred p.1 up)).kcount c Ev.CORE_PRED_WRONG (boolNat up)) s else s).modCore c
        (fun k => if o.dst = 255 then k.dropOp o.id else k.finish o o.olds) := by
    unfold State.endOp
    simp [near, acquire]
  rw [run]
  cases o.predicted with
  | false => exact ⟨k.pred, step.modCore _⟩
  | true =>
    obtain ⟨pred, moved⟩ := State.foldl_movePred_step (targets o.acc) o.cont step
    exact ⟨pred, moved.modCore (fun k => if o.dst = 255 then k.dropOp o.id else k.finish o o.olds)⟩

/-- The value that each member of an atomic found. -/
def MemOp.foundOn (o : MemOp) (m : Mem) (pa : Nat) : List (Nat × Nat) :=
  (atomSeq o.aop o.fmt (m.readLE (pa % 128) (atomBytes o.aop o.fmt)) o.members).2

theorem MemOp.foundOn_keys (o : MemOp) (m : Mem) (pa : Nat) : (o.foundOn m pa).map Prod.fst = o.acc.map Access.thread := by
  rw [MemOp.foundOn, (atomSeq_eq _ _ _ _).2.1, MemOp.members, List.map_map]
  exact List.map_id' _

/-- The core once a near atomic has been performed. -/
structure Core.NearDone (k k' : Core) (c : Nat) (old : List MemOp) (o : MemOp) (line pa : Nat) : Prop where
  held : k'.line line = (k.line line).taken.performed c o pa (pa / 32 % 4)
  ops : k'.ops = old
  group : k'.group o.slot = if o.dst = 255 then k.group o.slot else (k.group o.slot).received o (o.foundOn (k.line line).data pa)
  groups : ∀ g, g ≠ o.slot → k'.group g = k.group g

/-- The end of a near atomic whose members have been performed. -/
theorem Core.Latest.nearDone {k' : Core} (h : k'.Latest old o') (same : o'.dst = o.dst ∧ o'.bytes = o.bytes ∧ o'.slot = o.slot)
    (slot : o'.slot < 32) (clean : o'.poison = false ∧ o'.ghost = false)
    (held : k'.line line = (k.line line).taken.performed c o pa (pa / 32 % 4)) (groups : ∀ g, k'.group g = k.group g) :
    k.NearDone (if o'.dst = 255 then k'.dropOp o'.id else k'.finish o' (o.foundOn (k.line line).data pa)) c old o line pa := by
  obtain ⟨dst, bytes, place⟩ := same
  have received : ∀ g vals, Group.received g o' vals = Group.received g o vals := fun g vals => by
    rw [Group.received, Group.received, dst, bytes]
  rw [h.dropOp, h.finish slot clean.1 clean.2, dst, place]
  by_cases none : o.dst = 255
  · rw [if_pos none]
    exact ⟨held, rfl, by rw [if_pos none]; exact groups o.slot, fun g _ => groups g⟩
  · rw [if_neg none]
    refine ⟨held, rfl, ?_, fun g hg => (Core.group_setGroup_ne _ _ hg).trans (groups g)⟩
    rw [if_neg none, ← groups, ← received]
    exact Core.group_setGroup k' o.slot _

theorem State.startL1_near (step : CoreStep base s c k ms) (h : k.Latest old o) (replay : k.replay = [])
    (waiters : ∀ m ∈ k.miss, o.id ∉ m.waiters) (on : o.OnLine line) (near : o.kind = .near) (slot : o.slot < 32)
    (empty : o.olds = [] ∧ o.poison = false ∧ o.ghost = false) (acquire : o.acquire = false)
    (sound : base.fld clsCore (base.corePage c) R.ERR_INJECT_ARM = 0) (owns : k.Owns line o.touched) (all : ∀ a ∈ o.acc, a.pa = pa)
    (rising : (o.acc.map Access.thread).Pairwise (· < ·)) :
    ∃ k', CoreStep base (s.startL1 c o) c k' ms ∧ k.NearDone k' c old o line pa := by
  obtain ⟨olds, poison, ghost⟩ := empty
  have entered := State.entered_step step h line
  set k1 : Core := { k with ops := old ++ [o.entering []] }
  have latest1 : k1.Latest old (o.entering []) := h.update (o' := o.entering []) rfl rfl rfl
  have toEnter : ((s.entered c line o).core c).toEnter (o.entering []) line = o.touched := by
    rw [entered.core]
    exact Core.toEnter_entering on waiters
  have owns1 : ((s.entered c line o).core c).Owns line (((s.entered c line o).core c).toEnter (o.entering []) line) := by
    rw [toEnter, entered.core]
    exact ⟨owns.st, owns.misses, owns.valid⟩
  have waits : ((s.entered c line o).core c).toEnter (o.entering []) line ≠ [] := by rw [toEnter]; exact on.touched_ne_nil
  have notLoad : ¬(o.entering []).kind = .load := by rw [show (o.entering []).kind = .near from near]; decide
  have look := State.enterLine_eq (o := o.entering []) (by rw [entered.core]; exact latest1.opOf) (Or.inl (entered.unarmed sound)) waits
  rw [if_neg notLoad, State.l1Store_near owns1 waits near, toEnter] at look
  obtain ⟨hits, misses, start⟩ := State.startL1_line step h replay on look
  have made := entered.modCore (fun k => k.setLine line (k.line line).taken)
  set k2 : Core := k1.setLine line (k1.line line).taken with hk2
  have line2 : k2.line line = (k.line line).taken := Core.line_setLine _ _ _
  have performed := State.foldl_nearExec made (latest1.keep rfl) on all
  rw [line2] at performed
  have counted := (performed.allocMiss_nil (line := line) [(o.entering []).id] (fun _ => true)).countLook hits misses
  set o3 := o.nearDone line (o.foundOn (k.line line).data pa) with ho3
  set k3 : Core := { k2.setLine line ((k.line line).taken.performed c o pa (pa / 32 % 4)) with ops := old ++ [o3] } with hk3
  have latest3 : k3.Latest old o3 := h.update (o' := o3) rfl rfl rfl
  have olds3 : o3.olds = o.foundOn (k.line line).data pa := by
    show List.foldl _ o.olds _ = _
    rw [olds, foldl_minsert_sorted, List.nil_append]
    rw [List.nil_append, ← List.pairwise_map, o.foundOn_keys]
    exact rising
  obtain ⟨pred, ended⟩ := State.endOp_near (k := k3) (o := o3) counted near acquire
  have latest4 : Core.Latest { k3 with pred := pred } old o3 := latest3.keep rfl
  rw [start, show o.id = o3.id from rfl, State.checkOp_end (o := o3) (by rw [counted.core]; exact latest3.opOf) (on.nearDone_left _) rfl]
  rw [olds3] at ended
  exact ⟨_, ended, latest4.nearDone ⟨rfl, rfl, rfl⟩ slot ⟨poison, ghost⟩
    (Core.line_setLine k2 line ((k.line line).taken.performed c o pa (pa / 32 % 4))) (fun g => rfl)⟩

end

end Sys2Proof.Machine
end

section
/-! SUPPORT. The one request of a far atomic, and what an atomic adds when it issues. -/

namespace Sys2Proof.Machine

set_option Elab.async false

section
variable {base s : State} {c pa : Nat} {k : Core} {ms : List Msg} {old : List MemOp} {o : MemOp}

/-- A far atomic on one target: one AtomFar leaves. -/
theorem State.startFar_one (step : CoreStep base s c k ms) (h : k.Latest old o) (some : o.acc ≠ []) (all : ∀ a ∈ o.acc, a.pa = pa) :
    ∃ m next reqs, CoreStep base (s.startFar c o) c
      { k with ops := old ++ [{ o with started := true, left := [pa] }], nextTxn := next, reqs := reqs } (ms ++ [m]) ∧
      (m.ty = .atomFar ∧ m.dst = homeNode ((s.startFar c o).home ((s.startFar c o).coreCove c) (pa / 128)) ∧ m.src = c ∧ m.line = pa / 128) ∧
      m.op = o.aop ∧ m.fmt = o.fmt ∧ m.offset = pa % 128 ∧ m.ret = (o.dst != 255) ∧ m.ops = o.carried (o.acc.map Access.thread) := by
  let o' : MemOp := { o with started := true, left := [pa] }
  have started := step.modCore (fun k => k.setOp o')
  rw [h.setOp (o' := o') rfl] at started
  set v := s.modCore c (fun k => k.setOp o')
  let add : Msg → Msg := fun m => { m with
    op := o.aop, fmt := o.fmt, offset := pa % 128, ret := o.dst != 255, ops := o.carried (o.acc.map Access.thread) }
  have run : s.startFar c o = v.request c (v.coreCove c) (pa / 128) .atomFar 0 0 0 add o.id (o.acc.map Access.thread) := by
    rw [State.startFar, targets_one some all]
    rfl
  rw [run]
  obtain ⟨next, reqs, sent⟩ := started.request (v.coreCove c) (pa / 128) .atomFar 0 0 0 add o.id (o.acc.map Access.thread)
  exact ⟨_, next, reqs, sent, ⟨rfl, congrArg homeNode (v.request_home c (pa / 128) .atomFar 0 0 0 add o.id _), rfl, rfl⟩, rfl, rfl, rfl, rfl, rfl⟩

/-- The operands that a request carries where the combiner makes one of them. -/
theorem MemOp.carried_combined (t : Nat) (ts : List Nat) (h : o.combines = true) :
    o.carried (t :: ts) = [(ts.foldl (fun v t => atomApply o.aop o.fmt v (valOf o.vals t) 0) (valOf o.vals t), 0)] := by
  rw [MemOp.carried, MemOp.operands, List.map_cons]
  simp only [h, if_true, List.foldl_map]

/-- The operands that a request carries where every member sends its own. -/
theorem MemOp.carried_each (ts : List Nat) (h : o.combines = false) : o.carried ts = ts.map (fun t => (valOf o.vals t, valOf o.vals2 t)) := by
  rw [MemOp.carried, MemOp.operands]
  cases ts with
  | nil => rfl
  | cons t ts => simp only [List.map_cons, h, Bool.false_eq_true, if_false]

end

/-! ### The issue of an atomic -/

/-- The entry of an atomic, before its place is known. -/
def Iss.atomOp (z : Iss) (op : AOp) (f : Fmt) (predicted : Bool) : MemOp := { z.memOp with
  dst := z.i.d, bytes := atomBytes op f, aop := op, fmt := f, predicted := predicted
  vals := z.threads.map (fun t => (t, z.g.rvk z.i.c t f.nregs))
  vals2 := if op = .cas then z.threads.map (fun t => (t, z.g.rvk (z.i.c + f.nregs) t f.nregs)) else [] }

/-- An atomic that issues with all acting threads on one target of device memory, nothing in its way. -/
structure AtomIssues (w : IWord) (s u x : State) (r : List (Nat × Nat × XAcc)) (pa code : Nat) (op : AOp) (types : Fmt → Bool) : Prop where
  issues : s.Issues u w (1, code) (atomForm (s.view w).i op types)
  act : (s.view w).act ≠ 0
  order : (s.view w).i.order = 0
  faults : addrFaults (atomAligned op (((s.view w).i.ty).getD .int32)) (u.coreAddrs w.core (s.view w).g.quarter (s.view w).l.cove true
    ((s.view w).threads.map (fun th => (th, (s.view w).atomEa th)))).1 = []
  trans : (u.advanced w (s.view w) (atomForm (s.view w).i op types)).coreAddrs w.core (s.view w).g.quarter (s.view w).l.cove true
    ((s.view w).threads.map (fun th => (th, (s.view w).atomEa th))) = (r, x)
  one : ∀ p ∈ r, ∃ e, p.2.2 = .ok pa e
  atIssue : ∀ p ∈ (u.coreAddrs w.core (s.view w).g.quarter (s.view w).l.cove true
    ((s.view w).threads.map (fun th => (th, (s.view w).atomEa th)))).1, ∃ e, p.2.2 = .ok pa e
  device : inHost pa = false
  fit : pa % 128 + atomBytes op (((s.view w).i.ty).getD .int32) ≤ 128
  clear : (x.core w.core).clearFor w.slot
  free : (x.core w.core).writesFree w.slot
  sound : x.fld clsCore (x.corePage w.core) R.ERR_INJECT_ARM = 0

section
variable {w : IWord} {s u x : State} {r : List (Nat × Nat × XAcc)} {pa code : Nat} {op : AOp} {types : Fmt → Bool}

theorem atomBytes_pos (op : AOp) (f : Fmt) : 0 < atomBytes op f := by
  unfold atomBytes
  split
  · decide
  · split <;> decide

/-- The accesses of the acting threads: each at the target. -/
theorem AtomIssues.onTarget (h : AtomIssues w s u x r pa code op types) (n : Nat) :
    (accesses r n).map Access.thread = (s.view w).threads ∧ accesses r n ≠ [] ∧ (∀ a ∈ accesses r n, a.pa = pa) ∧
      ∀ a ∈ accesses r n, ∃ p ∈ r, ∃ e, p.2.2 = .ok pa e ∧ a.wt = e.wt := by
  have threads : r.map Prod.fst = (s.view w).threads := State.coreAddrs_act h.trans
  have keys := (accesses_threads n fun p hp => ⟨pa, h.one p hp⟩).trans threads
  have each : ∀ a ∈ accesses r n, a.pa = pa ∧ ∃ p ∈ r, ∃ e, p.2.2 = .ok pa e ∧ a.wt = e.wt := fun a ha => by
    obtain ⟨th, va, pa', e, hp, rfl⟩ := mem_accesses.1 ha
    obtain ⟨e', same⟩ := h.one _ hp
    obtain ⟨rfl, rfl⟩ := XAcc.ok.inj same
    exact ⟨rfl, _, hp, e, rfl, rfl⟩
  refine ⟨keys, fun none => Iss.threads_ne_nil h.act ?_, fun a ha => (each a ha).1, fun a ha => (each a ha).2⟩
  rw [← keys, none, List.map_nil]

theorem AtomIssues.quiet (h : AtomIssues w s u x r pa code op types) :
    Quiet (u.advanced w (s.view w) (atomForm (s.view w).i op types)) x := by
  have := State.coreAddrs_quiet w.core (s.view w).g.quarter (s.view w).l.cove true true
    ((s.view w).threads.map (fun th => (th, (s.view w).atomEa th))) (u.advanced w (s.view w) (atomForm (s.view w).i op types))
  rwa [h.trans] at this

/-- Accesses to one target go to one place. -/
theorem placeRuns_one {as : List Access} (some : as ≠ []) (all : ∀ a ∈ as, a.pa = pa) (place : Nat → OpKind) :
    (placeRuns place ((targets as).map Prod.fst)).zipIdx.map (fun p => (p.1.1, p.2, as.filter (fun a => p.1.2.contains a.pa))) =
      [(place pa, 0, as)] := by
  rw [targets_one some all]
  show [(place pa, 0, as.filter (fun a => [pa].contains a.pa))] = _
  rw [List.filter_eq_self.2 fun a ha => by simp [all a ha]]

/-- The atomic is added where it is performed. -/
theorem AtomIssues.run (h : AtomIssues w s u x r pa code op types) {kind : OpKind}
    (place : ∀ a ∈ accesses r (atomBytes op (((s.view w).i.ty).getD .int32)), x.atomPlace w.core (s.view w).i.loc a = kind) :
    ∃ predicted, s.atomic w code op types =
      (x.countAtom w.core (accesses r (atomBytes op (((s.view w).i.ty).getD .int32))) (x.atomPlace w.core (s.view w).i.loc)).addOp w.core
        { (s.view w).atomOp op (((s.view w).i.ty).getD .int32) predicted with
          kind := kind, acc := accesses r (atomBytes op (((s.view w).i.ty).getD .int32)) }
        (if (s.view w).i.d = 255 then [] else destRegs (s.view w).i.d (regsOf (atomBytes op (((s.view w).i.ty).getD .int32)))) := by
  have hold : memHold u (s.view w) = .none := State.memHold_of_clear h.quiet h.clear
  have issue := h.issues
  set z := s.view w with hz
  set f := z.i.ty.getD .int32
  obtain ⟨-, some, all, -⟩ := h.onTarget (atomBytes op f)
  have noHost : (accesses (u.coreAddrs w.core z.g.quarter z.l.cove true (z.threads.map (fun th => (th, z.atomEa th)))).1 4).filter
      (fun a => inHost a.pa) = [] := List.filter_eq_nil_iff.2 fun a ha => by
    obtain ⟨th, va, pa', e, hp, rfl⟩ := mem_accesses.1 ha
    obtain ⟨e', same⟩ := h.atIssue _ hp
    obtain ⟨rfl, rfl⟩ := XAcc.ok.inj same
    simp [h.device]
  refine ⟨z.i.loc == 0 && (x.kfld w.core R.ATOM_CTL_PRED_MODE == 0 || x.kfld w.core R.ATOM_CTL_PRED_MODE == 3), ?_⟩
  rw [State.atomic]
  refine (State.issue_next issue rfl rfl ?_ hold issue.group).trans ?_
  · have protect : ∀ bad : List Access, bad = [] → faultAt Flt.protect (((u.coreAddrs w.core z.g.quarter z.l.cove true
        (z.threads.map (fun th => (th, z.atomEa th)))).1.filter (fun p => bad.any (fun a => a.thread == p.1))).map (fun p => p.2.1)) = [] := by
      rintro _ rfl
      rw [List.filter_eq_nil_iff.2 fun p _ => by simp]
      rfl
    exact List.append_eq_nil_iff.2 ⟨h.faults, protect _ (by split; exacts [rfl, noHost])⟩
  · rw [← hz]
    simp only [show (u.advanced w z (atomForm z.i op types)).coreAddrs z.core z.g.quarter z.l.cove true (z.threads.map (fun t => (t, z.atomEa t))) = (r, x)
      from h.trans]
    rw [placeRuns_one some all, State.addParts_one]
    obtain ⟨a, ha⟩ := List.exists_mem_of_ne_nil _ some
    have isSome : ((accesses r (atomBytes op f)).find? (fun a => a.pa == pa)).isSome := List.find?_isSome.2 ⟨a, ha, by simp [all a ha]⟩
    obtain ⟨a', found⟩ := Option.isSome_iff_exists.1 isSome
    rw [show List.find? (fun a => a.pa == pa) (accesses r (atomBytes op (z.i.ty.getD .int32))) = .some a' from found]
    simp only [show x.atomPlace z.core z.i.loc a' = kind from place a' (List.mem_of_find?_eq_some found)]
    rfl

end

end Sys2Proof.Machine
end

section
/-! PROOF. The atomics, near and far (O20). -/

namespace Sys2Proof.Machine

set_option Elab.async false

section
variable {w : IWord} {s u x : State} {r : List (Nat × Nat × XAcc)} {pa code : Nat} {op : AOp} {types : Fmt → Bool}

theorem CoreStep.countAtom {base s : State} {c : Nat} {k : Core} {ms : List Msg} (step : CoreStep base s c k ms) (as : List Access)
    (place : Access → OpKind) : CoreStep base (s.countAtom c as place) c k ms :=
  (((((step.kcount _ _).kcount _ _).kcount _ _).kcount _ _).kcount _ _).countAcc _ _

/-- The operand and the second operand of a member (R105). -/
def Iss.atomVal (z : Iss) (f : Fmt) (th : Nat) : Nat := z.g.rvk z.i.c th f.nregs
def Iss.atomVal2 (z : Iss) (op : AOp) (f : Fmt) (th : Nat) : Nat := if op = .cas then z.g.rvk (z.i.c + f.nregs) th f.nregs else 0

theorem Iss.atomOp_vals (z : Iss) (op : AOp) (f : Fmt) (p : Bool) {th : Nat} (h : th ∈ z.threads) :
    valOf (z.atomOp op f p).vals th = z.atomVal f th ∧ valOf (z.atomOp op f p).vals2 th = z.atomVal2 op f th := by
  refine ⟨mget_map_mem _ h, ?_⟩
  rw [Iss.atomVal2, valOf, Iss.atomOp]
  split
  · exact mget_map_mem _ h
  · rfl

/-- One member's update of the target. -/
def Iss.atomStep (z : Iss) (op : AOp) (f : Fmt) (v th : Nat) : Nat := atomApply op f v (z.atomVal f th) (z.atomVal2 op f th)

section
variable (h : AtomIssues w s u x r pa code op types)
include h

/-- A far atomic sends its request. -/
theorem AtomIssues.far
    (place : ∀ a ∈ accesses r (atomBytes op (((s.view w).i.ty).getD .int32)), x.atomPlace w.core (s.view w).i.loc a = .far) :
    ∃ t m o, s.atomic w code op types = t ∧ OnlyCore x t w.core ∧ t.net = x.net ++ [m] ∧
      (m.ty = .atomFar ∧ m.dst = homeNode (t.home (t.coreCove w.core) (pa / 128)) ∧ m.src = w.core ∧ m.line = pa / 128) ∧
      m.op = op ∧ m.fmt = ((s.view w).i.ty).getD .int32 ∧ m.offset = pa % 128 ∧ m.ret = ((s.view w).i.d != 255) ∧
      (∃ p, m.ops = ((s.view w).atomOp op (((s.view w).i.ty).getD .int32) p).carried (s.view w).threads) ∧
      (t.core w.core).ops = (x.core w.core).ops ++ [o] ∧ o.slot = w.slot ∧ o.kind = .far ∧ o.left = [pa] ∧
      (t.group w.core w.slot).v = (s.view w).g.v := by
  obtain ⟨p, run⟩ := h.run place
  obtain ⟨threads, some, all, -⟩ := h.onTarget (atomBytes op (((s.view w).i.ty).getD .int32))
  set z := s.view w
  set f := z.i.ty.getD .int32
  let o : MemOp := { z.atomOp op f p with kind := .far, acc := accesses r (atomBytes op f) }
  let dst := if z.i.d = 255 then [] else destRegs z.i.d (regsOf (atomBytes op f))
  have step := (CoreStep.refl x w.core).countAtom (accesses r (atomBytes op f)) (x.atomPlace w.core z.i.loc)
  obtain ⟨added, latest, start⟩ := State.addOp_start (o := o) step h.clear dst rfl (Or.inr h.free)
  obtain ⟨m, next, reqs, sent, home, mop, mfmt, offset, ret, ops⟩ := State.startFar_one added latest some all
  refine ⟨_, m, _, run.trans start, sent.onlyCore, sent.net, home, mop, mfmt, offset, ret, ⟨p, ops.trans ?_⟩, congrArg Core.ops sent.core, rfl, rfl, rfl, ?_⟩
  · exact congrArg (MemOp.carried (z.atomOp op f p)) threads
  · refine (congrArg Group.v ((sent.group w.slot).trans (Core.adding_group (x.core w.core) o dst))).trans ?_
    exact (congrArg Group.v (State.advanced_quiet_group h.quiet)).trans (Iss.moved_v z _)

/-- A near atomic is performed in its line. -/
theorem AtomIssues.near
    (place : ∀ a ∈ accesses r (atomBytes op (((s.view w).i.ty).getD .int32)), x.atomPlace w.core (s.view w).i.loc a = .near)
    (st : ((x.core w.core).line (pa / 128)).st = .e ∨ ((x.core w.core).line (pa / 128)).st = .m)
    (misses : (x.core w.core).lineMisses (pa / 128) = [])
    (valid : ∀ i < 4, 32 * i < pa % 128 + atomBytes op (((s.view w).i.ty).getD .int32) → pa % 128 < 32 * i + 32 →
      bit ((x.core w.core).line (pa / 128)).valid i = true) :
    ∃ t k' dst o, s.atomic w code op types = t ∧ CoreStep x t w.core k' [] ∧ o.slot = w.slot ∧ o.acc.map Access.thread = (s.view w).threads ∧
      (∃ p, o.vals = ((s.view w).atomOp op (((s.view w).i.ty).getD .int32) p).vals ∧ o.vals2 = ((s.view w).atomOp op (((s.view w).i.ty).getD .int32) p).vals2) ∧
      o.aop = op ∧ o.fmt = ((s.view w).i.ty).getD .int32 ∧ o.dst = (s.view w).i.d ∧ o.bytes = atomBytes op (((s.view w).i.ty).getD .int32) ∧
      ((x.core w.core).adding o dst).NearDone k' w.core (x.core w.core).ops o (pa / 128) pa := by
  obtain ⟨p, run⟩ := h.run place
  obtain ⟨threads, some, all, -⟩ := h.onTarget (atomBytes op (((s.view w).i.ty).getD .int32))
  have fit := h.fit
  have noAcq : (s.view w).i.acq = false := by rw [Ins.acq, h.order]; rfl
  set z := s.view w
  set f := z.i.ty.getD .int32
  let o : MemOp := { z.atomOp op f p with kind := .near, acc := accesses r (atomBytes op f) }
  let dst := if z.i.d = 255 then [] else destRegs z.i.d (regsOf (atomBytes op f))
  have on : o.OnLine (pa / 128) := ⟨some, fun a ha => by
    rw [Access.inside, all a ha, bytes_of_mem_accesses ha]
    exact ⟨rfl, fit, atomBytes_pos op f⟩⟩
  have step := (CoreStep.refl x w.core).countAtom (accesses r (atomBytes op f)) (x.atomPlace w.core z.i.loc)
  obtain ⟨added, latest, start⟩ := State.addOp_start (o := o) step h.clear dst rfl (Or.inr h.free)
  have owns : ((x.core w.core).adding o dst).Owns (pa / 128) o.touched := ⟨st, misses, fun i hi => by
    obtain ⟨lt, a, ha, before, after⟩ := on.mem_touched.1 hi
    rw [all a ha, bytes_of_mem_accesses ha] at before
    rw [all a ha] at after
    exact ⟨lt, valid i lt before after⟩⟩
  obtain ⟨k', performed, done⟩ := State.startL1_near added latest h.clear.2.2.1 h.clear.2.1 ⟨on.some, on.inside⟩ rfl h.clear.2.2.2
    ⟨rfl, rfl, rfl⟩ noAcq h.sound owns all (threads.symm ▸ maskBits_pairwise z.act)
  exact ⟨_, k', dst, o, run.trans start, performed, rfl, threads, ⟨p, rfl, rfl⟩, rfl, rfl, rfl, rfl, ⟨done.held, done.ops, done.group, done.groups⟩⟩

/-- What a near atomic leaves in its line and in the registers. -/
theorem AtomIssues.near_result
    (place : ∀ a ∈ accesses r (atomBytes op (((s.view w).i.ty).getD .int32)), x.atomPlace w.core (s.view w).i.loc a = .near)
    (st : ((x.core w.core).line (pa / 128)).st = .e ∨ ((x.core w.core).line (pa / 128)).st = .m)
    (misses : (x.core w.core).lineMisses (pa / 128) = [])
    (valid : ∀ i < 4, 32 * i < pa % 128 + atomBytes op (((s.view w).i.ty).getD .int32) → pa % 128 < 32 * i + 32 →
      bit ((x.core w.core).line (pa / 128)).valid i = true) :
    let z := s.view w
    let f := (z.i.ty).getD .int32
    let n := atomBytes op f
    let l := (x.core w.core).line (pa / 128)
    let t := s.atomic w code op types
    OnlyCore x t w.core ∧ t.net = x.net ∧
      ((t.core w.core).line (pa / 128)).data.readLE (pa % 128) n = (z.threads.foldl (z.atomStep op f) (l.data.readLE (pa % 128) n)) % 256 ^ n ∧
      (∀ b, b < pa % 128 ∨ pa % 128 + n ≤ b → ((t.core w.core).line (pa / 128)).data.read b = l.data.read b) ∧
      (z.i.d ≠ 255 → ∀ before after th, z.threads = before ++ th :: after → ∀ j < regsOf n, z.i.d + j ≠ 255 →
        (t.group w.core w.slot).rv (z.i.d + j) th = before.foldl (z.atomStep op f) (l.data.readLE (pa % 128) n) / 2 ^ (32 * j) % 2 ^ 32) ∧
      (z.i.d = 255 → (t.group w.core w.slot).v = z.g.v) ∧
      (∀ q th, th < 64 → (q < z.i.d ∨ z.i.d + regsOf n ≤ q ∨ z.act.getLsbD th = false) → (t.group w.core w.slot).rv q th = z.g.rv q th) ∧
      (t.core w.core).ops = (x.core w.core).ops := by
  intro z f n l t
  obtain ⟨t', k', dst, o, run, step, slot, threads, ⟨p, vals, vals2⟩, aop, fmt, d, bytes, done⟩ := h.near place st misses valid
  have same : t = t' := run
  have members : ∀ ts : List Nat, (∀ th ∈ ts, th ∈ z.threads) → ∀ v, (ts.map (fun th => (th, valOf o.vals th, valOf o.vals2 th))).foldl
      (fun v m => atomApply op f v m.2.1 m.2.2) v = ts.foldl (z.atomStep op f) v := fun ts sub v => by
    rw [List.foldl_map]
    refine List.foldl_ext _ _ _ fun v th hth => ?_
    obtain ⟨one, two⟩ := z.atomOp_vals op f p (sub th hth)
    rw [vals, vals2, one, two]
    rfl
  have group : (t.group w.core w.slot) = if z.i.d = 255 then ((x.core w.core).adding o dst).group o.slot
      else (((x.core w.core).adding o dst).group o.slot).received o (o.foundOn l.data pa) := by
    rw [same, step.group, ← slot, done.group, d]
    rfl
  have before : ∀ q th, (((x.core w.core).adding o dst).group o.slot).rv q th = z.g.rv q th := fun q th => by
    rw [Core.adding_group, slot]
    exact (congrArg (fun g : Group => g.rv q th) (State.advanced_quiet_group h.quiet)).trans (Iss.moved_rv z _ q th)
  have keys : (o.foundOn l.data pa).map Prod.fst = z.threads := (o.foundOn_keys _ _).trans threads
  obtain ⟨named, others⟩ := Group.received_rv (o := o) (g := ((x.core w.core).adding o dst).group o.slot) (o.foundOn l.data pa)
    (keys ▸ maskBits_nodup z.act) (fun q hq => (Iss.mem_threads.1 (keys ▸ List.mem_map_of_mem hq)).1)
  rw [d, bytes] at named others
  have data : ((t.core w.core).line (pa / 128)).data = l.data.writeLE (pa % 128) n (z.threads.foldl (z.atomStep op f) (l.data.readLE (pa % 128) n)) := by
    rw [same, step.core, done.held, L1Line.performed, aop, fmt, (atomSeq_eq _ _ _ _).1, MemOp.members, threads,
      members _ (fun _ h => h)]
    rfl
  refine ⟨same ▸ step.onlyCore, (same ▸ step.net).trans (List.append_nil _), ?_, fun b hb => ?_, fun dest bs as th split j hj hr => ?_, fun none => ?_,
    fun q th hth hq => ?_, ?_⟩
  · rw [data, Mem.readLE_writeLE]
  · rw [data, Mem.read_writeLE_ne _ _ _ _ _ hb]
  · rw [group, if_neg dest]
    refine named th _ ?_ j hj hr
    rw [MemOp.foundOn, aop, fmt, ← members bs fun th' hth' => split ▸ List.mem_append_left _ hth']
    have list : o.members = bs.map (fun th => (th, valOf o.vals th, valOf o.vals2 th)) ++ (th, valOf o.vals th, valOf o.vals2 th) ::
        as.map (fun th => (th, valOf o.vals th, valOf o.vals2 th)) := by
      rw [MemOp.members, threads, show (s.view w).threads = bs ++ th :: as from split, List.map_append, List.map_cons]
    exact (atomSeq_eq op f _ o.members).2.2 _ _ _ list
  · rw [group, if_pos none, Core.adding_group, slot]
    exact (congrArg Group.v (State.advanced_quiet_group h.quiet)).trans (Iss.moved_v z _)
  · rw [group]
    split
    · exact before q th
    · refine (others q th hth (hq.imp_right (Or.imp_right fun idle => ?_))).trans (before q th)
      rw [keys, Iss.mem_threads, idle]
      simp
  · rw [same, step.core, done.ops]

end

end

/-- What the combiner makes one operand of (R211). -/
theorem MemOp.combines_iff (o : MemOp) : o.combines = true ↔ o.aop = .xchg ∨ o.fmt.isInt = true ∧ o.aop ∈ [AOp.add, .min, .max, .and, .or, .xor] := by
  rw [MemOp.combines, Bool.or_eq_true, beq_iff_eq, Bool.and_eq_true, List.contains_iff_mem]

/-- The operands of a request: combined into one, or one per member. -/
theorem Iss.carried_eq (z : Iss) (act : z.act ≠ 0) (op : AOp) (f : Fmt) (p : Bool) :
    (op = .xchg ∨ f.isInt = true ∧ op ∈ [AOp.add, .min, .max, .and, .or, .xor] → (z.atomOp op f p).carried z.threads =
      [((z.threads.drop 1).foldl (fun v th => atomApply op f v (z.atomVal f th) 0) (z.atomVal f z.first), 0)]) ∧
    (¬(op = .xchg ∨ f.isInt = true ∧ op ∈ [AOp.add, .min, .max, .and, .or, .xor]) → (z.atomOp op f p).carried z.threads =
      z.threads.map (fun th => (z.atomVal f th, z.atomVal2 op f th))) := by
  have vals := fun th (h : th ∈ z.threads) => z.atomOp_vals op f p h
  constructor
  · intro one
    rw [Iss.first]
    match hts : z.threads, Iss.threads_ne_nil act with
    | t :: ts, _ =>
      rw [hts] at vals
      rw [MemOp.carried_combined t ts ((MemOp.combines_iff _).2 one), (vals t List.mem_cons_self).1, List.drop_one, List.tail_cons, List.head?_cons,
        Option.getD_some]
      refine congrArg (fun v => [(v, 0)]) (List.foldl_ext _ _ _ fun v th hth => ?_)
      rw [(vals th (List.mem_cons_of_mem _ hth)).1]
      rfl
  · intro each
    rw [MemOp.carried_each _ (Bool.eq_false_iff.2 fun one => each ((MemOp.combines_iff _).1 one))]
    refine List.map_congr_left fun th hth => ?_
    rw [(vals th hth).1, (vals th hth).2]

/-- Settles O20: the place of the one target decides, and then the atomic is performed in its line or leaves as one request. -/
theorem atomicsActNearOrFar : Obligations.AtomicsActNearOrFar := by
  unfold Obligations.AtomicsActNearOrFar
  intro w s u x r pa z f k l vas val starts near far
  have issues : ∀ {code op types}, starts code op types → AtomIssues w s u x r pa code op types := fun h => by
    obtain ⟨issues, act, order, faults, trans, one, atIssue, device, fit, clear, free, sound⟩ := h
    exact ⟨issues, act, order, faults, trans, one, atIssue, device, fit, clear, free, sound⟩
  have isNear : ∀ {c code op types}, exec c s = .next (s.atomic w code op types) → near c code op types := by
    intro c code op types run
    simp only [near]
    intro start place back st misses valid
    have h := issues start
    have at_ : ∀ a ∈ accesses r (atomBytes op f), x.atomPlace w.core z.i.loc a = .near := fun a ha => by
      obtain ⟨-, -, all, entry⟩ := h.onTarget (atomBytes op f)
      obtain ⟨p, hp, e, he, wt⟩ := entry a ha
      rw [State.atomPlace, all a ha, h.device, wt, back p hp e he, place]
      rfl
    exact ⟨_, run, h.near_result at_ st misses valid⟩
  have isFar : ∀ {c code op types}, exec c s = .next (s.atomic w code op types) → far c code op types := by
    intro c code op types run
    simp only [far]
    intro start place
    have h := issues start
    have at_ : ∀ a ∈ accesses r (atomBytes op f), x.atomPlace w.core z.i.loc a = .far := fun a ha => by
      obtain ⟨-, -, all, entry⟩ := h.onTarget (atomBytes op f)
      obtain ⟨p, hp, e, he, wt⟩ := entry a ha
      have away : (a.wt || x.goesFar w.core z.i.loc pa) = true := by
        rcases place with place | through
        · rw [place, Bool.or_true]
        · rw [wt, through p hp e he, Bool.true_or]
      rw [State.atomPlace, all a ha, h.device, away]
      rfl
    obtain ⟨t, m, o, same, only, net, ⟨ty, home, src, line⟩, mop, fmt, offset, ret, ⟨p, ops⟩, rest⟩ := h.far at_
    obtain ⟨one, each⟩ := z.carried_eq h.act op f p
    exact ⟨t, m, o, run.trans (congrArg Host.Outcome.next same), only, net, ty, home, src, line, mop, fmt, offset, ret,
      fun c => ops.trans (one c), fun c => ops.trans (each c), rest⟩
  exact ⟨⟨isNear rfl, isFar rfl⟩, ⟨isNear rfl, isFar rfl⟩, ⟨isNear rfl, isFar rfl⟩, ⟨isNear rfl, isFar rfl⟩, ⟨isNear rfl, isFar rfl⟩,
    ⟨isNear rfl, isFar rfl⟩, ⟨isNear rfl, isFar rfl⟩, ⟨isNear rfl, isFar rfl⟩, isFar rfl⟩

end Sys2Proof.Machine
end

section
/-! SUPPORT. What the matrix unit and the element engine leave of a state; the bytes a unit writes to the scratchpad; a tile's list of images. -/

namespace Sys2Proof.Machine

set_option Elab.async false

/-- From `s` to `t` core `c` becomes `k`; memory and the other cores stay. -/
structure Leaves (s t : State) (c : Nat) (k : Core) : Prop where
  mem : t.mem = s.mem
  others : ∀ d, d ≠ c → t.core d = s.core d
  core : t.core c = k

theorem Leaves.refl (s : State) (c : Nat) : Leaves s s c (s.core c) := ⟨rfl, fun _ _ => rfl, rfl⟩

section
variable {s t : State} {c : Nat} {k : Core}

theorem Leaves.modCore (h : Leaves s t c k) (f : Core → Core) : Leaves s (t.modCore c f) c (f k) :=
  ⟨h.mem, fun d hd => (State.core_modCore_ne _ _ hd).trans (h.others d hd), (State.core_modCore _ _ _).trans (congrArg f h.core)⟩

theorem Leaves.kcount (h : Leaves s t c k) (code n : Nat) : Leaves s (t.kcount c code n) c k :=
  ⟨(State.mem_kcount _ _ _ _).trans h.mem, fun d hd => (State.core_kcount _ _ _ _ _).trans (h.others d hd), (State.core_kcount _ _ _ _ _).trans h.core⟩

/-- What changes neither memory nor any core. -/
theorem Leaves.beside (h : Leaves s t c k) {t' : State} (mem : t'.mem = t.mem) (cores : t'.cores = t.cores) : Leaves s t' c k :=
  have same : ∀ d, t'.core d = t.core d := fun d => by rw [State.core, cores]; rfl
  ⟨mem.trans h.mem, fun d hd => (same d).trans (h.others d hd), (same c).trans h.core⟩

theorem Leaves.noteWide (h : Leaves s t c k) (l : Launch) (nan wide : Nat) : Leaves s (t.noteWide c l nan wide) c k := by
  have counted := (h.kcount Ev.CORE_NAN_DROP nan).kcount Ev.CORE_INEXACT_WIDE wide
  unfold State.noteWide
  dsimp only
  split
  · exact counted
  · split
    · split
      · exact counted.beside rfl rfl
      · exact counted
    · split
      · split
        · exact counted.beside rfl rfl
        · exact counted
      · exact counted

/-- Reported reads change the landing slots of a core and nothing else of it. -/
theorem Leaves.slotRead (h : Leaves s t c k) (n : Nat) : ∃ land, Leaves s (t.slotRead c n) c { k with land := land } := by
  have set : ∀ x, Leaves s (t.modCore c (fun k => k.setSlot n x)) c { k with land := mset {} k.land n x } := fun x => h.modCore _
  unfold State.slotRead
  dsimp only
  split
  · exact ⟨_, (set _).beside rfl rfl⟩
  · exact ⟨_, set _⟩

theorem Leaves.slotsRead (h : Leaves s t c k) (l : List Nat) : ∃ land, Leaves s (t.slotsRead c l) c { k with land := land } := by
  induction l generalizing t k with
  | nil => exact ⟨k.land, h⟩
  | cons n l ih =>
    obtain ⟨first, read⟩ := h.slotRead n
    obtain ⟨land, all⟩ := ih read
    exact ⟨land, all⟩

end

/-! ### Bytes -/

/-- Bytes written from an address on are read back there. -/
theorem Mem.read_writeBytes (m : Mem) (x : Nat) (bs : List Byte) (a : Nat) :
    (m.writeBytes x bs).read a = if x ≤ a ∧ a < x + bs.length then bs.getD (a - x) 0 else m.read a := by
  induction bs generalizing m x with
  | nil => exact (if_neg (by simp)).symm
  | cons b bs ih =>
    rw [Mem.writeBytes, ih, List.length_cons]
    rcases Nat.lt_trichotomy a x with lt | rfl | gt
    · rw [if_neg (by omega), if_neg (by omega), Mem.read_write_ne _ _ (by omega)]
    · rw [if_neg (by omega), if_pos (by omega), Nat.sub_self, Mem.read_write_self, List.getD_cons_zero]
    · rw [show a - x = (a - (x + 1)) + 1 by omega, List.getD_cons_succ, Mem.read_write_ne _ _ (by omega)]
      exact if_congr (by omega) rfl rfl

theorem Core.spWrite_read (k : Core) (x : Nat) (bs : List Byte) (p : Bool) (a : Nat) :
    (k.spWrite x bs p).sp.read a = if x ≤ a ∧ a < x + bs.length then bs.getD (a - x) 0 else k.sp.read a :=
  Mem.read_writeBytes _ _ _ _

theorem Mem.getD_readBytes (m : Mem) (a : Nat) {n i : Nat} (h : i < n) : (m.readBytes a n).toArray.getD i 0 = m.read (a + i) := by
  simp [Mem.readBytes, Array.getD, h]

/-- A part of the bytes read is read from its own address. -/
theorem Mem.readBytes_part (m : Mem) (a : Nat) {n at_ len : Nat} (h : at_ + len ≤ n) :
    (List.range len).map (fun j => (m.readBytes a n).toArray.getD (at_ + j) 0) = m.readBytes (a + at_) len := by
  refine List.map_congr_left fun j hj => ?_
  rw [List.mem_range] at hj
  rw [Mem.getD_readBytes _ _ (by omega), Nat.add_assoc]

/-! ### Tiles -/

/-- An image set over an array that holds it already or is to receive it. -/
theorem foldl_setIfInBounds_getD (f : Nat → Nat) (d : Nat) {i : Nat} (is : List Nat) (a : Array Nat) (bound : i < a.size)
    (h : a.getD i 0 = f i ∨ i ∈ is ∧ a.getD i 0 = d) :
    ((is.filterMap (fun i => if f i = d then none else some (i, f i))).foldl (fun a p => a.setIfInBounds p.1 p.2) a).getD i 0 = f i := by
  induction is generalizing a with
  | nil => simpa using h
  | cons x is ih =>
    by_cases same : f x = d
    · rw [List.filterMap_cons, if_pos same]
      refine ih a bound (h.elim Or.inl fun ⟨mem, init⟩ => ?_)
      rcases List.mem_cons.1 mem with rfl | mem
      · exact Or.inl (init.trans same.symm)
      · exact Or.inr ⟨mem, init⟩
    · rw [List.filterMap_cons, if_neg same, List.foldl_cons]
      refine ih _ (by simpa using bound) ?_
      by_cases here : x = i
      · exact Or.inl (by simp [here, Array.getD, bound])
      · have kept : (a.setIfInBounds x (f x)).getD i 0 = a.getD i 0 := by
          simp [Array.getD, bound, here]
        rw [kept]
        exact h.imp_right (And.imp_left fun mem => (List.mem_cons.1 mem).resolve_left (Ne.symm here))

theorem tileArr_nil_getD (cls : Nat) {i : Nat} (h : i < classRows cls * classRows cls) : (tileArr cls []).getD i 0 = classInit cls := by
  simp [tileArr, Array.getD, h]

/-- A stored tile holds each image it was made of. -/
theorem tileArr_tileList (cls : Nat) (f : Nat → Nat) {i : Nat} (h : i < classRows cls * classRows cls) :
    (tileArr cls (tileList cls f)).getD i 0 = f i :=
  foldl_setIfInBounds_getD f (classInit cls) _ _ (by simpa using h) (Or.inr ⟨List.mem_range.2 h, tileArr_nil_getD cls h⟩)

theorem Core.block_setBlock (k : Core) (b : Nat) (x : Block) : (k.setBlock b x).block b = x := mget_mset_self _ _ _
theorem Block.tile_setTile (b : Block) (t : Nat) (l : List (Nat × Nat)) : (b.setTile t l).tile t = l := mget_mset_self _ _ _
theorem Block.tile_setTile_ne (b : Block) {t u : Nat} (l : List (Nat × Nat)) (h : u ≠ t) : (b.setTile t l).tile u = b.tile u := mget_mset_ne _ _ h

/-! ### Faults of ranges -/

theorem rangeFault_nil {len a n : Nat} (h : a + n ≤ len) : rangeFault len a n = [] := if_neg (by omega)

end Sys2Proof.Machine
end

section
/-! PROOF. The matrix instructions, at issue and at the end of their execute stage (O54). -/

namespace Sys2Proof.Machine

set_option Elab.async false

/-! ### At issue -/

section
variable {w : IWord} {s u : State} {f : Form}

theorem tileFaults_nil {z : Iss} {t : Nat} (kept : z.l.tileClass t ≠ 0) (own : z.l.tileOwner t = z.g.gid) : tileFaults z t = [] := if_pos ⟨kept, own⟩

theorem regionFaults_nil {z : Iss} (h : z.g.region = some z.g.m0) : regionFaults z = [] := by
  rw [regionFaults, h]
  exact if_pos rfl

/-- The group after a region mark has the region it names. -/
theorem State.advanced_region (u : State) (w : IWord) (f : Form) (m : Option W64) :
    Issued u ((u.advanced w (s.view w) f).modGroup w.core w.slot (fun g => { g with region := m })) w ∧
      ((u.advanced w (s.view w) f).modGroup w.core w.slot (fun g => { g with region := m })).group w.core w.slot =
        { (s.view w).moved f with region := m } := by
  refine ⟨((Issued.refl u w).advanced _ _).trans (State.modGroup_issued _ w _), ?_⟩
  rw [State.group_modGroup, State.advanced_group]

/-- Operands whose slots have all arrived wait for nothing but the unit. -/
theorem landed_find_none {k : Core} {l : List Nat} (h : k.landed l = true) : l.find? (fun n => (k.slot n).st != 2) = none := by
  rw [Core.landed, List.all_eq_true] at h
  rw [List.find?_eq_none]
  intro n hn
  have arrived := h n hn
  simp_all

end

/-! ### At the end of the execute stage -/

/-- From `k` to `k'` the tile `t` of a block takes the images `f`; the scratchpad, the groups, the queue and the block's other tiles stay. -/
structure Core.TileSet (k k' : Core) (blk t : Nat) (f : Nat → Nat) : Prop where
  sp : k'.sp = k.sp
  groups : k'.groups = k.groups
  mxq : k'.mxq = k.mxq
  tiles : ∀ u, u ≠ t → (k'.block blk).tile u = (k.block blk).tile u
  held : ∀ i < classRows ((k.block blk).launch.tileClass t) * classRows ((k.block blk).launch.tileClass t),
    (tileArr ((k.block blk).launch.tileClass t) ((k'.block blk).tile t)).getD i 0 = f i

theorem Core.tileSet_setTile (k : Core) (blk t : Nat) (l : List (Nat × Nat)) (land : List (Nat × LandSlot)) (f : Nat → Nat)
    (held : ∀ i < classRows ((k.block blk).launch.tileClass t) * classRows ((k.block blk).launch.tileClass t),
      (tileArr ((k.block blk).launch.tileClass t) l).getD i 0 = f i) :
    k.TileSet { k.setBlock blk ((k.block blk).setTile t l) with land := land } blk t f := by
  have block : ({ k.setBlock blk ((k.block blk).setTile t l) with land := land } : Core).block blk = (k.block blk).setTile t l :=
    Core.block_setBlock _ _ _
  refine ⟨rfl, rfl, rfl, fun u hu => ?_, fun i hi => ?_⟩
  · rw [block, Block.tile_setTile_ne _ _ hu]
  · rw [block, Block.tile_setTile, held i hi]

/-- One element of an `mma`: the sum of its class over its row and column (R130). -/
def State.mmaSum (s : State) (c blk : Nat) (w : MmaW) (t a b : Nat) (sca scb : Option Nat) (rm : RMode) (sm : SatMode) (i : Nat) : Nat × Bool :=
  let k := (s.core c).block blk
  let va := operandVals w.ta w.grp.k w.grp.rows (s.mxBytes c blk w.la a w.aBytes) (sca.map (fun x => s.mxBytes c blk w.la x w.scBytes))
  let vb := operandVals w.tb w.grp.k w.grp.rows (s.mxBytes c blk w.lb b w.bBytes) (scb.map (fun x => s.mxBytes c blk w.lb x w.scBytes))
  mmaElem (k.launch.tileClass t) rm sm ((tileArr (k.launch.tileClass t) (k.tile t)).getD i 0) ((List.range w.grp.k).map (fun j =>
    FVal.mul (va.getD (i / w.grp.rows * w.grp.k + j) .nan) (vb.getD (i % w.grp.rows * w.grp.k + j) .nan)))

section
variable {s t : State} {c : Nat} {k : Core}

theorem Leaves.runMma (h : Leaves s t c k) (e : MxEntry) (w : MmaW) (d a b : Nat) (sca scb : Option Nat) (rm : RMode) (sm : SatMode)
    (rows : classRows ((k.block e.blk).launch.tileClass d) = w.grp.rows) :
    ∃ k', Leaves s (t.runMma c e w d a b sca scb rm sm) c k' ∧ k.TileSet k' e.blk d (fun i => (t.mmaSum c e.blk w d a b sca scb rm sm i).1) := by
  let sums := ((List.range (w.grp.rows * w.grp.rows)).map (t.mmaSum c e.blk w d a b sca scb rm sm)).toArray
  let images := tileList (((t.core c).block e.blk).launch.tileClass d) (fun i => (sums.getD i (0, false)).1)
  have step : ∃ land, Leaves s (t.runMma c e w d a b sca scb rm sm) c { k.setBlock e.blk ((k.block e.blk).setTile d images) with land := land } :=
    (((((h.modCore (fun k => k.setBlock e.blk ((k.block e.blk).setTile d images))).kcount _ _).kcount _ _).kcount _ _).kcount _ _).slotsRead _
  obtain ⟨land, step⟩ := step
  refine ⟨_, step, Core.tileSet_setTile _ _ _ _ _ _ fun i hi => ?_⟩
  simp only [images, h.core]
  rw [tileArr_tileList _ _ hi]
  rw [rows] at hi
  simp [sums, Array.getD, hi]

theorem Leaves.loadTile (h : Leaves s t c k) (blk d off : Nat) :
    let cls := (k.block blk).launch.tileClass d
    let bs := (t.mxBytes c blk false off (tileBytes cls)).toArray
    let image := fun i => loadImage cls (leNat ((List.range (classBytes cls)).map (fun j => bs.getD (i * classBytes cls + j) 0)))
    ∃ k', Leaves s (t.setTile c blk d (tileList cls image)) c k' ∧ k.TileSet k' blk d (fun i =>
      loadImage cls (leNat (k.sp.readBytes ((k.block blk).spOff + off + i * classBytes cls) (classBytes cls)))) := by
  intro cls bs image
  refine ⟨_, h.modCore _, Core.tileSet_setTile _ _ _ _ _ _ fun i hi => ?_⟩
  have bytes : bs = (k.sp.readBytes ((k.block blk).spOff + off) (tileBytes cls)).toArray := by
    simp only [bs, State.mxBytes, h.core]
    rfl
  have inside : i * classBytes cls + classBytes cls ≤ tileBytes cls := by
    rw [tileBytes, ← Nat.succ_mul]
    exact Nat.mul_le_mul_right _ hi
  rw [tileArr_tileList _ _ hi]
  simp only [image, bytes]
  rw [Mem.readBytes_part _ _ inside]

end

/-- The oldest entry of the queue ends its execute stage and no error is injected. -/
theorem execMxExecuteEnd_sound {s : State} {c : Nat} {e : MxEntry} {rest : List MxEntry} (queue : (s.core c).mxq = e :: rest)
    (sound : s.fld clsCore (s.corePage c) R.ERR_INJECT_ARM = 0) :
    exec (.mxExecuteEnd c) s = .next ((s.modCore c (fun k => { k with mxq := rest })).runMx c e) := by
  have unarmed : s.armed clsCore (s.corePage c) 1 = false := by
    rw [State.armed, sound]
    rfl
  show execMxExecuteEnd c s = _
  simp only [execMxExecuteEnd, queue]
  exact if_neg (ne_of_eq_of_ne unarmed Bool.false_ne_true)

/-- Settles O54: at issue nothing faults or waits and the entry joins the queue; at the end of its stage the oldest entry sets
one tile or writes its images to the scratchpad. -/
theorem matrixInstructionsRun : Obligations.MatrixInstructionsRun := by
  unfold Obligations.MatrixInstructionsRun
  refine ⟨fun w s u => ?_, fun s c e rest queue sound => ?_⟩
  · intro z noFields accept b
    refine ⟨?_, fun inside => ⟨?_, fun mw named => ?_, fun f named => ?_, fun kept own => ⟨?_, ?_, ?_⟩⟩⟩
    · intro form h out
      have faultless : (if z.g.region.isSome then [(Flt.mxRegion, 0)] else []) = [] := by rw [out]; rfl
      exact ⟨_, congrArg Host.Outcome.next (State.issue_next h rfl rfl faultless rfl h.group), State.advanced_region u w form (some z.g.m0)⟩
    · intro form h done
      have free : (if (u.core w.core).mxq.any (fun e => e.slot == w.slot) then Hold.matrix else .none) = .none :=
        if_neg (by simpa using done)
      exact ⟨_, congrArg Host.Outcome.next (State.issue_next h rfl rfl (regionFaults_nil inside) free h.group), State.advanced_region u w form none⟩
    · intro n form ps h kept own takes parts landed hold
      refine (congrArg Host.Outcome.next (State.issue_next h rfl rfl ?_ ?_ h.group)).trans ?_
      · have tile : tileFaults (s.view w) (s.view w).i.d = [] := tileFaults_nil kept own
        have region : regionFaults (s.view w) = [] := regionFaults_nil inside
        simp only [show (s.view w).i.mma = some mw from named]
        rw [tile, region, takes, show partFaults u (s.view w) _ = [] from parts]
        rfl
      · have arrived : (partSlots (mw.parts (s.view w))).find? (fun n => ((u.core (s.view w).core).slot n).st != 2) = none :=
          landed_find_none landed
        simp only [show (s.view w).i.mma = some mw from named]
        rw [arrived]
        exact hold
      · simp only [show (s.view w).i.mma = some mw from named]
        rfl
    · intro form h kept own fits hold
      have faultless : tileFaults z z.i.a ++ regionFaults z ++ rangeFault b.spLen z.drainRange.1 z.drainRange.2 = [] := by
        rw [tileFaults_nil kept own, regionFaults_nil inside, rangeFault_nil fits]
        rfl
      refine (congrArg Host.Outcome.next (State.issue_next h rfl rfl faultless hold h.group)).trans ?_
      simp only [show (s.view w).i.ty = some f from named]
      rfl
    · intro form h hold
      have faultless : tileFaults z z.i.d ++ regionFaults z = [] := by rw [tileFaults_nil kept own, regionFaults_nil inside]; rfl
      exact congrArg Host.Outcome.next (State.issue_next h rfl rfl faultless hold h.group)
    · intro form h fits hold
      have saves : z.i.c ≠ 1 := by
        have legal := h.legal
        simp [form, plainForm] at legal
        omega
      have faultless : tileFaults z z.i.d ++ regionFaults z ++ rangeFault b.spLen z.imageRange.1 z.imageRange.2 ++ [] = [] := by
        rw [tileFaults_nil kept own, regionFaults_nil inside, rangeFault_nil fits]
        rfl
      refine (congrArg Host.Outcome.next (if_neg saves)).trans ?_
      exact congrArg Host.Outcome.next (State.issue_next h rfl rfl faultless hold h.group)
    · intro form h fits marks hold
      have loads : z.i.c = 1 := by
        have legal := h.legal
        simp [form, plainForm] at legal
        omega
      have faultless : tileFaults z z.i.d ++ regionFaults z ++ rangeFault b.spLen z.imageRange.1 z.imageRange.2 ++
          (if true && (rangeFault b.spLen z.imageRange.1 z.imageRange.2).isEmpty then
            (u.spMarkFaults w.core [(b.spOff + z.imageRange.1, z.imageRange.2)]).filter (fun f => f.1 == Flt.poison) else []) = [] := by
        rw [tileFaults_nil kept own, regionFaults_nil inside, rangeFault_nil fits, marks]
        rfl
      refine (congrArg Host.Outcome.next (if_pos loads)).trans ?_
      exact congrArg Host.Outcome.next (State.issue_next h rfl rfl faultless hold h.group)
  · intro k b cls el frame onTile written
    have run := execMxExecuteEnd_sound queue sound
    have core : Leaves s (s.modCore c (fun k => { k with mxq := rest })) c { k with mxq := rest } := (Leaves.refl s c).modCore _
    have tileSet : ∀ (x : State) (k' : Core) (t : Nat) (f : Nat → Nat), exec (.mxExecuteEnd c) s = .next x → Leaves s x c k' →
        ({ k with mxq := rest } : Core).TileSet k' e.blk t f →
        frame x ∧ onTile x t ∧ ∀ i < classRows (cls t) * classRows (cls t), el x t i = f i := fun x k' t f run left set => by
      simp only [frame, onTile, el, left.core]
      exact ⟨⟨run, set.mxq, set.groups, left.mem, left.others⟩, ⟨set.sp, set.tiles⟩, set.held⟩
    have wrote : ∀ (x : State) (off : Nat) (out : List Byte), exec (.mxExecuteEnd c) s = .next x →
        Leaves s x c (({ k with mxq := rest } : Core).spWrite (b.spOff + off) out false) →
        frame x ∧ (x.core c).blocks = k.blocks ∧ written x off out := fun x off out run left => by
      simp only [frame, written, left.core]
      exact ⟨⟨run, rfl, rfl, left.mem, left.others⟩, rfl, Core.spWrite_read _ _ _ _⟩
    refine ⟨fun ta tb t a o la lb sca scb rm sm g kind pair rows => ?_, fun t off dst rm sm kind => ?_, fun t off kind => ?_, fun t kind => ?_, fun t off kind => ?_⟩
    · intro size A B
      obtain ⟨k', left, set⟩ := (core.kcount Ev.CORE_MX_BUSY 0).runMma e { ta := ta, tb := tb, grp := g, la := la, lb := lb, sc := sca.isSome } t a o
        sca scb rm sm rows
      have queued := run
      simp only [State.runMx, kind, pair] at queued
      obtain ⟨ran, tiles, held⟩ := tileSet _ k' t _ queued left set
      refine ⟨_, ran, tiles, fun i hi => (held i (rows.symm ▸ hi)).trans ?_⟩
      simp only [State.mmaSum, State.mxBytes, (core.kcount Ev.CORE_MX_BUSY 0).core]
      rfl
    · have queued := run
      simp only [State.runMx, kind, core.core, List.map_map] at queued
      exact ⟨_, wrote _ off _ queued ((((((core.kcount _ _).modCore _).kcount _ _).kcount _ _).noteWide _ _ _))⟩
    · have queued := run
      simp only [State.runMx, kind, core.core] at queued
      exact ⟨_, wrote _ off _ queued ((core.kcount _ _).modCore _)⟩
    · have queued := run
      simp only [State.runMx, kind] at queued
      exact ⟨_, tileSet _ _ t _ queued ((core.kcount _ _).modCore _) (Core.tileSet_setTile _ _ _ _ _ _ fun i hi => tileArr_nil_getD _ hi)⟩
    · obtain ⟨k', left, set⟩ := (core.kcount Ev.CORE_MX_BUSY (mxCycles cls e.kind)).loadTile e.blk t off
      have queued := run
      simp only [State.runMx, kind, core.core] at queued
      rw [kind] at left
      exact ⟨_, tileSet _ k' t _ queued left set⟩

end Sys2Proof.Machine
end

section
/-! SUPPORT. What the oldest entry of the element engine leaves, for each kind: the bytes written and the count. -/

namespace Sys2Proof.Machine

set_option Elab.async false

/-- The oldest entry of the queue finishes without a gather and no error is injected. -/
theorem execElFinish_sound {s : State} {c : Nat} {e : ElEntry} {rest : List ElEntry} (queue : (s.core c).elq = e :: rest)
    (sound : s.fld clsCore (s.corePage c) R.ERR_INJECT_ARM = 0) (quiet : e.gather = []) :
    exec (.elFinish c) s = .next ((s.modCore c (fun k => { k with elq := rest })).runEl c e []) := by
  have unarmed : s.armed clsCore (s.corePage c) 1 = false := by
    rw [State.armed, sound]
    rfl
  have ready : (s.core c).gatherReady e = true := by simp [Core.gatherReady, quiet]
  show execElFinish c s = _
  simp only [execElFinish, queue, unarmed, ready, quiet, Bool.false_eq_true, if_false, Bool.not_true]
  rfl

/-- The group that a scalar result reaches. -/
def Group.scalarReady (g : Group) (r v : Nat) : Group := { g.ws r v with busyS := g.busyS.filter (fun x => x != r) }

section
variable {s t : State} {c : Nat} {k : Core}

theorem Leaves.countBeats (h : Leaves s t c k) (n : Nat) (l : List (Nat × Nat)) : Leaves s (t.countBeats c n l) c k :=
  ((h.kcount _ _).kcount _ _).kcount _ _

theorem Leaves.elScalar (h : Leaves s t c k) (e : ElEntry) (r v : Nat) : Leaves s (t.elScalar c e r v) c (k.modGroup e.slot (fun g => g.scalarReady r v)) :=
  h.modCore (fun k => k.modGroup e.slot (fun g => g.scalarReady r v))

end

/-! ### The mask -/

theorem maskBit_readBytes (m : Mem) (a : Nat) {n i : Nat} (h : i < n) :
    maskBit (m.readBytes a ((n + 7) / 8)).toArray i = bit (m.read (a + i / 8)).toNat (i % 8) := by
  rw [maskBit, Mem.getD_readBytes _ _ (by omega)]

/-- The elements below `n` whose mask bit is set, from the mask's bytes and from the memory. -/
theorem filter_maskBit (m : Mem) (a n : Nat) :
    (List.range n).filter (fun i => maskBit (m.readBytes a ((n + 7) / 8)).toArray i) =
      (List.range n).filter (fun i => bit (m.read (a + i / 8)).toNat (i % 8)) :=
  List.filter_congr fun _ hi => maskBit_readBytes _ _ (List.mem_range.1 hi)

/-- The elements that a test keeps around one of them: those before it are the kept ones below it. -/
theorem filter_range_split (p : Nat → Bool) {n i : Nat} (lt : i < n) (kept : p i = true) :
    ∃ after, (List.range n).filter p = (List.range i).filter p ++ i :: after ∧ ∀ x ∈ after, i < x := by
  obtain ⟨m, rfl⟩ : ∃ m, n = i + (m + 1) := ⟨n - i - 1, by omega⟩
  refine ⟨((List.range m).map (fun x => i + (x + 1))).filter p, ?_, fun x hx => ?_⟩
  · rw [List.range_add, List.filter_append, List.range_succ_eq_map, List.map_cons, Nat.add_zero, List.filter_cons_of_pos kept, List.map_map]
    rfl
  · obtain ⟨y, -, rfl⟩ := List.mem_map.1 (List.mem_of_mem_filter hx)
    omega

/-! ### Numbers and their bytes -/

theorem ofNat_leNat_div (bs : List Byte) (j : Nat) : BitVec.ofNat 8 (leNat bs / 256 ^ j) = bs.getD j 0 := by
  induction bs generalizing j with
  | nil => simp [leNat]
  | cons b bs ih =>
    match j with
    | 0 =>
      apply BitVec.eq_of_toNat_eq
      rw [leNat, Nat.pow_zero, Nat.div_one, BitVec.toNat_ofNat, Nat.add_mul_mod_self_left, List.getD_cons_zero]
      exact Nat.mod_eq_of_lt b.isLt
    | j + 1 =>
      have low : (b.toNat + 256 * leNat bs) / 256 = leNat bs := by
        have := b.isLt
        omega
      rw [leNat, Nat.pow_succ', ← Nat.div_div_eq_div_mul, low, ih, List.getD_cons_succ]

theorem getD_take_drop (bs : List Byte) (a : Nat) {n j : Nat} (h : j < n) : ((bs.drop a).take n).getD j 0 = bs.getD (a + j) 0 := by
  simp [List.getD_eq_getElem?_getD, List.getElem?_take_of_lt h]

theorem Mem.readBytes_getD (m : Mem) (a : Nat) {n i : Nat} (h : i < n) : (m.readBytes a n).getD i 0 = m.read (a + i) := by
  simp [Mem.readBytes, h]

/-- Elements taken from the bytes read are read from their own addresses. -/
theorem flatMap_elements (m : Mem) (a : Nat) {n w : Nat} {l : List Nat} (h : ∀ i ∈ l, i < n) :
    l.flatMap (fun i => (List.range w).map (fun j => (m.readBytes a (n * w)).toArray.getD (i * w + j) 0)) =
      l.flatMap (fun i => m.readBytes (a + i * w) w) := by
  refine List.flatMap_congr fun i hi => Mem.readBytes_part m a ?_
  rw [← Nat.succ_mul]
  exact Nat.mul_le_mul_right w (h i hi)

/-! ### An expand -/

/-- Different elements lie apart. -/
theorem elements_apart {x i w : Nat} (base : Nat) {j : Nat} (hj : j < w) (h : x ≠ i) :
    base + i * w + j < base + x * w ∨ base + x * w + w ≤ base + i * w + j := by
  rcases Nat.lt_or_gt_of_ne h with lt | gt
  · have := Nat.mul_le_mul_right w lt
    rw [Nat.succ_mul] at this
    omega
  · have := Nat.mul_le_mul_right w gt
    rw [Nat.succ_mul] at this
    omega

section
variable (m : Mem) (p : Nat → Bool) (bs : List Byte) (base w n : Nat)

/-- The elements that an expand stores: the next `w` bytes for each that is kept. -/
def expandStores : List (Nat × Nat) :=
  ((List.range n).filter p).zipIdx.map (fun q => (base + q.1 * w, leNat ((bs.drop (q.2 * w)).take w)))

variable {base w n p} in
theorem mem_expandStores {q : Nat × Nat} (h : q ∈ expandStores p bs base w n) : ∃ x < n, p x = true ∧ q.1 = base + x * w := by
  obtain ⟨y, hy, rfl⟩ := List.mem_map.1 h
  have kept := List.mem_filter.1 (List.fst_mem_of_mem_zipIdx hy)
  exact ⟨y.1, List.mem_range.1 kept.1, kept.2, rfl⟩

variable {p n} in
theorem expand_kept {i j : Nat} (hi : i < n) (hj : j < w) (kept : p i = true) :
    ((expandStores p bs base w n).foldl (fun m q => m.writeLE q.1 w q.2) m).read (base + i * w + j) =
      bs.getD (((List.range i).filter p).length * w + j) 0 := by
  obtain ⟨after, split, higher⟩ := filter_range_split p hi kept
  rw [expandStores, split, List.zipIdx_append, List.zipIdx_cons, List.map_append, List.map_cons]
  refine (Mem.read_foldl_writeLE _ _ _ w m j hj fun q hq => ?_).trans ?_
  · obtain ⟨y, hy, rfl⟩ := List.mem_map.1 hq
    exact elements_apart base hj (Nat.ne_of_gt (higher _ (List.fst_mem_of_mem_zipIdx hy)))
  · rw [ofNat_leNat_div, getD_take_drop _ _ hj, Nat.zero_add]

variable {p} in
theorem expand_skipped {i j : Nat} (hj : j < w) (skipped : p i = false) :
    ((expandStores p bs base w n).foldl (fun m q => m.writeLE q.1 w q.2) m).read (base + i * w + j) = m.read (base + i * w + j) :=
  Mem.read_foldl_writeLE_ne _ w m _ fun q hq => by
    obtain ⟨x, -, kept, at_⟩ := mem_expandStores bs hq
    rw [at_]
    exact elements_apart base hj (fun same => by simp [← same, kept] at skipped)

theorem expand_outside {a : Nat} (h : ¬(base ≤ a ∧ a < base + n * w)) :
    ((expandStores p bs base w n).foldl (fun m q => m.writeLE q.1 w q.2) m).read a = m.read a :=
  Mem.read_foldl_writeLE_ne _ w m _ fun q hq => by
    obtain ⟨x, lt, -, at_⟩ := mem_expandStores bs hq
    have := Nat.mul_le_mul_right w lt
    rw [Nat.succ_mul] at this
    omega

end

theorem kept_inside {p : Nat → Bool} {n i w j : Nat} (hi : i < n) (hj : j < w) (kept : p i = true) :
    ((List.range i).filter p).length * w + j < ((List.range n).filter p).length * w := by
  obtain ⟨after, split, -⟩ := filter_range_split p hi kept
  have more : ((List.range i).filter p).length + 1 ≤ ((List.range n).filter p).length := by
    rw [split, List.length_append, List.length_cons]
    omega
  have := Nat.mul_le_mul_right w more
  rw [Nat.succ_mul] at this
  omega

/-- FILL: zeros over the destination first. -/
theorem Leaves.fill {s t : State} {c : Nat} {k : Core} (h : Leaves s t c k) (on : Bool) (a : Nat) (zeros : List Byte) :
    Leaves s (if on then t.modCore c (fun k => k.spWrite a zeros false) else t) c (if on then k.spWrite a zeros false else k) := by
  split
  · exact h.modCore _
  · exact h

theorem Core.fill_read (k : Core) (on : Bool) (x n a : Nat) :
    (if on then k.spWrite x (List.replicate n 0) false else k).sp.read a = if on = true ∧ x ≤ a ∧ a < x + n then 0 else k.sp.read a := by
  cases on
  · rw [if_neg (by simp), if_neg (by simp)]
  · rw [if_pos rfl, Core.spWrite_read, List.length_replicate]
    simp only [true_and]
    split
    · rw [List.getD_eq_getElem _ _ (by rw [List.length_replicate]; omega), List.getElem_replicate]
    · rfl

/-! ### A reduction -/

/-- Results in WES-320 are packed as whole images as well. -/
theorem reduce_bytes (df : Fmt) (rows : List Wes) (image : Wes → Nat) (rounded : Wes → Rounded) :
    (if df = .wes then (rows.map (fun a => if df = .wes then { bits := image a } else rounded a)).flatMap (fun r => leBytes 40 r.bits)
      else packVals df.width ((rows.map (fun a => if df = .wes then { bits := image a } else rounded a)).map Rounded.bits)) =
    packVals df.width (rows.map (fun a => if df = .wes then image a else (rounded a).bits)) := by
  by_cases wes : df = .wes
  · subst wes
    simp only [if_true, packVals, Fmt.width, List.flatMap_map]
    rfl
  · simp only [wes, if_false, List.map_map]
    rfl

theorem Fmt.width_eq_wes {f : Fmt} : f.width = 320 ↔ f = .wes := by
  cases f <;> decide

/-! ### A run -/

/-- The registers of every element after the micro-ops, from the arrays of the inputs. -/
def ElEntry.registers (e : ElEntry) (l : Launch) (p : Prog) (n : Nat) (arr : Nat → Array Nat) : Array (Array Nat) :=
  ((List.range n).map (fun i => ((p.uops.map uopOf).foldl (EReg.step l (fun i => (⟨(lruGet e.desc (1 + i)).getD []⟩ : Tab)))
    { r := ((List.range 16).map (fun j => if j < 4 then p.inVal (p.outRm l) (p.outSm l .fp32) n arr j i else 0)).toArray }).r)).toArray

/-- A step that ends with reports to its landing slots: what holds of the core whatever its slots are. -/
theorem Leaves.slotsRead_ending {s t : State} {c : Nat} {k : Core} {P : Core → Prop} (h : Leaves s t c k) (l : List Nat) (code n : Nat)
    (holds : ∀ land, P { k with land := land }) : ∃ k', Leaves s ((t.slotsRead c l).kcount c code n) c k' ∧ P k' := by
  obtain ⟨land, read⟩ := h.slotsRead l
  exact ⟨_, read.kcount _ _, holds land⟩

/-- The program of a queued run. -/
def ElEntry.prog (e : ElEntry) : Prog := ⟨(lruGet e.desc 0).getD []⟩

theorem Leaves.runRun {s t : State} {c : Nat} {k : Core} (h : Leaves s t c k) (e : ElEntry) (n : Nat) (ws : List Nat) :
    let p := e.prog
    let b := k.block e.blk
    let arr := fun j => t.streamArr c e p n ws (Array.replicate (4 * n) 0) (min j 3)
    (p.sc 4).used = true → (p.sc 4).scaled = false → (p.sc 5).used = false →
    ∃ k', Leaves s (t.runRun c e n ws []) c k' ∧ k'.elq = k.elq ∧ k'.groups = k.groups ∧
      k'.sp = k.sp.writeBytes (b.spOff + off32 (ws.getD 4 0)) (p.output b.launch n (e.registers b.launch p n arr) 0).1 := by
  intro p b arr used plain single
  have arrays : (fun j => match j with
      | 0 => arr 0
      | 1 => arr 1
      | 2 => arr 2
      | _ => arr 3) = arr := by
    funext j
    match j with
    | 0 | 1 | 2 => rfl
    | j + 3 => simp only [arr, show min (j + 3) 3 = 3 by omega]; rfl
  unfold State.runRun
  dsimp only
  simp only [show (⟨(lruGet e.desc 0).getD []⟩ : Prog) = e.prog from rfl, show (e.prog.sc 4).used = true from used,
    show (e.prog.sc 4).scaled = false from plain, show (e.prog.sc 5).used = false from single, Bool.and_false, if_true, if_false, Bool.false_eq_true]
  refine Leaves.slotsRead_ending ((((((h.modCore _).modCore _).noteWide _ _ _).kcount _ _).kcount _ _).countBeats _ _) _ _ _ fun land => ⟨rfl, rfl, ?_⟩
  rw [h.core, List.map_map]
  exact congrArg (fun arr => k.sp.writeBytes (b.spOff + off32 (ws.getD 4 0)) (p.output b.launch n (e.registers b.launch p n arr) 0).1) arrays

end Sys2Proof.Machine
end

section
/-! PROOF. The element-unit instructions, at issue and at their end (O55). -/

namespace Sys2Proof.Machine

set_option Elab.async false

/-! ### At issue -/

/-- A compress or an expand of no elements writes 0 to its scalar and goes on. -/
theorem State.advanced_compact (u : State) (w : IWord) (z : Iss) (f : Form) (r : Nat) :
    Issued u (((u.advanced w z f).modGroup w.core w.slot (fun g => g.ws r 0)).kcount w.core Ev.CORE_EL_COMPACT 1) w ∧
      (((u.advanced w z f).modGroup w.core w.slot (fun g => g.ws r 0)).kcount w.core Ev.CORE_EL_COMPACT 1).group w.core w.slot =
        (z.moved f).ws r 0 := by
  refine ⟨(((Issued.refl u w).advanced z f).trans (State.modGroup_issued _ w _)).trans (State.kcount_issued _ w _ _), ?_⟩
  rw [State.group_kcount, State.group_modGroup, State.advanced_group]

/-- Ranges that do not overlap are allowed. -/
theorem overlap_any_false {rd wr : List (Nat × Nat)} (h : ∀ p ∈ rd, ∀ q ∈ wr, overlaps q.1 q.2 p.1 p.2 = false) :
    rd.any (fun p => wr.any (fun q => overlaps q.1 q.2 p.1 p.2)) = false := by
  simpa only [List.any_eq_false, Bool.not_eq_true] using h

/-- Settles O55: at issue nothing faults or waits and the entry joins the queue; at its end the oldest entry writes its results to the
scratchpad and a compress or an expand its count. -/
theorem elementEngineRuns : Obligations.ElementEngineRuns := by
  unfold Obligations.ElementEngineRuns
  refine ⟨fun w s u => ?_, fun s c e rest queue sound quiet => ?_⟩
  · intro z n f accept
    refine ⟨?_, fun ranges hold => ?_, ?_, ?_, ?_⟩
    · intro p p' tabs tabs' v x form m h checked landed hold again
      have again : ((u.advanced w (s.view w) form).checkRun (s.view w)) = .ok p' tabs' x := again
      have checked : u.checkRun (s.view w) = .ok p tabs v := checked
      have arrived : (partSlots (p.slotParts m (s.view w).streams)).find? (fun n => ((v.core (s.view w).core).slot n).st != 2) = none :=
        landed_find_none landed
      refine (congrArg Host.Outcome.next (State.issue_next h rfl rfl ?_ ?_ h.group)).trans ?_
      · simp only [checked]
      · simp only [checked]
        rw [arrived]
        exact hold
      · simp only [again]
        rfl
    · intro bytes q named form h maskApart sourceApart
      have ends : ∀ (c : Instr) (k : ElKind), exec c s = .next (if n = 0 then
          ((u.advanced w z form).modGroup w.core w.slot (fun g => g.ws z.i.d 0)).kcount w.core Ev.CORE_EL_COMPACT 1
          else accept (u.advanced w z form) k [] [] z.compactRd z.compactWr [z.i.d]) →
          (n = 0 → ∃ t, exec c s = .next t ∧ Issued u t w ∧ t.group w.core w.slot = (z.moved form).ws z.i.d 0) ∧
          (n ≠ 0 → exec c s = .next (accept (u.advanced w z form) k [] [] z.compactRd z.compactWr [z.i.d])) := fun c k run =>
        ⟨fun empty => ⟨_, run.trans (congrArg Host.Outcome.next (if_pos empty)), State.advanced_compact u w z form z.i.d⟩,
          fun some => run.trans (congrArg Host.Outcome.next (if_neg some))⟩
      rcases named with rfl | rfl
      · have allowed : (if overlaps (z.three 2) bytes (z.three 1) ((n + 7) / 8) || (overlaps (z.three 2) bytes (z.three 0) bytes && z.three 0 != z.three 2) then
            [(Flt.illegal, 0)] else []) ++ elRangeFaults u z z.compactRd z.compactWr = [] := by
          rw [ranges, maskApart, if_neg (by rcases sourceApart with apart | ⟨-, same⟩ <;> simp [*])]
          rfl
        exact ends _ _ (congrArg Host.Outcome.next (State.issue_next h rfl rfl allowed hold h.group))
      · have allowed : (if overlaps (z.three 2) bytes (z.three 1) ((n + 7) / 8) || overlaps (z.three 2) bytes (z.three 0) bytes then
            [(Flt.illegal, 0)] else []) ++ elRangeFaults u z z.compactRd z.compactWr = [] := by
          rw [ranges, maskApart, if_neg (by rcases sourceApart with apart | ⟨no, -⟩ <;> simp_all)]
          rfl
        exact ends _ _ (congrArg Host.Outcome.next (State.issue_next h rfl rfl allowed hold h.group))
    · intro form m h rows apart ranges hold
      have allowed : (if z.three 2 ≠ 0 && ((bit z.i.c 4 && rowLen (z.three 2) (z.g.rs z.i.b) % 32 != 0) ||
          z.reduceRd.any (fun p => z.reduceWr.any (fun q => overlaps q.1 q.2 p.1 p.2))) then [(Flt.illegal, 0)] else []) ++
          elRangeFaults u z z.reduceRd z.reduceWr = [] := by
        rw [ranges, overlap_any_false apart, if_neg (by simpa using fun _ => rows)]
        rfl
      exact congrArg Host.Outcome.next (State.issue_next h rfl rfl allowed hold h.group)
    · intro bs bs' v x form r h loaded again apart ranges hold
      have again : (u.advanced w (s.view w) form).loadTab (s.view w).core (s.view w).g.quarter (s.view w).l (s.view w).i.c = .ok bs' x := again
      have loaded : u.loadTab (s.view w).core (s.view w).g.quarter (s.view w).l (s.view w).i.c = .ok bs v := loaded
      refine (congrArg Host.Outcome.next (State.issue_next h rfl rfl ?_ ?_ h.group)).trans ?_
      · simp only [loaded]
        rw [show elRangeFaults v (s.view w) _ _ = [] from ranges, show List.any _ _ = false from overlap_any_false apart]
        rfl
      · simp only [loaded]
        exact hold
      · simp only [again]
        rfl
    · intro form h done
      have free : (if (u.core w.core).elq.any (fun e => e.slot == w.slot) then Hold.engine else .none) = .none := if_neg (by simpa using done)
      exact congrArg Host.Outcome.next (State.issue_next h rfl rfl rfl free h.group)
  · intro k b l frame sameGroups written set counted
    have run := execElFinish_sound queue sound quiet
    have core : Leaves s (s.modCore c (fun k => { k with elq := rest })) c { k with elq := rest } := (Leaves.refl s c).modCore _
    have wrote : ∀ (x : State) (off : Nat) (out : List Byte) (k' : Core), exec (.elFinish c) s = .next x → Leaves s x c k' →
        k'.elq = rest → k'.groups = k.groups → k'.sp = k.sp.writeBytes (b.spOff + off) out → frame x ∧ sameGroups x ∧ written x off out :=
      fun x off out k' run left elq groups sp => by
        simp only [frame, sameGroups, written, left.core, sp]
        exact ⟨⟨run, elq, left.mem, left.others⟩, groups, Mem.read_writeBytes _ _ _⟩
    have counts : ∀ (x : State) (r v : Nat) (k' : Core), exec (.elFinish c) s = .next x → Leaves s x c (k'.modGroup e.slot (fun g => g.scalarReady r v)) →
        k'.elq = rest → k'.groups = k.groups → frame x ∧ counted x r v ∧ (x.core c).sp = k'.sp := fun x r v k' run left elq groups => by
      have before : ∀ g, k'.group g = s.group c g := fun g => by rw [Core.group, groups]; rfl
      simp only [frame, counted, State.group, left.core]
      refine ⟨⟨run, elq, left.mem, left.others⟩, ⟨(Core.group_setGroup _ _ _).trans (congrArg (fun g : Group => g.scalarReady r v) (before e.slot)),
        fun g hg => (Core.group_setGroup_ne _ _ hg).trans (before g)⟩, rfl⟩
    refine ⟨fun f n src mask dst r kind => ?_, fun f n src mask dst r fill kind => ?_, fun f df n row src sc dst scaled square kind notWes => ?_,
      fun f n src dst t kind => ?_, fun n ws gb pr kind => ?_⟩
    · intro kept
      have queued := run
      simp only [State.runEl, kind, core.core, filter_maskBit] at queued
      have out : kept.flatMap (fun i => (List.range (f.width / 8)).map (fun j =>
          (k.sp.readBytes (b.spOff + src) (n * (f.width / 8))).toArray.getD (i * (f.width / 8) + j) 0)) =
          kept.flatMap (fun i => k.sp.readBytes (b.spOff + src + i * (f.width / 8)) (f.width / 8)) :=
        flatMap_elements _ _ fun i hi => List.mem_range.1 (List.mem_of_mem_filter hi)
      obtain ⟨ran, count, sp⟩ := counts _ r kept.length _ queued ((((core.modCore _).elScalar e r kept.length).kcount _ _).countBeats _ _) rfl rfl
      refine ⟨_, ran, count, ?_⟩
      simp only [written, sp, ← out]
      exact Mem.read_writeBytes _ _ _
    · intro wd
      have queued := run
      simp only [State.runEl, kind, core.core, filter_maskBit] at queued
      let marked := (List.range n).filter (set mask)
      let bytes := k.sp.readBytes (b.spOff + src) (marked.length * wd)
      let zeros := List.replicate (n * wd) (0 : Byte)
      obtain ⟨ran, count, sp⟩ := counts _ r marked.length _ queued (((((core.fill fill (b.spOff + dst) zeros).modCore
        (fun k => k.spStores (expandStores (set mask) bytes (b.spOff + dst) wd n) wd)).elScalar e r marked.length).kcount _ _).countBeats _ _)
        (by split <;> rfl) (by split <;> rfl)
      have filled := Core.fill_read { k with elq := rest } fill (b.spOff + dst) (n * wd)
      refine ⟨_, ran, count, fun i hi j hj => ?_, fun a outside => ?_⟩
      · rw [sp]
        by_cases kept : set mask i = true
        · have inside : ((List.range i).filter (set mask)).length * wd + j < marked.length * wd := kept_inside hi hj kept
          refine (expand_kept _ bytes _ wd hi hj kept).trans ?_
          rw [if_pos kept, Mem.readBytes_getD _ _ inside, ← Nat.add_assoc]
        · rw [if_neg kept]
          refine (expand_skipped _ bytes _ wd n hj (Bool.eq_false_iff.2 kept)).trans ((filled _).trans ?_)
          have inside : b.spOff + dst ≤ b.spOff + dst + i * wd + j ∧ b.spOff + dst + i * wd + j < b.spOff + dst + n * wd := by
            have := Nat.mul_le_mul_right wd hi
            rw [Nat.succ_mul] at this
            omega
          simp only [inside, and_self, and_true]
      · rw [sp]
        refine (expand_outside _ _ bytes _ wd n outside).trans ((filled a).trans (if_neg fun both => outside both.2))
    · intro bs term sums
      have queued := run
      simp only [State.runEl, kind, core.core] at queued
      obtain ⟨ran, same, bytes⟩ := wrote _ dst _ _ queued ((((core.modCore _).noteWide _ _ _).kcount _ _).countBeats _ _) rfl rfl rfl
      refine ⟨_, ran, same, (congrArg (written _ dst) ((reduce_bytes df _ _ _).trans ?_)).mp bytes⟩
      have width : f.width ≠ 320 := fun wide => notWes (Fmt.width_eq_wes.1 wide)
      simp only [width, notWes, if_false]
      refine congrArg (fun rows => packVals df.width (List.map _ rows)) (List.map_congr_left fun r _ => congrArg reduceRow (List.map_congr_left fun j hj => ?_))
      have inside : row * r + j < n := by simpa using (List.mem_filter.1 hj).2
      cases scaled
      · rfl
      · have scale : (k.sp.readBytes (b.spOff + sc) ((n + 31) / 32)).toArray.getD ((row * r + j) / 32) 0 = k.sp.read (b.spOff + sc + (row * r + j) / 32) :=
          Mem.getD_readBytes _ _ (by omega)
        exact congrArg (fun v : Byte =>
          let x := scaleBy v.toNat (f.decode (elemAt bs f.width (row * r + j)))
          Wes.ofVal (if square then FVal.mul x x else x)) scale
    · intro tab wd bs
      have queued := run
      simp only [State.runEl, kind, core.core] at queued
      exact ⟨_, wrote _ dst _ _ queued (((core.modCore _).kcount _ _).countBeats _ _) rfl rfl rfl⟩
    · intro p arr tab start er used plain single
      have queued := run
      simp only [State.runEl, kind] at queued
      obtain ⟨k', left, elq, groups, sp⟩ := core.runRun e n ws used plain single
      refine ⟨_, wrote _ _ _ k' queued left elq groups (sp.trans ?_)⟩
      have arrays : (fun j => (s.modCore c (fun k => { k with elq := rest })).streamArr c e p n ws (Array.replicate (4 * n) 0) (min j 3)) = arr := by
        funext j
        simp only [arr, State.streamArr, core.core]
        rfl
      exact congrArg (fun arr => k.sp.writeBytes (b.spOff + off32 (ws.getD 4 0)) (p.output l n (e.registers l p n arr) 0).1) arrays

end Sys2Proof.Machine
end

section
/-! SUPPORT. A message that its receiver takes off the mesh, and what a core then answers from a line it holds. -/

namespace Sys2Proof.Machine

set_option Elab.async false

/-- The state without a message of the mesh. -/
def State.without (s : State) (m : Msg) : State := { s with net := s.net.erase m }

section
variable {s : State} {m : Msg}

theorem State.takeMsg_of_mem (h : m ∈ s.net) : s.takeMsg m = some (s.without m) := if_pos (List.contains_iff_mem.2 h)

theorem State.takeFor_of_mem {ty : MTy} (h : m ∈ s.net) (kind : m.ty = ty) (core : m.dst < 1024) : s.takeFor m ty = some (s.without m) :=
  (if_pos ⟨kind, core⟩).trans (State.takeMsg_of_mem h)

theorem State.homeFor_of_mem {ty : MTy} {h : Nat} (mem : m ∈ s.net) (kind : m.ty = ty) (home : m.dst = 0x400 + h) (lt : h < 0x200) :
    s.homeFor m ty = some (s.without m) :=
  (if_pos ⟨kind, by omega, by omega⟩).trans (State.takeMsg_of_mem mem)

/-! ### The rows -/

theorem exec_fwdGetS (h : m ∈ s.net) (kind : m.ty = .fwdGetS) (core : m.dst < 1024) :
    exec (.fwdGetS m) s = .next ((s.without m).onForward m.dst m) := by
  rw [show exec (.fwdGetS m) s = execFwdGetS m s from rfl, execFwdGetS, State.takeFor_of_mem h kind core]

theorem exec_fwdGetM (h : m ∈ s.net) (kind : m.ty = .fwdGetM) (core : m.dst < 1024) :
    exec (.fwdGetM m) s = .next ((s.without m).onForward m.dst m) := by
  rw [show exec (.fwdGetM m) s = execFwdGetM m s from rfl, execFwdGetM, State.takeFor_of_mem h kind core]

theorem exec_inv (h : m ∈ s.net) (kind : m.ty = .inv) (core : m.dst < 1024) : exec (.inv m) s = .next ((s.without m).onForward m.dst m) := by
  rw [show exec (.inv m) s = execInv m s from rfl, execInv, State.takeFor_of_mem h kind core]

theorem exec_data (h : m ∈ s.net) (kind : m.ty = .data) (core : m.dst < 1024) : exec (.data m) s = .next ((s.without m).onData m.dst m) := by
  rw [show exec (.data m) s = execData m s from rfl, execData, State.takeFor_of_mem h kind core]

theorem exec_dataExcl (h : m ∈ s.net) (kind : m.ty = .dataExcl) (core : m.dst < 1024) :
    exec (.dataExcl m) s = .next ((s.without m).onData m.dst m) := by
  rw [show exec (.dataExcl m) s = execDataExcl m s from rfl, execDataExcl, State.takeFor_of_mem h kind core]

end

section
variable {s t : State} {c : Nat} {k : Core} {m : Msg} {out : List Msg}

/-- The core after a step, where its state without the message is its old one. -/
theorem CoreStep.taken (s : State) (c : Nat) (m : Msg) : CoreStep (s.without m) (s.without m) c (s.core c) [] := CoreStep.refl _ _

/-- What a core's step after taking a message leaves on the mesh, and that it leaves the other cores, memory and the slices alone. -/
theorem CoreStep.after (step : CoreStep (s.without m) t c k out) :
    t.net = s.net.erase m ++ out ∧ (∀ d, d ≠ c → t.core d = s.core d) ∧ t.mem = s.mem ∧ t.slices = s.slices :=
  ⟨step.net, step.others, by rw [step.rest]; rfl, by rw [step.rest]; rfl⟩

theorem CoreStep.line {line : Nat} {l : L1Line} (step : CoreStep s t c (k.setLine line l) out) : (t.core c).line line = l := by
  rw [step.core, Core.line_setLine]

end

/-! ### Answers from a stable line -/

/-- What an owner sends to the requester of `m` (R262). -/
def L1Line.ownerData (l : L1Line) (c : Nat) (m : Msg) (mask dirty : Nat) : Msg :=
  { ty := .data, dst := m.req, src := c, req := m.req, txn := m.txn, mask := mask, flags := 2 ^ Msg.fFROMOWNER, commons := m.commons
    cove := m.cove, line := m.line, dirty := dirty, poison := l.poison &&& mask, tag := l.tag
    data := (secsOfMask mask).flatMap (fun i => l.data.readBytes (32 * i) 32) }

/-- The InvAck of a core to the home that sent `m`. -/
def L1Line.invAck (l : L1Line) (c : Nat) (m : Msg) (kept flags mask : Nat) : Msg :=
  { ty := .invAck, dst := m.src, src := c, req := m.req, txn := m.txn, mask := mask, aux := kept, flags := flags, commons := m.commons
    cove := m.cove, line := m.line, dirty := l.dirty &&& mask, poison := l.poison &&& mask
    data := (secsOfMask mask).flatMap (fun i => l.data.readBytes (32 * i) 32) }

section
variable {base s : State} {c : Nat} {k : Core} {ms : List Msg} {m : Msg}

theorem CoreStep.ownerData (step : CoreStep base s c k ms) (mask : Nat) (l : L1Line) (dirty : Bool) :
    CoreStep base (s.ownerData c m mask l dirty) c k (ms ++ [l.ownerData c m mask (if dirty then l.dirty &&& mask else 0)]) := step.send _

theorem CoreStep.invAck (step : CoreStep base s c k ms) (kept flags mask : Nat) (l : L1Line) :
    CoreStep base (s.invAck c m kept flags mask l) c k (ms ++ [l.invAck c m kept flags mask]) := step.send _

theorem CoreStep.setLine (step : CoreStep base s c k ms) (line : Nat) (l : L1Line) :
    CoreStep base (s.modCore c (fun k => k.setLine line l)) c (k.setLine line l) ms := step.modCore _

/-- A line in a stable state without fills outstanding acts on a forward or an invalidation at once (R268). -/
theorem State.onForward_settled (settled : (s.core c).lineMisses m.line = []) (held : stable ((s.core c).line m.line).st = true) :
    s.onForward c m = s.answer c m := by
  have defers : (s.core c).defers m = false := by
    unfold Core.defers
    cases st : ((s.core c).line m.line).st <;> simp_all [stable]
  unfold State.onForward
  simp only [defers, Bool.false_eq_true, if_false]
  cases st : ((s.core c).line m.line).st <;> simp_all [stable]

/-- An owner answers FwdGetS with the sectors it holds, and shares the line (Table 9-9). -/
theorem CoreStep.answer_fwdGetS (step : CoreStep base s c k ms) (kind : m.ty = .fwdGetS) (plain : m.has Msg.fSNP = false) {left : LSt}
    (owner : (k.line m.line).st = .m ∧ left = .o ∨ (k.line m.line).st = .o ∧ left = .o ∨ (k.line m.line).st = .e ∧ left = .s) :
    CoreStep base (s.answer c m) c (k.setLine m.line { k.line m.line with st := left })
      (ms ++ [(k.line m.line).ownerData c m ((k.line m.line).valid &&& m.mask) 0] ++ [(k.line m.line).invAck c m (keptOf left) 0 0]) := by
  obtain rfl := step.core
  have answered : s.answer c m = ((s.ownerData c m (((s.core c).line m.line).valid &&& m.mask) ((s.core c).line m.line) false).modCore c
      (fun k => k.setLine m.line { (s.core c).line m.line with st := left })).invAck c m (keptOf left) 0 0 ((s.core c).line m.line) := by
    unfold State.answer
    rcases owner with ⟨st, rfl⟩ | ⟨st, rfl⟩ | ⟨st, rfl⟩ <;> simp [st, kind, plain]
  rw [answered]
  exact ((step.ownerData _ _ false).setLine _ _).invAck _ _ _ _

/-- An owner answers FwdGetM with the line, which leaves it. -/
theorem CoreStep.answer_fwdGetM (step : CoreStep base s c k ms) (kind : m.ty = .fwdGetM)
    (owner : (k.line m.line).st = .m ∨ (k.line m.line).st = .o ∨ (k.line m.line).st = .e) :
    CoreStep base (s.answer c m) c (k.setLine m.line (k.line m.line).gone)
      (ms ++ [(k.line m.line).ownerData c m (k.line m.line).valid ((k.line m.line).dirty &&& (k.line m.line).valid)] ++
        [(k.line m.line).invAck c m 0 0 0]) := by
  obtain rfl := step.core
  have answered : s.answer c m = ((s.ownerData c m ((s.core c).line m.line).valid ((s.core c).line m.line) true).modCore c
      (fun k => k.setLine m.line ((s.core c).line m.line).gone)).invAck c m 0 0 0 ((s.core c).line m.line) := by
    unfold State.answer
    rcases owner with st | st | st <;> simp [st, kind]
  rw [answered]
  exact ((step.ownerData _ _ true).setLine _ _).invAck _ _ _ _

/-- A sharer answers Inv without data; requests of it under way are of no more use. -/
theorem CoreStep.answer_inv_sharer (step : CoreStep base s c k ms) (kind : m.ty = .inv) (sharer : (k.line m.line).st = .s) :
    CoreStep base (s.answer c m) c
      (Core.setLine { k with reqs := k.reqs.map (fun r => if r.line = m.line then { r with stale := true } else r) } m.line (k.line m.line).gone)
      (ms ++ [({} : L1Line).invAck c m 0 0 0]) := by
  obtain rfl := step.core
  have answered : s.answer c m = ((s.modCore c (fun k => { k with
      reqs := k.reqs.map (fun r => if r.line = m.line then { r with stale := true } else r) })).modCore c
      (fun k => k.setLine m.line ((s.core c).line m.line).gone)).invAck c m 0 0 0 {} := by
    unfold State.answer
    simp [sharer, kind]
  rw [answered]
  exact ((step.modCore _).setLine _ _).invAck _ _ _ _

/-- An owner in M answers Inv with its dirty sectors. -/
theorem CoreStep.answer_inv_owner (step : CoreStep base s c k ms) (kind : m.ty = .inv) (owner : m.has Msg.fOWNER = true)
    (modified : (k.line m.line).st = .m) :
    CoreStep base (s.answer c m) c (k.setLine m.line (k.line m.line).gone) (ms ++ [(k.line m.line).invAck c m 0 0 (k.line m.line).dirty]) := by
  obtain rfl := step.core
  have answered : s.answer c m = (s.modCore c (fun k => k.setLine m.line ((s.core c).line m.line).gone)).invAck c m 0 0
      ((s.core c).line m.line).dirty ((s.core c).line m.line) := by
    unfold State.answer
    simp [modified, kind, owner]
  rw [answered]
  exact (step.setLine _ _).invAck _ _ _ _

end

end Sys2Proof.Machine
end

section
/-! SUPPORT. The answer of a home to a request of a core: the awaited sector, and the line's new state. -/

namespace Sys2Proof.Machine

set_option Elab.async false

theorem secsOfMask_two_pow : ∀ i < 4, secsOfMask (2 ^ i) = [i] := by decide

/-- A miss register with the one sector of a home's answer in it. -/
def MissReg.filled (q : MissReg) (m : Msg) (i : Nat) : MissReg :=
  { q with got := some (m.data.take 32), gotOwner := false, poison := bit m.poison i, dirty := false }

/-- A miss register that is ready to be written where its sector is among those granted. -/
def MissReg.granted (line mask : Nat) (q : MissReg) : MissReg :=
  if q.sector / 4 == line && bit mask (q.sector % 4) then { q with ready := true, once := false, ghost := false } else q

theorem MissReg.granted_of_mem {line mask i : Nat} {q : MissReg} (sector : q.sector = 4 * line + i) (lt : i < 4) (mem : bit mask i = true) :
    q.granted line mask = { q with ready := true, once := false, ghost := false } :=
  if_pos (by rw [sector, show (4 * line + i) / 4 = line by omega, show (4 * line + i) % 4 = i by omega, mem]; simp)

/-- The state of a line in ISD once its grant is in (R271). -/
def grantedSt (grant : Nat) : LSt := if grant = 4 then .m else if grant = 3 then .e else .s

/-- The core whose request for a line in ISD is granted. -/
def Core.granted (k : Core) (r : L1Req) : Core :=
  { k.setLine r.line { k.line r.line with st := grantedSt r.grant } with miss := k.miss.map (MissReg.granted r.line r.mask) }

/-- The core with an entry of a request replaced, and without the entry. -/
def Core.setReq (k : Core) (r : L1Req) : Core := { k with reqs := k.reqs.map (fun q => if q.txn = r.txn then r else q) }
def Core.dropReq (k : Core) (txn : Nat) : Core := { k with reqs := k.reqs.filter (fun q => q.txn != txn) }

theorem Core.dropReq_setReq (k : Core) (r : L1Req) : (k.setReq r).dropReq r.txn = k.dropReq r.txn := by
  have same : (k.setReq r).reqs.filter (fun q => q.txn != r.txn) = k.reqs.filter (fun q => q.txn != r.txn) := by
    rw [Core.setReq]
    induction k.reqs with
    | nil => rfl
    | cons q l ih =>
      by_cases e : q.txn = r.txn
      · simpa [e] using ih
      · simpa [e] using ih
  simp only [Core.dropReq, same]
  rfl

/-! ### Miss registers -/

theorem Core.missOf_sector {k : Core} {q : MissReg} {x : Nat} (h : k.missOf x = some q) : q.sector = x := by simpa using List.find?_some h

theorem Core.lineMisses_ne_nil {k : Core} {q : MissReg} {x line : Nat} (h : k.missOf x = some q) (here : x / 4 = line) : k.lineMisses line ≠ [] :=
  List.ne_nil_of_mem (List.mem_filter.2 ⟨List.mem_of_find?_eq_some h, by rw [Core.missOf_sector h, here]; exact beq_self_eq_true _⟩)

/-- Miss registers that all change, each keeping its sector. -/
theorem Core.missOf_map {k k' : Core} {f : MissReg → MissReg} (h : k'.miss = k.miss.map f) (keeps : ∀ q, (f q).sector = q.sector) (x : Nat) :
    k'.missOf x = (k.missOf x).map f := by
  simp only [Core.missOf, h, List.find?_map, Function.comp_def, keeps]

theorem Core.missOf_granted (k : Core) (r : L1Req) (x : Nat) : (k.granted r).missOf x = (k.missOf x).map (MissReg.granted r.line r.mask) :=
  Core.missOf_map rfl (fun q => by rw [MissReg.granted]; split <;> rfl) x

/-- The sector of a home's answer enters its miss register, unless an owner's copy is there. -/
theorem Core.missOf_gather {k : Core} {m : Msg} {q : MissReg} {i want : Nat} (lt : i < 4) (mask : m.mask = 2 ^ i) (wanted : bit want i = true)
    (home : m.has Msg.fFROMOWNER = false) (miss : k.missOf (4 * m.line + i) = some q) (own : q.gotOwner = false) :
    (k.gather m want).missOf (4 * m.line + i) = some (q.filled m i) := by
  have sector := Core.missOf_sector miss
  refine (Core.missOf_map rfl (fun r => ?_) _).trans ?_
  · split
    · rfl
    · split <;> rfl
  · rw [miss]
    simp [mask, secsOfMask_two_pow i lt, wanted, sector, own, home, MissReg.filled]

section
variable {base s : State} {c : Nat} {k : Core} {ms : List Msg}

/-! ### The grant -/

theorem CoreStep.grantLine_awaited (step : CoreStep base s c k ms) {r : L1Req} (kind : r.ty = .getS) (fresh : r.stale = false)
    (real : r.ghost = false) (awaited : (k.line r.line).st = .isD) : CoreStep base (s.grantLine c r) c (k.granted r) ms := by
  obtain rfl := step.core
  have st : grantedSt r.grant ≠ .i := by
    unfold grantedSt
    split
    · decide
    · split <;> decide
  have granted : s.grantLine c r = s.modCore c (fun k => { k.setLine r.line { (s.core c).line r.line with st := grantedSt r.grant } with
      miss := k.miss.map (MissReg.granted r.line r.mask) }) := by
    unfold State.grantLine
    unfold grantedSt at st ⊢
    simp only [kind, awaited, fresh, real, if_true, Bool.or_false, Bool.false_and, Bool.false_eq_true, if_false, reduceCtorEq, decide_false,
      if_neg st]
    rfl
  rw [granted]
  exact step.modCore _

/-- A line with fills outstanding is left alone. -/
theorem State.settleLine_filling {line : Nat} (filling : (s.core c).lineMisses line ≠ []) : s.settleLine c line = s := by
  unfold State.settleLine
  simp [filling]

/-- The home's answer for one awaited sector of a line in ISD that needed no forward (R232, R271). -/
theorem CoreStep.onData_awaited (step : CoreStep base s c k ms) {m : Msg} {r : L1Req} {q : MissReg} {i : Nat}
    (asked : k.reqs.find? (fun r => r.txn == m.txn && r.line == m.line) = some r) (kind : r.ty = .getS) (fresh : r.stale = false)
    (awaited : (k.line m.line).st = .isD) (home : m.has Msg.fFROMOWNER = false) (direct : m.has Msg.fFWD = false)
    (real : (m.has Msg.fGHOST && decide (m.ty = .data)) = false) (lt : i < 4) (mask : m.mask = 2 ^ i) (wanted : bit r.mask i = true)
    (miss : k.missOf (4 * m.line + i) = some q) (own : q.gotOwner = false) :
    ∃ k', CoreStep base (s.onData c m) c k' ms ∧ k'.line m.line = { k.line m.line with st := grantedSt m.aux } ∧
      k'.missOf (4 * m.line + i) = some { q.filled m i with ready := true, once := false, ghost := false } ∧
      k'.reqs = k.reqs.filter (fun q => q.txn != m.txn) := by
  obtain rfl := step.core
  obtain ⟨txn, line⟩ : r.txn = m.txn ∧ r.line = m.line := by simpa using List.find?_some asked
  let r' : L1Req := { r with homeIn := true, fwd := false, grant := m.aux, cont := r.cont || (m.ty = .dataExcl && m.has Msg.fCONT), ghost := false }
  let k1 := ((s.core c).gather m r.mask).dropReq r'.txn
  let gathered := (s.modCore c (fun k => (k.gather m r.mask).setReq r')).modCore c (fun k => k.dropReq r'.txn)
  have run : s.onData c m = (gathered.grantLine c r').settleLine c m.line := by
    have notPut : putPending .isD = false := rfl
    unfold State.onData
    simp only [asked, awaited, kind, home, direct, real, notPut, reduceCtorEq, Bool.false_eq_true, decide_false, Bool.false_and, if_false,
      Bool.not_false, Bool.true_or, Bool.and_self, if_true]
    simp only [gathered, r', kind]
    rfl
  have dropped : CoreStep base gathered c k1 ms := by
    have both := (step.modCore (fun k => (k.gather m r.mask).setReq r')).modCore (fun k => k.dropReq r'.txn)
    rwa [Core.dropReq_setReq] at both
  have granted := dropped.grantLine_awaited (r := r') kind fresh rfl (by rw [show r'.line = m.line from line]; exact awaited)
  have filled : k1.missOf (4 * m.line + i) = some (q.filled m i) := Core.missOf_gather lt mask wanted home miss own
  have ready : (k1.granted r').missOf (4 * m.line + i) = some { q.filled m i with ready := true, once := false, ghost := false } := by
    rw [Core.missOf_granted, filled, Option.map_some, show r'.line = m.line from line,
      MissReg.granted_of_mem (Core.missOf_sector filled) lt wanted]
  have filling : ((gathered.grantLine c r').core c).lineMisses m.line ≠ [] := by
    rw [granted.core]
    exact Core.lineMisses_ne_nil ready (by omega)
  refine ⟨k1.granted r', ?_, ?_, ready, ?_⟩
  · rw [run, State.settleLine_filling filling]
    exact granted
  · rw [← line]
    exact Core.line_setLine _ _ _
  · rw [← txn]
    rfl

end

end Sys2Proof.Machine
end

section
/-! SUPPORT. The end of the one memory instruction of a core, whatever its marks and whatever else its core holds. -/

namespace Sys2Proof.Machine

set_option Elab.async false

/-- From `s` to `t` core `c` becomes `k`; besides, only register fields differ. -/
structure CoreTurns (s t : State) (c : Nat) (k : Core) : Prop where
  rest : t = { s with cores := t.cores, regs := t.regs }
  others : ∀ d, d ≠ c → t.core d = s.core d
  core : t.core c = k

section
variable {base s : State} {c : Nat} {k : Core} {o : MemOp}

theorem CoreStep.turns (step : CoreStep base s c k []) : CoreTurns base s c k := by
  refine ⟨?_, step.others, step.core⟩
  have rest := step.rest
  rw [List.append_nil] at rest
  rw [rest]

theorem CoreTurns.modCore (turns : CoreTurns base s c k) (f : Core → Core) : CoreTurns base (s.modCore c f) c (f k) := by
  refine ⟨?_, fun d hd => (State.core_modCore_ne _ _ hd).trans (turns.others d hd), (State.core_modCore _ _ _).trans (congrArg f turns.core)⟩
  have rest := turns.rest
  conv_lhs => rw [rest]
  rfl

theorem CoreTurns.setFlds (turns : CoreTurns base s c k) (cls inst : Nat) (l : List (Fld × Nat)) : CoreTurns base (s.setFlds cls inst l) c k := by
  unfold State.setFlds
  induction l generalizing s with
  | nil => exact turns
  | cons p l ih =>
    refine ih ⟨?_, turns.others, turns.core⟩
    have rest := turns.rest
    conv_lhs => rw [rest]
    rfl

theorem CoreTurns.kcount (turns : CoreTurns base s c k) (code n : Nat) : CoreTurns base (s.kcount c code n) c k := by
  have counted := (s.count_counted clsCore (s.corePage c) code n).rest
  refine ⟨?_, fun d hd => (State.core_kcount _ _ _ _ _).trans (turns.others d hd), (State.core_kcount _ _ _ _ _).trans turns.core⟩
  rw [State.kcount]
  generalize s.count clsCore (s.corePage c) code n = t at counted
  rw [counted]
  conv_lhs => rw [turns.rest]

/-- The check of release tags writes register fields alone (R197). -/
theorem CoreTurns.scopeCheck (turns : CoreTurns base s c k) (o : MemOp) : CoreTurns base (s.scopeCheck c o) c k := by
  unfold State.scopeCheck
  split
  · exact turns
  · extract_lets counted
    split
    · exact turns.kcount _ _
    · exact (turns.kcount _ _).setFlds _ _ _

/-- A load that is not an `ld.ebb` ends with its values in its registers. -/
theorem CoreTurns.endOp_load (turns : CoreTurns base s c k) (load : o.kind = .load) (ebb : o.ebb = false) :
    CoreTurns base (s.endOp c o) c (k.finish o (o.acc.map (fun a => (a.thread, o.loaded a)))) := by
  let checked := if o.acquire && o.kind.inL1 && !o.orphaned then s.scopeCheck c o else s
  have run : s.endOp c o = checked.modCore c (fun k => k.finish o (o.acc.map (fun a => (a.thread, o.loaded a)))) := by
    unfold State.endOp
    simp [load, ebb, checked]
  have left : CoreTurns base checked c k := by
    simp only [checked]
    split
    · exact turns.scopeCheck o
    · exact turns
  rw [run]
  exact left.modCore _

end

/-! ### The core after the end of an instruction -/

theorem Core.finish_rest (k : Core) (o : MemOp) (vals : List (Nat × Nat)) :
    k.finish o vals = { k with groups := (k.finish o vals).groups, ops := k.ops.filter (fun p => p.id != o.id) } := by
  unfold Core.finish
  split <;> rfl

/-- The registers of the groups do not depend on what a core holds besides groups and instructions. -/
theorem Core.finish_groups {k k' : Core} (groups : k.groups = k'.groups) (ops : k.ops = k'.ops) (o : MemOp) (vals : List (Nat × Nat)) :
    (k.finish o vals).groups = (k'.finish o vals).groups := by
  have back : (k.writeBack o vals (regsOf o.bytes)).groups = (k'.writeBack o vals (regsOf o.bytes)).groups := by
    simp only [Core.writeBack, Core.modGroup, Core.setGroup, Core.group, groups, ops]
  unfold Core.finish
  split
  · exact groups
  · exact back

theorem Core.latest_one {k : Core} {o : MemOp} (ops : k.ops = [o]) : k.Latest [] o :=
  ⟨ops, fun _ h => absurd h List.not_mem_nil, fun _ h => absurd h List.not_mem_nil⟩

/-- The last instruction of a core ends with its results in its registers, and with its marks on them (R115). -/
theorem Core.Latest.finish_marked {k : Core} {old : List MemOp} {o : MemOp} (h : k.Latest old o) (slot : o.slot < 32) (vals : List (Nat × Nat)) :
    k.finish o vals = { k.setGroup o.slot (((k.group o.slot).received o vals).mark (destRegs o.dst (regsOf o.bytes)) o.poison o.ghost) with
      ops := old } := by
  have last : k.ops.any (fun p => p.id != o.id && p.slot == o.slot && p.returns && p.dst == o.dst) = false := by
    rw [List.any_eq_false, h.ops]
    intro p hp
    rcases List.mem_append.1 hp with hp | hp
    · simp [(h.others p hp).1]
    · simp [List.mem_singleton.1 hp]
  have back : k.writeBack o vals (regsOf o.bytes) =
      k.setGroup o.slot (((k.group o.slot).received o vals).mark (destRegs o.dst (regsOf o.bytes)) o.poison o.ghost) := by
    rw [Core.writeBack, last, Core.modGroup]
    simp only [Group.mark, Group.received, destRegs, Bool.not_false, if_true]
    rw [Group.foldl_wvk_rest]
  rw [Core.finish, if_neg (by simp [MemOp.orphaned, slot]), back]
  exact (h.keep (l := k.setGroup o.slot _) rfl).dropOp

theorem Group.mark_rv (g : Group) (rs : List Nat) (p q : Bool) (r t : Nat) : (g.mark rs p q).rv r t = g.rv r t := rfl
theorem Group.mark_busyV (g : Group) (rs : List Nat) (p q : Bool) : (g.mark rs p q).busyV = g.busyV := rfl

/-! ### What there is to go on with -/

section
variable {s : State} {c : Nat}

theorem State.serve_none (ops : (s.core c).ops = []) : s.serve c = s := by
  rw [State.serve, ops]
  rfl

/-- A line about which nothing is held back is left as it is. -/
theorem State.settleLine_idle {line : Nat} (deferred : ((s.core c).line line).deferred = none) (ebb : ((s.core c).line line).ebbBy = false)
    (maint : (s.core c).maint = 0) : s.settleLine c line = s := by
  have still : s.maintLine c line = s := by
    unfold State.maintLine Core.maintLines
    simp [maint]
  unfold State.settleLine
  simp only [deferred, ebb, Bool.false_and, Bool.false_eq_true, if_false, still, ite_self]

end

end Sys2Proof.Machine
end

section
/-! SUPPORT. PutAck, Nack and AtomResp at a core; a filled sector and a replayed load. -/

namespace Sys2Proof.Machine

set_option Elab.async false

/-! ### PutAck, Nack (R259, R260) -/

section
variable {s : State} {m : Msg}

theorem Core.line_setLine_ne (k : Core) {line j : Nat} (l : L1Line) (h : j ≠ line) : (k.setLine line l).line j = k.line j := mget_mset_ne _ _ h

theorem exec_putAck (h : m ∈ s.net) (kind : m.ty = .putAck) (core : m.dst < 1024) (pending : putPending ((s.core m.dst).line m.line).st = true)
    (ebb : ((s.core m.dst).line m.line).ebbBy = false) :
    exec (.putAck m) s = .next ((s.without m).modCore m.dst (fun k => k.setLine m.line {})) := by
  rw [show exec (.putAck m) s = execPutAck m s from rfl, execPutAck, State.takeFor_of_mem h kind core]
  simp only [show (s.without m).core m.dst = s.core m.dst from rfl, pending, ebb, if_true, Bool.false_eq_true, if_false]

theorem exec_nack (h : m ∈ s.net) (kind : m.ty = .nack) (core : m.dst < 1024) (asked : ∃ r ∈ (s.core m.dst).reqs, r.txn = m.txn ∧ r.line = m.line) :
    exec (.nack m) s = .next ((s.without m).modCore m.dst (fun k => { k with
      reqs := k.reqs.map (fun r => if r.txn = m.txn ∧ r.line = m.line then { r with nacked := true, nacks := r.nacks + 1 } else r) })) := by
  have any : (s.core m.dst).reqs.any (fun r => r.txn == m.txn && r.line == m.line) = true := by simpa using asked
  rw [show exec (.nack m) s = execNack m s from rfl, execNack, State.takeFor_of_mem h kind core]
  simp only [show (s.without m).core m.dst = s.core m.dst from rfl, any, if_true, Bool.and_eq_true, decide_eq_true_eq]

end

/-! ### AtomResp (R209 to R211) -/

section
variable {base s : State} {c : Nat} {k : Core} {ms : List Msg} {o : MemOp}

/-- The old value of a request of one thread is the one that the response brings (R211). -/
theorem MemOp.spread_one (o : MemOp) (th old x : Nat) : o.spread [th] [(old, x)] = [(th, old)] := by
  unfold MemOp.spread
  split <;> rfl

theorem State.endOp_far (far : o.kind = .far) (dst : o.dst ≠ 255) : s.endOp c o = s.modCore c (fun k => k.finish o o.olds) := by
  unfold State.endOp
  simp [far, dst, OpKind.inL1]

/-- The instruction with its last request answered. -/
def MemOp.answered (o : MemOp) (th old : Nat) : MemOp := { o with left := [], olds := [(th, old)] }

/-- The core after the answer to the last request of its one far atomic, of one thread: the instruction ends with the old value. -/
def Core.atomDone (k : Core) (o : MemOp) (txn th old : Nat) : Core :=
  Core.finish { k.dropReq txn with ops := [o.answered th old] } (o.answered th old) [(th, old)]

theorem exec_atomResp {m : Msg} {r : L1Req} {th old x : Nat} (h : m ∈ s.net) (kind : m.ty = .atomResp) (core : m.dst < 1024)
    (asked : (s.core m.dst).reqs.find? (fun r => r.txn == m.txn && r.line == m.line) = some r) (ops : (s.core m.dst).ops = [o])
    (op : r.op = o.id) (far : o.kind = .far) (left : o.left = [r.line * 128 + r.msg.offset]) (started : o.started = true)
    (plain : o.predicted = false) (dst : o.dst ≠ 255) (olds : o.olds = []) (own : m.commons = false) (threads : r.threads = [th])
    (resp : m.ops = [(old, x)]) :
    ∃ t, exec (.atomResp m) s = .next t ∧ CoreStep (s.without m) t m.dst ((s.core m.dst).atomDone o r.txn th old) [] := by
  let s1 := (s.without m).modCore m.dst (fun k => k.dropReq r.txn)
  let s2 := s1.modCore m.dst (fun k => k.setOp (o.answered th old))
  let s3 := s2.modCore m.dst (fun k => k.finish (o.answered th old) [(th, old)])
  have dropped : CoreStep (s.without m) s1 m.dst ((s.core m.dst).dropReq r.txn) [] := (CoreStep.taken s m.dst m).modCore _
  have first : Core.Latest ((s.core m.dst).dropReq r.txn) [] o := Core.latest_one ops
  have found : (s1.core m.dst).opOf r.op = some o := by rw [dropped.core, op, first.opOf]
  have answered : CoreStep (s.without m) s2 m.dst { (s.core m.dst).dropReq r.txn with ops := [o.answered th old] } [] := by
    have next := dropped.modCore (fun k => k.setOp (o.answered th old))
    rwa [first.setOp (o' := o.answered th old) rfl] at next
  have last : (s2.core m.dst).opOf (o.answered th old).id = some (o.answered th old) := by
    rw [answered.core, (Core.latest_one (k := { (s.core m.dst).dropReq r.txn with ops := [o.answered th old] }) rfl).opOf]
  have ended : CoreStep (s.without m) s3 m.dst ((s.core m.dst).atomDone o r.txn th old) [] := answered.modCore _
  have check : s2.checkOp m.dst o.id = s3 :=
    (State.checkOp_end last rfl started).trans (State.endOp_far (o := o.answered th old) far dst)
  have idle : (s3.core m.dst).ops = [] := by
    rw [ended.core, Core.atomDone, Core.finish_rest]
    simp
  have spread : ((o.spread r.threads m.ops).foldl (fun l p => minsert p.1 p.2 (merase l p.1)) o.olds) = [(th, old)] := by
    rw [threads, resp, o.spread_one, olds]
    rfl
  have run : exec (.atomResp m) s = .next ((s2.checkOp m.dst o.id).serve m.dst) := by
    rw [show exec (.atomResp m) s = execAtomResp m s from rfl, execAtomResp, State.takeFor_of_mem h kind core]
    have here : (if o.kind = .bypStore then r.line else r.line * 128 + r.msg.offset) = r.line * 128 + r.msg.offset := if_neg (by simp [far])
    have rest : sdel (r.line * 128 + r.msg.offset) o.left = [] := by simp [left, sdel]
    have some : m.ops.isEmpty = false := by rw [resp]; rfl
    simp only [show (s.without m).core m.dst = s.core m.dst from rfl, asked]
    rw [show ((s.without m).modCore m.dst fun k => { k with reqs := k.reqs.filter (fun q => q.txn != r.txn) }) = s1 from rfl]
    simp only [found, here, rest, spread, some, plain, own, Bool.false_and, Bool.false_eq_true, if_false, s2, MemOp.answered]
  exact ⟨s3, by rw [run, check, State.serve_none idle], ended⟩

end

/-! ### Sectors delivered to a load -/

/-- `o'` is `o` with more sectors received. -/
def MemOp.Receives (o o' : MemOp) : Prop := o' = { o with got := o'.got, left := o'.left, poison := o'.poison, ghost := o'.ghost }

theorem MemOp.Receives.trans {o o' o'' : MemOp} (h : o.Receives o') (k : o'.Receives o'') : o.Receives o'' := by
  unfold MemOp.Receives at *
  rw [k, h]

theorem MemOp.deliver_receives (o : MemOp) (sec : Nat) (bs : List Byte) (p g : Bool) : o.Receives (o.deliver sec bs p g) := by
  unfold MemOp.Receives MemOp.deliver
  split <;> rfl

theorem MemOp.mem_deliver_left (o : MemOp) (sec : Nat) (bs : List Byte) (p g : Bool) (x : Nat) :
    x ∈ (o.deliver sec bs p g).left ↔ x ≠ sec ∧ x ∈ o.left := by
  unfold MemOp.deliver
  split
  · exact mem_sdel
  · next absent =>
    have absent : sec ∉ o.left := by simpa using absent
    exact ⟨fun h => ⟨fun e => absent (e ▸ h), h⟩, And.right⟩

/-- A load to which sectors of a line have been delivered. -/
def MemOp.delivered (o : MemOp) (line : Nat) (l : L1Line) (secs : List Nat) : MemOp :=
  secs.foldl (fun o i => o.deliver (4 * line + i) (l.data.readBytes (32 * i) 32) (bit l.poison i) false) o

theorem MemOp.delivered_receives (o : MemOp) (line : Nat) (l : L1Line) (secs : List Nat) : o.Receives (o.delivered line l secs) := by
  induction secs generalizing o with
  | nil => rfl
  | cons i secs ih => exact (o.deliver_receives _ _ _ _).trans (ih _)

theorem MemOp.mem_delivered_left (o : MemOp) (line : Nat) (l : L1Line) (secs : List Nat) (x : Nat) :
    x ∈ (o.delivered line l secs).left ↔ x ∈ o.left ∧ ∀ i ∈ secs, x ≠ 4 * line + i := by
  induction secs generalizing o with
  | nil => simp [MemOp.delivered]
  | cons i secs ih =>
    refine (ih _).trans ?_
    rw [MemOp.mem_deliver_left]
    simp only [List.forall_mem_cons]
    tauto

end Sys2Proof.Machine
end

section
/-! SUPPORT. A sector that is filled into its line, for a load that waits for it alone (R232). -/

namespace Sys2Proof.Machine

set_option Elab.async false

theorem bit_setBits_one (v i : Nat) (b : Bool) : bit (setBits v i i (boolNat b)) i = b := by
  have shape : setBits v i i (boolNat b) = v % 2 ^ i + 2 ^ i * (boolNat b + 2 * (v / 2 ^ (i + 1))) := by
    rw [setBits, show i + 1 - i = 1 by omega, Nat.mod_eq_of_lt (show boolNat b < 2 ^ 1 by cases b <;> decide), pow_succ]
    ring
  rw [bit, Nat.testBit_eq_decide_div_mod_eq, shape, Nat.add_mul_div_left _ _ (Nat.two_pow_pos i), Nat.div_eq_of_lt (Nat.mod_lt _ (Nat.two_pow_pos i))]
  cases b <;> simp [boolNat, Nat.add_mod]

/-- A run of bytes written one by one. -/
theorem Mem.read_foldl_write (f : Nat → Byte) (a n : Nat) (m : Mem) (x : Nat) :
    ((List.range n).foldl (fun d j => d.write (a + j) (f j)) m).read x = if a ≤ x ∧ x < a + n then f (x - a) else m.read x := by
  induction n with
  | zero => exact (if_neg (by omega)).symm
  | succ n ih =>
    rw [List.range_succ, List.foldl_append, List.foldl_cons, List.foldl_nil]
    by_cases e : x = a + n
    · rw [e, Mem.read_write_self, if_pos (by omega), Nat.add_sub_cancel_left]
    · rw [Mem.read_write_ne _ _ e, ih]
      exact if_congr (by omega) rfl rfl

section
variable {base s : State} {c : Nat} {k : Core} {o : MemOp}

/-- A load that waits for nothing more ends: its values are in its registers. -/
theorem CoreTurns.checkOp_load (turns : CoreTurns base s c k) (ops : k.ops = [o]) (load : o.kind = .load) (ebb : o.ebb = false)
    (started : o.started = true) (left : o.left = []) :
    CoreTurns base (s.checkOp c o.id) c (k.finish o (o.acc.map (fun a => (a.thread, o.loaded a)))) := by
  have found : (s.core c).opOf o.id = some o := by rw [turns.core, (Core.latest_one ops).opOf]
  rw [State.checkOp_end found left started]
  exact turns.endOp_load load ebb

theorem Core.finish_ops (ops : k.ops = [o]) (vals : List (Nat × Nat)) : (k.finish o vals).ops = [] := by
  rw [Core.finish_rest, ops]
  simp

theorem Core.finish_line (k : Core) (o : MemOp) (vals : List (Nat × Nat)) (j : Nat) : (k.finish o vals).line j = k.line j := by
  rw [Core.finish_rest]
  rfl

theorem Core.finish_maint (k : Core) (o : MemOp) (vals : List (Nat × Nat)) : (k.finish o vals).maint = k.maint := by rw [Core.finish_rest]

theorem Core.finish_missOf (k : Core) (o : MemOp) (vals : List (Nat × Nat)) (x : Nat) : (k.finish o vals).missOf x = k.missOf x := by
  rw [Core.finish_rest]
  rfl

/-- The line with the bytes of a ready miss register in sector `i`. -/
def L1Line.filledWith (l : L1Line) (q : MissReg) (bs : List Byte) (i : Nat) : L1Line :=
  { l with data := (List.range 32).foldl (fun d j => d.write (32 * i + j) (bs.getD j 0)) l.data, valid := l.valid ||| 2 ^ i
           poison := setBits l.poison i i (boolNat q.poison), dirty := if l.st = .m && q.dirty then l.dirty ||| 2 ^ i else l.dirty, ref := true }

/-- The core once a ready miss register is written into its line and given back. -/
def Core.filledWith (k : Core) (q : MissReg) (bs : List Byte) : Core :=
  (k.setLine (q.sector / 4) ((k.line (q.sector / 4)).filledWith q bs (q.sector % 4))).freeMiss q.sector

theorem Core.line_filledWith (k : Core) (q : MissReg) (bs : List Byte) :
    (k.filledWith q bs).line (q.sector / 4) = (k.line (q.sector / 4)).filledWith q bs (q.sector % 4) := Core.line_setLine _ _ _

theorem Core.filledWith_maint (k : Core) (q : MissReg) (bs : List Byte) : (k.filledWith q bs).maint = k.maint := rfl

theorem Core.missOf_filledWith (k : Core) (q : MissReg) (bs : List Byte) : (k.filledWith q bs).missOf q.sector = none := by
  rw [Core.missOf, List.find?_eq_none]
  intro r hr
  simpa using (List.mem_filter.1 hr).2

theorem L1Line.data_filledWith (l : L1Line) (q : MissReg) (bs : List Byte) (i x : Nat) :
    (l.filledWith q bs i).data.read x = if 32 * i ≤ x ∧ x < 32 * i + 32 then bs.getD (x - 32 * i) 0 else l.data.read x :=
  Mem.read_foldl_write _ _ _ _ _

theorem L1Line.sector_filledWith (l : L1Line) (q : MissReg) {bs : List Byte} (len : bs.length = 32) (i : Nat) :
    (l.filledWith q bs i).data.readBytes (32 * i) 32 = bs := by
  refine List.ext_getElem (by simp [Mem.readBytes, len]) fun j hj _ => ?_
  have lt : j < 32 := by simpa [Mem.readBytes] using hj
  simp only [Mem.readBytes, List.getElem_map, List.getElem_range, L1Line.data_filledWith]
  rw [if_pos (by omega), Nat.add_sub_cancel_left]
  simp [len, lt]

/-- The instruction with its last sector received. -/
def MemOp.filled (o : MemOp) (sec : Nat) (bs : List Byte) (poison : Bool) : MemOp :=
  { o with got := o.got ++ [(sec, bs)], left := [], poison := o.poison || poison }

theorem MemOp.deliver_last {sec : Nat} (left : o.left = [sec]) (bs : List Byte) (poison : Bool) :
    o.deliver sec bs poison false = o.filled sec bs poison := by
  simp [MemOp.deliver, MemOp.filled, left, sdel]

/-- The core with one instruction. -/
def Core.serving (k : Core) (o : MemOp) : Core := { k with ops := [o] }

theorem Core.serving_line (k : Core) (o : MemOp) (j : Nat) : (k.serving o).line j = k.line j := rfl

theorem Core.serving_maint (k : Core) (o : MemOp) : (k.serving o).maint = k.maint := rfl

/-- The one load of a core, served from a sector just filled. -/
theorem CoreTurns.serveWaiter_filled {q : MissReg} {bs : List Byte} (turns : CoreTurns base s c (k.filledWith q bs)) (ops : k.ops = [o])
    (load : o.kind = .load) (len : bs.length = 32) (left : o.left = [q.sector]) :
    CoreTurns base (s.serveWaiter c (q.sector / 4) (q.sector % 4) o.id) c ((k.filledWith q bs).serving (o.filled q.sector bs q.poison)) := by
  have first : Core.Latest (k.filledWith q bs) [] o := Core.latest_one ops
  let l := (k.line (q.sector / 4)).filledWith q bs (q.sector % 4)
  have line : (s.core c).line (q.sector / 4) = l := by rw [turns.core, Core.line_filledWith]
  have delivered : o.deliver (4 * (q.sector / 4) + q.sector % 4) (l.data.readBytes (32 * (q.sector % 4)) 32) (bit l.poison (q.sector % 4)) false =
      o.filled q.sector bs q.poison := by
    rw [Nat.div_add_mod, L1Line.sector_filledWith _ _ len, show bit l.poison (q.sector % 4) = q.poison from bit_setBits_one _ _ _,
      MemOp.deliver_last left]
  have served : s.serveWaiter c (q.sector / 4) (q.sector % 4) o.id = s.modCore c (fun k => k.setOp (o.filled q.sector bs q.poison)) := by
    rw [State.serveWaiter, show (s.core c).opOf o.id = some o by rw [turns.core, first.opOf]]
    simp only [load, line, delivered]
  have next := turns.modCore (fun k => k.setOp (o.filled q.sector bs q.poison))
  rw [served]
  rwa [first.setOp (o' := o.filled q.sector bs q.poison) rfl] at next

/-- A sector that is ready for a load and holds no stored bytes: it is written into the line, and the load is served. -/
theorem State.fillSector_load {q : MissReg} {bs : List Byte} (ops : (s.core c).ops = [o]) (load : o.kind = .load)
    (miss : (s.core c).missOf q.sector = some q) (ready : q.ready = true) (once : q.once = false) (buf : q.bufMask = 0)
    (waiters : q.waiters = [o.id]) (got : q.got = some bs) :
    s.fillSector c q.sector = (((((s.modCore c (fun k => k.setLine (q.sector / 4) (((s.core c).line (q.sector / 4)).filledWith q bs (q.sector % 4)))).modCore c
      (fun k => k.freeMiss q.sector)).serveWaiter c (q.sector / 4) (q.sector % 4) o.id).checkOp c o.id).settleLine c (q.sector / 4)).serve c := by
  have noBuffer : s.storeBufCheck c q = (false, s) := by simp [State.storeBufCheck, buf]
  have loads : (s.core c).opOf o.id = some o := (Core.latest_one ops).opOf
  have clear : ∀ j, bit 0 j = false := Nat.zero_testBit
  unfold State.fillSector L1Line.filledWith
  simp only [miss, ready, once, noBuffer, waiters, got, loads, load, buf, clear, Bool.not_true, Bool.not_false, Bool.false_eq_true, if_false, if_true,
    List.filter_cons, List.filter_nil, bne_self_eq_false, ite_self, List.isEmpty_nil, List.contains_nil, List.foldl_cons, List.foldl_nil,
    Option.isSome_some, Bool.or_false, show ((0 : Nat) == 2 ^ 32 - 1) = false from rfl]

/-- The one load of a core, its sector filled, ends. -/
theorem CoreTurns.fillSector (turns : CoreTurns base s c k) {q : MissReg} {bs : List Byte} (ops : k.ops = [o]) (load : o.kind = .load)
    (started : o.started = true) (ebb : o.ebb = false) (miss : k.missOf q.sector = some q) (ready : q.ready = true) (once : q.once = false)
    (buf : q.bufMask = 0) (waiters : q.waiters = [o.id]) (got : q.got = some bs) (len : bs.length = 32) (left : o.left = [q.sector])
    (deferred : (k.line (q.sector / 4)).deferred = none) (free : (k.line (q.sector / 4)).ebbBy = false) (maint : k.maint = 0) :
    CoreTurns base (s.fillSector c q.sector) c (((k.filledWith q bs).serving (o.filled q.sector bs q.poison)).finish
      (o.filled q.sector bs q.poison) (o.acc.map (fun a => (a.thread, (o.filled q.sector bs q.poison).loaded a)))) := by
  obtain rfl := turns.core
  rw [State.fillSector_load ops load miss ready once buf waiters got]
  have filled : CoreTurns base ((s.modCore c (fun k => k.setLine (q.sector / 4) (((s.core c).line (q.sector / 4)).filledWith q bs (q.sector % 4)))).modCore c
      (fun k => k.freeMiss q.sector)) c ((s.core c).filledWith q bs) := (turns.modCore _).modCore _
  generalize (s.modCore c (fun k => k.setLine (q.sector / 4) (((s.core c).line (q.sector / 4)).filledWith q bs (q.sector % 4)))).modCore c
      (fun k => k.freeMiss q.sector) = s1 at filled ⊢
  have ended := (filled.serveWaiter_filled ops load len left).checkOp_load rfl load ebb started rfl
  rw [show (o.filled q.sector bs q.poison).id = o.id from rfl] at ended
  generalize (s1.serveWaiter c (q.sector / 4) (q.sector % 4) o.id).checkOp c o.id = s2 at ended ⊢
  have line : (s2.core c).line (q.sector / 4) = ((s.core c).line (q.sector / 4)).filledWith q bs (q.sector % 4) := by
    rw [ended.core, Core.finish_line, Core.serving_line, Core.line_filledWith]
  have still : (s2.core c).maint = 0 := by
    rw [ended.core, Core.finish_maint, Core.serving_maint, Core.filledWith_maint, maint]
  have idle : (s2.core c).ops = [] := by
    rw [ended.core]
    exact Core.finish_ops rfl _
  rw [State.settleLine_idle (by rw [line]; exact deferred) (by rw [line]; exact free) still, State.serve_none idle]
  exact ended

end

end Sys2Proof.Machine
end

section
/-! SUPPORT. A replayed load whose line is held now (R231), and a refused request that is sent again (R259). -/

namespace Sys2Proof.Machine

set_option Elab.async false

theorem MemOp.Receives.same {o o' : MemOp} (h : o.Receives o') :
    o'.id = o.id ∧ o'.kind = o.kind ∧ o'.ebb = o.ebb ∧ o'.started = o.started ∧ o'.acc = o.acc := by
  unfold MemOp.Receives at h
  rw [h]
  exact ⟨rfl, rfl, rfl, rfl, rfl⟩

section
variable {base s : State} {c line : Nat} {k : Core} {ms : List Msg} {o : MemOp}

/-- Held sectors, delivered to the one load of a core. -/
theorem CoreStep.foldl_delivered (l : L1Line) (hit : List Nat) (step : CoreStep base s c k ms) (ops : k.ops = [o]) :
    CoreStep base (hit.foldl (fun s i => s.modCore c (fun k => match k.opOf o.id with
      | some o => k.setOp (o.deliver (4 * line + i) (l.data.readBytes (32 * i) 32) (bit l.poison i) false)
      | none => k)) s) c (k.serving (o.delivered line l hit)) ms := by
  induction hit generalizing s k o with
  | nil =>
    have same : k.serving (o.delivered line l []) = k := by
      rw [Core.serving, MemOp.delivered, List.foldl_nil, ← ops]
    rw [same]
    exact step
  | cons i hit ih =>
    let o' := o.deliver (4 * line + i) (l.data.readBytes (32 * i) 32) (bit l.poison i) false
    have id : o'.id = o.id := (o.deliver_receives _ _ _ _).same.1
    have next := step.modCore (fun k => match k.opOf o.id with
      | some o => k.setOp (o.deliver (4 * line + i) (l.data.readBytes (32 * i) 32) (bit l.poison i) false)
      | none => k)
    simp only [(Core.latest_one ops).opOf] at next
    rw [(Core.latest_one ops).setOp (o' := o') id] at next
    have rest := ih (o := o') next rfl
    rw [id] at rest
    exact rest

/-- The core once a held line's sectors are delivered to its one load. -/
def Core.hitBy (k : Core) (o : MemOp) (line : Nat) (secs : List Nat) : Core :=
  (k.setLine line { k.line line with ref := true }).serving (o.delivered line (k.line line) secs)

theorem CoreStep.hitSecs (step : CoreStep base s c k ms) (ops : k.ops = [o]) (secs : List Nat) :
    CoreStep base (s.hitSecs c o line secs) c (k.hitBy o line secs) ms := by
  obtain rfl := step.core
  exact CoreStep.foldl_delivered ((s.core c).line line) secs (step.modCore _) ops

/-- What an instruction waits for in a line without misses. -/
theorem Core.toEnter_clear (here : ∀ x ∈ o.left, x / 4 = line) (clear : k.lineMisses line = []) : k.toEnter o line = o.left.map (fun x => x % 4) := by
  have all : o.left.filter (fun x => x / 4 == line) = o.left := List.filter_eq_self.2 fun x hx => beq_iff_eq.2 (here x hx)
  rw [Core.toEnter, all, List.filter_eq_self.2]
  intro x hx
  have none : k.missOf x = none := by
    have := Core.missOf_none clear (i := x % 4) (by omega)
    rwa [← here x hx, Nat.div_add_mod] at this
  rw [none]

/-- The lookup of a line that answers everything the one load of a core waits for. -/
theorem CoreStep.enterLine_hit (step : CoreStep base s c k ms) (ops : k.ops = [o]) (load : o.kind = .load)
    (sound : ∀ kind, s.armed clsCore (s.corePage c) kind = false) (here : ∀ x ∈ o.left, x / 4 = line) (clear : k.lineMisses line = [])
    (held : stable (k.line line).st = true) (valid : ∀ i ∈ o.left.map (fun x => x % 4), bit (k.line line).valid i = true) :
    ∃ t k', s.enterLine c o.id line = (t, .done) ∧ CoreStep base t c k' ms ∧ k'.groups = k.groups ∧ k'.replay = k.replay ∧
      k'.ops = [o.delivered line (k.line line) (o.left.map (fun x => x % 4))] := by
  obtain rfl := step.core
  have found : (s.core c).opOf o.id = some o := (Core.latest_one ops).opOf
  have enter := Core.toEnter_clear here clear
  by_cases none : o.left = []
  · refine ⟨s, s.core c, ?_, step, rfl, rfl, ?_⟩
    · unfold State.enterLine
      simp [found, enter, none]
    · rw [none]
      exact ops
  · have some : (s.core c).toEnter o line ≠ [] := by simpa [enter] using none
    refine ⟨s.hitSecs c o line (o.left.map (fun x => x % 4)), _, ?_, step.hitSecs ops _, rfl, rfl, rfl⟩
    rw [State.enterLine_eq found (.inl sound) some, if_pos load, State.l1Load_hit held (by rwa [enter]), enter]

/-- Nothing is left to wait for once every awaited sector of the line is delivered. -/
theorem MemOp.left_delivered (here : ∀ x ∈ o.left, x / 4 = line) (l : L1Line) : (o.delivered line l (o.left.map (fun x => x % 4))).left = [] := by
  refine List.eq_nil_iff_forall_not_mem.2 fun x hx => ?_
  obtain ⟨mem, ne⟩ := (o.mem_delivered_left line l _ x).1 hx
  refine ne (x % 4) (List.mem_map_of_mem mem) ?_
  rw [← here x mem, Nat.div_add_mod]

/-- The replay of the one load of a core that its line can answer now: the load ends, and leaves the queue. -/
theorem exec_replayQueueServe_hit {r : Replay} {rest : List Replay} (ops : (s.core c).ops = [o]) (load : o.kind = .load)
    (started : o.started = true) (ebb : o.ebb = false) (sound : s.fld clsCore (s.corePage c) R.ERR_INJECT_ARM = 0)
    (replay : (s.core c).replay = r :: rest) (op : r.op = o.id) (here : ∀ x ∈ o.left, x / 4 = r.line) (clear : (s.core c).lineMisses r.line = [])
    (held : stable ((s.core c).line r.line).st = true)
    (valid : ∀ i ∈ o.left.map (fun x => x % 4), bit ((s.core c).line r.line).valid i = true) {o' : MemOp}
    (answered : o.delivered r.line ((s.core c).line r.line) (o.left.map (fun x => x % 4)) = o') :
    ∃ (t : State) (k' : Core), exec (.replayQueueServe c) s = .next t ∧ k'.groups = (s.core c).groups ∧ k'.ops = [o'] ∧ k'.replay = rest ∧
      CoreTurns s t c (k'.finish o' (o.acc.map (fun a => (a.thread, o'.loaded a)))) := by
  have base := CoreStep.refl s c
  have dequeued : CoreStep s (s.modCore c (fun k => { k with replay := rest })) c { s.core c with replay := rest } [] := base.modCore _
  obtain ⟨s1, k', look, step, groups, queue, served⟩ := dequeued.enterLine_hit ops load (dequeued.unarmed sound) here clear held valid
  have receives := o.delivered_receives r.line ((s.core c).line r.line) (o.left.map (fun x => x % 4))
  have left := MemOp.left_delivered here ((s.core c).line r.line)
  have same : o.delivered r.line (Core.line { s.core c with replay := rest } r.line) (o.left.map (fun x => x % 4)) = o' := answered
  rw [same] at served
  rw [answered] at receives left
  obtain ⟨id, kind, noEbb, begun, acc⟩ := receives.same
  have ended := step.turns.checkOp_load served (kind.trans load) (noEbb.trans ebb) (begun.trans started) left
  rw [acc, id] at ended
  refine ⟨s1.checkOp c o.id, k', ?_, groups, served, queue, ended⟩
  have idle : ((s1.checkOp c o.id).core c).ops = [] := by
    rw [ended.core]
    exact Core.finish_ops served _
  rw [show exec (.replayQueueServe c) s = execReplayQueueServe c s from rfl, execReplayQueueServe]
  simp only [replay, op, look, if_true, State.serve_none idle]

end

/-- A refused request that is sent again, with PRIO from the eighth refusal on. -/
def L1Req.resent (r : L1Req) : Msg := if 8 ≤ r.nacks then { r.msg with flags := r.msg.flags ||| 2 ^ Msg.fPRIO } else r.msg

/-- The core with a request no longer refused. -/
def Core.resending (k : Core) (txn : Nat) : Core :=
  { k with reqs := k.reqs.map (fun q => if q.txn = txn then { q with nacked := false } else q) }

theorem exec_nackResend {s : State} {c txn : Nat} {r : L1Req} (refused : (s.core c).reqs.find? (fun r => r.txn == txn && r.nacked) = some r) :
    ∃ t, exec (.nackResend c txn) s = .next t ∧ CoreStep s t c ((s.core c).resending txn) [r.resent] := by
  refine ⟨(s.modCore c (fun k => k.resending txn)).send r.resent, ?_, ((CoreStep.refl s c).modCore (fun k => k.resending txn)).send r.resent⟩
  rw [show exec (.nackResend c txn) s = execNackResend c txn s from rfl, execNackResend, refused]
  rfl

end Sys2Proof.Machine
end

section
/-! PROOF. What an L1 answers (O57). -/

namespace Sys2Proof.Machine

set_option Elab.async false

section
variable {s : State} {m : Msg}

/-- What the obligation says of the state after a core has taken message `m` and sent `out`. -/
def TookMsg (i : Instr) (s : State) (m : Msg) (t : State) (out : List Msg) : Prop :=
  exec i s = .next t ∧ t.net = s.net.erase m ++ out ∧ (∀ d, d ≠ m.dst → t.core d = s.core d) ∧ t.mem = s.mem ∧ t.slices = s.slices

theorem CoreStep.took {i : Instr} {t : State} {k : Core} {out : List Msg} (step : CoreStep (s.without m) t m.dst k out)
    (run : exec i s = .next t) : TookMsg i s m t out := ⟨run, step.after⟩

/-! ### Forwards and invalidations -/

variable (mem : m ∈ s.net) (core : m.dst < 1024)
include mem core

theorem fwdGetS_owner (clear : (s.core m.dst).lineMisses m.line = []) (kind : m.ty = .fwdGetS) (plain : m.has Msg.fSNP = false) {left : LSt}
    (owner : ((s.core m.dst).line m.line).st = .m ∧ left = .o ∨ ((s.core m.dst).line m.line).st = .o ∧ left = .o ∨
      ((s.core m.dst).line m.line).st = .e ∧ left = .s) :
    ∃ t, TookMsg (.fwdGetS m) s m t
      [((s.core m.dst).line m.line).ownerData m.dst m (((s.core m.dst).line m.line).valid &&& m.mask) 0,
        ((s.core m.dst).line m.line).invAck m.dst m (keptOf left) 0 0] ∧
      (t.core m.dst).line m.line = { (s.core m.dst).line m.line with st := left } := by
  have step := (CoreStep.taken s m.dst m).answer_fwdGetS kind plain owner
  have settled : (s.without m).onForward m.dst m = (s.without m).answer m.dst m :=
    State.onForward_settled clear (by
      rw [show (s.without m).core m.dst = s.core m.dst from rfl]
      rcases owner with ⟨st, -⟩ | ⟨st, -⟩ | ⟨st, -⟩ <;> rw [st] <;> rfl)
  exact ⟨_, step.took (by rw [exec_fwdGetS mem kind core, settled]), step.line⟩

theorem fwdGetM_owner (clear : (s.core m.dst).lineMisses m.line = []) (kind : m.ty = .fwdGetM)
    (owner : ((s.core m.dst).line m.line).st = .m ∨ ((s.core m.dst).line m.line).st = .o ∨ ((s.core m.dst).line m.line).st = .e) :
    ∃ t, TookMsg (.fwdGetM m) s m t
      [((s.core m.dst).line m.line).ownerData m.dst m ((s.core m.dst).line m.line).valid
          (((s.core m.dst).line m.line).dirty &&& ((s.core m.dst).line m.line).valid),
        ((s.core m.dst).line m.line).invAck m.dst m 0 0 0] ∧
      (t.core m.dst).line m.line = ((s.core m.dst).line m.line).gone := by
  have step := (CoreStep.taken s m.dst m).answer_fwdGetM kind owner
  have settled : (s.without m).onForward m.dst m = (s.without m).answer m.dst m :=
    State.onForward_settled clear (by
      rw [show (s.without m).core m.dst = s.core m.dst from rfl]
      rcases owner with st | st | st <;> rw [st] <;> rfl)
  exact ⟨_, step.took (by rw [exec_fwdGetM mem kind core, settled]), step.line⟩

theorem inv_sharer (clear : (s.core m.dst).lineMisses m.line = []) (kind : m.ty = .inv) (sharer : ((s.core m.dst).line m.line).st = .s) :
    ∃ t, TookMsg (.inv m) s m t [({} : L1Line).invAck m.dst m 0 0 0] ∧ (t.core m.dst).line m.line = ((s.core m.dst).line m.line).gone := by
  have step := (CoreStep.taken s m.dst m).answer_inv_sharer kind sharer
  have settled : (s.without m).onForward m.dst m = (s.without m).answer m.dst m :=
    State.onForward_settled clear (by rw [show (s.without m).core m.dst = s.core m.dst from rfl, sharer]; rfl)
  exact ⟨_, step.took (by rw [exec_inv mem kind core, settled]), step.line⟩

theorem inv_owner (clear : (s.core m.dst).lineMisses m.line = []) (kind : m.ty = .inv) (owner : m.has Msg.fOWNER = true)
    (modified : ((s.core m.dst).line m.line).st = .m) :
    ∃ t, TookMsg (.inv m) s m t [((s.core m.dst).line m.line).invAck m.dst m 0 0 ((s.core m.dst).line m.line).dirty] ∧
      (t.core m.dst).line m.line = ((s.core m.dst).line m.line).gone := by
  have step := (CoreStep.taken s m.dst m).answer_inv_owner kind owner modified
  have settled : (s.without m).onForward m.dst m = (s.without m).answer m.dst m :=
    State.onForward_settled clear (by rw [show (s.without m).core m.dst = s.core m.dst from rfl, modified]; rfl)
  exact ⟨_, step.took (by rw [exec_inv mem kind core, settled]), step.line⟩

/-! ### Answers -/

theorem putAck_frees (kind : m.ty = .putAck) (pending : putPending ((s.core m.dst).line m.line).st = true)
    (ebb : ((s.core m.dst).line m.line).ebbBy = false) :
    ∃ t, TookMsg (.putAck m) s m t [] ∧ (t.core m.dst).line m.line = {} ∧ ∀ j, j ≠ m.line → (t.core m.dst).line j = (s.core m.dst).line j := by
  have step := (CoreStep.taken s m.dst m).setLine m.line {}
  refine ⟨_, step.took (exec_putAck mem kind core pending ebb), step.line, fun j hj => ?_⟩
  rw [step.core, Core.line_setLine_ne _ _ hj]

theorem nack_marks (kind : m.ty = .nack) (asked : ∃ r ∈ (s.core m.dst).reqs, r.txn = m.txn ∧ r.line = m.line) :
    ∃ t, TookMsg (.nack m) s m t [] ∧ (t.core m.dst).reqs =
      (s.core m.dst).reqs.map (fun r => if r.txn = m.txn ∧ r.line = m.line then { r with nacked := true, nacks := r.nacks + 1 } else r) := by
  have step := (CoreStep.taken s m.dst m).modCore (fun k => { k with
    reqs := k.reqs.map (fun r => if r.txn = m.txn ∧ r.line = m.line then { r with nacked := true, nacks := r.nacks + 1 } else r) })
  exact ⟨_, step.took (exec_nack mem kind core asked), by rw [step.core]⟩

theorem atomResp_last {r : L1Req} {o : MemOp} {th old x : Nat} (kind : m.ty = .atomResp)
    (asked : (s.core m.dst).reqs.find? (fun r => r.txn == m.txn && r.line == m.line) = some r) (ops : (s.core m.dst).ops = [o])
    (op : r.op = o.id) (far : o.kind = .far) (left : o.left = [r.line * 128 + r.msg.offset]) (started : o.started = true)
    (plain : o.predicted = false) (slot : o.slot < 32) (dst : o.dst < 255) (bytes : o.bytes = 4) (olds : o.olds = []) (own : m.commons = false)
    (threads : r.threads = [th]) (thread : th < 64) (resp : m.ops = [(old, x)]) :
    ∃ t, TookMsg (.atomResp m) s m t [] ∧ (t.core m.dst).ops = [] ∧ (t.core m.dst).reqs = (s.core m.dst).reqs.filter (fun q => q.txn != r.txn) ∧
      (t.group m.dst o.slot).rv o.dst th = old % 2 ^ 32 ∧ o.dst ∉ (t.group m.dst o.slot).busyV := by
  obtain ⟨t, run, step⟩ := exec_atomResp mem kind core asked ops op far left started plain (by omega) olds own threads resp
  let o' := o.answered th old
  let k := ((s.core m.dst).dropReq r.txn).serving o'
  have first : Core.Latest k [] o' := Core.latest_one rfl
  have done : (s.core m.dst).atomDone o r.txn th old = _ := first.finish_marked slot [(th, old)]
  have group : t.group m.dst o.slot = ((k.group o.slot).received o' [(th, old)]).mark (destRegs o'.dst (regsOf o'.bytes)) o'.poison o'.ghost := by
    rw [step.group, done]
    exact mget_mset_self _ _ _
  have one : regsOf o'.bytes = 1 := by rw [show o'.bytes = 4 from bytes]; rfl
  refine ⟨t, step.took run, ?_, ?_, ?_, ?_⟩
  · rw [step.core]
    exact Core.finish_ops rfl _
  · rw [step.core, Core.atomDone, Core.finish_rest]
    rfl
  · have written := (Group.received_rv (o := o') (g := k.group o.slot) [(th, old)] (by simp) (by simpa using thread)).1 th old (by simp) 0
      (by omega) (by rw [show o'.dst = o.dst from rfl]; omega)
    rw [group, Group.mark_rv, show o.dst = o'.dst from rfl]
    simpa using written
  · rw [group, Group.mark_busyV, Group.received, one]
    have mine : o.dst ∈ destRegs o.dst 1 := by simp [destRegs]
    simp [o', MemOp.answered, mine]

end

/-- The awaited sector of a line in ISD arrives, and the line is granted. -/
theorem data_awaited {s : State} {m : Msg} {r : L1Req} {q : MissReg} {i : Nat} {instr : Instr}
    (run : exec instr s = .next ((s.without m).onData m.dst m))
    (asked : (s.core m.dst).reqs.find? (fun r => r.txn == m.txn && r.line == m.line) = some r) (kind : r.ty = .getS) (fresh : r.stale = false)
    (awaited : ((s.core m.dst).line m.line).st = .isD) (home : m.has Msg.fFROMOWNER = false) (direct : m.has Msg.fFWD = false)
    (real : (m.has Msg.fGHOST && decide (m.ty = .data)) = false) (lt : i < 4) (mask : m.mask = 2 ^ i) (wanted : bit r.mask i = true)
    (miss : (s.core m.dst).missOf (4 * m.line + i) = some q) (own : q.gotOwner = false) :
    ∃ t, TookMsg instr s m t [] ∧ (t.core m.dst).line m.line = { (s.core m.dst).line m.line with st := grantedSt m.aux } ∧
      (t.core m.dst).missOf (4 * m.line + i) =
        some { q with got := some (m.data.take 32), poison := bit m.poison i, dirty := false, ready := true, once := false, ghost := false } ∧
      (t.core m.dst).reqs = (s.core m.dst).reqs.filter (fun q => q.txn != m.txn) := by
  obtain ⟨k, step, line, ready, reqs⟩ :=
    (CoreStep.taken s m.dst m).onData_awaited asked kind fresh awaited home direct real lt mask wanted miss own
  have same : { q.filled m i with ready := true, once := false, ghost := false } =
      { q with got := some (m.data.take 32), poison := bit m.poison i, dirty := false, ready := true, once := false, ghost := false } := by
    rw [MissReg.filled, own]
  refine ⟨_, step.took run, ?_, ?_, ?_⟩
  · rw [step.core, line]
  · rw [step.core, ready, same]
  · rw [step.core, reqs]

/-! ### The end of a waiting load -/

section
variable {s : State} {c : Nat} {o : MemOp}

/-- What the obligation says of a state in which the one load of a core has ended as `o'`. -/
def LoadEnded (i : Instr) (s : State) (c : Nat) (o : MemOp) (t : State) (o' : MemOp) : Prop :=
  exec i s = .next t ∧ (t.core c).ops = [] ∧
    (t.core c).groups = (({ s.core c with ops := [o'] } : Core).finish o' (o.acc.map (fun a => (a.thread, o'.loaded a)))).groups ∧
    (∀ d, d ≠ c → t.core d = s.core d) ∧ t.mem = s.mem ∧ t.slices = s.slices

theorem CoreTurns.loadEnded {i : Instr} {t : State} {k : Core} {o' : MemOp}
    (turns : CoreTurns s t c (k.finish o' (o.acc.map (fun a => (a.thread, o'.loaded a))))) (run : exec i s = .next t)
    (groups : k.groups = (s.core c).groups) (ops : k.ops = [o']) : LoadEnded i s c o t o' := by
  refine ⟨run, ?_, ?_, turns.others, by rw [turns.rest], by rw [turns.rest]⟩
  · rw [turns.core]
    exact Core.finish_ops ops _
  · rw [turns.core]
    exact Core.finish_groups (k' := (s.core c).serving o') groups ops _ _

theorem Core.serving_missOf (k : Core) (o : MemOp) (x : Nat) : (k.serving o).missOf x = k.missOf x := rfl
theorem Core.groups_filledWith (k : Core) (q : MissReg) (bs : List Byte) (o : MemOp) : ((k.filledWith q bs).serving o).groups = k.groups := rfl

theorem sectorFill_ends {q : MissReg} {bs : List Byte} (ops : (s.core c).ops = [o]) (load : o.kind = .load) (started : o.started = true)
    (ebb : o.ebb = false) (miss : (s.core c).missOf q.sector = some q) (ready : q.ready = true) (once : q.once = false) (buf : q.bufMask = 0)
    (waiters : q.waiters = [o.id]) (got : q.got = some bs) (len : bs.length = 32) (left : o.left = [q.sector])
    (deferred : ((s.core c).line (q.sector / 4)).deferred = none) (free : ((s.core c).line (q.sector / 4)).ebbBy = false)
    (maint : (s.core c).maint = 0) :
    ∃ t, LoadEnded (.sectorFill c q.sector) s c o t { o with got := o.got ++ [(q.sector, bs)], left := [], poison := o.poison || q.poison } ∧
      (t.core c).missOf q.sector = none ∧ bit ((t.core c).line (q.sector / 4)).valid (q.sector % 4) = true ∧
      ∀ j < 128, ((t.core c).line (q.sector / 4)).data.read j =
        if 32 * (q.sector % 4) ≤ j ∧ j < 32 * (q.sector % 4) + 32 then bs.getD (j - 32 * (q.sector % 4)) 0
        else ((s.core c).line (q.sector / 4)).data.read j := by
  have turns := (CoreStep.refl s c).turns.fillSector ops load started ebb miss ready once buf waiters got len left deferred free maint
  have line : ((s.fillSector c q.sector).core c).line (q.sector / 4) = ((s.core c).line (q.sector / 4)).filledWith q bs (q.sector % 4) := by
    rw [turns.core, Core.finish_line, Core.serving_line, Core.line_filledWith]
  refine ⟨_, turns.loadEnded rfl (Core.groups_filledWith _ _ _ _) rfl, ?_, ?_, fun j _ => ?_⟩
  · rw [turns.core, Core.finish_missOf, Core.serving_missOf, Core.missOf_filledWith]
  · rw [line, bit, L1Line.filledWith, Nat.testBit_or, Nat.testBit_two_pow_self, Bool.or_true]
  · rw [line, L1Line.data_filledWith]

end

/-- Settles O57: a message is taken off the mesh, and the L1's line, miss registers, requests and waiting instruction change by its kind. -/
theorem l1AnswersMessages : Obligations.L1AnswersMessages := by
  unfold Obligations.L1AnswersMessages
  refine ⟨?_, ?_, ?_⟩
  · rintro s c m mem rfl core
    refine ⟨fun clear => ⟨fun kind plain => ⟨fun st => ?_, fun st => ?_⟩, fun kind st => ?_, fun kind => ⟨fun st _ => ?_, fun st owner => ?_⟩⟩,
      fun r q i asked _ _ ty fresh st home direct lt mask wanted miss _ own => ⟨fun kind aux real => ?_, fun kind aux => ?_⟩, ?_, ?_, ?_⟩
    · exact fwdGetS_owner mem core clear kind plain (left := .o) (by tauto)
    · exact fwdGetS_owner mem core clear kind plain (left := .s) (by tauto)
    · exact fwdGetM_owner mem core clear kind st
    · obtain ⟨t, took, line⟩ := inv_sharer mem core clear kind st
      exact ⟨t, _, took, rfl, rfl, rfl, rfl, line⟩
    · exact inv_owner mem core clear kind owner st
    · have arrived := data_awaited (exec_data mem kind core) asked ty fresh st home direct (by rw [real]; rfl) lt mask wanted miss own
      rwa [aux] at arrived
    · have arrived := data_awaited (exec_dataExcl mem kind core) asked ty fresh st home direct (by rw [kind]; simp) lt mask wanted miss own
      have grant : grantedSt m.aux = if m.aux = 4 then .m else .e := by rcases aux with aux | aux <;> rw [aux] <;> rfl
      rwa [grant] at arrived
    · exact putAck_frees mem core
    · exact nack_marks mem core
    · exact fun r o th old x kind asked ops op far left started plain slot dst bytes olds own threads thread resp =>
        atomResp_last mem core kind asked ops op far left started plain slot dst bytes olds own threads thread resp
  · intro s c txn r refused
    obtain ⟨t, run, step⟩ := exec_nackResend refused
    exact ⟨t, run, step.net, by rw [step.core]; rfl, step.others, by rw [step.rest]⟩
  · intro s c o k ended ops load started ebb sound
    constructor
    · intro q bs miss ready once buf waiters got len left l i deferred free maint
      exact sectorFill_ends ops load started ebb miss ready once buf waiters got len left deferred free maint
    · intro r rest replay op here l secs held clear valid
      obtain ⟨t, k', run, groups, served, queue, turns⟩ := exec_replayQueueServe_hit ops load started ebb sound replay op here clear held valid rfl
      refine ⟨t, turns.loadEnded run groups served, ?_⟩
      rw [turns.core, Core.finish_rest]
      exact queue

end Sys2Proof.Machine
end

section
/-! SUPPORT. A step of one home: the slice it leaves, the messages it sends, and event counts. -/

namespace Sys2Proof.Machine

set_option Elab.async false

/-! ### Fields that event counts leave alone -/

/-- The fields of every page stand as they did, but for event counts. -/
def Tallied (s t : State) : Prop :=
  ∀ d k, (∀ n < 4, k % 2 ^ 18 ≠ (R.EVT_COUNT_n_COUNT.off + 0x20 * n) * 64) → mget d t.regs k = mget d s.regs k

theorem Tallied.refl (s : State) : Tallied s s := fun _ _ _ => rfl

theorem Tallied.trans {s t u : State} (h : Tallied s t) (k : Tallied t u) : Tallied s u := fun d j hj => (k d j hj).trans (h d j hj)

theorem fkey_mod (cls inst : Nat) (f : Fld) (d : Nat) : fkey cls inst f d % 2 ^ 18 = ((f.off + d) * 64 + f.lo) % 2 ^ 18 := by
  unfold fkey
  omega

theorem Counted.tallied {s t : State} {cls inst : Nat} (h : Counted s t cls inst) : Tallied s t := by
  refine fun d k hk => h.regs d k fun n hn e => hk n hn ?_
  rw [e, fkey_mod]
  simp only [R.EVT_COUNT_n_COUNT]
  omega

theorem Tallied.fldN {s t : State} (h : Tallied s t) (cls inst : Nat) {f : Fld} {d : Nat}
    (place : ∀ n < 4, ((f.off + d) * 64 + f.lo) % 2 ^ 18 ≠ (0x88 + 0x20 * n) * 64) : t.fldN cls inst f d = s.fldN cls inst f d :=
  h _ _ fun n hn => by
    rw [fkey_mod]
    exact place n hn

theorem Tallied.fld {s t : State} (h : Tallied s t) (cls inst : Nat) {f : Fld}
    (place : ∀ n < 4, (f.off * 64 + f.lo) % 2 ^ 18 ≠ (0x88 + 0x20 * n) * 64) : t.fld cls inst f = s.fld cls inst f :=
  h.fldN cls inst (d := 0) (by simpa only [Nat.add_zero] using place)

theorem Tallied.arm {s t : State} (h : Tallied s t) (cls inst : Nat) : t.fld cls inst R.ERR_INJECT_ARM = s.fld cls inst R.ERR_INJECT_ARM :=
  h.fld cls inst (by decide)

theorem Tallied.ptrLimit {s t : State} (h : Tallied s t) (n : Nat) : t.ptrLimit n = s.ptrLimit n := by
  unfold State.ptrLimit
  rw [h.fld clsHome n (f := R.HOME_CFG_PTR_LIMIT) (by decide)]

theorem Tallied.commonsC {s t : State} (h : Tallied s t) : t.commonsC = s.commonsC := by
  unfold State.commonsC
  rw [h.fld clsCove 64 (f := R.COMMONS_CFG_C) (by decide)]

theorem Tallied.coveCores {s t : State} (h : Tallied s t) (hs : t.hs = s.hs) (c : Nat) : t.coveCores c = s.coveCores c := by
  have bits : t.coveCoreBits c = s.coveCoreBits c := by
    simp only [State.coveCoreBits, State.bitmap]
    refine congrArg List.flatten (List.map_congr_left fun i hi => ?_)
    have lt := List.mem_range.1 hi
    rw [h.fldN clsCove c (f := R.COVE_CORES_n_CORE) (d := 8 * i) (fun n hn => by simp only [R.COVE_CORES_n_CORE]; omega)]
  simp only [State.coveCores, bits, State.cove, hs]

theorem Tallied.sharersOf {s t : State} (h : Tallied s t) (hs : t.hs = s.hs) (d : Dir) (cove : Nat) (commons : Bool) :
    t.sharersOf d cove commons = s.sharersOf d cove commons := by
  simp only [State.sharersOf, State.activeCores, h.coveCores hs, hs]

/-- The management region does not depend on the coves. -/
theorem State.isMgmt_congr {s t : State} (h : t.se = s.se) (pa : Nat) : t.isMgmt pa = s.isMgmt pa := by
  have place : ∀ (u : State) (f : Nat), (u.frameOwner f == .mgmt) = (decide (f < 2) && !decide (u.se.stage < 5)) := by
    intro u f
    unfold State.frameOwner
    by_cases lt : f < 2
    · by_cases stage : u.se.stage < 5 <;> simp [lt, stage]
    · simp only [lt, if_false, decide_false, Bool.false_and]
      split <;> rfl
  unfold State.isMgmt
  split
  · rw [place, place, h]
  · rfl

/-! ### Steps -/

/-- From `s` to `t` slice `h` becomes `y` and the messages `ms` are sent; besides, only event counts differ. -/
structure HomeStep (s t : State) (h : Nat) (y : Slice) (ms : List Msg) : Prop where
  rest : t = { s with slices := t.slices, regs := t.regs, net := s.net ++ ms }
  tallied : Tallied s t
  others : ∀ k, k ≠ h → t.slice k = s.slice k
  slice : t.slice h = y

theorem HomeStep.refl (s : State) (h : Nat) : HomeStep s s h (s.slice h) [] :=
  ⟨by rw [List.append_nil], Tallied.refl s, fun _ _ => rfl, rfl⟩

theorem Slice.line_setLine (y : Slice) (l : Nat) (x : SLine) : (y.setLine l x).line l = x := mget_mset_self _ _ _

theorem Slice.txn_setTxn (y : Slice) (e : HTxn) : (y.setTxn e).txn e.line = some e := by
  rw [Slice.txn, Slice.setTxn, List.find?_append, List.find?_eq_none.2 (fun u hu => ?_)]
  · simp
  · simpa using (List.mem_filter.1 hu).2

theorem Slice.txn_dropTxn (y : Slice) (l : Nat) : (y.dropTxn l).txn l = none := by
  rw [Slice.txn, List.find?_eq_none]
  intro u hu
  simpa using (List.mem_filter.1 hu).2

/-- What a home answers to the requester of `m` with sectors of a line. -/
def SLine.answer (x : SLine) (h : Nat) (m : Msg) (ty : MTy) (mask aux flags : Nat) : Msg :=
  { ty := ty, dst := m.req, src := homeNode h, req := m.req, txn := m.txn, mask := mask, aux := aux, flags := flags, commons := m.commons
    cove := m.cove, line := m.line, poison := x.poison &&& mask, data := (secsOfMask mask).flatMap (fun i => x.data.readBytes (32 * i) 32) }

/-- What a home sends to core `k` for a request `m`. -/
def homeToCore (m : Msg) (h : Nat) (ty : MTy) (k mask flags : Nat) : Msg :=
  { ty := ty, dst := k, src := homeNode h, req := m.req, txn := m.txn, mask := mask, flags := flags, commons := m.commons, cove := m.cove
    line := m.line }

/-- The acknowledgement of a Put. -/
def putAckOf (m : Msg) : Msg := { ty := .putAck, dst := m.src, src := m.dst, req := m.src, commons := m.commons, cove := m.cove, line := m.line }

section
variable {base s : State} {h : Nat} {y : Slice} {ms : List Msg} {m : Msg}

theorem HomeStep.hline (step : HomeStep base s h y ms) (l : Nat) : s.hline h l = y.line l := by rw [State.hline, step.slice]

theorem HomeStep.counted (step : HomeStep base s h y ms) {t : State} {cls inst : Nat} (counted : Counted s t cls inst) : HomeStep base t h y ms := by
  have slices : t.slices = s.slices := by rw [counted.rest]
  refine ⟨?_, step.tallied.trans counted.tallied, fun k hk => ?_, ?_⟩
  · rw [counted.rest]
    conv_lhs => rw [step.rest]
  · rw [State.slice, slices]
    exact step.others k hk
  · rw [State.slice, slices]
    exact step.slice

theorem HomeStep.hcount (step : HomeStep base s h y ms) (code n : Nat) : HomeStep base (s.hcount h code n) h y ms :=
  step.counted (s.count_counted _ _ _ _)

theorem HomeStep.scount (step : HomeStep base s h y ms) (code n : Nat) : HomeStep base (s.scount h code n) h y ms :=
  step.counted (s.count_counted _ _ _ _)

theorem HomeStep.accepted (step : HomeStep base s h y ms) (code : Nat) : HomeStep base (s.accepted h code) h y ms :=
  (step.hcount _ _).hcount _ _

theorem HomeStep.send (step : HomeStep base s h y ms) (m : Msg) : HomeStep base (s.send m) h y (ms ++ [m]) := by
  refine ⟨?_, step.tallied, step.others, step.slice⟩
  rw [State.send, step.rest, List.append_assoc]

theorem HomeStep.modSlice (step : HomeStep base s h y ms) (f : Slice → Slice) : HomeStep base (s.modSlice h f) h (f y) ms := by
  refine ⟨?_, step.tallied, fun k hk => (s.slice_modSlice_ne f hk).trans (step.others k hk), ?_⟩
  · conv_lhs => rw [State.modSlice, State.setSlice, step.rest]
    rfl
  · rw [State.slice_modSlice, step.slice]

theorem HomeStep.setHline (step : HomeStep base s h y ms) (l : Nat) (x : SLine) : HomeStep base (s.setHline h l x) h (y.setLine l x) ms :=
  step.modSlice _

theorem HomeStep.grant (step : HomeStep base s h y ms) (mask aux flags : Nat) :
    HomeStep base (s.grant h m mask aux flags) h y
      (ms ++ [(y.line m.line).answer h m (if 3 ≤ aux then .dataExcl else .data) mask aux flags]) := by
  rw [← step.hline]
  unfold State.grant
  split
  · exact (step.hcount _ _).send _
  · exact step.send _

theorem HomeStep.forward (step : HomeStep base s h y ms) (ty : MTy) (k flags : Nat) :
    HomeStep base (s.forward h m ty k flags) h y (ms ++ [homeToCore m h ty k m.mask flags]) := (step.send _).hcount _ _

theorem HomeStep.putAck (step : HomeStep base s h y ms) : HomeStep base (s.putAck m) h y (ms ++ [putAckOf m]) := step.send _

theorem HomeStep.invAll (step : HomeStep base s h y ms) (l : List Nat) (flags : Nat) (coarse : Bool) :
    HomeStep base (s.invAll h m l flags coarse) h y (ms ++ l.map (fun k => homeToCore m h .inv k 0 flags)) := by
  have sent : HomeStep base (l.foldl (fun s k => s.send (homeToCore m h .inv k 0 flags)) s) h y
      (ms ++ l.map (fun k => homeToCore m h .inv k 0 flags)) := by
    induction l generalizing s ms with
    | nil => simpa using step
    | cons k l ih =>
      have next := ih (step.send (homeToCore m h .inv k 0 flags))
      rwa [List.append_assoc] at next
  exact (sent.hcount _ _).hcount _ _

/-- What a home's step after taking a message leaves on the mesh, and that it leaves the other slices, the cores and memory alone. -/
theorem HomeStep.after (step : HomeStep (s.without m) base h y ms) :
    base.net = s.net.erase m ++ ms ∧ (∀ k, k ≠ h → base.slice k = s.slice k) ∧ base.cores = s.cores ∧ base.mem = s.mem :=
  ⟨by rw [step.rest]; rfl, step.others, by rw [step.rest]; rfl, by rw [step.rest]; rfl⟩

end

end Sys2Proof.Machine
end

section
/-! SUPPORT. A request at its home, of a line that is idle, present and holds what the answer needs (Table 9-10). -/

namespace Sys2Proof.Machine

set_option Elab.async false

/-- A home's line is present and without a ghost, and no error is injected. -/
structure HomeReady (s : State) (h : Nat) (m : Msg) : Prop where
  shelf : ∀ w o, region (m.line * 128) ≠ .shelf w o
  mgmt : s.isMgmt (m.line * 128) = false ∨ s.commonsC ≠ 0
  present : (s.hline h m.line).present = true
  ghost : (s.slice h).ghost m.line = none
  sliceArm : s.fld clsSlice h R.ERR_INJECT_ARM = 0
  homeArm : s.fld clsHome h R.ERR_INJECT_ARM = 0

/-- Nothing is under way for a request's line. -/
structure HomeIdle (s : State) (h : Nat) (m : Msg) : Prop where
  txn : (s.slice h).txn m.line = none
  waits : (s.slice h).lineWaits m.line = false
  queue : ∀ q ∈ (s.slice h).queue, q.line ≠ m.line

theorem State.armed_eq_false {s : State} {cls inst : Nat} (h : s.fld cls inst R.ERR_INJECT_ARM = 0) (kind : Nat) : s.armed cls inst kind = false := by
  rw [State.armed, h]
  rfl

theorem State.takeInjection_none {s : State} {cls inst : Nat} (h : s.fld cls inst R.ERR_INJECT_ARM = 0) (kind : Nat) :
    s.takeInjection cls inst kind = none := by
  rw [State.takeInjection, State.armed_eq_false h]
  rfl

theorem State.sliceCheck_sound {s : State} {h : Nat} (sound : s.fld clsSlice h R.ERR_INJECT_ARM = 0) (line need : Nat) :
    s.sliceCheck h line need = (false, s) := by
  simp only [State.sliceCheck, State.takeInjection_none sound, State.armed_eq_false sound, Bool.false_eq_true, if_false]

theorem State.dirCheck_sound {s : State} {h : Nat} (sound : s.fld clsHome h R.ERR_INJECT_ARM = 0) (line : Nat) :
    s.dirCheck h line = (false, s) := by
  simp only [State.dirCheck, State.takeInjection_none sound, State.armed_eq_false sound, Bool.false_eq_true, if_false]

section
variable {base s : State} {h : Nat} {m : Msg} {ms : List Msg}

/-- What a home looks at stands after a step that left the line as it was. -/
theorem HomeStep.ready {y : Slice} (step : HomeStep base s h y ms) (ready : HomeReady base h m) (line : (y.line m.line).present = true)
    (ghost : y.ghost m.line = none) : HomeReady s h m := by
  obtain ⟨shelf, mgmt, -, -, sliceArm, homeArm⟩ := ready
  have se : s.se = base.se := by rw [step.rest]
  refine ⟨shelf, ?_, by rw [step.hline, line], by rw [step.slice, ghost], (step.tallied.arm _ _).trans sliceArm, (step.tallied.arm _ _).trans homeArm⟩
  rw [State.isMgmt_congr se, step.tallied.commonsC]
  exact mgmt

/-- A request whose answer needs nothing but the slice's copy is served by the line's state. -/
theorem State.serveReq_stable (ready : HomeReady s h m) (foreign : (s.hline h m.line).dir.isOwner m.src = false)
    (inner : m.ty = .snoopRd → m.has Msg.fOUTER = false) (op : m.ty = .atomFar → m.op ≠ .write)
    (holds : needOf m (s.hline h m.line).dir &&& (15 - (s.hline h m.line).valid) = 0) : s.serveReq h m = s.serveStable h m := by
  obtain ⟨shelf, mgmt, present, ghost, sliceArm, homeArm⟩ := ready
  have there : (s.hline h m.line).present = true := present
  have outer : ¬ (m.ty = .snoopRd ∧ m.has Msg.fOUTER = true) := fun ⟨ty, o⟩ => by simp [inner ty] at o
  have write : ¬ (m.ty = .atomFar ∧ m.op = .write) := fun ⟨ty, w⟩ => op ty w
  unfold State.hline at foreign holds there
  unfold State.serveReq
  rw [if_neg]
  · simp only [State.hline, foreign, Bool.false_and, Bool.false_eq_true, if_false, ghost, Option.isSome_none, there, if_true,
      Bool.not_true, Bool.and_false, holds, ne_eq, not_true_eq_false, State.sliceCheck_sound sliceArm, State.dirCheck_sound homeArm,
      Bool.not_false, Bool.and_self, Bool.and_eq_true, decide_eq_true_eq, ite_self, Bool.true_and]
    rw [if_neg (by simpa using outer), if_neg (by tauto)]
  · intro elsewhere
    rcases (Bool.or_eq_true _ _).mp elsewhere with scratch | mgmt'
    · split at scratch
      · next w o at_ => exact shelf w o at_
      · exact absurd scratch (by decide)
    · rcases mgmt with mgmt | mgmt <;> simp [mgmt] at mgmt'

/-- A request of an idle line is served at once. -/
theorem State.onRequest_idle (idle : HomeIdle s h m) {t : State} (served : (s.accepted h (reqEvent m.ty)).serveReq h m = some t) :
    s.onRequest h m = t := by
  have queue : (s.slice h).queue.any (fun q => q.line == m.line) = false := by simpa using idle.queue
  unfold State.onRequest
  simp only [idle.txn, idle.waits, queue, Bool.or_self, Bool.false_eq_true, if_false, served]

/-- A request taken off the mesh, counted, and served by the line's state. -/
theorem State.onRequest_stable {t : State} (idle : HomeIdle s h m) (ready : HomeReady s h m) (foreign : (s.hline h m.line).dir.isOwner m.src = false)
    (inner : m.ty = .snoopRd → m.has Msg.fOUTER = false) (op : m.ty = .atomFar → m.op ≠ .write)
    (holds : needOf m (s.hline h m.line).dir &&& (15 - (s.hline h m.line).valid) = 0)
    (served : ((s.without m).accepted h (reqEvent m.ty)).serveStable h m = some t) : (s.without m).onRequest h m = t := by
  have step : HomeStep (s.without m) ((s.without m).accepted h (reqEvent m.ty)) h (s.slice h) [] := (HomeStep.refl (s.without m) h).accepted _
  have taken : HomeReady (s.without m) h m := ⟨ready.shelf, ready.mgmt, ready.present, ready.ghost, ready.sliceArm, ready.homeArm⟩
  have line : ((s.without m).accepted h (reqEvent m.ty)).hline h m.line = s.hline h m.line := step.hline _
  refine State.onRequest_idle (s := s.without m) ⟨idle.txn, idle.waits, idle.queue⟩
    ((State.serveReq_stable (step.ready taken ready.present ready.ghost) ?_ inner op ?_).trans served)
  · rwa [line]
  · rwa [line]

end

end Sys2Proof.Machine
end

section
/-! SUPPORT. What the home answers by the state of the line's directory entry (Table 9-10). -/

namespace Sys2Proof.Machine

set_option Elab.async false

theorem State.one_le_ptrLimit (s : State) (h : Nat) : 1 ≤ s.ptrLimit h := by
  unfold State.ptrLimit
  extract_lets n
  split
  · next lim => simp only [Bool.and_eq_true, decide_eq_true_eq] at lim; exact lim.1
  · decide

theorem Dir.add_empty {limit : Nat} (lt : 1 ≤ limit) (n : Nat) : ({ st := .s } : Dir).add limit n = { st := .s, ptr := [n] } := by
  simp [Dir.add, sadd, lt]

/-- A line with a new directory entry, just used. -/
def SLine.entered (x : SLine) (d : Dir) : SLine := { x with dir := d, ref := true }

section
variable {base s : State} {h : Nat} {y : Slice} {ms : List Msg} {m : Msg}

theorem HomeStep.hs (step : HomeStep base s h y ms) : s.hs = base.hs := by rw [step.rest]

/-- The home enters a directory state and answers. -/
theorem HomeStep.granted (step : HomeStep base s h y ms) (d : Dir) (mask aux flags : Nat) :
    HomeStep base ((s.setHline h m.line ((s.hline h m.line).entered d)).grant h m mask aux flags) h
      (y.setLine m.line ((y.line m.line).entered d))
      (ms ++ [(y.line m.line).answer h m (if 3 ≤ aux then .dataExcl else .data) mask aux flags]) := by
  have next := (step.setHline m.line ((s.hline h m.line).entered d)).grant (m := m) mask aux flags
  rw [Slice.line_setLine, step.hline] at next
  rw [step.hline]
  exact next

/-- A transaction is entered where there is room. -/
theorem HomeStep.begin (step : HomeStep base s h y ms) (e : HTxn) : HomeStep base (s.modSlice h (fun y => y.setTxn e)) h (y.setTxn e) ms :=
  step.modSlice _

theorem Slice.room_one {y : Slice} (lt : y.txns.length < 48) : y.room 1 = true := by
  unfold Slice.room
  simpa using lt

/-! ### GETS -/

theorem HomeStep.getS_shared (step : HomeStep base s h y ms) (kind : m.ty = .getS) (st : (y.line m.line).dir.st = .i)
    (shared : m.has Msg.fSONLY = true ∨ m.commons = true ∨ base.fld clsHome h R.HOME_CFG_NO_E_GRANT = 1) :
    ∃ t, s.serveStable h m = some t ∧ HomeStep base t h (y.setLine m.line ((y.line m.line).entered { st := .s, ptr := [m.src] }))
      (ms ++ [(y.line m.line).answer h m .data m.mask 1 0]) := by
  obtain rfl := step.slice
  refine ⟨_, ?_, step.granted { st := .s, ptr := [m.src] } m.mask 1 0⟩
  rw [← step.tallied.fld clsHome h (f := R.HOME_CFG_NO_E_GRANT) (by decide)] at shared
  have only : (m.has Msg.fSONLY || m.commons || decide (s.fld clsHome h R.HOME_CFG_NO_E_GRANT = 1)) = true := by
    simpa [or_assoc] using shared
  unfold State.serveStable
  simp only [kind, st, only, if_true, Dir.add_empty (s.one_le_ptrLimit h)]
  rfl

theorem HomeStep.getS_exclusive (step : HomeStep base s h y ms) (kind : m.ty = .getS) (st : (y.line m.line).dir.st = .i)
    (alone : m.has Msg.fSONLY = false) (own : m.commons = false) (grants : base.fld clsHome h R.HOME_CFG_NO_E_GRANT ≠ 1) :
    ∃ t, s.serveStable h m = some t ∧ HomeStep base t h (y.setLine m.line ((y.line m.line).entered ((y.line m.line).dir.toEM m.src)))
      (ms ++ [(y.line m.line).answer h m .dataExcl m.mask 3 0]) := by
  obtain rfl := step.slice
  refine ⟨_, ?_, step.granted _ m.mask 3 0⟩
  rw [← step.tallied.fld clsHome h (f := R.HOME_CFG_NO_E_GRANT) (by decide)] at grants
  unfold State.serveStable
  simp only [kind, st, alone, own, grants, decide_false, Bool.or_self, Bool.false_eq_true, if_false]
  rfl

theorem HomeStep.getS_sharer (step : HomeStep base s h y ms) (kind : m.ty = .getS) (st : (y.line m.line).dir.st = .s)
    (new : m.has Msg.fHELD = false) :
    ∃ t, s.serveStable h m = some t ∧
      HomeStep base t h (y.setLine m.line ((y.line m.line).entered ((y.line m.line).dir.add (base.ptrLimit h) m.src)))
        (ms ++ [(y.line m.line).answer h m .data m.mask 1 0]) := by
  obtain rfl := step.slice
  refine ⟨_, ?_, step.granted _ m.mask 1 0⟩
  rw [← step.tallied.ptrLimit]
  unfold State.serveStable
  simp only [kind, st, new, Bool.false_and, Bool.false_eq_true, if_false]
  rfl

/-- What is under way once a forward has gone to the owner. -/
def forwarded (m : Msg) (kind : TKind) (owner : Nat) (granted : Bool) : HTxn :=
  { line := m.line, kind := kind, msg := some m, owner := some owner, node := m.src, granted := granted }

theorem HomeStep.getS_owned (step : HomeStep base s h y ms) (kind : m.ty = .getS)
    (st : (y.line m.line).dir.st = .em ∨ (y.line m.line).dir.st = .o) (other : (y.line m.line).dir.owner ≠ m.src)
    (new : m.has Msg.fHELD = false) (room : y.txns.length < 48) :
    ∃ t, s.serveStable h m = some t ∧ HomeStep base t h (y.setTxn (forwarded m .fwdGetS (y.line m.line).dir.owner false))
      (ms ++ [homeToCore m h .fwdGetS (y.line m.line).dir.owner m.mask 0] ++ [(y.line m.line).answer h m .data m.mask 1 (2 ^ Msg.fFWD)]) := by
  obtain rfl := step.slice
  refine ⟨_, ?_, ((step.forward .fwdGetS _ 0).grant m.mask 1 (2 ^ Msg.fFWD)).begin _⟩
  unfold State.serveStable
  rcases st with st | st <;>
    simp only [kind, st, other, new, Bool.false_and, Bool.false_eq_true, if_false, Slice.room_one room, if_true] <;> rfl

/-! ### GETM and UPG -/

theorem HomeStep.getM_idle (step : HomeStep base s h y ms) (kind : m.ty = .getM) (st : (y.line m.line).dir.st = .i) :
    ∃ t, s.serveStable h m = some t ∧ HomeStep base t h (y.setLine m.line ((y.line m.line).entered ((y.line m.line).dir.toEM m.src)))
      (ms ++ [(y.line m.line).answer h m .dataExcl m.mask 4 0]) := by
  obtain rfl := step.slice
  refine ⟨_, ?_, step.granted _ m.mask 4 0⟩
  unfold State.serveStable
  simp only [kind, st, needOf]
  rfl

theorem HomeStep.getM_owned (step : HomeStep base s h y ms) (kind : m.ty = .getM) (st : (y.line m.line).dir.st = .em)
    (room : y.txns.length < 48) :
    ∃ t, s.serveStable h m = some t ∧ HomeStep base t h (y.setTxn (forwarded m .fwdGetM (y.line m.line).dir.owner true))
      (ms ++ [homeToCore m h .fwdGetM (y.line m.line).dir.owner m.mask 0] ++
        [(y.line m.line).answer h m .dataExcl m.mask 4 (2 ^ Msg.fFWD + 2 ^ Msg.fCONT)]) := by
  obtain rfl := step.slice
  refine ⟨_, ?_, ((step.forward .fwdGetM _ 0).grant m.mask 4 (2 ^ Msg.fFWD + 2 ^ Msg.fCONT)).begin _⟩
  unfold State.serveStable
  simp only [kind, st, needOf, Slice.room_one room, if_true]
  rfl

/-- The sharers of a line but the one that asks. -/
def State.otherSharers (s : State) (m : Msg) (d : Dir) : List Nat := (s.sharersOf d m.cove m.commons).filter (fun k => k != m.src)

theorem State.invHolders_sharers {d : Dir} (dir : (s.hline h m.line).dir = d) (st : d.st = .s) :
    s.invHolders h m (some m.src) = (s.otherSharers m d, none, s.invAll h m (s.otherSharers m d) 0 d.coarse.isSome) := by
  have other : (fun k => some k != some m.src && some k != none) = fun k => k != m.src := by
    funext k
    simp [bne]
  unfold State.invHolders
  simp only [dir, st, show ((none : Option Nat) == some m.src) = false from rfl, Bool.false_eq_true, if_false, other]
  rfl

theorem HomeStep.upg_alone (step : HomeStep base s h y ms) (kind : m.ty = .upg) (st : (y.line m.line).dir.st = .s)
    (mine : m.src ∈ (y.line m.line).dir.ptr) (alone : base.otherSharers m (y.line m.line).dir = []) :
    ∃ t, s.serveStable h m = some t ∧ HomeStep base t h (y.setLine m.line ((y.line m.line).entered ((y.line m.line).dir.toEM m.src)))
      (ms ++ [(y.line m.line).answer h m .dataExcl m.aux 4 0]) := by
  obtain rfl := step.slice
  refine ⟨_, ?_, step.granted _ m.aux 4 0⟩
  have none : s.otherSharers m (s.hline h m.line).dir = [] := by
    rw [State.otherSharers, step.tallied.sharersOf step.hs]
    exact alone
  have listed : ((s.slice h).line m.line).dir.listed m.src = true := by simp [Dir.listed, Dir.isSharer, st, mine]
  unfold State.serveStable
  simp only [kind, st, needOf, listed, if_true, decide_true, Bool.true_or, State.invHolders_sharers rfl st, none, List.isEmpty_nil]
  rfl

/-- What is under way while the other sharers are invalidated for a grant. -/
def invalidating (m : Msg) (sharers : List Nat) (kept : Nat) : HTxn :=
  { line := m.line, kind := .invGrant, msg := some m, sharers := sharers, node := m.src, kept := kept }

theorem HomeStep.upg_shared (step : HomeStep base s h y ms) (kind : m.ty = .upg) (st : (y.line m.line).dir.st = .s)
    (mine : m.src ∈ (y.line m.line).dir.ptr) (shared : base.otherSharers m (y.line m.line).dir ≠ []) (room : y.txns.length < 48) :
    ∃ t, s.serveStable h m = some t ∧
      HomeStep base t h (y.setTxn (invalidating m (base.otherSharers m (y.line m.line).dir) m.aux))
        (ms ++ (base.otherSharers m (y.line m.line).dir).map (fun k => homeToCore m h .inv k 0 0)) := by
  obtain rfl := step.slice
  have same : s.otherSharers m (s.hline h m.line).dir = base.otherSharers m ((s.slice h).line m.line).dir := by
    rw [State.otherSharers, step.tallied.sharersOf step.hs]
    rfl
  refine ⟨_, ?_, (step.invAll (base.otherSharers m ((s.slice h).line m.line).dir) 0 (s.hline h m.line).dir.coarse.isSome).begin _⟩
  have some : (base.otherSharers m ((s.slice h).line m.line).dir).isEmpty = false := by simpa using shared
  have listed : ((s.slice h).line m.line).dir.listed m.src = true := by simp [Dir.listed, Dir.isSharer, st, mine]
  unfold State.serveStable
  simp only [kind, st, needOf, listed, if_true, decide_true, Bool.true_or, State.invHolders_sharers rfl st, same, some, Bool.false_eq_true,
    if_false, Slice.room_one room]
  rfl

/-! ### SNOOPRD and ATOMFAR -/

theorem HomeStep.snoopRd_unowned (step : HomeStep base s h y ms) (kind : m.ty = .snoopRd)
    (st : (y.line m.line).dir.st = .i ∨ (y.line m.line).dir.st = .s) :
    ∃ t, s.serveStable h m = some t ∧ HomeStep base t h y (ms ++ [(y.line m.line).answer h m .data m.mask 0 0]) := by
  obtain rfl := step.slice
  refine ⟨_, ?_, step.grant m.mask 0 0⟩
  unfold State.serveStable
  rcases st with st | st <;> simp only [kind, st]

/-- The old values of the members of a far atomic and the new value of its target. -/
def SLine.atoms (x : SLine) (m : Msg) : Nat × List (Nat × Nat) :=
  atomSeq m.op m.fmt (x.data.readLE m.offset (atomBytes m.op m.fmt)) (m.ops.zipIdx.map (fun p => (p.2, p.1.1, p.1.2)))

/-- The slice with an atomic's line and requester noted, for the contention of later ones (R209). -/
def Slice.noteAtom (y : Slice) (m : Msg) : Slice := { y with atomHist := (m.line, m.src) :: y.atomHist |>.take 16 }

theorem HomeStep.atomFar_unowned (step : HomeStep base s h y ms) (kind : m.ty = .atomFar) (op : m.op ≠ .write)
    (st : (y.line m.line).dir.st = .i) (inner : outerTier (m.line * 128) = false) :
    ∃ t a y', s.serveStable h m = some t ∧ HomeStep base t h y' (ms ++ [a]) ∧ a.ty = .atomResp ∧ a.dst = m.req ∧ a.txn = m.txn ∧ a.line = m.line ∧
      a.ops = (if m.ret then ((y.line m.line).atoms m).2.map (fun p => (p.2, 0)) else []) ∧
      (y'.line m.line).data = (y.line m.line).data.writeLE m.offset (atomBytes m.op m.fmt) ((y.line m.line).atoms m).1 ∧
      (y'.line m.line).dir = (y.line m.line).dir := by
  obtain rfl := step.slice
  let cont := (s.slice h).atomHist.any (fun p => p.1 == m.line && p.2 != m.src && decide (p.2 < 1024))
  let a : Msg := { ty := .atomResp, dst := m.req, src := homeNode h, req := m.req, txn := m.txn, flags := boolNat cont, commons := m.commons
                   cove := m.cove, line := m.line, op := m.op, fmt := m.fmt, ret := m.ret
                   ops := if m.ret then (((s.slice h).line m.line).atoms m).2.map (fun p => (p.2, 0)) else [] }
  let noted := s.modSlice h (fun y => y.noteAtom m)
  let x : SLine := { (s.slice h).line m.line with
    data := ((s.slice h).line m.line).data.writeLE m.offset (atomBytes m.op m.fmt) (((s.slice h).line m.line).atoms m).1
    dirty := ((s.slice h).line m.line).dirty |||
      maskOfSecs ((List.range 4).filter (fun i => m.offset / 32 ≤ i && i ≤ (m.offset + atomBytes m.op m.fmt - 1) / 32)) }
  have line : noted.hline h m.line = (s.slice h).line m.line := by
    rw [State.hline, State.slice_modSlice]
    rfl
  refine ⟨_, a, _, ?_, (((step.modSlice (fun y => y.noteAtom m)).setHline m.line x).send a).hcount Ev.HOME_ATOM_CONT (boolNat cont), rfl, rfl, rfl, rfl, rfl, ?_, ?_⟩
  · unfold State.serveStable State.homeAtom
    simp only [kind, st, if_true, op, if_false, inner, Bool.false_and, Bool.false_eq_true]
    rw [show (s.modSlice h (fun y => { y with atomHist := (((m.line, m.src)) :: y.atomHist).take 16 })) = noted from rfl, line]
    rfl
  · rw [Slice.line_setLine]
  · rw [Slice.line_setLine]

end

end Sys2Proof.Machine
end

section
/-! SUPPORT. Puts, the end of an invalidation, and ebb actions at a home (R260, R267, R274, R289). -/

namespace Sys2Proof.Machine

set_option Elab.async false

theorem State.drain_empty {s : State} {h : Nat} (queue : (s.slice h).queue = []) : s.drain h = s := by
  rw [State.drain, queue, List.length_nil, State.drainHome]
  simp only [queue, List.filter_nil, List.findSome?_nil]

section
variable {base s : State} {h : Nat} {y : Slice} {ms : List Msg} {m : Msg}

/-! ### Puts -/

/-- The counts of a Put. -/
def State.countPut (s : State) (h : Nat) (stale : Bool) : State := (s.hcount h Ev.HOME_PUT 1).hcount h Ev.HOME_STALE_PUT (boolNat stale)

theorem HomeStep.countPut (step : HomeStep base s h y ms) (stale : Bool) : HomeStep base (s.countPut h stale) h y ms :=
  (step.hcount _ _).hcount _ _

theorem HomeStep.put_owner (step : HomeStep base s h y ms) (kind : m.ty ≠ .putS) (plain : m.has Msg.fEBB = false) (idle : y.txn m.line = none)
    (owner : (y.line m.line).dir.isOwner m.src = true) :
    HomeStep base (s.onPut h m) h (y.setLine m.line { (y.line m.line).absorb m m.mask with dir := (y.line m.line).dir.ownerGone })
      (ms ++ [putAckOf m]) := by
  obtain rfl := step.slice
  have holder : ((s.slice h).line m.line).dir.putHolder m.src (m.ty == .putS) = true := by simp [Dir.putHolder, Dir.listed, owner]
  have run : s.onPut h m = ((s.countPut h false).putAck m).setHline h m.line
      { ((s.slice h).line m.line).absorb m m.mask with dir := ((s.slice h).line m.line).dir.ownerGone } := by
    unfold State.onPut
    simp only [holder, plain, idle, owner, kind, Bool.not_true, Bool.false_eq_true, if_false, if_true]
    rfl
  rw [run]
  exact ((step.countPut false).putAck).setHline _ _

/-- The directory entry without a sharer. -/
def Dir.sharerGone (d : Dir) (n : Nat) : Dir := if (d.del n).st = .s ∧ (d.del n).noSharer = true then {} else d.del n

theorem HomeStep.put_sharer (step : HomeStep base s h y ms) (plain : m.has Msg.fEBB = false) (idle : y.txn m.line = none)
    (foreign : (y.line m.line).dir.isOwner m.src = false) (sharer : (y.line m.line).dir.isSharer m.src = true) :
    HomeStep base (s.onPut h m) h (y.setLine m.line { y.line m.line with dir := (y.line m.line).dir.sharerGone m.src }) (ms ++ [putAckOf m]) := by
  obtain rfl := step.slice
  have holder : ((s.slice h).line m.line).dir.putHolder m.src (m.ty == .putS) = true := by simp [Dir.putHolder, Dir.listed, sharer]
  have run : s.onPut h m = ((s.countPut h false).putAck m).setHline h m.line
      { (s.slice h).line m.line with dir := ((s.slice h).line m.line).dir.sharerGone m.src } := by
    unfold State.onPut Dir.sharerGone
    simp only [holder, plain, idle, foreign, Bool.not_true, Bool.false_eq_true, if_false, Bool.and_eq_true, decide_eq_true_eq]
    rfl
  rw [run]
  exact ((step.countPut false).putAck).setHline _ _

/-! ### The last answer to an invalidation -/

/-- An invalidation for a grant that awaits only the sender of `m`. -/
structure HTxn.AwaitsOnly (e : HTxn) (m q : Msg) : Prop where
  line : e.line = m.line
  kind : e.kind = .invGrant
  msg : e.msg = some q
  sharers : e.sharers = [m.src]
  owner : e.owner = none
  puts : e.puts = []
  ahead : e.ahead = none
  aheadWait : e.aheadWait = []
  held : e.held = none

theorem HomeStep.finish_invGrant (step : HomeStep base s h y ms) {e : HTxn} {q : Msg} (kind : e.kind = .invGrant) (msg : e.msg = some q)
    (line : q.line = e.line) (held : e.held = none) :
    HomeStep base (s.finishTxn h e) h
      ((y.dropTxn e.line).setLine e.line { y.line e.line with dir := (y.line e.line).dir.toEM q.src })
      (ms ++ [(y.line e.line).answer h q .dataExcl e.kept 4 (2 ^ Msg.fCONT)]) := by
  obtain rfl := step.slice
  have next := ((step.modSlice (fun y => y.dropTxn e.line)).setHline e.line
    { s.hline h e.line with dir := (s.hline h e.line).dir.toEM q.src }).grant (m := q) e.kept 4 (2 ^ Msg.fCONT)
  rw [line, Slice.line_setLine] at next
  have run : s.finishTxn h e = ((s.modSlice h (fun y => y.dropTxn e.line)).setHline h e.line
      { s.hline h e.line with dir := (s.hline h e.line).dir.toEM q.src }).grant h q e.kept 4 (2 ^ Msg.fCONT) := by
    unfold State.finishTxn
    simp only [kind, msg, held]
  rw [run]
  exact next

/-- A transaction that awaits nothing more ends. -/
theorem State.advance_done {e : HTxn} (kind : e.kind = .invGrant) (sharers : e.sharers = []) (owner : e.owner = none) (puts : e.puts = [])
    (ahead : e.ahead = none) : s.advance h e = (s.finishTxn h e).drain h := by
  unfold State.advance
  simp only [ahead, kind]
  unfold State.dirAhead
  simp [kind, sharers, owner, puts, ahead]

theorem HomeStep.invAck_last (step : HomeStep base s h y ms) {e : HTxn} {q : Msg} (txn : y.txn m.line = some e) (last : e.AwaitsOnly m q)
    (line : q.line = m.line) (empty : m.mask = 0) (noPut : m.has Msg.fPUT = false) (queue : y.queue = []) :
    HomeStep base (s.onInvAck h m) h ((y.dropTxn m.line).setLine m.line { y.line m.line with dir := (y.line m.line).dir.toEM q.src })
      (ms ++ [(y.line m.line).answer h q .dataExcl e.kept 4 (2 ^ Msg.fCONT)]) := by
  obtain rfl := step.slice
  obtain ⟨here, kind, msg, sharers, owner, puts, ahead, aheadWait, held⟩ := last
  let counted := if m.has Msg.fNOTHELD then s.hcount h Ev.HOME_NOTHELD_ACK 1 else s
  have counts : HomeStep base counted h (s.slice h) ms := by
    simp only [counted]
    split
    · exact step.hcount _ _
    · exact step
  let e' : HTxn := { e with puts := [], sharers := [], aheadWait := [], dirtyBack := e.dirtyBack || m.dirty != 0, ebb := e.ebb || m.has Msg.fEBB }
  have run : s.onInvAck h m = counted.advance h e' := by
    unfold State.onInvAck
    simp only [txn, kind, sharers, owner, puts, aheadWait, held, empty, noPut, reduceCtorEq, if_false, decide_true, decide_false,
      Bool.true_and, Bool.false_and, ne_eq, not_true_eq_false, Bool.false_eq_true, show ((none : Option Nat) == some m.src) = false from rfl,
      List.contains_cons, List.contains_nil, beq_self_eq_true, Bool.or_false, Bool.not_true, Bool.not_false, Bool.and_false, Option.any_none, e', counted]
    congr 2
    simp [sdel]
  have ended := counts.finish_invGrant (e := e') (q := q) kind msg (line.trans here.symm) held
  rw [show e'.line = m.line from here] at ended
  have idle : (State.slice (counted.finishTxn h e') h).queue = [] := by
    rw [ended.slice]
    exact queue
  rw [run, State.advance_done (e := e') kind rfl owner rfl ahead, State.drain_empty idle]
  exact ended

/-! ### Ebb actions -/

/-- The slice once an ebb action has begun: it waits no more. -/
def Slice.ebbing (y : Slice) (line v : Nat) : Slice := { y with ebbs := y.ebbs.erase (line, v) }

/-- The slice with a ghost for a line it no longer holds. -/
def Slice.ghosted (y : Slice) (line node : Nat) : Slice :=
  { y.setLine line {} with ghosts := minsert line node y.ghosts, ghostHwm := max y.ghostHwm (minsert line node y.ghosts).length }

theorem HomeStep.ebbEnd_clean (step : HomeStep base s h y ms) {line : Nat} (free : (y.line line).moored = false) (ghost : y.ghost line = none)
    (clean : (y.line line).dirty = 0) (lax : base.fld clsSlice h R.GHOST_CFG_STRICT ≠ 1) (node : Nat) :
    HomeStep base (s.ebbEnd h line node false) h (y.setLine line {}) ms := by
  obtain rfl := step.slice
  rw [← step.tallied.fld clsSlice h (f := R.GHOST_CFG_STRICT) (by decide)] at lax
  have next := ((step.hcount Ev.HOME_EBB_ACTION 1).setHline line {}).scount Ev.SLICE_EBB_CLEAN 1
  have run : s.ebbEnd h line node false = ((s.hcount h Ev.HOME_EBB_ACTION 1).setHline h line {}).scount h Ev.SLICE_EBB_CLEAN 1 := by
    unfold State.ebbEnd
    simp only [free, ghost, clean, lax, Option.isSome_none, Bool.false_eq_true, if_false, bne_self_eq_false, Bool.or_self, decide_false,
      Bool.not_false, if_true]
  rw [run]
  exact next

theorem HomeStep.ebbEnd_dirty (step : HomeStep base s h y ms) {line : Nat} (free : (y.line line).moored = false) (ghost : y.ghost line = none)
    {dirty : Bool} (wants : dirty = true ∨ (y.line line).dirty ≠ 0) (room : y.ghosts.length < 4096) (node : Nat) :
    HomeStep base (s.ebbEnd h line node dirty) h (y.ghosted line node) ms := by
  obtain rfl := step.slice
  have keep : (dirty || ((s.slice h).line line).dirty != 0) = true := by simpa using wants
  have next := ((((step.hcount Ev.HOME_EBB_ACTION 1).setHline line {}).modSlice (fun y =>
      { y with ghosts := minsert line node y.ghosts, ghostHwm := max y.ghostHwm (minsert line node y.ghosts).length })).scount
    Ev.SLICE_EBB_GHOSTED 1).scount Ev.SLICE_EBB_DIRTY_SECTORS (secsOfMask ((s.slice h).line line).dirty).length
  have run : s.ebbEnd h line node dirty = ((((s.hcount h Ev.HOME_EBB_ACTION 1).setHline h line {}).modSlice h (fun y =>
      { y with ghosts := minsert line node y.ghosts, ghostHwm := max y.ghostHwm (minsert line node y.ghosts).length })).scount h
    Ev.SLICE_EBB_GHOSTED 1).scount h Ev.SLICE_EBB_DIRTY_SECTORS (secsOfMask ((s.slice h).line line).dirty).length := by
    unfold State.ebbEnd
    simp only [free, ghost, keep, Option.isSome_none, Bool.false_eq_true, if_false, Bool.true_or, Bool.not_true, room, if_true]
  rw [run]
  exact next

/-- The message by which an ebb action names its line to the cores that hold it. -/
def SLine.recallMsg (x : SLine) (h line : Nat) : Msg :=
  { ty := .inv, dst := 0, src := homeNode h, cove := x.cove, commons := x.commons, line := line }

/-- The ebb of an idle line that nobody holds. -/
theorem State.ebbStart_unheld {line v : Nat} (pending : (s.slice h).ebbs.find? (fun e => e.1 == line) = some (line, v))
    (idle : (s.slice h).txn line = none) (room : (s.slice h).txns.length < 48) (unheld : (s.hline h line).dir.st = .i) :
    s.ebbStart h line = ((s.modSlice h (fun y => y.ebbing line v)).ebbEnd h line (v % 4096) (decide (4096 ≤ v))).drain h := by
  have holders : ∀ (u : State) (m : Msg), (u.hline h m.line).dir.st = .i → (u.invHolders h m (some (v % 4096))).1 = [] ∧
      (u.invHolders h m (some (v % 4096))).2.1 = none := by
    intro u m st
    unfold State.invHolders
    simp [st]
  have same : ((s.modSlice h (fun y => y.ebbing line v)).hline h line).dir.st = .i := by
    rw [State.hline, State.slice_modSlice]
    exact unheld
  unfold State.ebbStart
  simp only [pending, idle, Option.isSome_none, Slice.room_one room, Bool.not_true, Bool.or_self, Bool.false_eq_true, if_false]
  rw [if_pos]
  · rfl
  · have none := holders _ (((s.modSlice h (fun y => y.ebbing line v)).hline h line).recallMsg h line) same
    simp only [Bool.and_eq_true, List.isEmpty_iff, Option.isNone_iff_eq_none]
    exact none

end

end Sys2Proof.Machine
end

section
/-! SUPPORT. What the error check of a read of memory can do: records, counts, messages to the host (R317, R522, R526, R576). -/

namespace Sys2Proof.Machine

set_option Elab.async false

/-- From `a` to `s`: messages to the host, error records and counts. No error becomes armed, and no register from 0x180 on changes. -/
structure Noted (a s : State) : Prop where
  rest : s = { a with regs := s.regs, poison := s.poison, free := s.free, ra := s.ra, tm := s.tm, hs := s.hs }
  hs : s.hs = { a.hs with out := s.hs.out, msixPend := s.hs.msixPend }
  out : a.hs.out <+: s.hs.out
  armed : ∀ cls inst, a.fld cls inst R.ERR_INJECT_ARM = 0 → s.fld cls inst R.ERR_INJECT_ARM = 0
  high : ∀ d k, 0x180 * 64 ≤ k % 2 ^ 18 → mget d s.regs k = mget d a.regs k

theorem Noted.refl (s : State) : Noted s s := ⟨rfl, rfl, List.prefix_refl _, fun _ _ h => h, fun _ _ _ => rfl⟩

theorem Noted.trans {a b s : State} (h : Noted a b) (k : Noted b s) : Noted a s := by
  refine ⟨?_, ?_, h.out.trans k.out, fun cls inst arm => k.armed _ _ (h.armed _ _ arm), fun d j hj => (k.high d j hj).trans (h.high d j hj)⟩
  · conv_lhs => rw [k.rest]
    conv_lhs => rw [h.rest]
  · rw [k.hs]
    conv_lhs => rw [h.hs]

/-- A register below 0x180 that does not arm an error. -/
def Fld.mayNote (f : Fld) : Bool :=
  decide (f.off * 64 + f.lo < 0x180 * 64) && decide (f.off * 64 + f.lo ≠ R.ERR_INJECT_ARM.off * 64 + R.ERR_INJECT_ARM.lo)

theorem Fld.mayNote_errFld (b : Nat) : Fld.mayNote (errFld b) = true := by
  unfold errFld
  split <;> rfl

section
variable {a s : State} {cls inst : Nat}

theorem State.mget_setFldN_ne (s : State) {f : Fld} {off : Nat} (v : Nat) {d k : Nat} (h : k ≠ fkey cls inst f off) :
    mget d (s.setFldN cls inst f off v).regs k = mget d s.regs k := mget_mset_default _ _ _ _ h

theorem Noted.setFld {f : Fld} (h : Noted a s) (v : Nat) (may : Fld.mayNote f = true) : Noted a (s.setFld cls inst f v) := by
  obtain ⟨low, ne⟩ : f.off * 64 + f.lo < 0x180 * 64 ∧ f.off * 64 + f.lo ≠ R.ERR_INJECT_ARM.off * 64 + R.ERR_INJECT_ARM.lo := by
    simpa [Fld.mayNote] using may
  refine h.trans ⟨rfl, rfl, List.prefix_refl _, fun c i arm => ?_, fun d k hk => State.mget_setFldN_ne s v fun e => ?_⟩
  · refine (State.fldN_setFldN_ne s v fun e => ?_).trans arm
    have := congrArg (· % 2 ^ 18) e
    simp only [fkey_mod, R.ERR_INJECT_ARM] at this ne
    omega
  · rw [e, fkey_mod] at hk
    omega

theorem Noted.disarm (h : Noted a s) : Noted a (s.setFld cls inst R.ERR_INJECT_ARM 0) := by
  refine h.trans ⟨rfl, rfl, List.prefix_refl _, fun c i arm => ?_,
    fun d k hk => State.mget_setFldN_ne s 0 fun e => ?_⟩
  · by_cases e : fkey c i R.ERR_INJECT_ARM 0 = fkey cls inst R.ERR_INJECT_ARM 0
    · rw [State.fld, State.fldN, e]
      exact State.fld_setFld_self s cls inst R.ERR_INJECT_ARM 0
    · exact (State.fldN_setFldN_ne s 0 e).trans arm
  · rw [e, fkey_mod] at hk
    simp only [R.ERR_INJECT_ARM] at hk
    omega

theorem noted_foldl {α : Type} {f : State → α → State} (hf : ∀ s x, Noted a s → Noted a (f s x)) (l : List α) (h : Noted a s) :
    Noted a (l.foldl f s) := by
  induction l generalizing s with
  | nil => exact h
  | cons x l ih => exact ih (hf _ _ h)

theorem Noted.ite {t : State} {p : Prop} [Decidable p] (h : Noted a s) (k : Noted a t) : Noted a (if p then s else t) := by
  split <;> assumption

theorem Noted.setFlds {l : List (Fld × Nat)} (h : Noted a s) (may : ∀ p ∈ l, Fld.mayNote p.1 = true) : Noted a (s.setFlds cls inst l) := by
  unfold State.setFlds
  induction l generalizing s with
  | nil => exact h
  | cons p l ih => exact ih (h.setFld _ (may p List.mem_cons_self)) fun q hq => may q (List.mem_cons_of_mem _ hq)

theorem Noted.count (h : Noted a s) (code n : Nat) : Noted a (s.count cls inst code n) := by
  have counted := s.count_counted cls inst code n
  refine h.trans ⟨?_, ?_, ?_, fun c i arm => (counted.tallied.arm c i).trans arm, fun d k hk => counted.tallied d k fun m hm e => ?_⟩
  · conv_lhs => rw [counted.rest]
    rw [counted.rest]
  · rw [counted.rest]
  · rw [counted.rest]
  · rw [e] at hk
    simp only [R.EVT_COUNT_n_COUNT] at hk
    omega

theorem Noted.draw (h : Noted a s) (n : Nat) : Noted a (s.draw n).2 := h.trans ⟨rfl, rfl, List.prefix_refl _, fun _ _ h => h, fun _ _ _ => rfl⟩

theorem Noted.setPoison (h : Noted a s) (pa : Nat) (b : Bool) : Noted a (s.setPoison pa b) :=
  h.trans ⟨rfl, rfl, List.prefix_refl _, fun _ _ h => h, fun _ _ _ => rfl⟩

theorem Noted.emit (h : Noted a s) (m : OutMsg) : Noted a (s.emit m) :=
  h.trans ⟨rfl, rfl, List.prefix_append _ _, fun _ _ h => h, fun _ _ _ => rfl⟩

theorem Noted.ra (h : Noted a s) (r : RasSt) : Noted a { s with ra := r } := h.trans ⟨rfl, rfl, List.prefix_refl _, fun _ _ h => h, fun _ _ _ => rfl⟩

theorem Noted.tmk (h : Noted a s) (f : TmkOpen → TmkOpen) : Noted a (s.tmk f) := by
  unfold State.tmk
  exact Noted.ite (h.trans ⟨rfl, rfl, List.prefix_refl _, fun _ _ h => h, fun _ _ _ => rfl⟩) h

theorem Noted.pend (h : Noted a s) (l : List Nat) : Noted a { s with hs := { s.hs with msixPend := l } } :=
  h.trans ⟨rfl, rfl, List.prefix_refl _, fun _ _ h => h, fun _ _ _ => rfl⟩

theorem Noted.raiseVector (h : Noted a s) (fn : Option Nat) (v : Nat) : Noted a (s.raiseVector fn v) := by
  unfold State.raiseVector
  split
  · exact h.ite ((h.pend _).ite (h.emit _))
  · exact (h.pend _).ite (h.emit _)

theorem Noted.errBit (h : Noted a s) (b : Nat) : Noted a (s.errBit cls inst b) := by
  unfold State.errBit
  refine (Noted.ite (h.setFlds ?_) h).setFld _ (Fld.mayNote_errFld b)
  simp only [List.forall_mem_cons]
  exact ⟨rfl, rfl, rfl, fun _ hp => absurd hp List.not_mem_nil⟩

theorem Noted.raise (h : Noted a s) (b : Nat) (recorded : Bool) : Noted a (s.raise cls inst b recorded) := by
  unfold State.raise
  have counted := (h.errBit (cls := cls) (inst := inst) b).setFld (cls := cls) (inst := inst) (f := R.ERR_COUNT_TOTAL)
    (satAdd 32 ((s.errBit cls inst b).fld cls inst R.ERR_COUNT_TOTAL) 1) rfl
  exact counted.ite ((counted.errBit 3).setFld _ rfl)

theorem Noted.record (h : Noted a s) (b : Nat) {v : Fld} {l : List (Fld × Nat)} (valid : Fld.mayNote v = true) (may : ∀ p ∈ l, Fld.mayNote p.1 = true) :
    Noted a (s.record cls inst b v l) := by
  unfold State.record
  exact (((h.setFlds may).setFld 1 valid).raise b true).ite (h.raise b false)

theorem Noted.takeInjection {t : State} {kind : Nat} (h : Noted a s) (taken : s.takeInjection cls inst kind = some t) : Noted a t := by
  unfold State.takeInjection at taken
  split at taken
  · cases taken
    exact h.disarm.errBit 5
  · cases taken

theorem Noted.rasRecord (h : Noted a s) (e : RasEv) (level : Nat) : Noted a (s.rasRecord e level) := by
  unfold State.rasRecord
  extract_lets s1 ws full s2 r s3 s4
  have tallied : Noted a s1 := h.tmk _
  have logged : Noted a s4 := (((Noted.ite (tallied.count _ _) tallied).ra _).count _ _).emit _
  exact tallied.ite (tallied.ite ((logged.raiseVector _ _).ite logged))

theorem Noted.rasInjected (h : Noted a s) (e : RasEv) : Noted a (s.rasEvent e true) := by
  unfold State.rasEvent
  simp only [Bool.true_or, if_true]
  exact h.rasRecord _ _

theorem Noted.hbmCe (h : Noted a s) (ch burst : Nat) : Noted a (s.hbmCe ch burst true) := by
  unfold State.hbmCe
  exact ((h.count _ _).raise _ _).rasInjected _

theorem Noted.hbmUe (h : Noted a s) (ch burst : Nat) (scrub : Bool) : Noted a (s.hbmUe ch burst scrub true) := by
  unfold State.hbmUe
  split
  · exact h
  · extract_lets s1
    have drawn : Noted a ((s1.draw 37).2.draw 37).2 := (((h.setPoison _ _).setPoison _ _).draw 37).draw 37
    refine h.ite (((drawn.count _ _).record _ rfl ?_).rasInjected _)
    simp only [List.forall_mem_cons]
    exact ⟨rfl, rfl, rfl, rfl, fun _ hp => absurd hp List.not_mem_nil⟩

/-- The check of a read of memory only records and counts. -/
theorem Noted.memCheck (h : Noted a s) (line need : Nat) (ue : Bool) : Noted a (s.memCheck line need ue) := by
  unfold State.memCheck
  refine noted_foldl (fun s i h => ?_) _ h
  extract_lets pa
  refine h.ite ?_
  split
  · split
    · exact h
    · next ch off _ =>
      extract_lets s1 s2 s3
      have read : Noted a s1 := h.count _ _
      have checked : Noted a s2 := by
        simp only [s2]
        split
        · next taken =>
          split at taken
          · exact (read.takeInjection taken).hbmUe _ _ _
          · cases taken
        · split
          · next taken => exact (read.takeInjection taken).hbmCe _ _
          · exact read
      have marked : Noted a s3 := checked.count _ _
      exact (marked.count _ _).ite marked
  · exact h

end

end Sys2Proof.Machine
end

section
/-! SUPPORT. Memory's answer to a miss of a slice (R266, Table 9-11). -/

namespace Sys2Proof.Machine

set_option Elab.async false

/-! ### Masks of four sectors -/

theorem bit_complement : ∀ v < 16, ∀ i < 4, bit (15 - v) i = !bit v i := by decide

theorem bit_eq_false_of_lt {v i : Nat} (lt : v < 16) (hi : 4 ≤ i) : bit v i = false :=
  Nat.testBit_lt_two_pow (Nat.lt_of_lt_of_le lt (Nat.pow_le_pow_right (by decide) hi : 2 ^ 4 ≤ 2 ^ i))

/-- A mask asks for nothing that is not valid. -/
theorem mask_covered {mask v : Nat} (lt : mask < 16) (valid : v < 16) (cover : ∀ i < 4, bit mask i = true → bit v i = true) :
    mask &&& (15 - v) = 0 := by
  refine Nat.eq_of_testBit_eq fun i => ?_
  rw [Nat.testBit_and, Nat.zero_testBit]
  by_cases hi : i < 4
  · rw [show (15 - v).testBit i = !bit v i from bit_complement v valid i hi]
    by_cases asked : bit mask i = true
    · rw [cover i hi asked, Bool.not_true, Bool.and_false]
    · rw [show mask.testBit i = false by simpa [bit] using asked, Bool.false_and]
  · rw [show mask.testBit i = false from bit_eq_false_of_lt lt (by omega), Bool.false_and]

/-! ### Filling a line -/

/-- A line with more sectors from memory. -/
structure SLine.FilledFrom (x x' : SLine) : Prop where
  same : x' = { x with data := x'.data, valid := x'.valid, poison := x'.poison }
  valid : x.valid < 16 → x'.valid < 16
  grows : ∀ i, bit x.valid i = true → bit x'.valid i = true

theorem SLine.FilledFrom.refl (x : SLine) : x.FilledFrom x := ⟨rfl, id, fun _ => id⟩

theorem SLine.FilledFrom.trans {x x' x'' : SLine} (h : x.FilledFrom x') (k : x'.FilledFrom x'') : x.FilledFrom x'' := by
  refine ⟨?_, k.valid ∘ h.valid, fun i => k.grows i ∘ h.grows i⟩
  conv_lhs => rw [k.same]
  conv_lhs => rw [h.same]

/-- One sector of a line from memory, if it is not there and its half is wanted. -/
def State.fillSec (s : State) (line need : Nat) (x : SLine) (i : Nat) : SLine :=
  if bit x.valid i || !(bit need i || bit need (i ^^^ 1)) then x
  else
    let pa := line * 128 + 32 * i
    let r := s.memFrom pa
    { x with data := x.data.writeBytes (32 * i) (s.mem.readBytes r.1 32), valid := x.valid ||| 2 ^ i, poison := setBits x.poison i i (boolNat r.2) }

section
variable (s : State) (line need : Nat)

theorem State.fillSec_filled (x : SLine) {i : Nat} (lt : i < 4) : x.FilledFrom (s.fillSec line need x i) := by
  unfold State.fillSec
  split
  · exact SLine.FilledFrom.refl x
  · refine ⟨rfl, fun h => Nat.or_lt_two_pow (n := 4) h (Nat.pow_lt_pow_right (by decide) lt), fun j valid => ?_⟩
    simp only [bit, Nat.testBit_or] at valid ⊢
    rw [valid, Bool.true_or]

theorem State.fillSec_valid (x : SLine) {i : Nat} (wanted : bit need i = true) : bit (s.fillSec line need x i).valid i = true := by
  unfold State.fillSec
  split
  · next h => simpa [wanted] using h
  · simp [bit, Nat.testBit_or]

theorem State.foldl_fillSec (l : List Nat) (lt : ∀ i ∈ l, i < 4) (x : SLine) :
    x.FilledFrom (l.foldl (s.fillSec line need) x) ∧ ∀ i ∈ l, bit need i = true → bit (l.foldl (s.fillSec line need) x).valid i = true := by
  induction l generalizing x with
  | nil => exact ⟨SLine.FilledFrom.refl x, fun _ h => absurd h List.not_mem_nil⟩
  | cons i l ih =>
    obtain ⟨filled, valid⟩ := ih (fun j hj => lt j (List.mem_cons_of_mem _ hj)) (s.fillSec line need x i)
    refine ⟨(s.fillSec_filled line need x (lt i List.mem_cons_self)).trans filled, fun j hj wanted => ?_⟩
    rcases List.mem_cons.1 hj with rfl | hj
    · exact filled.grows _ (s.fillSec_valid line need x wanted)
    · exact valid j hj wanted

theorem State.fillFromMem_filled (x : SLine) : x.FilledFrom (s.fillFromMem line need x) :=
  (s.foldl_fillSec line need (List.range 4) (fun _ h => List.mem_range.1 h) x).1

theorem State.fillFromMem_valid (x : SLine) {i : Nat} (lt : i < 4) (wanted : bit need i = true) :
    bit (s.fillFromMem line need x).valid i = true :=
  (s.foldl_fillSec line need (List.range 4) (fun _ h => List.mem_range.1 h) x).2 i (List.mem_range.2 lt) wanted

end

/-! ### The answer -/

section
variable {a s : State} {h line : Nat}

theorem Noted.slice (noted : Noted a s) (k : Nat) : s.slice k = a.slice k := by
  rw [noted.rest]
  rfl

theorem Noted.commonsC (noted : Noted a s) : s.commonsC = a.commonsC := by
  have field : s.fld clsCove 64 R.COMMONS_CFG_C = a.fld clsCove 64 R.COMMONS_CFG_C := noted.high _ _ (by decide)
  unfold State.commonsC
  rw [field]

theorem Noted.ready {m : Msg} (noted : Noted a s) (ready : HomeReady a h m) : HomeReady s h m := by
  obtain ⟨shelf, mgmt, present, ghost, sliceArm, homeArm⟩ := ready
  have se : s.se = a.se := by rw [noted.rest]
  refine ⟨shelf, ?_, ?_, by rw [noted.slice, ghost], noted.armed _ _ sliceArm, noted.armed _ _ homeArm⟩
  · rw [State.isMgmt_congr se, noted.commonsC]
    exact mgmt
  · rw [State.hline, noted.slice]
    exact present

/-- A GETS of a core that may only share the line waits for memory's sectors of it. -/
structure HTxn.AwaitsMemory (e : HTxn) (q : Msg) (line valid : Nat) : Prop where
  kind : e.kind = .mem
  room : e.aheadWait = []
  msg : e.msg = some q
  here : q.line = line
  ty : q.ty = .getS
  only : q.has Msg.fSONLY = true
  kept : e.kept = q.mask &&& (15 - valid)
  mask : q.mask < 16

theorem HTxn.AwaitsMemory.wanted {e : HTxn} {q : Msg} {valid : Nat} (awaits : e.AwaitsMemory q line valid) (lt : valid < 16) {i : Nat} (hi : i < 4)
    (asked : bit q.mask i = true) (absent : bit valid i = false) : bit e.kept i = true := by
  rw [awaits.kept, bit, Nat.testBit_and, show (15 - valid).testBit i = !bit valid i from bit_complement valid lt i hi, absent,
    show q.mask.testBit i = true from asked]
  rfl

/-- Memory's sectors enter the line, and the waiting GETS is granted S. -/
theorem exec_memoryData {e : HTxn} {q : Msg} (txn : (s.slice h).txn line = some e) (awaits : e.AwaitsMemory q line (s.hline h line).valid)
    (valid : (s.hline h line).valid < 16) (ready : HomeReady s h q) (idle : (s.hline h line).dir.st = .i) (queue : (s.slice h).queue = []) :
    ∃ (t : State) (x : SLine), exec (.memoryData h line) s = .next t ∧ t.net = s.net ++ [x.answer h q .data q.mask 1 0] ∧ (t.slice h).txn line = none ∧
      t.hline h line = x.entered { st := .s, ptr := [q.src] } ∧ ∀ i < 4, bit q.mask i = true → bit x.valid i = true := by
  obtain ⟨kind, room, msg, rfl, ty, only, kept, mask⟩ := id awaits
  let miss := maskOfSecs ((List.range 4).filter (fun i => !bit (s.hline h q.line).valid i && (bit e.kept i || bit e.kept (i ^^^ 1))))
  let s1 := s.memCheck q.line miss true
  let x := s1.fillFromMem q.line e.kept (s1.hline h q.line)
  let s2 := (s1.setHline h q.line x).modSlice h (fun y => y.dropTxn q.line)
  have noted : Noted s s1 := (Noted.refl s).memCheck _ _ _
  have before : s1.hline h q.line = s.hline h q.line := by rw [State.hline, noted.slice]; rfl
  have filled : (s.hline h q.line).FilledFrom x := by
    rw [← before]
    exact s1.fillFromMem_filled q.line e.kept _
  have covered : ∀ i < 4, bit q.mask i = true → bit x.valid i = true := by
    intro i hi asked
    by_cases there : bit (s.hline h q.line).valid i = true
    · exact filled.grows i there
    · exact s1.fillFromMem_valid q.line e.kept _ hi (awaits.wanted valid hi asked (by simpa using there))
  have step : HomeStep s1 s2 h (((s1.slice h).setLine q.line x).dropTxn q.line) [] := ((HomeStep.refl s1 h).setHline q.line x).modSlice _
  have line : (((s1.slice h).setLine q.line x).dropTxn q.line).line q.line = x := Slice.line_setLine _ _ _
  have dir : x.dir = (s.hline h q.line).dir := by rw [filled.same]
  have foreign : x.dir.isOwner q.src = false := by
    rw [dir, Dir.isOwner, idle]
    rfl
  have ready2 : HomeReady s2 h q := by
    refine step.ready (noted.ready ready) ?_ (noted.ready ready).ghost
    rw [line, filled.same]
    exact ready.present
  obtain ⟨t, served, done⟩ := step.getS_shared ty (by rw [line, dir, idle]) (.inl only)
  have serves : s2.serveReq h q = some t := by
    have here : s2.hline h q.line = x := (step.hline _).trans line
    refine (State.serveReq_stable ready2 ?_ (fun k => ?_) (fun k => ?_) ?_).trans served
    · rwa [here]
    · rw [ty] at k
      cases k
    · rw [ty] at k
      cases k
    · rw [here, needOf, ty]
      exact mask_covered mask (filled.valid valid) covered
  have empty : (t.slice h).queue = [] := by
    rw [done.slice]
    exact (congrArg Slice.queue (noted.slice h)).trans queue
  refine ⟨t, x, ?_, ?_, ?_, ?_, covered⟩
  · have run : s.onMemData h q.line = t := by
      unfold State.onMemData
      simp only [txn, kind, room, msg, bne_self_eq_false, List.isEmpty_nil, Bool.not_true, Bool.or_self, Bool.false_eq_true, if_false]
      rw [show (s.fetch h q.line e.kept true).modSlice h (fun y => y.dropTxn q.line) = s2 from rfl, serves]
      exact State.drain_empty empty
    rw [show exec (.memoryData h q.line) s = .next (s.onMemData h q.line) from rfl, run]
  · rw [done.rest, line]
    simp only [List.nil_append]
    rw [noted.rest]
  · rw [done.slice]
    exact Slice.txn_dropTxn _ _
  · rw [done.hline, Slice.line_setLine, line]

end

end Sys2Proof.Machine
end

section
/-! PROOF. What a home serves (O56). -/

namespace Sys2Proof.Machine

set_option Elab.async false

/-- What the obligation says of the state after home `h` has taken message `m` and sent `out`. -/
def HomeTook (i : Instr) (s : State) (h : Nat) (m : Msg) (t : State) (out : List Msg) : Prop :=
  exec i s = .next t ∧ t.net = s.net.erase m ++ out ∧ (∀ k, k ≠ h → t.slice k = s.slice k) ∧ t.cores = s.cores ∧ t.mem = s.mem

section
variable {s : State} {h : Nat} {m : Msg}

theorem HomeStep.took {i : Instr} {t : State} {y : Slice} {out : List Msg} (step : HomeStep (s.without m) t h y out) (run : exec i s = .next t) :
    HomeTook i s h m t out := ⟨run, step.after⟩

/-- A home's line after a step that set it. -/
theorem HomeStep.hline_set {base t : State} {y : Slice} {ms : List Msg} {l : Nat} {x : SLine} (step : HomeStep base t h (y.setLine l x) ms) :
    t.hline h l = x := by rw [step.hline, Slice.line_setLine]

/-! ### Requests -/

theorem exec_request {i : Instr} {ty : MTy} (row : exec i s = match s.homeFor m ty with | none => .next s | some s => .next (s.onRequest (m.dst - 0x400) m))
    (mem : m ∈ s.net) (kind : m.ty = ty) (home : m.dst = 0x400 + h) (lt : h < 0x200) : exec i s = .next ((s.without m).onRequest h m) := by
  rw [row, State.homeFor_of_mem mem kind home lt, show m.dst - 0x400 = h by omega]

theorem exec_put {i : Instr} {ty : MTy} (row : exec i s = match s.homeFor m ty with | none => .next s | some s => .next (s.onPut (m.dst - 0x400) m))
    (mem : m ∈ s.net) (kind : m.ty = ty) (home : m.dst = 0x400 + h) (lt : h < 0x200) : exec i s = .next ((s.without m).onPut h m) := by
  rw [row, State.homeFor_of_mem mem kind home lt, show m.dst - 0x400 = h by omega]

/-- A request of an idle line is counted, and served by what the line's state says. -/
theorem request_runs {i : Instr} (run : exec i s = .next ((s.without m).onRequest h m)) (idle : HomeIdle s h m) (ready : HomeReady s h m)
    (foreign : (s.hline h m.line).dir.isOwner m.src = false) (inner : m.ty = .snoopRd → m.has Msg.fOUTER = false)
    (op : m.ty = .atomFar → m.op ≠ .write) (holds : needOf m (s.hline h m.line).dir &&& (15 - (s.hline h m.line).valid) = 0) :
    ∃ s1, HomeStep (s.without m) s1 h (s.slice h) [] ∧ ∀ t, s1.serveStable h m = some t → exec i s = .next t :=
  ⟨_, (HomeStep.refl (s.without m) h).accepted (reqEvent m.ty), fun t served => by
    rw [run, State.onRequest_stable idle ready foreign inner op holds served]⟩

theorem Dir.isOwner_of_idle {d : Dir} (st : d.st = .i ∨ d.st = .s) (n : Nat) : d.isOwner n = false := by
  rcases st with st | st <;> simp [Dir.isOwner, st]

theorem Dir.isOwner_of_ne {d : Dir} {n : Nat} (other : d.owner ≠ n) : d.isOwner n = false := by simp [Dir.isOwner, other]

variable (mem : m ∈ s.net) (home : m.dst = 0x400 + h) (lt : h < 0x200) (idle : HomeIdle s h m) (ready : HomeReady s h m)
include mem home lt idle ready

theorem getS_runs (kind : m.ty = .getS) (foreign : (s.hline h m.line).dir.isOwner m.src = false)
    (holds : m.mask &&& (15 - (s.hline h m.line).valid) = 0) :
    ∃ s1, HomeStep (s.without m) s1 h (s.slice h) [] ∧ ∀ t, s1.serveStable h m = some t → exec (.getS m) s = .next t :=
  request_runs (exec_request rfl mem kind home lt) idle ready foreign (by simp [kind]) (by simp [kind]) (by rwa [needOf, kind])

theorem getM_runs (kind : m.ty = .getM) (foreign : (s.hline h m.line).dir.isOwner m.src = false)
    (holds : m.mask &&& (15 - (s.hline h m.line).valid) = 0) :
    ∃ s1, HomeStep (s.without m) s1 h (s.slice h) [] ∧ ∀ t, s1.serveStable h m = some t → exec (.getM m) s = .next t :=
  request_runs (exec_request rfl mem kind home lt) idle ready foreign (by simp [kind]) (by simp [kind]) (by rwa [needOf, kind])

theorem upg_runs (kind : m.ty = .upg) (mine : m.src ∈ (s.hline h m.line).dir.ptr) (st : (s.hline h m.line).dir.st = .s)
    (holds : m.aux &&& (15 - (s.hline h m.line).valid) = 0) :
    ∃ s1, HomeStep (s.without m) s1 h (s.slice h) [] ∧ ∀ t, s1.serveStable h m = some t → exec (.upg m) s = .next t := by
  have listed : (s.hline h m.line).dir.listed m.src = true := by simp [Dir.listed, Dir.isSharer, st, mine]
  refine request_runs (exec_request rfl mem kind home lt) idle ready (Dir.isOwner_of_idle (.inr st) _) (by simp [kind]) (by simp [kind]) ?_
  rw [needOf, kind]
  simp only [listed, if_true]
  exact holds

theorem snoopRd_runs (kind : m.ty = .snoopRd) (inner : m.has Msg.fOUTER = false)
    (st : (s.hline h m.line).dir.st = .i ∨ (s.hline h m.line).dir.st = .s) (holds : m.mask &&& (15 - (s.hline h m.line).valid) = 0) :
    ∃ s1, HomeStep (s.without m) s1 h (s.slice h) [] ∧ ∀ t, s1.serveStable h m = some t → exec (.snoopRd m) s = .next t :=
  request_runs (exec_request rfl mem kind home lt) idle ready (Dir.isOwner_of_idle st _) (fun _ => inner) (by simp [kind]) (by rwa [needOf, kind])

theorem atomFar_runs (kind : m.ty = .atomFar) (op : m.op ≠ .write) (st : (s.hline h m.line).dir.st = .i)
    (holds : needOf m (s.hline h m.line).dir &&& (15 - (s.hline h m.line).valid) = 0) :
    ∃ s1, HomeStep (s.without m) s1 h (s.slice h) [] ∧ ∀ t, s1.serveStable h m = some t → exec (.atomFar m) s = .next t :=
  request_runs (exec_request rfl mem kind home lt) idle ready (Dir.isOwner_of_idle (.inl st) _) (by simp [kind]) (fun _ => op) holds

end

/-! ### Ebb actions -/

theorem Slice.line_ghosted (y : Slice) (line node : Nat) : (y.ghosted line node).line line = {} := Slice.line_setLine y line {}

/-- An ebb action of an unheld line that leaves the slice `y`, in which nothing waits. -/
theorem HomeStep.ebbed {s t : State} {h line v : Nat} {y : Slice} (step : HomeStep s t h y []) (queue : y.queue = []) (run : s.ebbStart h line = t.drain h)
    (line' : y.line line = {}) (ebbs : y.ebbs = (s.slice h).ebbs.erase (line, v)) :
    ∃ t, exec (.ebbAction h line) s = .next t ∧ t.hline h line = {} ∧ (t.slice h).ebbs = (s.slice h).ebbs.erase (line, v) ∧
      (t.slice h).ghosts = y.ghosts ∧ t.net = s.net ∧ t.cores = s.cores ∧ t.mem = s.mem := by
  refine ⟨t, ?_, by rw [step.hline, line'], by rw [step.slice, ebbs], by rw [step.slice], ?_, by rw [step.rest], by rw [step.rest]⟩
  · rw [show exec (.ebbAction h line) s = .next (s.ebbStart h line) from rfl, run, State.drain_empty (by rw [step.slice, queue])]
  · rw [step.rest]
    exact List.append_nil _

section
variable {s : State} {h line v : Nat} (pending : (s.slice h).ebbs.find? (fun e => e.1 == line) = some (line, v))
    (idle : (s.slice h).txn line = none) (room : (s.slice h).txns.length < 48) (queue : (s.slice h).queue = [])
    (unheld : (s.hline h line).dir.st = .i) (moored : (s.hline h line).moored = false) (ghost : (s.slice h).ghost line = none)
include pending idle room queue unheld moored ghost

theorem ebbAction_clean (clean : v < 4096) (dirty : (s.hline h line).dirty = 0) (lax : s.fld clsSlice h R.GHOST_CFG_STRICT ≠ 1) :
    ∃ t, exec (.ebbAction h line) s = .next t ∧ t.hline h line = {} ∧ (t.slice h).ebbs = (s.slice h).ebbs.erase (line, v) ∧
      (t.slice h).ghosts = (s.slice h).ghosts ∧ t.net = s.net ∧ t.cores = s.cores ∧ t.mem = s.mem := by
  have step := ((HomeStep.refl s h).modSlice (fun y => y.ebbing line v)).ebbEnd_clean (line := line) moored ghost dirty lax (v % 4096)
  have run := State.ebbStart_unheld pending idle room unheld
  rw [decide_eq_false (by omega)] at run
  exact step.ebbed queue run (Slice.line_setLine _ _ _) rfl

theorem ebbAction_dirty (wants : 4096 ≤ v ∨ (s.hline h line).dirty ≠ 0) (few : (s.slice h).ghosts.length < 4096) :
    ∃ t, exec (.ebbAction h line) s = .next t ∧ t.hline h line = {} ∧ (t.slice h).ebbs = (s.slice h).ebbs.erase (line, v) ∧
      (t.slice h).ghosts = minsert line (v % 4096) (s.slice h).ghosts ∧ t.net = s.net ∧ t.cores = s.cores ∧ t.mem = s.mem := by
  have step := ((HomeStep.refl s h).modSlice (fun y => y.ebbing line v)).ebbEnd_dirty (line := line) moored ghost
    (dirty := decide (4096 ≤ v)) (wants.imp_left decide_eq_true) few (v % 4096)
  exact step.ebbed queue (State.ebbStart_unheld pending idle room unheld) (Slice.line_ghosted _ _ _) rfl

end

/-! ### The obligation -/

/-- Settles O56: a request is counted and served by the line's directory state; a Put, the last answer, memory's data and an ebb action each by theirs. -/
theorem homeServesRequests : Obligations.HomeServesRequests := by
  unfold Obligations.HomeServesRequests
  refine ⟨?_, ?_, ?_⟩
  · intro s h m mem home lt x d net reply toCore ack after idleLine holds
    rintro ⟨txn, waits, queue, shelf, mgmt, present, ghost, sliceArm, homeArm, room⟩
    have idle : HomeIdle s h m := ⟨txn, waits, queue⟩
    have ready : HomeReady s h m := ⟨shelf, mgmt, present, ghost, sliceArm, homeArm⟩
    refine ⟨fun kind held => ⟨fun st => ⟨fun shared => ?_, fun alone own grants => ?_⟩, fun st new => ?_, fun st other new => ?_⟩,
      fun kind held => ⟨fun st => ?_, fun st other => ?_⟩, fun kind mine st held => ?_, fun kind inner held st => ?_,
      fun kind op st inner held => ?_, ?_, fun kind plain foreign sharer => ?_⟩
    · obtain ⟨s1, taken, runs⟩ := getS_runs mem home lt idle ready kind (Dir.isOwner_of_idle (.inl st) _) held
      obtain ⟨t, served, step⟩ := taken.getS_shared kind st shared
      exact ⟨t, step.took (runs t served), step.hline_set⟩
    · obtain ⟨s1, taken, runs⟩ := getS_runs mem home lt idle ready kind (Dir.isOwner_of_idle (.inl st) _) held
      obtain ⟨t, served, step⟩ := taken.getS_exclusive kind st alone own grants
      exact ⟨t, step.took (runs t served), step.hline_set⟩
    · obtain ⟨s1, taken, runs⟩ := getS_runs mem home lt idle ready kind (Dir.isOwner_of_idle (.inr st) _) held
      obtain ⟨t, served, step⟩ := taken.getS_sharer kind st new
      exact ⟨t, step.took (runs t served), step.hline_set⟩
    · obtain ⟨s1, taken, runs⟩ := getS_runs mem home lt idle ready kind (Dir.isOwner_of_ne other) held
      obtain ⟨t, served, step⟩ := taken.getS_owned kind st other new room
      refine ⟨t, forwarded m .fwdGetS d.owner false, step.took (runs t served), step.hline _, ?_, rfl, rfl, rfl⟩
      rw [step.slice]
      exact Slice.txn_setTxn _ _
    · obtain ⟨s1, taken, runs⟩ := getM_runs mem home lt idle ready kind (Dir.isOwner_of_idle (.inl st) _) held
      obtain ⟨t, served, step⟩ := taken.getM_idle kind st
      exact ⟨t, step.took (runs t served), step.hline_set⟩
    · obtain ⟨s1, taken, runs⟩ := getM_runs mem home lt idle ready kind (Dir.isOwner_of_ne other) held
      obtain ⟨t, served, step⟩ := taken.getM_owned kind st room
      refine ⟨t, forwarded m .fwdGetM d.owner true, step.took (runs t served), ?_, rfl, rfl, rfl⟩
      rw [step.slice]
      exact Slice.txn_setTxn _ _
    · obtain ⟨s1, taken, runs⟩ := upg_runs mem home lt idle ready kind mine st held
      refine ⟨fun alone => ?_, fun shared => ?_⟩
      · obtain ⟨t, served, step⟩ := taken.upg_alone kind st mine alone
        exact ⟨t, step.took (runs t served), step.hline_set⟩
      · obtain ⟨t, served, step⟩ := taken.upg_shared kind st mine shared room
        refine ⟨t, invalidating m (s.otherSharers m d) m.aux, step.took (runs t served), ?_, rfl, rfl, rfl⟩
        rw [step.slice]
        exact Slice.txn_setTxn _ _
    · obtain ⟨s1, taken, runs⟩ := snoopRd_runs mem home lt idle ready kind inner st held
      obtain ⟨t, served, step⟩ := taken.snoopRd_unowned kind st
      exact ⟨t, step.took (runs t served), step.hline _⟩
    · obtain ⟨s1, taken, runs⟩ := atomFar_runs mem home lt idle ready kind op st held
      obtain ⟨t, a, y, served, step, ty, dst, txn', line, ops, data, dir⟩ := taken.atomFar_unowned kind op st inner
      refine ⟨t, a, step.took (runs t served), ty, dst, txn', line, ops, ?_, ?_⟩
      · rw [step.hline, data]
        rfl
      · rw [step.hline, dir]
        rfl
    · rintro q row kind plain owner
      have run : exec q.2 s = .next ((s.without m).onPut h m) := by
        rcases row with rfl | rfl | rfl <;> exact exec_put rfl mem kind home lt
      have other : m.ty ≠ .putS := by rcases row with rfl | rfl | rfl <;> simp [kind]
      have step := (HomeStep.refl (s.without m) h).put_owner other plain txn owner
      exact ⟨_, step.took run, step.hline_set⟩
    · have step := (HomeStep.refl (s.without m) h).put_sharer plain txn foreign sharer
      exact ⟨_, step.took (exec_put rfl mem kind home lt), step.hline_set⟩
  · intro s h m q e mem home lt kind txn here ty msg line sharers owner puts ahead wait held empty noPut queue x
    have step := (HomeStep.refl (s.without m) h).invAck_last txn ⟨here, ty, msg, sharers, owner, puts, ahead, wait, held⟩ line empty noPut queue
    have run : exec (.invAck m) s = .next ((s.without m).onInvAck h m) := by
      rw [show exec (.invAck m) s = execInvAck m s from rfl, execInvAck, State.homeFor_of_mem mem kind home lt, show m.dst - 0x400 = h by omega]
    obtain ⟨net, -, cores, memory⟩ := step.after
    refine ⟨_, _, run, net, rfl, rfl, rfl, rfl, rfl, rfl, ?_, step.hline_set, cores, memory⟩
    rw [step.slice]
    exact Slice.txn_dropTxn _ _
  · intro s h line x
    refine ⟨?_, ?_⟩
    · rintro e q txn here kind wait msg rfl ty only kept mask present valid st ghost queue - shelf mgmt sliceArm homeArm
      obtain ⟨t, x', run, net, done, after, covered⟩ := exec_memoryData txn ⟨kind, wait, msg, rfl, ty, only, kept, mask⟩ valid
        ⟨shelf, mgmt, present, ghost, sliceArm, homeArm⟩ st queue
      refine ⟨t, _, run, net, rfl, rfl, rfl, rfl, rfl, done, ?_, ?_, ?_⟩
      · rw [after]
        rfl
      · rw [after]
        exact covered
      · rw [after]
        rfl
    · intro v pending idle room queue st moored ghost
      refine ⟨fun clean dirty lax => ?_, fun wants few => ?_⟩
      · exact ebbAction_clean pending idle room queue st moored ghost clean dirty lax
      · exact ebbAction_dirty pending idle room queue st moored ghost wants few

end Sys2Proof.Machine
end

section
/-! SUPPORT. Bytes of one line of HBM that no cache holds: how they are read and written (R316, R431). -/

namespace Sys2Proof.Machine

set_option Elab.async false

/-! ### The piece -/

theorem region_hbm {pa : Nat} (lt : pa < 2 ^ 41) : region pa = .hbm (pa / 2 ^ 31) := if_pos lt

theorem cut_one {a n : Nat} (some : 1 ≤ n) (fits : a % 128 + n ≤ 128) : cut a n = [(a, n)] := by
  rw [cut, pieces, if_neg (by omega)]
  simp only [Nat.min_eq_left (show n ≤ 128 - a % 128 by omega), Nat.sub_self]
  cases n / 128 with
  | zero => rw [pieces, if_pos rfl]
  | succ k => rw [pieces, if_pos rfl]

section
variable {s : State} {a n : Nat}

theorem State.linkLost_hbm (lt : a < 2 ^ 41) : s.linkLost a = false := by
  unfold State.linkLost
  rw [region_hbm lt]

theorem State.Uncached.line (h : s.Uncached a n) {i : Nat} (lt : i < n) : (a + i) / 128 = a / 128 := by
  have := h.range
  omega

theorem State.Uncached.lineByte (h : s.Uncached a n) (c : Nat) {i : Nat} (lt : i < n) : s.lineByte c (a + i) = (s.mem.read (a + i), false) := by
  obtain ⟨line, ghost⟩ := h.slices (s.home c (a / 128))
  obtain ⟨poison, tile⟩ := h.marks (a + i) (by omega) (by omega)
  have far : a + i < 2 ^ 41 := by
    have := h.range
    omega
  have byte : s.memByte (a + i) = (s.mem.read (a + i), false) := by
    simp only [State.memByte, State.memFrom, State.linkLost_hbm far, tile, poison, Bool.or_self, Bool.false_eq_true, if_false, Bool.not_false, if_true]
  unfold State.lineByte
  simp only [h.line lt, line, ghost, SLine.ownerOf, Bool.false_and, Bool.false_eq_true, if_false, Option.isSome_none, byte]

theorem State.Uncached.lineBytes (h : s.Uncached a n) (c : Nat) :
    (List.range n).map (fun i => s.lineByte c (a + i)) = (s.mem.readBytes a n).map (fun b => (b, false)) := by
  rw [Mem.readBytes, List.map_map]
  exact List.map_congr_left fun i hi => h.lineByte c (List.mem_range.1 hi)

theorem map_fst_clean (bs : List Byte) : (bs.map (fun b => (b, false))).map Prod.fst = bs := by
  rw [List.map_map]
  exact List.map_id' bs

theorem any_snd_clean (bs : List Byte) : (bs.map (fun b => (b, false))).any Prod.snd = false := by
  rw [List.any_map]
  exact List.any_eq_false.2 fun _ _ => by simp

theorem State.Uncached.paRead (h : s.Uncached a n) (c : Nat) : s.paRead c a n = .ok (s.mem.readBytes a n) false := by
  have lt : a < 2 ^ 41 := by
    have := h.range
    omega
  have ghost := (h.slices (s.home c (a / 128))).2
  unfold State.paRead
  simp only [region_hbm lt, coherent, Bool.not_true, Bool.false_eq_true, if_false, h.quiet, ghost, Option.isSome_none, Bool.false_and,
    h.lineBytes c, map_fst_clean, any_snd_clean]

theorem State.Uncached.bar4Gather (h : s.Uncached a n) : s.bar4Gather [(a, n)] = .ok (s.mem.readBytes a n) false := by
  rw [State.bar4Gather, h.paRead, Rd.then, State.bar4Gather]
  simp

/-- The one piece of an access to the line, which a write may reach outside the commons and the management frames. -/
theorem State.Uncached.bar4Pieces (h : s.Uncached a n) {port off e : Nat} {vf : Option Nat} {wr : Bool} (first : s.bar4Pa port vf off = some a)
    (last : s.bar4Pa port vf (off + n - 1) = some e) (mapped : s.bar4Mapped vf a = true)
    (may : wr = true → s.isCommons a = false ∧ s.isMgmt a = false) : s.bar4Pieces port vf off n wr = some [(a, n)] := by
  have open_ : (wr && (s.isCommons a || s.isMgmt a)) = false := by
    cases wr with
    | false => rfl
    | true => simp [may rfl]
  unfold State.bar4Pieces
  simp only [first, last, cut_one h.range.1 h.range.2.1, List.all_cons, List.all_nil, mapped, open_, Bool.not_false, Bool.and_self, if_true]

end

/-! ### The write -/

/-- From `s` to `t` memory becomes `m`; besides, only marks and register fields change. -/
def Stored (s t : State) (m : Mem) : Prop := t = { s with mem := m, regs := t.regs, poison := t.poison }

theorem Stored.refl (s : State) : Stored s s s.mem := rfl

section
variable {base s t : State} {m : Mem}

theorem Stored.mem (h : Stored base s m) : s.mem = m := by
  unfold Stored at h
  rw [h]

theorem Stored.counted {cls inst : Nat} (h : Stored base s m) (k : Counted s t cls inst) : Stored base t m := by
  unfold Stored at *
  rw [k.rest]
  conv_lhs => rw [h]

theorem Stored.count (h : Stored base s m) (cls inst code n : Nat) : Stored base (s.count cls inst code n) m := h.counted (s.count_counted _ _ _ _)

theorem Stored.setPoison (h : Stored base s m) (pa : Nat) (b : Bool) : Stored base (s.setPoison pa b) m := by
  unfold Stored at *
  conv_lhs => rw [h]
  rfl

theorem Stored.ite {p : Prop} [Decidable p] (h : Stored base s m) (k : Stored base t m) : Stored base (if p then s else t) m := by
  split <;> assumption

theorem stored_foldl {α : Type} {f : State → α → State} (hf : ∀ s x, Stored base s m → Stored base (f s x) m) (l : List α) (h : Stored base s m) :
    Stored base (l.foldl f s) m := by
  induction l generalizing s with
  | nil => exact h
  | cons x l ih => exact ih (hf _ _ h)

theorem Stored.countWrites (h : Stored base s m) (line full part : Nat) : Stored base (s.countWrites line full part) m := by
  unfold State.countWrites
  refine stored_foldl (fun s i h => ?_) _ h
  extract_lets f
  refine h.ite ?_
  split
  · exact (h.count _ _ _ _).count _ _ _ _
  · exact h

theorem Stored.memPut (h : Stored base s m) {pa : Nat} (lt : pa < 2 ^ 41) (bs : List Byte) (poison : Bool) :
    Stored base (s.memPut pa bs poison) (m.writeBytes pa bs) := by
  unfold State.memPut
  simp only [State.linkLost_hbm lt, Bool.false_eq_true, if_false]
  refine stored_foldl (fun s i h => ?_) _ ?_
  · exact h.ite ((h.setPoison _ _).ite ((h.setPoison _ _).ite h))
  · rw [h.mem]
    unfold Stored at *
    conv_lhs => rw [h]

/-- A line that nothing holds is not recalled. -/
theorem State.recallLine_unheld {line : Nat} (c : Nat) (cores : ∀ p ∈ s.cores, (p.2.line line).st = .i) (slice : (s.slice (s.home c line)).line line = {}) :
    s.recallLine c line = s := by
  have none : ∀ l : List (Nat × Core), (∀ p ∈ l, (p.2.line line).st = .i) → ∀ f : State → Nat × Core → State,
      (∀ u p, (p.2.line line).st = .i → f u p = u) → l.foldl f s = s := by
    intro l idle f still
    induction l with
    | nil => rfl
    | cons p l ih => rw [List.foldl_cons, still _ _ (idle p List.mem_cons_self), ih fun q hq => idle q (List.mem_cons_of_mem _ hq)]
  unfold State.recallLine
  rw [none s.cores cores _ fun u p idle => if_pos idle]
  simp only [slice, Bool.false_eq_true, if_false]

theorem State.ghostWrite_none {line : Nat} (c : Nat) (ghost : (s.slice (s.home c line)).ghost line = none) : s.ghostWrite c line = s := by
  unfold State.ghostWrite
  rw [if_pos (by rw [ghost]; rfl)]

end

/-- The part of the bytes `bs` from `line * 128 + o` on that lies in sector `i`, written to memory. -/
def Mem.writePart (m : Mem) (line o : Nat) (bs : List Byte) (i : Nat) : Mem :=
  if min (o + bs.length) (32 * i + 32) ≤ max o (32 * i) then m
  else m.writeBytes (line * 128 + max o (32 * i)) ((bs.drop (max o (32 * i) - o)).take (min (o + bs.length) (32 * i + 32) - max o (32 * i)))

theorem Mem.read_writePart (m : Mem) (line o : Nat) (bs : List Byte) (i x : Nat) :
    (m.writePart line o bs i).read x =
      if line * 128 + max o (32 * i) ≤ x ∧ x < line * 128 + min (o + bs.length) (32 * i + 32) then bs.getD (x - (line * 128 + o)) 0 else m.read x := by
  unfold Mem.writePart
  split
  · rw [if_neg (by omega)]
  · next some =>
    have len : ((bs.drop (max o (32 * i) - o)).take (min (o + bs.length) (32 * i + 32) - max o (32 * i))).length =
        min (o + bs.length) (32 * i + 32) - max o (32 * i) := by
      rw [List.length_take, List.length_drop]
      omega
    rw [Mem.read_writeBytes, len]
    refine ite_congr (by apply propext; omega) (fun inside => ?_) fun _ => rfl
    simp only [List.getD_eq_getElem?_getD, List.getElem?_take, List.getElem?_drop]
    rw [if_pos (by omega)]
    congr 2
    omega

/-- The parts of all four sectors are the bytes. -/
theorem Mem.read_writeParts (m : Mem) (line o : Nat) (bs : List Byte) (k x : Nat) :
    ((List.range k).foldl (fun m i => m.writePart line o bs i) m).read x =
      if line * 128 + o ≤ x ∧ x < line * 128 + min (o + bs.length) (32 * k) then bs.getD (x - (line * 128 + o)) 0 else m.read x := by
  induction k with
  | zero => rw [if_neg (by omega)]; rfl
  | succ k ih =>
    rw [List.range_succ, List.foldl_append, List.foldl_cons, List.foldl_nil, Mem.read_writePart, ih]
    by_cases here : line * 128 + max o (32 * k) ≤ x ∧ x < line * 128 + min (o + bs.length) (32 * k + 32)
    · rw [if_pos here, if_pos (by omega)]
    · rw [if_neg here]
      exact if_congr (by omega) rfl rfl

section
variable {base s : State} {a n : Nat}

theorem Stored.writeParts (h : Stored base s base.mem) {line o : Nat} (lt : line * 128 + 128 ≤ 2 ^ 41) (bs : List Byte) (poison : Bool)
    (slice : ∀ k, (base.slice k).line line = {}) (k home : Nat) (le : k ≤ 4) (f : State → Nat → State)
    (put : ∀ u i, i < 4 → (u.slice home).line line = {} → f u i =
      if min (o + bs.length) (32 * i + 32) ≤ max o (32 * i) then u
      else u.memPut (line * 128 + max o (32 * i)) ((bs.drop (max o (32 * i) - o)).take (min (o + bs.length) (32 * i + 32) - max o (32 * i))) poison) :
    Stored base ((List.range k).foldl f s) ((List.range k).foldl (fun m i => m.writePart line o bs i) base.mem) := by
  induction k with
  | zero => exact h
  | succ k ih =>
    have before := ih (by omega)
    rw [List.range_succ, List.foldl_append, List.foldl_append, List.foldl_cons, List.foldl_nil, List.foldl_cons, List.foldl_nil]
    have unheld : (((List.range k).foldl f s).slice home).line line = {} := by
      have same : ((List.range k).foldl f s).slice home = base.slice home := by
        unfold Stored at before
        rw [before]
        rfl
      rw [same, slice]
    rw [put _ k (by omega) unheld, Mem.writePart]
    split
    · exact before
    · exact before.memPut (by omega) _ _

theorem Stored.slice {m : Mem} (h : Stored base s m) (k : Nat) : s.slice k = base.slice k := by
  unfold Stored at h
  rw [h]
  rfl

theorem Stored.cores {m : Mem} (h : Stored base s m) : s.cores = base.cores := by
  unfold Stored at h
  rw [h]

/-- A write of bytes of a line that no cache holds goes to memory. -/
theorem State.Uncached.linePut (h : base.Uncached a n) (counted : Stored base s base.mem) (c : Nat) {bs : List Byte} (len : bs.length = n) (poison : Bool) :
    ∃ m, Stored base (s.linePut c a bs poison) m ∧ ∀ x, m.read x = if a ≤ x ∧ x < a + n then bs.getD (x - a) 0 else base.mem.read x := by
  obtain ⟨some, fits, low⟩ := h.range
  refine ⟨(List.range 4).foldl (fun m i => m.writePart (a / 128) (a % 128) bs i) base.mem, ?_,
    fun x => (Mem.read_writeParts base.mem (a / 128) (a % 128) bs 4 x).trans ?_⟩
  · unfold State.linePut
    extract_lets line o n' home s1 s2 down whole s3
    have counts : Stored base s1 base.mem := ((((counted.count _ _ _ _).count _ _ _ _).count _ _ _ _).count _ _ _ _).count _ _ _ _
    have clear : s2 = s1 := by
      simp only [s2]
      rw [State.recallLine_unheld c (by rw [counts.cores]; exact h.cores) (by rw [counts.slice]; exact (h.slices _).1),
        State.ghostWrite_none c (by rw [counts.slice]; exact (h.slices _).2)]
    have written : Stored base s3 base.mem := by
      simp only [s3]
      rw [clear]
      exact counts.countWrites _ _ _
    refine Stored.writeParts written (line := line) (o := o) (by omega) bs poison (fun k => (h.slices k).1) 4 home le_rfl _ fun u i _ unheld => ?_
    simp only [unheld, Bool.false_and, Bool.not_false, Bool.true_or, if_true, Bool.false_eq_true, if_false]
    rfl
  · rw [show a / 128 * 128 + a % 128 = a by omega]
    exact if_congr (by omega) rfl rfl

end

end Sys2Proof.Machine
end

section
/-! SUPPORT. What a read by a host leaves at the line's home: nothing that was said is taken back (R264, R266). -/

namespace Sys2Proof.Machine

set_option Elab.async false

/-- What has been said to the host stands. -/
def OutGrows (a s : State) : Prop := a.hs.out <+: s.hs.out

section
variable {a s t : State}

theorem OutGrows.refl (s : State) : OutGrows s s := List.prefix_refl _

theorem OutGrows.same (h : OutGrows a s) (hs : t.hs = s.hs) : OutGrows a t := by
  unfold OutGrows
  rwa [hs]

theorem OutGrows.ite {p : Prop} [Decidable p] (h : OutGrows a s) (k : OutGrows a t) : OutGrows a (if p then s else t) := by
  split <;> assumption

theorem outGrows_foldl {α : Type} {f : State → α → State} (hf : ∀ s x, OutGrows a s → OutGrows a (f s x)) (l : List α) (h : OutGrows a s) :
    OutGrows a (l.foldl f s) := by
  induction l generalizing s with
  | nil => exact h
  | cons x l ih => exact ih (hf _ _ h)

theorem OutGrows.setFlds (h : OutGrows a s) (cls inst : Nat) (l : List (Fld × Nat)) : OutGrows a (s.setFlds cls inst l) :=
  outGrows_foldl (f := fun s (p : Fld × Nat) => s.setFld cls inst p.1 p.2) (fun _ _ h => h.same rfl) l h

theorem OutGrows.count (h : OutGrows a s) (cls inst code n : Nat) : OutGrows a (s.count cls inst code n) :=
  h.same (by rw [(s.count_counted cls inst code n).rest])

theorem OutGrows.modSlice (h : OutGrows a s) (k : Nat) (f : Slice → Slice) : OutGrows a (s.modSlice k f) := h.same rfl
theorem OutGrows.setSlice (h : OutGrows a s) (k : Nat) (x : Slice) : OutGrows a (s.setSlice k x) := h.same rfl
theorem OutGrows.setHline (h : OutGrows a s) (k l : Nat) (x : SLine) : OutGrows a (s.setHline k l x) := h.same rfl
theorem OutGrows.modCore (h : OutGrows a s) (c : Nat) (f : Core → Core) : OutGrows a (s.modCore c f) := h.same rfl
theorem OutGrows.setPoison (h : OutGrows a s) (pa : Nat) (b : Bool) : OutGrows a (s.setPoison pa b) := h.same rfl

theorem OutGrows.memCheck (h : OutGrows a s) (line need : Nat) (ue : Bool) : OutGrows a (s.memCheck line need ue) :=
  List.IsPrefix.trans h ((Noted.refl s).memCheck line need ue).out

theorem OutGrows.fetch (h : OutGrows a s) (k line need : Nat) (ue : Bool) : OutGrows a (s.fetch k line need ue) :=
  (h.memCheck _ _ _).setHline _ _ _

theorem OutGrows.memPut (h : OutGrows a s) (pa : Nat) (bs : List Byte) (poison : Bool) : OutGrows a (s.memPut pa bs poison) := by
  unfold State.memPut
  extract_lets n s1
  exact h.ite (outGrows_foldl (fun _ _ h => h.ite ((h.setPoison _ _).ite ((h.setPoison _ _).ite h))) _ (h.same rfl))

theorem OutGrows.countWrites (h : OutGrows a s) (line full part : Nat) : OutGrows a (s.countWrites line full part) := by
  unfold State.countWrites
  refine outGrows_foldl (fun s i h => ?_) _ h
  extract_lets f
  refine h.ite ?_
  split
  · exact (h.count _ _ _ _).count _ _ _ _
  · exact h

theorem OutGrows.sectorDown (h : OutGrows a s) (c line sec : Nat) (data : Mem) (poison : Bool) : OutGrows a (s.sectorDown c line sec data poison) := by
  unfold State.sectorDown
  exact (h.modSlice _ _).ite ((h.countWrites _ _ _).memPut _ _ _)

theorem OutGrows.recallLine (h : OutGrows a s) (c line : Nat) : OutGrows a (s.recallLine c line) := by
  unfold State.recallLine
  extract_lets s1 home x
  have cores : OutGrows a s1 := by
    refine outGrows_foldl (fun s p h => ?_) _ h
    extract_lets l s2
    exact h.ite (OutGrows.modCore (outGrows_foldl (fun _ _ h => (h.sectorDown _ _ _ _ _).ite h) _ h) _ _)
  exact (cores.modSlice _ _).ite cores

theorem OutGrows.writeDown (h : OutGrows a s) (k line : Nat) : OutGrows a (s.writeDown k line) := by
  unfold State.writeDown
  exact ((outGrows_foldl (fun _ _ h => h.memPut _ _ _) _ h).countWrites _ _ _).setHline _ _ _

theorem OutGrows.dropLine (h : OutGrows a s) (c k line : Nat) : OutGrows a (s.dropLine c k line) := by
  unfold State.dropLine
  exact (((OutGrows.ite h (((h.count _ _ _ _).count _ _ _ _).count _ _ _ _)).recallLine _ _).writeDown _ _).setHline _ _ _

theorem OutGrows.claimWay (h : OutGrows a s) (k : Nat) (m : Msg) (way : Nat) : OutGrows a (s.claimWay k m way) := by
  unfold State.claimWay
  exact (((h.modSlice _ _).modSlice _ _).count _ _ _ _).ite (h.modSlice _ _)

theorem OutGrows.findWay (h : OutGrows a s) (k line : Nat) : OutGrows a (s.findWay k line).2 := by
  unfold State.findWay
  dsimp only
  split
  · exact h
  · split
    · exact h.setSlice _ _
    · split
      · exact h.setSlice _ _
      · exact h

theorem OutGrows.makeRoom (h : OutGrows a s) (k : Nat) (m : Msg) : OutGrows a (s.makeRoom k m) := by
  have found := h.findWay k m.line
  unfold State.makeRoom
  split
  · next e =>
    rw [e] at found
    exact found.claimWay _ _ _
  · next e =>
    rw [e] at found
    exact found.ite ((found.dropLine _ _ _).claimWay _ _ _)
  · next e =>
    rw [e] at found
    exact found.ite ((found.dropLine _ _ _).claimWay _ _ _)
  · next e =>
    rw [e] at found
    exact found

theorem OutGrows.reread (h : OutGrows a s) (k line src : Nat) (strict : Bool) : OutGrows a (s.reread k line src strict) := by
  unfold State.reread
  exact (h.count _ _ _ _).ite ((h.count _ _ _ _).setFlds _ _ _)

theorem OutGrows.snoopAt (h : OutGrows a s) (node c line mask : Nat) (alloc : Bool) : OutGrows a (s.snoopAt node c line mask alloc) := by
  unfold State.snoopAt
  extract_lets home s1 x strict s2 ghost s3 s4
  have accepted : OutGrows a s1 := (h.count _ _ _ _).count _ _ _ _
  have missed : OutGrows a s2 := accepted.count _ _ _ _
  have reread : OutGrows a s3 := (missed.reread _ _ _ _).ite missed
  have room : OutGrows a s4 := reread.makeRoom _ _
  exact (((accepted.count _ _ _ _).setHline _ _ _).fetch _ _ _ _).ite (reread.ite ((reread.ite (reread.memCheck _ _ _)).ite
    ((room.fetch _ _ _ _).ite (room.memCheck _ _ _))))

/-- A host's read takes back nothing that was said. -/
theorem OutGrows.noteRead (h : OutGrows a s) (node c pa n : Nat) (alloc : Bool) : OutGrows a (s.noteRead node c pa n alloc) := by
  unfold State.noteRead
  split
  · exact h.count _ _ _ _
  · exact (h.snoopAt _ _ _ _ _).ite h

end

end Sys2Proof.Machine
end

section
/-! SUPPORT. AtomicOps of a host: what is stored (Table 7-3, R431). -/

namespace Sys2Proof.Machine

set_option Elab.async false

/-- The format of an AtomicOp of a host. -/
def hostFmt (n : Nat) : Fmt := if n = 4 then .u32 else .i64

theorem hostFmt_bits {n : Nat} (h : n = 4 ∨ n = 8) : 2 ^ (hostFmt n).regBits = 256 ^ n := by
  rcases h with rfl | rfl <;> rfl

/-- FetchAdd, Swap and CAS of an old value. -/
def hostAtom (op : AOp) (n old v w new : Nat) : Prop :=
  (op = .add ∧ new = (old + v) % 256 ^ n) ∨ (op = .xchg ∧ new = v % 256 ^ n) ∨ (op = .cas ∧ new = if old = v % 256 ^ n then w % 256 ^ n else old)

theorem atomApply_add {n : Nat} (h : n = 4 ∨ n = 8) (old v w : Nat) : atomApply .add (hostFmt n) old v w = (old + v) % 256 ^ n := by
  rcases h with rfl | rfl
  · show ofInt 32 (((old % 2 ^ 32 % 2 ^ 32 : Nat) : Int) + ((v % 2 ^ 32 % 2 ^ 32 : Nat) : Int)) = _
    rw [← Nat.cast_add, ofInt_natCast]
    omega
  · show ofInt 64 (sext 64 (old % 2 ^ 64) + sext 64 (v % 2 ^ 64)) = _
    have sum : ofInt 64 (sext 64 (old % 2 ^ 64) + sext 64 (v % 2 ^ 64)) = ofInt 64 ((old % 2 ^ 64 + v % 2 ^ 64 : Nat) : Int) := by
      refine ofInt_congr ?_
      rw [Int.add_emod, sext_emod, sext_emod, ← Int.add_emod, Nat.cast_add]
    rw [sum, ofInt_natCast]
    omega

/-- An AtomicOp of a host stores what the operation says of the old value. -/
theorem atomApply_host {n : Nat} (size : n = 4 ∨ n = 8) {op : AOp} {old v w new : Nat} (lt : old < 256 ^ n) (what : hostAtom op n old v w new) :
    atomApply op (hostFmt n) old v w = new := by
  have bits := hostFmt_bits size
  rcases what with ⟨rfl, rfl⟩ | ⟨rfl, rfl⟩ | ⟨rfl, rfl⟩
  · exact atomApply_add size old v w
  · rw [← bits]
    rfl
  · rw [← bits, ← Nat.mod_eq_of_lt (bits ▸ lt : old < 2 ^ (hostFmt n).regBits)]
    simp only [atomApply, Nat.mod_mod]

/-! ### Bytes and numbers -/

theorem Mem.readLE_lt (m : Mem) (a n : Nat) : m.readLE a n < 256 ^ n := by
  induction n generalizing a with
  | zero => exact Nat.one_pos
  | succ n ih =>
    have byte := (m.read a).isLt
    have rest := ih (a + 1)
    rw [Mem.readLE, pow_succ]
    omega

theorem Mem.writeBytes_leBytes (m : Mem) (a n v : Nat) : m.writeBytes a (leBytes n v) = m.writeLE a n v := by
  induction n generalizing m a v with
  | zero => rfl
  | succ n ih => exact ih _ _ _

theorem leBytes_length (n v : Nat) : (leBytes n v).length = n := by
  induction n generalizing v with
  | zero => rfl
  | succ n ih => exact congrArg (· + 1) (ih _)

/-- A number written as bytes is read back. -/
theorem Mem.readLE_of_leBytes {m m' : Mem} {a n v : Nat} (lt : v < 256 ^ n)
    (wrote : ∀ x, m'.read x = if a ≤ x ∧ x < a + n then (leBytes n v).getD (x - a) 0 else m.read x) : m'.readLE a n = v := by
  have same : ∀ x, m'.read x = (m.writeLE a n v).read x := fun x => by
    rw [wrote, ← Mem.writeBytes_leBytes, Mem.read_writeBytes, leBytes_length]
  rw [← leNat_map_read, List.map_congr_left (fun i _ => same (a + i)), leNat_map_read, Mem.readLE_writeLE, Nat.mod_eq_of_lt lt]

end Sys2Proof.Machine
end

section
/-! PROOF. What a host reads and writes through BAR4 (O44). -/

namespace Sys2Proof.Machine

set_option Elab.async false

section
variable {s : State} {port : Nat} {vf : Option Nat} {off n rid a e : Nat}

/-! ### BAR4 -/

/-- A BAR4 access of bytes of one line that no cache holds. -/
structure Bar4Reach (s : State) (port : Nat) (vf : Option Nat) (off n a e : Nat) : Prop where
  up : s.hostPortUp port = true
  first : s.bar4Pa port vf off = some a
  last : s.bar4Pa port vf (off + n - 1) = some e
  mapped : s.bar4Mapped vf a = true
  free : s.Uncached a n

theorem Bar4Reach.pieces (h : Bar4Reach s port vf off n a e) {wr : Bool} (may : wr = true → s.isCommons a = false ∧ s.isMgmt a = false) :
    s.bar4Pieces port vf off n wr = some [(a, n)] := h.free.bar4Pieces h.first h.last h.mapped may

theorem Bar4Reach.read (h : Bar4Reach s port vf off n a e) (rid : Nat) :
    ∃ t, exec (.bar4Read port vf off n rid) s = .next t ∧ Quiet s t ∧
      ∃ l, t.hs.out = s.hs.out ++ l ++ [{ kind := outBar4, a := rid, b := 0, data := s.mem.readBytes a n }] := by
  obtain ⟨some, fits, -⟩ := h.free.range
  let u := (s.count clsEdge port Ev.EDGE_BAR4_READ 1).noteRead (0x620 + port) 0 a n
  obtain ⟨l, said⟩ : OutGrows s u := ((OutGrows.refl s).count _ _ _ _).noteRead _ _ _ _ _
  refine ⟨u.emit { kind := outBar4, a := rid, b := 0, data := s.mem.readBytes a n }, ?_, ?_, l, ?_⟩
  · rw [show exec (.bar4Read port vf off n rid) s = execBar4Read port vf off n rid s from rfl, execBar4Read, if_neg]
    · simp only [h.pieces (wr := false) (fun k => absurd k (by decide)), h.free.bar4Gather]
      rfl
    · rw [h.up, decide_eq_false (by omega), decide_eq_false (by omega)]
      decide
  · exact State.emit_quiet (State.noteRead_quiet (State.count_quiet (Quiet.refl s)))
  · rw [said]
    rfl

theorem Bar4Reach.write (h : Bar4Reach s port vf off n a e) (rid : Nat) (own : s.isCommons a = false) (free : s.isMgmt a = false)
    {data : List Byte} (len : data.length = n) :
    ∃ t, exec (.bar4Write port vf off data rid) s = .next t ∧
      (∀ x, t.mem.read x = if a ≤ x ∧ x < a + n then data.getD (x - a) 0 else s.mem.read x) ∧
      t = { s with mem := t.mem, regs := t.regs, poison := t.poison } := by
  obtain ⟨some, fits, -⟩ := h.free.range
  obtain ⟨m, stored, read⟩ := h.free.linePut ((Stored.refl s).count clsEdge port Ev.EDGE_BAR4_WRITE 1) 0 len false
  refine ⟨_, ?_, fun x => by rw [stored.mem]; exact read x, by rw [stored.mem]; exact stored⟩
  have whole : (data.drop 0).take n = data := List.take_of_length_le (by simp [len])
  rw [show exec (.bar4Write port vf off data rid) s = execBar4Write port vf off data rid s from rfl, execBar4Write, if_neg]
  · simp only [len, h.pieces (wr := true) (fun _ => ⟨own, free⟩), List.any_cons, List.any_nil, h.free.quiet, Bool.or_self, Bool.false_eq_true,
      if_false, List.foldl_cons, List.foldl_nil, whole]
  · have full : data.isEmpty = false := by
      rw [List.isEmpty_eq_false_iff]
      rintro rfl
      simp at len
      omega
    rw [h.up, full, decide_eq_false (by omega)]
    decide

theorem Bar4Reach.atomic (h : Bar4Reach s port vf off n a e) (rid : Nat) (own : s.isCommons a = false) (free : s.isMgmt a = false) {op : AOp}
    {v w new : Nat} (size : n = 4 ∨ n = 8) (aligned : off % n = 0) (what : hostAtom op n (s.mem.readLE a n) v w new) :
    ∃ t, exec (.bar4AtomicOp port vf off op n v w rid) s = .next t ∧ t.mem.readLE a n = new ∧
      (∀ x, ¬(a ≤ x ∧ x < a + n) → t.mem.read x = s.mem.read x) ∧
      t.hs = (s.said { kind := outBar4, a := rid, b := 0, data := s.mem.readBytes a n }).hs ∧ t.cores = s.cores ∧ t.slices = s.slices := by
  have value := atomApply_host size (s.mem.readLE_lt a n) what
  have small : new < 256 ^ n := by
    have positive : 0 < 256 ^ n := Nat.pos_of_ne_zero (by positivity)
    have old := s.mem.readLE_lt a n
    rcases what with ⟨-, rfl⟩ | ⟨-, rfl⟩ | ⟨-, rfl⟩
    · exact Nat.mod_lt _ positive
    · exact Nat.mod_lt _ positive
    · split
      · exact Nat.mod_lt _ positive
      · exact old
  obtain ⟨m, stored, read⟩ := h.free.linePut (Stored.refl s) 0 (leBytes_length n new) false
  have supported : (op == .add || op == .xchg || op == .cas) = true := by
    rcases what with ⟨rfl, -⟩ | ⟨rfl, -⟩ | ⟨rfl, -⟩ <;> rfl
  have width : (n == 4 || n == 8) = true := by rcases size with rfl | rfl <;> rfl
  have old : (List.range n).map (fun i => s.lineByte 0 (a + i)) = (s.mem.readBytes a n).map (fun b => (b, false)) := h.free.lineBytes 0
  have number : leNat (s.mem.readBytes a n) = s.mem.readLE a n := leNat_map_read _ _ _
  refine ⟨(s.linePut 0 a (leBytes n new) false).emit { kind := outBar4, a := rid, b := 0, data := s.mem.readBytes a n }, ?_, ?_, fun x out => ?_, ?_, ?_, ?_⟩
  · rw [show exec (.bar4AtomicOp port vf off op n v w rid) s = execBar4AtomicOp port vf off op n v w rid s from rfl, execBar4AtomicOp]
    simp only [h.up, supported, width, aligned, h.pieces (wr := true) (fun _ => ⟨own, free⟩), h.free.quiet, old, map_fst_clean, any_snd_clean, number,
      Bool.not_true, Bool.false_eq_true, if_false, Bool.or_self, ne_eq, not_true_eq_false, decide_false]
    rw [show (if n = 4 then Fmt.u32 else Fmt.i64) = hostFmt n from rfl, value]
    rfl
  · exact Mem.readLE_of_leBytes small fun x => by
      rw [show ((s.linePut 0 a (leBytes n new) false).emit _).mem = (s.linePut 0 a (leBytes n new) false).mem from rfl, stored.mem]
      exact read x
  · rw [show ((s.linePut 0 a (leBytes n new) false).emit _).mem = (s.linePut 0 a (leBytes n new) false).mem from rfl, stored.mem, read, if_neg out]
  · have hs : (s.linePut 0 a (leBytes n new) false).hs = s.hs := by
      unfold Stored at stored
      rw [stored]
    rw [State.emit, hs]
    rfl
  · exact stored.cores
  · unfold Stored at stored
    rw [stored]
    rfl

/-- A read outside the aperture is an Unsupported Request. -/
theorem bar4Read_refused (up : s.hostPortUp port = true) (some : 1 ≤ n) (few : n ≤ 4096) (outside : s.bar4Pa port vf off = none) (rid : Nat) :
    ∃ t, exec (.bar4Read port vf off n rid) s = .next t ∧ CountsOnly (s.said { kind := outUnsupported, a := rid, b := off }) t clsEdge port := by
  have counted := s.count_counted clsEdge port Ev.EDGE_BAR4_READ 1
  refine ⟨(s.count clsEdge port Ev.EDGE_BAR4_READ 1).emit { kind := outUnsupported, a := rid, b := off }, ?_, ?_, counted.sameFields⟩
  · have none : s.bar4Pieces port vf off n false = .none := by
      unfold State.bar4Pieces
      simp only [outside]
    rw [show exec (.bar4Read port vf off n rid) s = execBar4Read port vf off n rid s from rfl, execBar4Read, if_neg]
    · simp only [none]
    · rw [up, decide_eq_false (by omega), decide_eq_false (by omega)]
      decide
  · conv_lhs => rw [State.emit, counted.rest]
    rfl

end

end Sys2Proof.Machine
end

section
/-! PROOF. Translations and snooped lines of a host port, and what a host does to memory (O44). -/

namespace Sys2Proof.Machine

set_option Elab.async false

/-- From `s` to `t` edge ports and register fields change, and messages are said. -/
def PortsOnly (s t : State) : Prop := t = { s with regs := t.regs, hs := { s.hs with edges := t.hs.edges, out := t.hs.out } }

section
variable {base s t : State}

theorem PortsOnly.refl (s : State) : PortsOnly s s := rfl

theorem PortsOnly.counted {cls inst : Nat} (h : PortsOnly base s) (k : Counted s t cls inst) : PortsOnly base t := by
  unfold PortsOnly at *
  rw [k.rest]
  conv_lhs => rw [h]

theorem PortsOnly.modEdge (h : PortsOnly base s) (port : Nat) (f : Edge → Edge) : PortsOnly base (s.modEdge port f) := by
  unfold PortsOnly at *
  conv_lhs => rw [State.modEdge, h]
  rfl

theorem PortsOnly.emit (h : PortsOnly base s) (m : OutMsg) : PortsOnly base (s.emit m) := by
  unfold PortsOnly at *
  conv_lhs => rw [State.emit, h]
  rfl

end

/-! ### Invalidations (R428) -/

section
variable {s : State} {port c addr n : Nat}

/-- Whether an outstanding access of a port used a translation of an invalidated range. -/
def State.accUsed (s : State) (port : Nat) (q : Nat × Nat × Nat) : Bool :=
  s.hs.accs.any (fun r => r.port == port && r.bytes != 0 && s.coreCove r.core == q.1 && decide (q.2.1 < r.addr + r.bytes) && decide (r.addr < q.2.1 + q.2.2))

/-- The port without the translations of a range, which it has been asked to forget. -/
def Edge.forget (e : Edge) (c addr n : Nat) : Edge :=
  { e with atc := e.atc.filter (fun t => !(t.1 / 2 ^ 52 == c && decide (addr / 4096 ≤ t.1 % 2 ^ 52) && decide (t.1 % 2 ^ 52 * 4096 < addr + n)))
           invals := e.invals ++ [(c, addr, n)] }

theorem exec_atsInvalidateRequest (up : s.hostPortUp port = true) :
    exec (.atsInvalidateRequest port c addr n) s =
      .next (((s.count clsEdge port Ev.EDGE_ATS_INVAL 1).modEdge port (fun e => e.forget c addr n)).answerInvals port) := by
  rw [show exec (.atsInvalidateRequest port c addr n) s = execAtsInvalidateRequest port c addr n s from rfl, execAtsInvalidateRequest, up]
  rfl

/-- The answers to the one invalidation of a port: at once, unless an access that used it is outstanding. -/
theorem State.answerInvals_one {q : Nat × Nat × Nat} (one : (s.edge port).invals = [q]) :
    s.answerInvals port = if s.accUsed port q then s.modEdge port (fun e => { e with invals := [q] })
      else (s.modEdge port (fun e => { e with invals := [] })).emit { kind := outAts, a := q.2.1, b := q.1 } := by
  have update : ∀ f : Edge → Edge, s.modEdge port f = s.modEdge port (fun _ => f (s.edge port)) := fun _ => rfl
  unfold State.answerInvals
  simp only [one]
  rw [update, update (fun e => { e with invals := [q] }), update (fun e => { e with invals := [] })]
  simp only [one, List.filter_cons, List.filter_nil]
  cases used : s.accUsed port q <;> unfold State.accUsed at used
  · simp only [used, Bool.not_false, Bool.false_eq_true, if_false, if_true, List.foldl_cons, List.foldl_nil]
  · simp only [used, Bool.not_true, Bool.false_eq_true, if_false, if_true, List.foldl_nil]

/-- The edge after the invalidation of a range, none being under way. -/
theorem atsInvalidate_one (up : s.hostPortUp port = true) (idle : (s.edge port).invals = []) :
    ∃ t, exec (.atsInvalidateRequest port c addr n) s = .next t ∧ PortsOnly s t ∧
      (t.edge port).atc = ((s.edge port).forget c addr n).atc ∧ (∀ q, q ≠ port → t.edge q = s.edge q) ∧
      (s.accUsed port (c, addr, n) = false → (t.edge port).invals = [] ∧ t.hs.out = s.hs.out ++ [{ kind := outAts, a := addr, b := c }]) ∧
      (s.accUsed port (c, addr, n) = true → (t.edge port).invals = [(c, addr, n)] ∧ t.hs.out = s.hs.out) := by
  let s1 := s.count clsEdge port Ev.EDGE_ATS_INVAL 1
  let s2 := s1.modEdge port (fun e => e.forget c addr n)
  have counted : Counted s s1 clsEdge port := s.count_counted _ _ _ _
  have hs : s1.hs = s.hs := by rw [counted.rest]
  have edge : ∀ q, s1.edge q = s.edge q := fun q => by rw [State.edge, hs]; rfl
  have mine : s2.edge port = (s.edge port).forget c addr n := by rw [State.edge_modEdge, edge]
  have one : (s2.edge port).invals = [(c, addr, n)] := by rw [mine, Edge.forget, idle]; rfl
  have used : s2.accUsed port (c, addr, n) = s.accUsed port (c, addr, n) := by
    have se : s2.se = s.se := by rw [show s2.se = s1.se from rfl, counted.rest]
    have cove : ∀ k, s2.coreCove k = s.coreCove k := fun k => by
      rw [State.coreCove, State.kfld, show s2.corePage k = s.corePage k by rw [State.corePage, se]; rfl]
      exact counted.tallied.fld _ _ (f := R.CORE_MAP_COVE) (by decide)
    unfold State.accUsed
    simp only [cove]
    rw [show s2.hs.accs = s.hs.accs by rw [show s2.hs.accs = s1.hs.accs from rfl, hs]]
  have rest : PortsOnly s s2 := ((PortsOnly.refl s).counted counted).modEdge _ _
  refine ⟨s2.answerInvals port, exec_atsInvalidateRequest up, ?_⟩
  rw [State.answerInvals_one one, used]
  cases s.accUsed port (c, addr, n)
  · simp only [Bool.false_eq_true, if_false]
    refine ⟨(rest.modEdge _ _).emit _, ?_, fun q hq => ?_, fun _ => ⟨?_, ?_⟩, fun k => absurd k (by decide)⟩
    · rw [show ((s2.modEdge port (fun e => { e with invals := [] })).emit _).edge port = (s2.modEdge port (fun e => { e with invals := [] })).edge port from rfl,
        State.edge_modEdge, mine]
    · rw [show ((s2.modEdge port (fun e => { e with invals := [] })).emit _).edge q = (s2.modEdge port (fun e => { e with invals := [] })).edge q from rfl,
        State.edge_modEdge_ne _ _ hq, State.edge_modEdge_ne _ _ hq, edge]
    · rw [show ((s2.modEdge port (fun e => { e with invals := [] })).emit _).edge port = (s2.modEdge port (fun e => { e with invals := [] })).edge port from rfl,
        State.edge_modEdge]
    · rw [show ((s2.modEdge port (fun e => { e with invals := [] })).emit { kind := outAts, a := addr, b := c }).hs.out =
        s1.hs.out ++ [{ kind := outAts, a := addr, b := c }] from rfl, hs]
  · simp only [if_true]
    refine ⟨rest.modEdge _ _, ?_, fun q hq => ?_, fun k => absurd k (by decide), fun _ => ⟨?_, ?_⟩⟩
    · rw [State.edge_modEdge, mine]
    · rw [State.edge_modEdge_ne _ _ hq, State.edge_modEdge_ne _ _ hq, edge]
    · rw [State.edge_modEdge]
    · rw [show (s2.modEdge port (fun e => { e with invals := [(c, addr, n)] })).hs.out = s1.hs.out from rfl, hs]

end

/-! ### Completions of translation requests (R428) -/

/-- The port with the answer of a translation request, the oldest of 4,096 entries making room. -/
def Edge.enter (e : Edge) (k v : Nat) : Edge :=
  let l := e.atc.filter (fun t => t.1 != k)
  { e with atc := (if 4096 ≤ l.length then l.drop 1 else l) ++ [(k, v)] }

theorem Edge.mem_enter (e : Edge) (k v : Nat) : (k, v) ∈ (e.enter k v).atc := List.mem_append_right _ (List.mem_singleton.2 rfl)

theorem Edge.enter_value {e : Edge} {k v : Nat} {x : Nat × Nat} (mem : x ∈ (e.enter k v).atc) (key : x.1 = k) : x.2 = v := by
  rcases List.mem_append.1 mem with old | new
  · have old : x ∈ e.atc.filter (fun t => t.1 != k) := by
      split at old
      · exact List.mem_of_mem_drop old
      · exact old
    simpa [key] using (List.mem_filter.1 old).2
  · rw [List.mem_singleton.1 new]

theorem Edge.length_enter (e : Edge) (k v : Nat) : (e.enter k v).atc.length ≤ max 4096 e.atc.length := by
  have few := List.length_filter_le (fun t : Nat × Nat => t.1 != k) e.atc
  unfold Edge.enter
  simp only [List.length_append, List.length_singleton]
  split
  · rw [List.length_drop]
    omega
  · omega

section
variable {s : State} {port q k : Nat}

/-- The completion of a translation request is entered at the port that its tag names. -/
theorem exec_hostCompletion {acc : HostAcc} {data : List Byte} {poison granted : Bool} (up : s.hostPortUp port = true) (lt : k < 2 ^ 60)
    (asked : s.hs.accs.find? (fun r => r.port == port && r.tag == (q + 1) * 2 ^ 60 + k) = some acc) (translation : acc.bytes = 0) :
    exec (.hostCompletion port ((q + 1) * 2 ^ 60 + k) data poison granted) s =
      .next (({ s with hs := { s.hs with
        accs := s.hs.accs.filter (fun r => !(r.port == port && r.tag == (q + 1) * 2 ^ 60 + k)) } } : State).modEdge q (fun e => e.enter k (boolNat granted))) := by
  rw [show exec (.hostCompletion port ((q + 1) * 2 ^ 60 + k) data poison granted) s = execHostCompletion port ((q + 1) * 2 ^ 60 + k) data poison granted s from rfl,
    execHostCompletion]
  simp only [up, asked, translation, Bool.not_true, Bool.false_eq_true, if_false, if_true, State.putAtc]
  rw [show ((q + 1) * 2 ^ 60 + k) / 2 ^ 60 - 1 = q by omega, show ((q + 1) * 2 ^ 60 + k) % 2 ^ 60 = k by omega]
  rfl

end

/-! ### Snoops (R429) -/

/-- The port without a line that the host takes back. -/
def Edge.giveUp (e : Edge) (line : Nat) : Edge := { e with owned := e.owned.filter (fun l => l != line) }

theorem exec_cxlSnoop {s : State} {port line : Nat} (up : (s.edge port).up = true) (cxl : (s.edge port).cxl = true) (idle : s.hs.cmds = []) :
    exec (.cxlSnoop port line) s = .next ((s.modEdge port (fun e => e.giveUp line)).count clsEdge port Ev.EDGE_CXL_SNOOP 1) := by
  have none : ((s.modEdge port (fun e => e.giveUp line)).count clsEdge port Ev.EDGE_CXL_SNOOP 1).hs.cmds = [] := by
    rw [((s.modEdge port (fun e => e.giveUp line)).count_counted clsEdge port Ev.EDGE_CXL_SNOOP 1).rest]
    exact idle
  rw [show exec (.cxlSnoop port line) s = execCxlSnoop port line s from rfl, execCxlSnoop]
  simp only [up, cxl, Bool.not_true, Bool.or_self, Bool.false_eq_true, if_false]
  rw [show (s.modEdge port (fun e => { e with owned := e.owned.filter (fun l => l != line) })) = s.modEdge port (fun e => e.giveUp line) from rfl, none]
  rfl

/-! ### The obligation -/

/-- Settles O44: BAR4 accesses read and write memory that no cache holds; invalidations, completions and snoops change their port alone. -/
theorem hostMemoryAccess : Obligations.HostMemoryAccess := by
  unfold Obligations.HostMemoryAccess
  refine ⟨?_, ?_, ?_, ?_, ?_⟩
  · intro s port vf off n rid a e up first last mapped free
    have reach : Bar4Reach s port vf off n a e := ⟨up, first, last, mapped, free⟩
    refine ⟨reach.read rid, fun own open_ => ⟨fun data len => reach.write rid own open_ len, ?_⟩⟩
    intro op v w size aligned old new what
    exact reach.atomic rid own open_ size aligned what
  · intro s port vf off n rid up some few outside
    exact bar4Read_refused up some few outside rid
  · intro s port c addr n up idle hit used
    obtain ⟨t, run, rest, atc, others, done, waits⟩ := atsInvalidate_one (c := c) (addr := addr) (n := n) up idle
    have any : s.accUsed port (c, addr, n) = true ↔ ∃ r ∈ s.hs.accs, used r := by
      simp [State.accUsed, used, and_assoc]
    refine ⟨t, run, rest, fun x => ?_, others, fun no => done ?_, fun yes => waits (any.2 yes)⟩
    · rw [atc, Edge.forget, List.mem_filter]
      refine and_congr_right fun _ => ?_
      rw [Bool.not_eq_true', Bool.eq_false_iff, ne_eq]
      refine not_congr ?_
      simp only [hit, Bool.and_eq_true, beq_iff_eq, decide_eq_true_eq, and_assoc]
    · rw [Bool.eq_false_iff]
      intro is
      obtain ⟨r, hr, u⟩ := any.1 is
      exact no r hr u
  · intro s port q k acc data poison granted up lt asked translation
    refine ⟨_, exec_hostCompletion up lt asked translation, ?_, ?_, ?_, fun p hp => State.edge_modEdge_ne _ _ hp, fun r hr => ?_, rfl⟩
    · rw [State.edge_modEdge]
      exact Edge.mem_enter _ _ _
    · rw [State.edge_modEdge]
      exact fun x mem key => Edge.enter_value mem key
    · rw [State.edge_modEdge]
      exact Edge.length_enter _ _ _
    · obtain ⟨mem, other⟩ := List.mem_filter.1 hr
      refine ⟨mem, fun ⟨port', tag⟩ => ?_⟩
      simp [port', tag] at other
  · intro s port line up cxl idle
    have counted := (s.modEdge port (fun e => e.giveUp line)).count_counted clsEdge port Ev.EDGE_CXL_SNOOP 1
    have hs : ((s.modEdge port (fun e => e.giveUp line)).count clsEdge port Ev.EDGE_CXL_SNOOP 1).hs = (s.modEdge port (fun e => e.giveUp line)).hs := by
      rw [counted.rest]
    have edge : ∀ q, ((s.modEdge port (fun e => e.giveUp line)).count clsEdge port Ev.EDGE_CXL_SNOOP 1).edge q =
        (s.modEdge port (fun e => e.giveUp line)).edge q := fun q => by rw [State.edge, hs]; rfl
    refine ⟨_, exec_cxlSnoop up cxl idle, ?_, fun q hq => ?_, ?_, counted.sameFields⟩
    · rw [edge, State.edge_modEdge]
      rfl
    · rw [edge, State.edge_modEdge_ne _ _ hq]
    · conv_lhs => rw [counted.rest]
      rw [hs]
      rfl

end Sys2Proof.Machine
end
